-- ==== Sys2Proof/Word.lean ====
section
/-! DEFINITION. Words, bytes and the index types of the units the spec counts (R11, R47, R417, R476, R536, R646, R723,
R805, R820, R831). -/

namespace Sys2Proof

abbrev Byte := BitVec 8
abbrev Word := BitVec 32

/-- Channel CH0 to CH63. -/
abbrev ChanId := Fin 64
/-- Converter tile T0 to T3. -/
abbrev TileId := Fin 4
/-- Precision scan converter PSC0 to PSC15. -/
abbrev PscId := Fin 16
/-- Tirad core C0 to C7. -/
abbrev CoreId := Fin 8
/-- Bamwin port P0 to P3. -/
abbrev PortId := Fin 4
/-- Bramble event channel EVC0 to EVC127. -/
abbrev EvcId := Fin 128
/-- Update group UPD0 to UPD7. -/
abbrev GroupId := Fin 8
/-- TRIG pin. -/
abbrev PinId := Fin 16
/-- Host DMA engine. -/
abbrev DmaId := Fin 8
/-- DDR5 channel. -/
abbrev DdrId := Fin 2
/-- Coefficient set SET0 to SET15 of a channel. -/
abbrev SetId := Fin 16
/-- CLK_CONV cycle of a tick (R19). -/
abbrev Cycle := Fin 50
/-- A die: 0 the core die, 1 + t tile t (R693). -/
abbrev DieId := Fin 5

/-- A sparse map from numbers to values, listed by key in rising order. What an unlisted key reads as is the default of
the operations of Machine/Table.lean, and no entry equals it. -/
abbrev Tbl (α : Type) := List (Nat × α)

end Sys2Proof
end

