-- ==== Sys2Proof/Syntax.lean ====
section
/-! DEFINITION. The commands of the block: one constructor of `Instr` per row of spec/opcode_table.json, in the table's
order, with the operands a sender gives. What only the outside world decides (the codes the fast converters deliver, the
outcome of a training, a frame's bytes, the verdict of a signature check, what a flash holds) is an operand. -/

namespace Sys2Proof

/-- Who issues an access (R557, R610). -/
inductive Req where
  | core (x : CoreId)
  | host
  | fabric
deriving DecidableEq, Repr

/-- The view through which register space is reached (R609). -/
inductive View where
  | priv
  | unpriv
deriving DecidableEq, Repr

/-- The requester and the view of an access to a register that has a row of its own. -/
structure Acc where
  req  : Req
  view : View
deriving DecidableEq, Repr

/-- What the die link brings for one channel in one tick: the three 20-bit codes (R109, R364), whether a coefficient
fetched for its evaluation has an uncorrectable error (R167), and whether its FDAC value misses cycle 42 (R135). -/
structure ChanIn where
  chan    : ChanId
  v       : BitVec 20
  ia      : BitVec 20
  ib      : BitVec 20
  coefEcc : Bool
  lateU   : Bool
deriving DecidableEq, Repr

/-- The registers of a Tirad core, RV32IMAFC (R805, R810): pc, x1 to x31, f0 to f31, and CSRs by number; a CSR that is not listed holds
its reset value. At reset every listed register is zero. [DESIGN CHOICE, log 142] -/
structure CoreRegs where
  pc  : Word := 0
  x   : List Word := List.replicate 31 0
  f   : List Word := List.replicate 32 0
  csr : List (BitVec 12 × Word) := []
deriving DecidableEq, Repr

/-- What the program of a core has done by the end of a tick: the registers it leaves, and whether it stands in wait-for-interrupt.
[DESIGN CHOICE, log 142] -/
structure CoreIn where
  core : CoreId
  regs : CoreRegs
  wfi  : Bool
deriving DecidableEq, Repr

/-- The inputs of one base tick: the channels' codes (an unlisted channel brings three zero codes), for each tile
whether its upward transfer fails its CRC, arrives late, or its downward transfer fails its CRC (R577, R578), and what the programs of
cores have done (an unlisted core keeps what it has). -/
structure TickIn where
  chans   : List ChanIn
  upCrc   : BitVec 4
  upLate  : BitVec 4
  downCrc : BitVec 4
  cores   : List CoreIn := []
deriving DecidableEq, Repr

/-- A unit that can be fenced (R37). -/
inductive FenceUnit where
  | chan (n : ChanId)
  | tile (t : TileId)
  | core (x : CoreId)
  | port (p : PortId)
  | ddr  (x : DdrId)
deriving DecidableEq, Repr

/-- A block that holds a fault frame (R571). -/
inductive Block where
  | sys
  | core (x : CoreId)
  | eng
  | tile (t : TileId)
  | brm
  | fab
  | ode
  | memc
  | host
  | chan (n : ChanId)
deriving DecidableEq, Repr

/-- The three rail registers with a row of their own (R865). -/
inductive RailReg where
  | fs
  | min
  | settle
deriving DecidableEq, Repr

/-- A frame of the fabric (R730). -/
structure Frame where
  typ  : BitVec 4
  dst  : BitVec 12
  src  : BitVec 12
  len  : BitVec 10
  hops : BitVec 6
  priv : Bool
  tag  : BitVec 12
  w2   : BitVec 24
  w3   : BitVec 32
  data : List Byte
deriving DecidableEq, Repr

/-- A frame as it arrives: the port, the frame, its link sequence number, the CRC at its end (R729), and whether its end marker is
valid (R736). -/
structure Rx where
  port  : PortId
  frame : Frame
  lseq  : BitVec 8
  crc   : BitVec 32
  endOk : Bool
deriving DecidableEq, Repr

/-- A READ as it arrives; `late`: its accesses do not complete within 1.6 µs (R749). -/
structure ReadRx where
  rx   : Rx
  late : Bool
deriving DecidableEq, Repr

/-- A clock domain that start-up releases (R679). -/
inductive Domain where
  | serdes
  | memory
  | cores
  | tiles (qualified : BitVec 4)
deriving DecidableEq, Repr

/-- A unit whose clock qualifier can time out (R679). -/
inductive QualUnit where
  | port (p : PortId)
  | pcie
  | ddr  (x : DdrId)
  | tile (t : TileId)
deriving DecidableEq, Repr

/-- The outcome of checking an Emmon image (R685, SYS_BOOT_STS.REASON of R694). -/
inductive ImageVerdict where
  | pass
  | magic
  | header
  | key
  | sig
  | rollback
  | read
deriving DecidableEq, Repr

/-- The temperature monitors of R709: a tile's four sensors or the core die's eight. -/
inductive TempSite where
  | tile (t : TileId)
  | coreDie
deriving DecidableEq, Repr

/-- The supply monitors of R709. -/
inductive SupplySite where
  | tile (t : TileId)
  | core
deriving DecidableEq, Repr

/-- The trim of one tile as its one-time-programmable store holds it: R_PIP, and the bytes of the tile's copies A of
calibration objects and trim records by address (R526, R864). -/
structure TrimImage where
  rsrc : Word
  area : List (Nat × Byte)
deriving DecidableEq, Repr

/-- One access of a transaction-layer packet (R828, R829). -/
inductive Bar where
  | bar0
  | bar2
  | bar4
  /-- The configuration space (R827). -/
  | config
deriving DecidableEq, Repr

/-- A descriptor of a host DMA engine (R831). -/
structure DmaDesc where
  hostAddr : BitVec 64
  devAddr  : Nat
  toHost   : Bool
  irq      : Bool
  len      : Nat
  postOff  : Word
  postVal  : Word
  user     : Word
deriving DecidableEq, Repr

/-- A dictionary request as it reaches the engine (R784, R787): the object, RAW, PRIV, the source and the tag; for a frame
the port and link sequence number with which it arrived, none for a request of the local node; and whether a word of the
dictionary tables that the engine reads for it has an uncorrectable error (R780: the tables' layout is not given). -/
structure DictReq where
  index : BitVec 16
  sub   : BitVec 8
  raw   : Bool
  priv  : Bool
  src   : BitVec 12
  tag   : BitVec 12
  link  : Option (PortId × BitVec 8)
  ecc   : Bool
deriving DecidableEq, Repr

/-- A finding of a patrol or of a reader: the address of a word and whether the error is correctable. -/
structure EccFinding where
  addr        : Nat
  correctable : Bool
deriving DecidableEq, Repr

/-- The commands. Field `a : Acc` is the requester and view of a row that is a register write; `cyc` is the CLK_CONV
cycle of the present tick at which an event falls, `uv` the input of a comparator in microvolts at the pin (R462). -/
inductive Instr where
  | baseTick (inp : TickIn)
  | railSettleEnd (n : ChanId)
  | pwmPeriod (n : ChanId) (cyc : Cycle)
  | offRampComplete (n : ChanId)
  | oscWindowEnd (n : ChanId)
  | leStart (a : Acc) (n : ChanId)
  | leStop (a : Acc) (n : ChanId)
  | leRunEnd (n : ChanId)
  | leDone (n : ChanId)
  | handoverCheck (n : ChanId)
  | autorangeRequest (n : ChanId)
  | brineLineTimeout (n : ChanId)
  | apertureDelayEnd (n : ChanId)
  | apertureEnd (n : ChanId)
  | recordWritten (n : ChanId) (cyc : Cycle)
  | spillMove (n : ChanId)
  | pansRptrWrite (a : Acc) (n : ChanId) (v : Word)
  | brnRptrWrite (a : Acc) (n : ChanId) (v : Word)
  | measGo (a : Acc) (n : ChanId) (aper : BitVec 6)
  | measAbort (a : Acc) (n : ChanId)
  | lineCrossing (t : TileId) (interval : Nat)
  | arm (a : Acc) (n : ChanId)
  | enable (a : Acc) (n : ChanId)
  | disable (a : Acc) (n : ChanId)
  | disarm (a : Acc) (n : ChanId)
  | serviceEnter (a : Acc) (n : ChanId)
  | serviceLeave (a : Acc) (n : ChanId)
  | chnCmdReserved (a : Acc) (n : ChanId) (code : BitVec 4)
  | channelReset (a : Acc) (n : ChanId)
  | unfence (a : Acc) (u : FenceUnit)
  | railWrite (a : Acc) (n : ChanId) (r : RailReg) (v : Word)
  | verify (a : Acc) (n : ChanId) (k : SetId)
  | verifyDone (n : ChanId)
  | invalidate (a : Acc) (n : ChanId) (k : SetId)
  | coefSetWrite (r : Req) (n : ChanId) (k : SetId) (off : BitVec 10) (bytes : List Byte)
  | snap (a : Acc) (n : ChanId)
  | rakeCmdStart (a : Acc) (n : ChanId)
  | rakeCmdStop (a : Acc) (n : ChanId)
  | rakeCmdPause (a : Acc) (n : ChanId)
  | rakeCmdResume (a : Acc) (n : ChanId)
  | rakeCmdJump (a : Acc) (n : ChanId)
  | rakeCmdCheck (a : Acc) (n : ChanId)
  | checkDone (n : ChanId)
  | descriptorTableWrite (r : Req) (n : ChanId) (off : Nat) (bytes : List Byte)
  | pointEnd (n : ChanId)
  | waitEnd (n : ChanId)
  | waitTimeout (n : ChanId)
  | segmentRepetitionEnd (n : ChanId)
  | granuleEnd (n : ChanId)
  | underrunResume (n : ChanId)
  | flush (a : Acc) (n : ChanId)
  | retry (a : Acc) (n : ChanId)
  | strWptrWrite (a : Acc) (n : ChanId) (v : Word)
  | refillMove (n : ChanId) (cyc : Cycle)
  | updGo (a : Acc) (mask : BitVec 8)
  | strobeApply (g : GroupId)
  | pscGo (a : Acc) (m : PscId)
  | pscInjGo (a : Acc) (m : PscId)
  | pscStop (a : Acc) (m : PscId)
  | pscTimer (m : PscId)
  | pscPwmEdge (m : PscId)
  | pscEdgeDelayEnd (m : PscId)
  | pscSettleEnd (m : PscId)
  | pscEntryResult (m : PscId) (samples : List (BitVec 32)) (ovr : Option Bool) (cyc : Cycle)
  | comparatorEdge (n : ChanId) (k : Fin 4) (uv : BitVec 32) (cyc : Cycle)
  | cmpSampleWindow (n : ChanId) (k : Fin 4) (uv : BitVec 32) (cyc : Cycle)
  | clampTrip (n : ChanId) (k : Fin 4) (uv : BitVec 32)
  | clampRelease (n : ChanId)
  | clampReleaseKey (a : Acc) (n : ChanId)
  | calGo (a : Acc) (t : TileId)
  | busAck (a : Acc) (t : TileId)
  | calAbort (a : Acc) (t : TileId)
  | calBusTimeout (t : TileId)
  | calPointSettleEnd (t : TileId)
  | calReadingDone (t : TileId) (psc : List (BitVec 32)) (fast : List (BitVec 20)) (ovr ecc : Bool)
  | calCommit (t : TileId)
  | select (a : Acc) (obj : BitVec 12)
  | calObjectWrite (r : Req) (addr : Nat) (bytes : List Byte)
  | calCoefUpdate (temps : List (BitVec 32)) (ecc : BitVec 4)
  | eventDispatch (c : EvcId)
  | brmFire (a : Acc) (task : BitVec 10) (cyc : Cycle)
  | swfire (a : Acc) (c : EvcId) (cyc : Cycle)
  | evcArm (a : Acc) (c : EvcId)
  | evcDisarm (a : Acc) (c : EvcId)
  | evcConfigWrite (a : Acc) (c : EvcId) (slot : Fin 9) (v : Word)
  | subscriptionWrite (a : Acc) (i : Fin 696) (v : Word)
  | trigIn (p : PinId) (level : Bool) (cyc : Cycle)
  | trigPulseEnd (p : PinId)
  | aliveToggle
  | aliveResume
  | faultClear (a : Acc) (b : Block) (v : Word)
  | faultInject (a : Acc) (b : Block) (v : Word)
  | voteScrub (upsets : List Nat)
  | cfgCrcScan
  | registerWrite (r : Req) (addr : Nat) (bytes : List Byte)
  | stsClear (a : Acc) (off : Nat) (v : Word)
  | guardPairExpire (r : Req)
  | counterHoldExpire (r : Req)
  | accessTimeout (r : Req) (addr : Nat) (isWrite : Bool)
  | svcEnter (a : Acc)
  | svcLeave (a : Acc)
  | aliasSet (r : Req) (off : Nat) (v : Word)
  | aliasClear (r : Req) (off : Nat) (v : Word)
  | aliasToggle (r : Req) (off : Nat) (v : Word)
  | cfgcrcSelWrite (a : Acc) (k : BitVec 7)
  | crcPassDone
  | uncommit (a : Acc)
  | commit (a : Acc)
  | commitDone
  | powerOnReset
  | resetPin
  | resetDriveEnd
  | sequenceStart
  | strapMeasured (sum : Nat)
  | trimLoadDone (d : DieId) (pass : Bool) (img : TrimImage)
  | pllLock
  | pllLockRetry
  | domainRelease (d : Domain)
  | qualifierTimeout (u : QualUnit)
  | imageVerified (v : ImageVerdict) (flash : List Byte)
  | bootJump
  | sysBootDoor (a : Acc) (v : Word)
  | sysChiprst (a : Acc)
  | blockReset (a : Acc) (key : Word)
  | refSrc (a : Acc)
  | refclkLost
  | holdoverTimeout
  | pllUnlock
  | droop (below : BitVec 16)
  | throttleEnd
  | tempMonitor (site : TempSite) (hottest : BitVec 16)
  | supplyExcursion (site : SupplySite) (outside : Bool)
  | clkQual (t : TileId) (lost : Bool)
  | standby (a : Acc)
  | run (a : Acc)
  | standbyReached
  | runReached
  | sleep (a : Acc) (t : TileId)
  | wake (a : Acc) (t : TileId)
  | tileOn (t : TileId)
  | ddrSelfRefresh (x : DdrId)
  | portTrainStart (p : PortId)
  | portUp (p : PortId) (delay : Word)
  | trainingTimeout (p : PortId)
  | retrain (a : Acc) (p : PortId)
  | blockLockLoss (p : PortId)
  | frameForward (rx : Rx)
  | read (rd : ReadRx)
  | write (rx : Rx)
  | reply (rx : Rx)
  | bcastWrite (rx : Rx)
  | harvestDn (rx : Rx) (cyc : Cycle)
  | harvestUp (rx : Rx) (cyc : Cycle)
  | time (rx : Rx) (t1 t2 t3 t4 : Int)
  | discover (rx : Rx)
  | topo (rx : Rx)
  | ack (p : PortId) (lseq : BitVec 8)
  | nak (p : PortId) (lseq : BitVec 8) (room : Bool)
  | retryTimeout (p : PortId) (room : Bool)
  | fabRqWptr (a : Acc) (v : Word)
  | requestSend
  | transactionTimeout (tag : BitVec 12)
  | targetAbsent (p : PortId)
  | readBusyTimeout (tag src : BitVec 12)
  | timeExchange (p : PortId)
  | timeFrameTimeout (p : PortId)
  | timeStep
  | frameLengthGo (a : Acc)
  | frameLengthApply
  | frameStart
  | dictRead (d : DictReq) (room : Nat)
  | dictWrite (d : DictReq) (data : List Byte)
  | dictResult (rx : Rx)
  | fwReply (a : Acc) (abort : Byte)
  | deferredTimeout (tag : BitVec 12)
  | apply (d : DictReq)
  | halt (a : Acc) (x : CoreId)
  | coreHalted (x : CoreId)
  | coreRun (a : Acc) (x : CoreId)
  | restart (a : Acc) (x : CoreId)
  | wdog (x : CoreId)
  | coreKick (a : Acc) (x : CoreId) (v : Word)
  | mtimecmpMatch (x : CoreId) (cmp : BitVec 64)
  | coreUpdGo (a : Acc)
  | updateDone (v : ImageVerdict)
  | sramPatrol (found : List EccFinding)
  | ddrPatrol (x : DdrId) (found : List EccFinding)
  | init (a : Acc) (x : DdrId)
  | ddrTrainingDone (x : DdrId)
  | ddrTrainingTimeout (x : DdrId)
  | hostDmaWptr (a : Acc) (e : DmaId) (v : Word)
  | dmaDescriptor (e : DmaId) (ws : List Word) (data : List Byte) (hostErr : Bool)
  | dmaDone (e : DmaId)
  | tlp (bar : Bar) (off : Nat) (isWrite : Bool) (fbe lbe : BitVec 4) (dwords : List Word)
  | pcieLinkDown
  | xspiGo (a : Acc) (v : Word)
  | xspiDone (data : List Byte)
  | uartRx (b : Byte)
  | uartTx (a : Acc) (b : Byte)
  | loaderPrompt
  | bypass
  | idcode
  | samplePreload
  | extest
  | sysrd
  | dbg
  | trstN
  | pcieLinkUp
  | refclkReturn
  | slewingEnd
deriving DecidableEq, Repr

end Sys2Proof
end

