-- ==== Sys2Proof/Decode.lean ====
section
/-! DEFINITION. The table of commands gives no row a word: a command is a row with its operands, and no bits spell it. -/

namespace Sys2Proof

/-- The command that a word of `nbits` bits spells by the table's bits: none, as no row has any. -/
def decodeTableWord (_nbits _w : Nat) : Option Instr := none

end Sys2Proof
end

