-- ==== Sys2Proof/Config.lean ====
section
/-! DEFINITION. What an implementation fixes and the free values: constants without a body, of which nothing can be
proved but what holds for every value. -/

namespace Sys2Proof.Config

/-- The part is of grade E (R2, R3, R710); otherwise of grade C. [DEDUCED, log 22] -/
opaque gradeE : Bool

/-- Whether a PRBS chip of 1 adds +2 codes and a chip of 0 subtracts them (R226 names no polarity). [DESIGN CHOICE, log 23] -/
opaque prbsOnePlus : Bool

/-- The result of the estimator's fit where it has no solution, by numerator and denominator (R229 gives none).
[DESIGN CHOICE, log 25] -/
opaque leRound : Int → Int → Word

/-- The rounding of the estimator's F32 arithmetic (R229 does not give it): its word is the one before the nearest to the exact value, the
nearest, or the one after it. [DESIGN CHOICE, log 25] -/
opaque leUlp : Int → Int → Fin 3

/-- TIME, and the current and voltage range of FLAGS, in the record of an aperture that is aborted before it has integrated
a sample (R380, R387, R388 name the first and the last integrated sample, of which there is none), by channel, boundary S
and the boundary of the abort. [DESIGN CHOICE, log 26] -/
opaque noSampleTime : Nat → Nat → Nat → BitVec 64
opaque noSampleIrng : Nat → Nat → Nat → BitVec 4
opaque noSampleVrng : Nat → Nat → Nat → BitVec 2

/-- Levels that a calibration step of kind TAPS or IBPATH measures (R500 gives none). [DESIGN CHOICE, log 27] -/
opaque calPoints (kind : Nat) : Nat

/-- A value that a calibration step forms from its readings by a method the spec does not give in full: by kind, number
of the value and readings of its points (Q of VSTD, a quadratic without a root or without three distinct points, the Pip's levels
of TAPS and IBPATH, RNG_P of VRANGE). -/
opaque calOpen (kind which : Nat) (pts : List (List (Int × Int))) : Int

/-- The filter value of a precision conversion whose modulator samples no command has told, by converter and cycle of its result
(the input is outside the device). [DESIGN CHOICE, log 105] -/
opaque pscSample : Nat → Nat → BitVec 32

/-- What the spec leaves open of the PCI Express configuration space (R827): the word at an offset, in words, and where the
PCI Express capability and the extended capability of AER lie, in words. [PRESUMED, log 106] -/
opaque pcieWord : Nat → Word
opaque pcieCap : BitVec 6
opaque pcieAer : BitVec 10

/-- What a training of the PCI Express link with its partner ends at (R827): the generation less 1, and the lanes as a power of two, by
number of the training. [DESIGN CHOICE, log 148] -/
opaque pcieGen : Nat → Fin 4
opaque pcieLanes : Nat → Fin 3

/-- The content that an abandoned firmware update leaves in a core's tightly coupled memory (R826), by offset. [DESIGN CHOICE, log 28] -/
opaque tcmAfter (core off : Nat) : BitVec 8

/-- CLK_PER cycles that mtime counts, before the tiles are released, from one event that shows it to the next (R808; how long start-up
takes is not given), by number of the event. [DESIGN CHOICE, log 143] -/
opaque bootTime : Nat → Nat

/-- The unique identity of the device (R768: trimmed). [DESIGN CHOICE, log 29] -/
opaque uid : BitVec 64

/-- Whether the dictionary engine's queue is full for a request that arrives in a tick after so many others that it can still hold
(R775; how long it takes over a request is not given). [DESIGN CHOICE, log 111] -/
opaque engFull : Nat → Nat → Bool

/-- CODE of SYS_STRAP for a reading in no band, where it is meaningless (R672, R694), by reading. -/
opaque strapAmbig : Nat → BitVec 4

/-- Bytes of a Harvest image or payload that no entry covers, or whose entry has no value, by tick and offset (R797, R800).
[DESIGN CHOICE, log 30] -/
opaque harvestByte : Nat → Nat → BitVec 8

/-- When in its tick a TIME frame goes out, in units of 2^-16 ns, by port and tick, and the partner's times that it carries before a TIME
frame has come from the partner, by port, tick and byte (R731). [DESIGN CHOICE, log 31] -/
opaque timeOff : Nat → Nat → Nat
opaque timeByte : Nat → Nat → Nat → BitVec 8

/-- The times of action that R863 leaves open within their bounds (log 125): whether ALIVE still makes a transition after its stop, by
tick (R595); after how many boundaries a core that is asked to wake runs, by tick and core (R716); whether the scrub visits a
voted register, by register and tick (R632). -/
opaque aliveRuns : Nat → Bool
opaque wakeDelay : Nat → Nat → Fin 5
opaque scrubs : Nat → Nat → Bool

/-- Whether a link delay that falls between two picoseconds is rounded up (R756, FAB_DELAY of R768), by twice its value. -/
opaque delayUp : Int → Bool

end Sys2Proof.Config
end

