-- ==== Sys2Proof/Machine/Arith.lean ====
section
/-! DEFINITION. The numbers of the engine: rounding half to even, symmetric saturation, F32 values, coefficients and the
multiply-accumulate of R108 to R121, CRC-32C (R160) and the sine table of the oscillator (R354). -/

namespace Sys2Proof.Machine

/-- `a / b` rounded to an integer, half to even; `b` positive (a zero divisor gives 0). -/
def rne (a b : Int) : Int :=
  let q := a / b
  let r := a % b
  if b ≤ 0 then 0
  else if 2 * r < b then q
  else if 2 * r > b then q + 1
  else if q % 2 = 0 then q else q + 1

/-- Saturation to the symmetric range of `m`. -/
def satTo (m v : Int) : Int := if v > m then m else if v < -m then -m else v

/-- The greatest 32-bit value of the engine, 2^31 − 1 (R110). -/
def max32 : Int := 2147483647

/-- R110: a 32-bit result of the engine. -/
def sat32 (v : Int) : Int := satTo max32 v

/-- Bits `hi` down to `lo` of a word. -/
def bitsOf (w hi lo : Nat) : Nat := (w / 2 ^ lo) % 2 ^ (hi + 1 - lo)

/-- One bit of a word. -/
def bitOf (w i : Nat) : Bool := (w / 2 ^ i) % 2 = 1

/-- The signed value of a 32-bit word. -/
def sgn32 (w : Nat) : Int := if w < 2147483648 then (w : Int) else (w : Int) - 4294967296

/-- The 32-bit word of a signed value. -/
def word32 (v : Int) : Word := BitVec.ofInt 32 v

/-- One bit as a number. -/
def b2n (b : Bool) : Nat := if b then 1 else 0

/-- Counters that hold at 0xFFFF_FFFF. -/
def holdAdd (c n : Nat) : Nat := if c + n > 4294967295 then 4294967295 else c + n

/-- Counters that wrap. -/
def wrapAdd (c n : Nat) : Nat := (c + n) % 4294967296

/-- The little-endian value of a list of bytes. -/
def leNat : List Byte → Nat
  | [] => 0
  | b :: r => b.toNat + 256 * leNat r

/-- The `n` little-endian bytes of a value. -/
def leBytes : Nat → Nat → List Byte
  | 0, _ => []
  | n + 1, v => BitVec.ofNat 8 v :: leBytes n (v / 256)

/-! F32 values. A finite value is an integer number of 2^-149, which every F32 is exactly. -/

/-- What an F32 word stands for. -/
inductive FVal where
  | nan
  | inf (neg : Bool)
  | fin (v : Int)
deriving DecidableEq, Repr

/-- The value of an F32 word. -/
def f32 (w : Nat) : FVal :=
  let neg := bitOf w 31
  let e := bitsOf w 30 23
  let m := bitsOf w 22 0
  if e = 255 then (if m = 0 then .inf neg else .nan)
  else
    let a : Nat := if e = 0 then m else (m + 8388608) * 2 ^ (e - 1)
    .fin (if neg then -(a : Int) else (a : Int))

/-- The finite value of a word, 0 for a NaN or an infinity. -/
def f32v (w : Nat) : Int := match f32 w with
  | .fin v => v
  | _ => 0

/-- A finite value greater than zero: an implemented range (R62). -/
def f32pos (w : Nat) : Bool := match f32 w with
  | .fin v => decide (v > 0)
  | _ => false

/-- `a ≤ b` of two F32 words; false with a NaN. -/
def f32le (a b : Nat) : Bool := match f32 a, f32 b with
  | .nan, _ => false
  | _, .nan => false
  | .inf true, _ => true
  | _, .inf false => true
  | .inf false, _ => false
  | _, .inf true => false
  | .fin x, .fin y => decide (x ≤ y)

/-- The F32 word nearest to `num / den` × 2^-149, half to even; `den` positive. [DEDUCED, log 47] -/
def f32of (num : Int) (den : Nat) : Word :=
  let neg := decide (num < 0)
  let a : Nat := num.natAbs
  let q := a / den
  let e := if q < 16777216 then 0 else Nat.log2 q - 23
  let m := (rne (a : Int) ((den * 2 ^ e : Nat) : Int)).toNat
  let w := if m < 8388608 then m
    else if m ≥ 16777216 then (e + 2) * 8388608
    else (e + 1) * 8388608 + (m - 8388608)
  let w := if w ≥ 2139095040 then 2139095040 else w
  BitVec.ofNat 32 (if neg then w + 2147483648 else w)

/-- R65: a value in engineering units as a code of a range of full scale `fs`, both in one unit. -/
def codeOf (v fs : Int) : Int := if fs ≤ 0 then 0 else sat32 (rne (v * 1073741824) fs)

/-- A code of one range as a code of another (R289, R377). -/
def rescale (c fsFrom fsTo : Int) : Int := if fsTo ≤ 0 then c else sat32 (rne (c * fsFrom) fsTo)

/-! Coefficients and the accumulator. -/

/-- R112: c × 2^(e − 31). -/
structure Coef where
  c : Int
  e : Int
deriving DecidableEq, Repr

/-- The coefficient of a 64-bit little-endian word (R156). -/
def coefOf (w : Nat) : Coef :=
  let e := bitsOf w 37 32
  { c := sgn32 (w % 4294967296), e := if e < 32 then (e : Int) else (e : Int) - 64 }

/-- R121: the unit coefficient. -/
def unitCoef : Coef := { c := 1073741824, e := 1 }

/-- The saturation events of an evaluation (R124). -/
structure SatEv where
  mul : Bool := false
  acc : Bool := false
  out : Bool := false
  st  : Bool := false
deriving DecidableEq, Repr

/-- The greatest accumulator value, 2^63 − 1. -/
def max63 : Int := 9223372036854775807

/-- R115: the shifted product and whether it saturates. -/
def shiftProd (k : Coef) (x : Int) : Int × Bool :=
  let p := k.c * x
  if k.e ≥ 0 then
    let q := p * 2 ^ k.e.toNat
    (satTo max63 q, decide (q > max63) || decide (q < -max63))
  else (p / 2 ^ (-k.e).toNat, false)

/-- R116, R117: one term added to the accumulator. -/
def macTerm (a : Int × SatEv) (t : Coef × Int) : Int × SatEv :=
  let (p, m) := shiftProd t.1 t.2
  let q := a.1 + p
  (satTo max63 q,
    { a.2 with mul := a.2.mul || m, acc := a.2.acc || decide (q > max63) || decide (q < -max63) })

/-- R116: a sum of terms in order. -/
def macSum (ev : SatEv) (ts : List (Coef × Int)) : Int × SatEv := ts.foldl macTerm (0, ev)

/-- R118: the accumulator as a result, and whether the conversion saturates. -/
def accConv (a : Int) : Int × Bool :=
  let v := rne a 2147483648
  (sat32 v, decide (v > max32) || decide (v < -max32))

/-- The mantissa of value `num / den` for exponent `e` (R186). -/
def mantFor (num den : Int) (e : Int) : Int :=
  let k := 31 - e
  if k ≥ 0 then rne (num * 2 ^ k.toNat) den else rne num (den * 2 ^ (-k).toNat)

/-- R186: the coefficient formed from the exact value `num / den`, `den` positive; `fuel` exponents from `e` on remain. -/
def formCoefFrom (num den : Int) : Nat → Int → Coef
  | 0, _ =>
    { c := let c := mantFor num den 31
           if c > 2147483647 then 2147483647 else if c < -2147483648 then -2147483648 else c
      e := 31 }
  | fuel + 1, e =>
    let c := mantFor num den e
    if -2147483648 ≤ c ∧ c ≤ 2147483647 then { c := c, e := e } else formCoefFrom num den fuel (e + 1)

/-- R186: the coefficient of an exact value. -/
def formCoef (num den : Int) : Coef :=
  if num = 0 ∨ den ≤ 0 then { c := 0, e := 0 } else formCoefFrom num den 64 (-32)

/-- R186: the entry gain, the exact product of −K[i] and σ, formed as a coefficient. The value is
k.c × g.c × 2^(k.e + g.e − 62). -/
def prodCoef (k g : Coef) : Coef :=
  let sh := k.e + g.e - 62
  if sh ≥ 0 then formCoef (k.c * g.c * 2 ^ sh.toNat) 1 else formCoef (k.c * g.c) (2 ^ (-sh).toNat)

/-! CRC-32C (R160): reflected polynomial 0x1EDC_6F41. -/

/-- One bit of the reflected CRC. -/
def crcBit (c : Nat) : Nat := if c % 2 = 1 then (c / 2) ^^^ 2197175160 else c / 2

/-- One byte. -/
def crcByte (c : Nat) (b : Byte) : Nat :=
  crcBit (crcBit (crcBit (crcBit (crcBit (crcBit (crcBit (crcBit (c ^^^ b.toNat))))))))

/-- CRC-32C of bytes in ascending order. -/
def crc32c (bs : List Byte) : Word := BitVec.ofNat 32 ((bs.foldl crcByte 4294967295) ^^^ 4294967295)

/-! CRC-32 of IEEE 802.3 (R729): reflected polynomial 0x04C1_1DB7. -/

/-- One bit. -/
def fcsBit (c : Nat) : Nat := if c % 2 = 1 then (c / 2) ^^^ 3988292384 else c / 2

/-- One byte. [DEDUCED, log 129] -/
def fcsByte (c : Nat) (b : Byte) : Nat :=
  fcsBit (fcsBit (fcsBit (fcsBit (fcsBit (fcsBit (fcsBit (fcsBit (c ^^^ b.toNat))))))))

/-- The frame check of bytes in the order of the wire. [DEDUCED, log 129] -/
def crc32 (bs : List Byte) : Word := BitVec.ofNat 32 ((bs.foldl fcsByte 4294967295) ^^^ 4294967295)

/-! The sine table of R354. -/

/-- 2π in units of 2^-96. -/
def twoPi96 : Int := 497805226624462170461043889244

/-- Taylor terms of the sine of `x` (units of 2^-96): the terms from degree `2j + 1` on. -/
def sinTerms (x2 : Int) : Nat → Nat → Int → Int
  | 0, _, _ => 0
  | fuel + 1, j, t =>
    let t' := -((t * x2 / 79228162514264337593543950336) / ((2 * j + 2) * (2 * j + 3) : Nat))
    t + sinTerms x2 fuel (j + 1) t'

/-- sin(2π i / 4,096) × 2^96 for i up to a quarter turn. -/
def sinQuarter (i : Nat) : Int :=
  let x := twoPi96 * (i : Int) / 4096
  sinTerms (x * x / 79228162514264337593543950336) 16 0 x

/-- R354: T[i] = round(sin(2π × i / 4,096) × (2^31 − 1)). -/
def sineTab (i : Nat) : Int :=
  let j := i % 1024
  let q := (i / 1024) % 4
  let v := if q % 2 = 0 then sinQuarter j else sinQuarter (1024 - j)
  let r := rne (v * 2147483647) 79228162514264337593543950336
  if q < 2 then r else -r

/-- R354: the oscillator output of phase accumulator `acc`, offset `poff` and amplitude `amp`. -/
def ncoOut (acc poff amp : Nat) : Int :=
  let th := (acc + poff * 65536) % 281474976710656
  let i := th / 68719476736
  let f := (th / 1048576) % 65536
  let t0 := sineTab i
  let t1 := sineTab ((i + 1) % 4096)
  let s := t0 + rne ((t1 - t0) * (f : Int)) 65536
  rne ((amp : Int) * s) 2147483648

end Sys2Proof.Machine
end

