-- ==== Sys2Proof/Machine/Regs.lean ====
section
/-! DEFINITION. The register map: every register of the field tables with its offset in its block, its class, its marks,
its view, its writable bits and its reset value (R5, R106, R107, R146, R147, R193, R194, R233, R234, R268, R269, R315,
R316, R362, R363, R414 to R416, R460, R461, R492, R493, R534, R535, R569, R570, R607, R608, R657, R658, R693, R694, R721,
R722, R767, R768, R803, R804, R838, R839), and the blocks' places in a view (R655). -/

namespace Sys2Proof.Machine

/-- The groups of registers that share one layout. -/
inductive Grp where
  | sys | upd | core | eng | tile | cmp | cap | psc | brm | evc | calE | calD | fab | ode | memc | host | dma | ch | flt
deriving DecidableEq, Repr

/-- A place in a view: the group, its instance (channel, tile, converter, capture unit 32t + u, event channel, frame
number ...) and the offset within the instance. -/
structure Loc where
  grp  : Grp
  inst : Nat
  rel  : Nat
deriving DecidableEq, Repr

/-- The field classes (R625 to R630). A 64-bit counter has two rows. -/
inductive Cls where
  | ctl | dat | sts | cnt | grd
deriving DecidableEq, Repr

/-- One register of a group: `count` copies `stride` bytes apart from `off` on. `wm` holds the bits a write can change,
`fl` the flags of an STS register, `reset` the value at reset. -/
structure RegRow where
  off    : Nat
  stride : Nat := 0
  count  : Nat := 1
  cls    : Cls
  priv   : Bool := false
  buf    : Bool := false
  voted  : Bool := false
  cov    : Bool := false
  wm     : Nat := 0
  fl     : Nat := 0
  reset  : Nat := 0
deriving DecidableEq, Repr

/-! Offsets of the registers within their group. -/

abbrev sysDieRev : Nat := 0x0
abbrev sysSvc : Nat := 0x100
abbrev sysSvcSts : Nat := 0x108
abbrev sysBuserrAddrLo : Nat := 0x10C
abbrev sysBuserrAddrHi : Nat := 0x110
abbrev sysBuserrInfo : Nat := 0x114
abbrev sysGuarderrAddr : Nat := 0x118
abbrev sysCfgcrcSel : Nat := 0x120
abbrev sysCfgcrcCmd : Nat := 0x124
abbrev sysCfgcrcNow : Nat := 0x128
abbrev sysCfgcrcRef : Nat := 0x12C
abbrev sysCfgcrcStat : Nat := 0x130
abbrev sysCfgcrcFlags : Nat := 0x134
abbrev sysCfgcrcFail : Nat := 0x138
abbrev sysUpdCtl : Nat := 0x140
abbrev sysUpdMerges : Nat := 0x144
abbrev sysUpdPend : Nat := 0x148
abbrev sysRstCause : Nat := 0x200
abbrev sysStrap : Nat := 0x204
abbrev sysRstSts : Nat := 0x208
abbrev sysTrimSts : Nat := 0x20C
abbrev sysTrimLoads : Nat := 0x210
abbrev sysChiprst : Nat := 0x228
abbrev sysBlkrst : Nat := 0x230
abbrev sysBlkrstSts : Nat := 0x238
abbrev sysBlkrstLast : Nat := 0x23C
abbrev sysBootSts : Nat := 0x240
abbrev sysBootDoor : Nat := 0x244
abbrev sysClkCfg : Nat := 0x400
abbrev sysClkHoldto : Nat := 0x404
abbrev sysClkSts : Nat := 0x408
abbrev sysDroopCfg : Nat := 0x40C
abbrev sysDroopSts : Nat := 0x410
abbrev sysDroopCnt : Nat := 0x414
abbrev sysThrForce : Nat := 0x418
abbrev sysThermTh : Nat := 0x41C
abbrev sysTemp : Nat := 0x420
abbrev sysPwrCtl : Nat := 0x424
abbrev sysPwrSts : Nat := 0x428
abbrev sysPwrFlags : Nat := 0x42C
abbrev sysCoreGate : Nat := 0x430
abbrev sysCoreIrqrt : Nat := 0x900
abbrev sysCoreUpdCtl : Nat := 0xA00
abbrev sysCoreUpdSrc : Nat := 0xA04
abbrev sysCoreUpdSts : Nat := 0xA08
abbrev sysCoreMtime : Nat := 0xA10
abbrev updSts : Nat := 0x0
abbrev updRej : Nat := 0x4
abbrev updRes : Nat := 0x8
abbrev updApplied : Nat := 0xC
abbrev coreCtl : Nat := 0x0
abbrev coreSts : Nat := 0x4
abbrev coreVec : Nat := 0x8
abbrev coreNmivec : Nat := 0xC
abbrev coreWdog : Nat := 0x10
abbrev coreKick : Nat := 0x14
abbrev coreBirq : Nat := 0x18
abbrev coreSwi : Nat := 0x1C
abbrev engLaneSts : Nat := 0x0
abbrev engLoad : Nat := 0x10
abbrev engMiss : Nat := 0x20
abbrev engOvr : Nat := 0x30
abbrev engOrd : Nat := 0x1000
abbrev engSat : Nat := 0x1100
abbrev engSatcnt : Nat := 0x1200
abbrev engSatfirst : Nat := 0x1300
abbrev tileDieRev : Nat := 0x0
abbrev tilePwrCtl : Nat := 0x40
abbrev tilePwrSts : Nat := 0x44
abbrev tileWake : Nat := 0x48
abbrev tileThermTh : Nat := 0x4C
abbrev tileTemp : Nat := 0x50
abbrev tileCapGrp : Nat := 0x300
abbrev tileCmpIrq : Nat := 0x304
abbrev tilePipCtl : Nat := 0x2000
abbrev tilePipCode : Nat := 0x2004
abbrev tilePipGrp : Nat := 0x2008
abbrev tilePipSts : Nat := 0x200C
abbrev tilePipRsrc : Nat := 0x2010
abbrev tileLineCfg : Nat := 0x3F00
abbrev tileLinePer : Nat := 0x3F04
abbrev tileLineNom : Nat := 0x3F08
abbrev cmpCfg : Nat := 0x0
abbrev cmpEdge : Nat := 0x4
abbrev cmpVthr : Nat := 0x8
abbrev cmpIthr : Nat := 0xC
abbrev cmpSmp : Nat := 0x10
abbrev cmpWake : Nat := 0x14
abbrev cmpSts : Nat := 0x18
abbrev cmpOut : Nat := 0x1C
abbrev cmpClamp : Nat := 0x20
abbrev cmpClthrv : Nat := 0x24
abbrev cmpClthri : Nat := 0x28
abbrev cmpClhold : Nat := 0x2C
abbrev cmpClrel : Nat := 0x30
abbrev cmpTrim : Nat := 0x38
abbrev cmpTrips : Nat := 0x3C
abbrev capCfg : Nat := 0x0
abbrev capSts : Nat := 0x4
abbrev capTs : Nat := 0x8
abbrev pscCtl : Nat := 0x0
abbrev pscCfg : Nat := 0x4
abbrev pscGrp : Nat := 0x8
abbrev pscTrig : Nat := 0xC
abbrev pscTmr : Nat := 0x10
abbrev pscSettle : Nat := 0x14
abbrev pscSts : Nat := 0x18
abbrev pscFlags : Nat := 0x1C
abbrev pscLimsts : Nat := 0x20
abbrev pscPass : Nat := 0x24
abbrev pscInjPass : Nat := 0x28
abbrev pscPreempts : Nat := 0x2C
abbrev pscTrigLost : Nat := 0x30
abbrev pscTime : Nat := 0x34
abbrev pscRes : Nat := 0x40
abbrev pscEntCfg : Nat := 0x100
abbrev pscEntDec : Nat := 0x104
abbrev pscEntLo : Nat := 0x108
abbrev pscEntHi : Nat := 0x10C
abbrev brmSts : Nat := 0x0
abbrev brmFire : Nat := 0x4
abbrev brmTrigGrp : Nat := 0x8
abbrev brmTrigLvl : Nat := 0xC
abbrev brmTrigCfg : Nat := 0x10
abbrev brmTrigPulse : Nat := 0x50
abbrev brmArmed : Nat := 0x100
abbrev brmSub : Nat := 0x4000
abbrev brmMerge : Nat := 0x5000
abbrev evcCtl : Nat := 0x0
abbrev evcCfg : Nat := 0x4
abbrev evcProd : Nat := 0x8
abbrev evcEvcnt : Nat := 0x28
abbrev evcCoincide : Nat := 0x2C
abbrev evcLoops : Nat := 0x30
abbrev evcSts : Nat := 0x34
abbrev calCtl : Nat := 0x0
abbrev calStep : Nat := 0x4
abbrev calCfg : Nat := 0x8
abbrev calTime : Nat := 0xC
abbrev calSts : Nat := 0x10
abbrev calFlags : Nat := 0x14
abbrev calResult : Nat := 0x18
abbrev calGain : Nat := 0x1C
abbrev calOffs : Nat := 0x20
abbrev calSec : Nat := 0x24
abbrev calChg : Nat := 0x28
abbrev calNoise : Nat := 0x2C
abbrev calStdV : Nat := 0x0
abbrev calStdOhm : Nat := 0x4
abbrev calLimits : Nat := 0x14
abbrev calAccepts : Nat := 0x18
abbrev calRejects : Nat := 0x1C
abbrev calLastTime : Nat := 0x20
abbrev calObjCmd : Nat := 0x28
abbrev calObjSts : Nat := 0x2C
abbrev fabAddr : Nat := 0x0
abbrev fabUidLo : Nat := 0x4
abbrev fabUidHi : Nat := 0x8
abbrev fabPortCtl : Nat := 0xC
abbrev fabPortSts : Nat := 0x10
abbrev fabFlags : Nat := 0x14
abbrev fabTmo : Nat := 0x18
abbrev fabBcast : Nat := 0x1C
abbrev fabTrust : Nat := 0x20
abbrev fabDelay : Nat := 0x40
abbrev fabAsym : Nat := 0x50
abbrev fabRetry : Nat := 0x60
abbrev fabCrcerr : Nat := 0x70
abbrev fabDrop : Nat := 0x80
abbrev fabRqBase : Nat := 0x90
abbrev fabRqSize : Nat := 0x94
abbrev fabRqWptr : Nat := 0x98
abbrev fabRqRptr : Nat := 0x9C
abbrev fabCqBase : Nat := 0xA0
abbrev fabCqSize : Nat := 0xA4
abbrev fabCqWptr : Nat := 0xA8
abbrev fabCqRptr : Nat := 0xAC
abbrev fabOutst : Nat := 0xB0
abbrev fabLate : Nat := 0xB4
abbrev fabTime : Nat := 0xC0
abbrev fabOffset : Nat := 0xC8
abbrev fabSyncCfg : Nat := 0xCC
abbrev fabTimeSts : Nat := 0xD0
abbrev fabFrame : Nat := 0xE0
abbrev fabFrameNew : Nat := 0xE4
abbrev fabFrameCtl : Nat := 0xE8
abbrev fabHvCfg : Nat := 0xF0
abbrev fabHvCnt : Nat := 0xF4
abbrev fabHvLate : Nat := 0xF8
abbrev fabRt : Nat := 0x8000
abbrev odeCtl : Nat := 0x0
abbrev odeFlags : Nat := 0x4
abbrev odeReqs : Nat := 0x8
abbrev odeAborts : Nat := 0xC
abbrev odeDtmo : Nat := 0x10
abbrev odeFwqBase : Nat := 0x20
abbrev odeFwqSize : Nat := 0x24
abbrev odeFwqWptr : Nat := 0x28
abbrev odeFwqRptr : Nat := 0x2C
abbrev odeFwReply0 : Nat := 0x30
abbrev odeFwReply1 : Nat := 0x34
abbrev memcDdrCfg : Nat := 0x0
abbrev memcDdrSts : Nat := 0x4
abbrev memcDdrAddr : Nat := 0x8
abbrev memcSramAddr : Nat := 0x100
abbrev hostHostMsixTab : Nat := 0x1000
abbrev hostHostMsixPba : Nat := 0x1400
abbrev hostXspiCmd : Nat := 0x2000
abbrev hostXspiAddr : Nat := 0x2004
abbrev hostXspiBuf : Nat := 0x2100
abbrev hostUartCtl : Nat := 0x2200
abbrev hostUartData : Nat := 0x2204
abbrev hostUartSts : Nat := 0x2208
abbrev dmaCtl : Nat := 0x0
abbrev dmaRing : Nat := 0x4
abbrev dmaSize : Nat := 0xC
abbrev dmaWptr : Nat := 0x10
abbrev dmaRptr : Nat := 0x14
abbrev chCtl : Nat := 0x0
abbrev chCfg : Nat := 0x4
abbrev chSrdiv : Nat := 0x8
abbrev chGrp : Nat := 0xC
abbrev chStat : Nat := 0x10
abbrev chFlags : Nat := 0x14
abbrev chRefuse : Nat := 0x18
abbrev chCmdDrop : Nat := 0x1C
abbrev chRst : Nat := 0x20
abbrev chUnfence : Nat := 0x28
abbrev chSp : Nat := 0x30
abbrev chLim : Nat := 0x34
abbrev chOffCfg : Nat := 0x38
abbrev chOffLim : Nat := 0x3C
abbrev chIfs : Nat := 0x40
abbrev chVfs : Nat := 0x70
abbrev chSafeVpos : Nat := 0x80
abbrev chSafeVneg : Nat := 0x84
abbrev chSafeIpos : Nat := 0x88
abbrev chSafeIneg : Nat := 0x8C
abbrev chSafeCtl : Nat := 0x90
abbrev chPwmCtl : Nat := 0xA0
abbrev chPwmPer : Nat := 0xA4
abbrev chHeadH : Nat := 0xA8
abbrev chHeadL : Nat := 0xAC
abbrev chRailFs : Nat := 0xB0
abbrev chRailMin : Nat := 0xB4
abbrev chRailSettle : Nat := 0xB8
abbrev chRailFall : Nat := 0xBC
abbrev chRailStat : Nat := 0xC0
abbrev chGtCfg : Nat := 0xC4
abbrev chGtDuty : Nat := 0xC8
abbrev chBank : Nat := 0x100
abbrev chBankSts : Nat := 0x104
abbrev chSmap : Nat := 0x108
abbrev chSetValid : Nat := 0x120
abbrev chSetCmd : Nat := 0x124
abbrev chSetSts : Nat := 0x128
abbrev chSetFail : Nat := 0x12C
abbrev chSwaps : Nat := 0x130
abbrev chSwapTick : Nat := 0x134
abbrev chLawSnap : Nat := 0x138
abbrev chSnapTick : Nat := 0x13C
abbrev chXsnap : Nat := 0x140
abbrev chZsnap : Nat := 0x160
abbrev chUsnap : Nat := 0x164
abbrev chSwapLost : Nat := 0x168
abbrev chSsCtl : Nat := 0x180
abbrev chSsSlewV : Nat := 0x184
abbrev chSsSlewI : Nat := 0x188
abbrev chCxCfg : Nat := 0x18C
abbrev chCxHyst : Nat := 0x190
abbrev chCxCount : Nat := 0x194
abbrev chOscCfg : Nat := 0x198
abbrev chOscWin : Nat := 0x19C
abbrev chOscTh : Nat := 0x1A0
abbrev chOscDet : Nat := 0x1A4
abbrev chSupSts : Nat := 0x1A8
abbrev chSupFlags : Nat := 0x1AC
abbrev chLeCtl : Nat := 0x1B0
abbrev chLeCfg : Nat := 0x1B4
abbrev chLeQmax : Nat := 0x1B8
abbrev chLeBrk : Nat := 0x1C0
abbrev chLeRecmap : Nat := 0x1E0
abbrev chLeC : Nat := 0x1E4
abbrev chLeR : Nat := 0x1E8
abbrev chLeQ : Nat := 0x1EC
abbrev chLeSts : Nat := 0x1F0
abbrev chHoCfg : Nat := 0x200
abbrev chHoTol : Nat := 0x204
abbrev chHoSts : Nat := 0x208
abbrev chHoFlags : Nat := 0x20C
abbrev chHoFail : Nat := 0x210
abbrev chHoDiff : Nat := 0x214
abbrev chHoCount : Nat := 0x218
abbrev chHoFails : Nat := 0x21C
abbrev chHoDrop : Nat := 0x220
abbrev chArCfg : Nat := 0x224
abbrev chArMask : Nat := 0x228
abbrev chArThr : Nat := 0x22C
abbrev chRakeCtl : Nat := 0x300
abbrev chRakeCfg : Nat := 0x304
abbrev chRakeBase : Nat := 0x308
abbrev chRakeLen : Nat := 0x30C
abbrev chRakeStartIdx : Nat := 0x310
abbrev chRakeSegtab : Nat := 0x314
abbrev chRakeSegcfg : Nat := 0x318
abbrev chRakeJtgt : Nat := 0x31C
abbrev chRakeSts : Nat := 0x320
abbrev chRakePos : Nat := 0x324
abbrev chRakeFlags : Nat := 0x328
abbrev chRakeErr : Nat := 0x32C
abbrev chRakeCnt : Nat := 0x330
abbrev chRakeJdrop : Nat := 0x334
abbrev chRakeIdx : Nat := 0x338
abbrev chRakeRep : Nat := 0x33C
abbrev chRakeLoop : Nat := 0x340
abbrev chStrCtl : Nat := 0x400
abbrev chStrCfg : Nat := 0x404
abbrev chStrDbaseLo : Nat := 0x408
abbrev chStrDbaseHi : Nat := 0x40C
abbrev chStrDsize : Nat := 0x410
abbrev chStrRing : Nat := 0x414
abbrev chStrRlen : Nat := 0x418
abbrev chStrLowwm : Nat := 0x41C
abbrev chStrWptr : Nat := 0x420
abbrev chStrRptr : Nat := 0x424
abbrev chStrSts : Nat := 0x428
abbrev chStrFlags : Nat := 0x42C
abbrev chUnderrunTicks : Nat := 0x430
abbrev chStrGaps : Nat := 0x438
abbrev chStrPlayed : Nat := 0x43C
abbrev chNcoCtl : Nat := 0x480
abbrev chNcoFtwLo : Nat := 0x484
abbrev chNcoFtwHi : Nat := 0x488
abbrev chNcoAmp : Nat := 0x48C
abbrev chNcoPoff : Nat := 0x490
abbrev chNcoPinitLo : Nat := 0x494
abbrev chNcoPinitHi : Nat := 0x498
abbrev chNcoPhLo : Nat := 0x49C
abbrev chNcoPhHi : Nat := 0x4A0
abbrev chNcoOut : Nat := 0x4A4
abbrev chMeasCtl : Nat := 0x500
abbrev chMeasCfg : Nat := 0x504
abbrev chMeasSts : Nat := 0x508
abbrev chMeasFlags : Nat := 0x50C
abbrev chMeasDrop : Nat := 0x510
abbrev chPansBase : Nat := 0x514
abbrev chPansSize : Nat := 0x518
abbrev chPansWm : Nat := 0x51C
abbrev chPansWptr : Nat := 0x520
abbrev chPansRptr : Nat := 0x524
abbrev chPansSptr : Nat := 0x528
abbrev chPansLost : Nat := 0x52C
abbrev chSpillDbaseLo : Nat := 0x530
abbrev chSpillDbaseHi : Nat := 0x534
abbrev chSpillDsize : Nat := 0x538
abbrev chBrnDbaseLo : Nat := 0x540
abbrev chBrnDbaseHi : Nat := 0x544
abbrev chBrnDsize : Nat := 0x548
abbrev chBrnWptr : Nat := 0x54C
abbrev chBrnRptr : Nat := 0x550
abbrev chBrnCfg : Nat := 0x554
abbrev chBrnLost : Nat := 0x558
abbrev chApdDly : Nat := 0x800
abbrev chApdLen : Nat := 0x804
abbrev chApdCfg : Nat := 0x808
abbrev fltSts : Nat := 0x0
abbrev fltEsc : Nat := 0x4
abbrev fltPers : Nat := 0x8
abbrev fltSev0 : Nat := 0xC
abbrev fltSev1 : Nat := 0x10
abbrev fltReact : Nat := 0x14
abbrev fltLast : Nat := 0x18
abbrev fltCnt : Nat := 0x1C
abbrev fltRepeats : Nat := 0x20
abbrev fltFenced : Nat := 0x24
abbrev fltUnfence : Nat := 0x28
abbrev fltInj : Nat := 0x30
abbrev fltSysFltRstsrc : Nat := 0x38

/-- Registers of group SYS, part 1. -/
def sysRows1 : List RegRow := [
  { off := sysDieRev, cls := .dat, reset := 0xB1 },
  { off := sysSvc, cls := .grd, priv := true, wm := 0xFFFFFFFF },
  { off := sysSvcSts, cls := .dat, reset := 0x1 },
  { off := sysBuserrAddrLo, cls := .dat },
  { off := sysBuserrAddrHi, cls := .dat },
  { off := sysBuserrInfo, cls := .dat },
  { off := sysGuarderrAddr, cls := .dat, priv := true },
  { off := sysCfgcrcSel, cls := .ctl, priv := true, wm := 0x7F },
  { off := sysCfgcrcCmd, cls := .ctl, priv := true, wm := 0x3 },
  { off := sysCfgcrcNow, cls := .dat, priv := true },
  { off := sysCfgcrcRef, cls := .dat, priv := true, wm := 0xFFFFFFFF },
  { off := sysCfgcrcStat, cls := .dat, priv := true },
  { off := sysCfgcrcFlags, cls := .sts, priv := true, fl := 0xF },
  { off := sysCfgcrcFail, cls := .dat, priv := true },
  { off := sysUpdCtl, cls := .ctl, wm := 0xFF },
  { off := sysUpdMerges, cls := .cnt, wm := 0xFFFFFFFF },
  { off := sysUpdPend, cls := .dat },
  { off := sysRstCause, cls := .dat, priv := true },
  { off := sysStrap, cls := .dat, priv := true },
  { off := sysRstSts, cls := .dat, priv := true },
  { off := sysTrimSts, cls := .dat, priv := true },
  { off := sysTrimLoads, stride := 4, count := 5, cls := .cnt, priv := true, wm := 0xFFFFFFFF },
  { off := sysChiprst, cls := .grd, priv := true, wm := 0xFFFFFFFF },
  { off := sysBlkrst, cls := .grd, priv := true, wm := 0xFFFFFFFF } ]

/-- Registers of group SYS, part 2. -/
def sysRows2 : List RegRow := [
  { off := sysBlkrstSts, cls := .sts, priv := true, fl := 0xF },
  { off := sysBlkrstLast, cls := .dat, priv := true },
  { off := sysBootSts, cls := .dat, priv := true },
  { off := sysBootDoor, cls := .dat, priv := true, wm := 0xFFFFFFFF },
  { off := sysClkCfg, cls := .ctl, priv := true, wm := 0x7 },
  { off := sysClkHoldto, cls := .dat, priv := true, wm := 0xFFFF, reset := 0x3E8 },
  { off := sysClkSts, cls := .dat, priv := true },
  { off := sysDroopCfg, cls := .dat, priv := true, voted := true, wm := 0xFFFFFF, reset := 0x64DA },
  { off := sysDroopSts, cls := .dat, priv := true },
  { off := sysDroopCnt, cls := .cnt, priv := true, wm := 0xFFFFFFFF },
  { off := sysThrForce, cls := .ctl, priv := true, wm := 0x7 },
  { off := sysThermTh, cls := .dat, priv := true, voted := true, wm := 0xFFFF },
  { off := sysTemp, cls := .dat, priv := true },
  { off := sysPwrCtl, cls := .ctl, priv := true, wm := 0x7, reset := 0x4 },
  { off := sysPwrSts, cls := .dat, priv := true },
  { off := sysPwrFlags, cls := .sts, priv := true, fl := 0xF },
  { off := sysCoreGate, cls := .ctl, priv := true, wm := 0xFF },
  { off := sysCoreIrqrt, stride := 4, count := 64, cls := .ctl, priv := true, wm := 0x7FF },
  { off := sysCoreUpdCtl, cls := .ctl, priv := true, wm := 0xF },
  { off := sysCoreUpdSrc, cls := .dat, priv := true, wm := 0xFFFFFFFF, reset := 0x5800000 },
  { off := sysCoreUpdSts, cls := .sts, priv := true, fl := 0xF0E },
  { off := sysCoreMtime, cls := .dat },
  { off := sysCoreMtime + 4, cls := .dat } ]

/-- Registers of group SYS. -/
def sysRows : List RegRow := sysRows1 ++ sysRows2

/-- Registers of group UPD. -/
def updRows : List RegRow := [
  { off := updSts, cls := .sts, fl := 0x7 },
  { off := updRej, cls := .dat },
  { off := updRes, cls := .dat },
  { off := updApplied, cls := .cnt, wm := 0xFFFFFFFF } ]

/-- Registers of group CORE. -/
def coreRows : List RegRow := [
  { off := coreCtl, cls := .ctl, priv := true, wm := 0xFFF },
  { off := coreSts, cls := .dat },
  { off := coreVec, cls := .dat, priv := true, wm := 0xFFFFFFFF },
  { off := coreNmivec, cls := .dat, priv := true, wm := 0xFFFFFFFF },
  { off := coreWdog, cls := .dat, priv := true, voted := true, wm := 0xFFFF },
  { off := coreKick, cls := .dat, wm := 0xFFFFFFFF },
  { off := coreBirq, cls := .sts, fl := 0x1FF },
  { off := coreSwi, cls := .ctl, wm := 0x1 } ]

/-- Registers of group ENG. -/
def engRows : List RegRow := [
  { off := engLaneSts, cls := .sts, fl := 0x1F },
  { off := engLoad, stride := 4, count := 4, cls := .dat, reset := 0x50 },
  { off := engMiss, stride := 4, count := 4, cls := .cnt, wm := 0xFFFFFFFF },
  { off := engOvr, stride := 4, count := 4, cls := .cnt, wm := 0xFFFFFFFF },
  { off := engOrd, stride := 4, count := 64, cls := .ctl, buf := true, wm := 0xF, reset := 0x6 },
  { off := engSat, stride := 4, count := 64, cls := .sts, fl := 0x1F },
  { off := engSatcnt, stride := 4, count := 64, cls := .cnt, wm := 0xFFFFFFFF },
  { off := engSatfirst, stride := 4, count := 64, cls := .dat } ]

/-- Registers of group TILE. -/
def tileRows : List RegRow := [
  { off := tileDieRev, cls := .dat, reset := 0xA2 },
  { off := tilePwrCtl, cls := .ctl, priv := true, wm := 0x7 },
  { off := tilePwrSts, cls := .dat },
  { off := tileWake, cls := .sts, fl := 0x1FFFF },
  { off := tileThermTh, cls := .dat, priv := true, voted := true, wm := 0xFFFF },
  { off := tileTemp, cls := .dat },
  { off := tileCapGrp, cls := .ctl, wm := 0x7 },
  { off := tileCmpIrq, cls := .dat },
  { off := tilePipCtl, cls := .ctl, buf := true, wm := 0xFF },
  { off := tilePipCode, cls := .dat, buf := true, wm := 0xFFFF },
  { off := tilePipGrp, cls := .ctl, wm := 0x7 },
  { off := tilePipSts, cls := .sts, fl := 0x3 },
  { off := tilePipRsrc, cls := .dat },
  { off := tileLineCfg, cls := .ctl, wm := 0xF },
  { off := tileLinePer, cls := .dat },
  { off := tileLineNom, cls := .dat, wm := 0x7FFFFF, reset := 0x3D0900 } ]

/-- Registers of group CMP. -/
def cmpRows : List RegRow := [
  { off := cmpCfg, cls := .ctl, buf := true, wm := 0xFFF, reset := 0x500 },
  { off := cmpEdge, cls := .ctl, buf := true, wm := 0xFFF },
  { off := cmpVthr, cls := .dat, buf := true, wm := 0xFFF0FFF, reset := 0xFFF0000 },
  { off := cmpIthr, cls := .dat, buf := true, wm := 0xFFF0FFF, reset := 0xFFF0000 },
  { off := cmpSmp, cls := .dat, buf := true, wm := 0x1FFFF, reset := 0x186A0 },
  { off := cmpWake, cls := .ctl, buf := true, wm := 0x1FFF },
  { off := cmpSts, cls := .sts, fl := 0x7F },
  { off := cmpOut, cls := .dat },
  { off := cmpClamp, cls := .ctl, priv := true, voted := true, cov := true, wm := 0x1F },
  { off := cmpClthrv, cls := .dat, priv := true, voted := true, cov := true, wm := 0xFFF0FFF },
  { off := cmpClthri, cls := .dat, priv := true, voted := true, cov := true, wm := 0xFFF0FFF },
  { off := cmpClhold, cls := .dat, priv := true, voted := true, cov := true, wm := 0xFFFF, reset := 0x28 },
  { off := cmpClrel, cls := .grd, priv := true, wm := 0xFFFFFFFF },
  { off := cmpTrim, cls := .dat, priv := true, voted := true, wm := 0x3F3F3F3F },
  { off := cmpTrips, cls := .cnt, wm := 0xFFFFFFFF } ]

/-- Registers of group CAP. -/
def capRows : List RegRow := [
  { off := capCfg, cls := .ctl, buf := true, wm := 0x7FF },
  { off := capSts, cls := .sts, fl := 0xF },
  { off := capTs, cls := .dat },
  { off := capTs + 4, cls := .dat } ]

/-- Registers of group PSC. -/
def pscRows : List RegRow := [
  { off := pscCtl, cls := .ctl, wm := 0x7 },
  { off := pscCfg, cls := .ctl, buf := true, wm := 0x7FF, reset := 0x4 },
  { off := pscGrp, cls := .ctl, wm := 0x7 },
  { off := pscTrig, cls := .dat, buf := true, wm := 0xFFFF00FF },
  { off := pscTmr, cls := .dat, buf := true, wm := 0xFFFFFFFF, reset := 0x5F5E10 },
  { off := pscSettle, cls := .dat, buf := true, wm := 0xFF, reset := 0x10 },
  { off := pscSts, cls := .dat },
  { off := pscFlags, cls := .sts, fl := 0x7F },
  { off := pscLimsts, cls := .dat },
  { off := pscPass, cls := .cnt, wm := 0xFFFFFFFF },
  { off := pscInjPass, cls := .cnt, wm := 0xFFFFFFFF },
  { off := pscPreempts, cls := .cnt, wm := 0xFFFFFFFF },
  { off := pscTrigLost, cls := .cnt, wm := 0xFFFFFFFF },
  { off := pscTime, cls := .dat },
  { off := pscTime + 4, cls := .dat },
  { off := pscRes, stride := 4, count := 36, cls := .dat },
  { off := pscEntCfg, stride := 16, count := 36, cls := .dat, buf := true, wm := 0x7FFFFF, reset := 0x2F2 },
  { off := pscEntDec, stride := 16, count := 36, cls := .dat, buf := true, wm := 0xFFFFF, reset := 0x1E848 },
  { off := pscEntLo, stride := 16, count := 36, cls := .dat, buf := true, wm := 0xFFFFFFFF, reset := 0x80000001 },
  { off := pscEntHi, stride := 16, count := 36, cls := .dat, buf := true, wm := 0xFFFFFFFF, reset := 0x7FFFFFFF } ]

/-- Registers of group BRM. -/
def brmRows : List RegRow := [
  { off := brmSts, cls := .sts, fl := 0x1F },
  { off := brmFire, cls := .ctl, wm := 0x7FF },
  { off := brmTrigGrp, cls := .ctl, wm := 0x7 },
  { off := brmTrigLvl, cls := .dat },
  { off := brmTrigCfg, stride := 4, count := 16, cls := .ctl, buf := true, wm := 0x7F },
  { off := brmTrigPulse, stride := 4, count := 16, cls := .dat, buf := true, wm := 0xFFFF, reset := 0x1 },
  { off := brmArmed, stride := 4, count := 4, cls := .dat },
  { off := brmSub, stride := 4, count := 696, cls := .ctl, cov := true, wm := 0xFF },
  { off := brmMerge, stride := 4, count := 696, cls := .cnt, wm := 0xFFFFFFFF } ]

/-- Registers of group EVC. -/
def evcRows : List RegRow := [
  { off := evcCtl, cls := .ctl, wm := 0x7 },
  { off := evcCfg, cls := .ctl, cov := true, wm := 0x3FFF, reset := 0x40 },
  { off := evcProd, stride := 4, count := 8, cls := .ctl, cov := true, wm := 0xFFFF },
  { off := evcEvcnt, cls := .cnt, wm := 0xFFFFFFFF },
  { off := evcCoincide, cls := .cnt, wm := 0xFFFFFFFF },
  { off := evcLoops, cls := .cnt, wm := 0xFFFFFFFF },
  { off := evcSts, cls := .sts, fl := 0x3 } ]

/-- Registers of group CALE. -/
def calERows : List RegRow := [
  { off := calCtl, cls := .ctl, priv := true, wm := 0x7 },
  { off := calStep, cls := .dat, priv := true, wm := 0x3FFFF },
  { off := calCfg, cls := .dat, priv := true, wm := 0xFFFFFFF, reset := 0x231E848 },
  { off := calTime, cls := .dat, priv := true, wm := 0xFFFFFFFF, reset := 0x3E8000A },
  { off := calSts, cls := .dat, priv := true },
  { off := calFlags, cls := .sts, priv := true, fl := 0x1F },
  { off := calResult, cls := .dat, priv := true },
  { off := calGain, cls := .dat, priv := true },
  { off := calOffs, cls := .dat, priv := true },
  { off := calSec, cls := .dat, priv := true },
  { off := calChg, cls := .dat, priv := true },
  { off := calNoise, cls := .dat, priv := true } ]

/-- Registers of group CALD. -/
def calDRows : List RegRow := [
  { off := calStdV, cls := .dat, priv := true, voted := true, wm := 0xFFFFFFFF },
  { off := calStdOhm, stride := 4, count := 4, cls := .dat, priv := true, voted := true, wm := 0xFFFFFFFF },
  { off := calLimits, cls := .dat, priv := true, voted := true, wm := 0xFFFFFFFF, reset := 0x6400C8 },
  { off := calAccepts, cls := .cnt, priv := true, wm := 0xFFFFFFFF },
  { off := calRejects, cls := .cnt, priv := true, wm := 0xFFFFFFFF },
  { off := calLastTime, cls := .dat, priv := true },
  { off := calLastTime + 4, cls := .dat, priv := true },
  { off := calObjCmd, cls := .ctl, priv := true, wm := 0x1FFF },
  { off := calObjSts, cls := .sts, priv := true, fl := 0x700 } ]

/-- Registers of group FAB, part 1. -/
def fabRows1 : List RegRow := [
  { off := fabAddr, cls := .dat, priv := true, voted := true, wm := 0x1FFF },
  { off := fabUidLo, cls := .dat },
  { off := fabUidHi, cls := .dat },
  { off := fabPortCtl, cls := .ctl, priv := true, voted := true, wm := 0xFFFF },
  { off := fabPortSts, cls := .dat },
  { off := fabFlags, cls := .sts, fl := 0xFF },
  { off := fabTmo, cls := .dat, priv := true, wm := 0xFFFF, reset := 0x64 },
  { off := fabBcast, cls := .ctl, priv := true, cov := true, wm := 0xF },
  { off := fabTrust, stride := 4, count := 8, cls := .dat, priv := true, cov := true, wm := 0x1FFF },
  { off := fabDelay, stride := 4, count := 4, cls := .dat },
  { off := fabAsym, stride := 4, count := 4, cls := .dat, priv := true, voted := true, wm := 0xFFFFFFFF },
  { off := fabRetry, stride := 4, count := 4, cls := .cnt, wm := 0xFFFFFFFF },
  { off := fabCrcerr, stride := 4, count := 4, cls := .cnt, wm := 0xFFFFFFFF },
  { off := fabDrop, stride := 4, count := 4, cls := .cnt, wm := 0xFFFFFFFF },
  { off := fabRqBase, cls := .dat, priv := true, wm := 0xFFFF },
  { off := fabRqSize, cls := .dat, priv := true, wm := 0xFFFF },
  { off := fabRqWptr, cls := .dat, priv := true, wm := 0xFFFFFFFF },
  { off := fabRqRptr, cls := .dat, priv := true },
  { off := fabCqBase, cls := .dat, priv := true, wm := 0xFFFF },
  { off := fabCqSize, cls := .dat, priv := true, wm := 0xFFFF },
  { off := fabCqWptr, cls := .dat, priv := true },
  { off := fabCqRptr, cls := .dat, priv := true, wm := 0xFFFFFFFF },
  { off := fabOutst, cls := .dat },
  { off := fabLate, cls := .cnt, wm := 0xFFFFFFFF } ]

/-- Registers of group FAB, part 2. -/
def fabRows2 : List RegRow := [
  { off := fabTime, cls := .dat },
  { off := fabTime + 4, cls := .dat },
  { off := fabOffset, cls := .dat },
  { off := fabSyncCfg, cls := .dat, priv := true, voted := true, wm := 0xFF, reset := 0x8 },
  { off := fabTimeSts, cls := .dat },
  { off := fabFrame, cls := .dat, reset := 0xFA0 },
  { off := fabFrameNew, cls := .dat, priv := true, wm := 0xFFFF, reset := 0xFA0 },
  { off := fabFrameCtl, cls := .ctl, priv := true, wm := 0x1 },
  { off := fabHvCfg, cls := .ctl, priv := true, wm := 0x1FFF },
  { off := fabHvCnt, cls := .cnt, wm := 0xFFFFFFFF },
  { off := fabHvLate, cls := .cnt, wm := 0xFFFFFFFF },
  { off := fabRt, stride := 4, count := 4096, cls := .dat, priv := true, cov := true, wm := 0x1FF, reset := 0x7 } ]

/-- Registers of group FAB. -/
def fabRows : List RegRow := fabRows1 ++ fabRows2

/-- Registers of group ODE. -/
def odeRows : List RegRow := [
  { off := odeCtl, cls := .ctl, priv := true, voted := true, wm := 0x1 },
  { off := odeFlags, cls := .sts, fl := 0xF },
  { off := odeReqs, cls := .cnt, wm := 0xFFFFFFFF },
  { off := odeAborts, cls := .cnt, wm := 0xFFFFFFFF },
  { off := odeDtmo, cls := .dat, priv := true, wm := 0xFFFF, reset := 0x64 },
  { off := odeFwqBase, cls := .dat, priv := true, wm := 0x7FF },
  { off := odeFwqSize, cls := .dat, priv := true, wm := 0x7F, reset := 0x10 },
  { off := odeFwqWptr, cls := .dat, priv := true },
  { off := odeFwqRptr, cls := .dat, priv := true, wm := 0xFFFFFFFF },
  { off := odeFwReply0, cls := .dat, priv := true, wm := 0x3FFFFFF },
  { off := odeFwReply1, cls := .ctl, priv := true, wm := 0x1FF } ]

/-- Registers of group MEMC. -/
def memcRows : List RegRow := [
  { off := memcDdrCfg, stride := 32, count := 2, cls := .ctl, priv := true, wm := 0xFFF, reset := 0x180 },
  { off := memcDdrSts, stride := 32, count := 2, cls := .dat },
  { off := memcDdrAddr, stride := 32, count := 2, cls := .dat },
  { off := memcDdrAddr + 4, stride := 32, count := 2, cls := .dat },
  { off := memcSramAddr, cls := .dat } ]

/-- Registers of group HOST. -/
def hostRows : List RegRow := [
  { off := hostHostMsixTab, stride := 4, count := 256, cls := .dat, priv := true, wm := 0xFFFFFFFF },
  { off := hostHostMsixPba, stride := 4, count := 2, cls := .dat, priv := true },
  { off := hostXspiCmd, cls := .dat, priv := true, wm := 0x8003FFFF },
  { off := hostXspiAddr, cls := .dat, priv := true, wm := 0xFFFFFFFF },
  { off := hostXspiBuf, stride := 4, count := 64, cls := .dat, priv := true, wm := 0xFFFFFFFF },
  { off := hostUartCtl, cls := .dat, priv := true, wm := 0xFFF, reset := 0x36 },
  { off := hostUartData, cls := .dat, priv := true, wm := 0xFF },
  { off := hostUartSts, cls := .dat, priv := true } ]

/-- Registers of group DMA. -/
def dmaRows : List RegRow := [
  { off := dmaCtl, cls := .ctl, priv := true, wm := 0x7 },
  { off := dmaRing, cls := .dat, priv := true, wm := 0xFFFFFFFF },
  { off := dmaRing + 4, cls := .dat, priv := true, wm := 0xFFFFFFFF },
  { off := dmaSize, cls := .dat, priv := true, wm := 0xFFFF },
  { off := dmaWptr, cls := .dat, wm := 0xFFFFFFFF },
  { off := dmaRptr, cls := .dat } ]

/-- Registers of group CH, part 1. -/
def chRows1 : List RegRow := [
  { off := chCtl, cls := .ctl, wm := 0x1F },
  { off := chCfg, cls := .ctl, buf := true, wm := 0x1FF, reset := 0x78 },
  { off := chSrdiv, cls := .dat, buf := true, wm := 0x1FFF, reset := 0x1 },
  { off := chGrp, cls := .ctl, wm := 0x7 },
  { off := chStat, cls := .dat, reset := 0xA0F0 },
  { off := chFlags, cls := .sts, fl := 0xFF },
  { off := chRefuse, cls := .dat },
  { off := chCmdDrop, cls := .cnt, wm := 0xFFFFFFFF },
  { off := chRst, cls := .grd, priv := true, wm := 0xFFFFFFFF },
  { off := chUnfence, cls := .grd, priv := true, wm := 0xFFFFFFFF },
  { off := chSp, cls := .dat, buf := true, wm := 0xFFFFFFFF },
  { off := chLim, cls := .dat, buf := true, wm := 0xFFFFFFFF },
  { off := chOffCfg, cls := .ctl, buf := true, wm := 0xFF },
  { off := chOffLim, cls := .dat, buf := true, wm := 0xFFFFFFFF },
  { off := chIfs, stride := 4, count := 12, cls := .dat, buf := true, wm := 0xFFFFFFFF },
  { off := chVfs, stride := 4, count := 4, cls := .dat, buf := true, wm := 0xFFFFFFFF },
  { off := chSafeVpos, cls := .dat, priv := true, voted := true, cov := true, wm := 0xFFFFFFFF },
  { off := chSafeVneg, cls := .dat, priv := true, voted := true, cov := true, wm := 0xFFFFFFFF },
  { off := chSafeIpos, cls := .dat, priv := true, voted := true, cov := true, wm := 0xFFFFFFFF },
  { off := chSafeIneg, cls := .dat, priv := true, voted := true, cov := true, wm := 0xFFFFFFFF },
  { off := chSafeCtl, cls := .ctl, priv := true, voted := true, cov := true, wm := 0xFFFF, reset := 0x201 },
  { off := chPwmCtl, cls := .ctl, buf := true, wm := 0x7 },
  { off := chPwmPer, cls := .dat, buf := true, wm := 0x3FF, reset := 0x190 },
  { off := chHeadH, cls := .dat, buf := true, wm := 0xFFFFFFFF } ]

/-- Registers of group CH, part 2. -/
def chRows2 : List RegRow := [
  { off := chHeadL, cls := .dat, buf := true, wm := 0xFFFFFFFF },
  { off := chRailFs, cls := .dat, priv := true, voted := true, wm := 0xFFFFFFFF },
  { off := chRailMin, cls := .dat, priv := true, voted := true, wm := 0xFFFFFFFF },
  { off := chRailSettle, cls := .dat, wm := 0xFFFF, reset := 0x3E8 },
  { off := chRailFall, cls := .dat, buf := true, wm := 0xFFFFFFFF },
  { off := chRailStat, cls := .dat },
  { off := chGtCfg, cls := .ctl, buf := true, wm := 0xF },
  { off := chGtDuty, cls := .dat, buf := true, wm := 0x3FF03FF },
  { off := chBank, cls := .ctl, buf := true, wm := 0x1F },
  { off := chBankSts, cls := .dat },
  { off := chSmap, stride := 4, count := 6, cls := .ctl, buf := true, wm := 0xFFFF },
  { off := chSetValid, cls := .dat },
  { off := chSetCmd, cls := .ctl, wm := 0x3F },
  { off := chSetSts, cls := .sts, fl := 0x7F },
  { off := chSetFail, cls := .dat },
  { off := chSwaps, cls := .cnt, wm := 0xFFFFFFFF },
  { off := chSwapTick, cls := .dat },
  { off := chLawSnap, cls := .ctl, wm := 0x1 },
  { off := chSnapTick, cls := .dat },
  { off := chXsnap, stride := 4, count := 8, cls := .dat },
  { off := chZsnap, cls := .dat },
  { off := chUsnap, cls := .dat },
  { off := chSwapLost, cls := .cnt, wm := 0xFFFFFFFF },
  { off := chSsCtl, cls := .ctl, buf := true, wm := 0x1 } ]

/-- Registers of group CH, part 3. -/
def chRows3 : List RegRow := [
  { off := chSsSlewV, cls := .dat, buf := true, wm := 0xFFFFFFFF },
  { off := chSsSlewI, cls := .dat, buf := true, wm := 0xFFFFFFFF },
  { off := chCxCfg, cls := .ctl, buf := true, wm := 0x1, reset := 0x1 },
  { off := chCxHyst, cls := .dat, buf := true, wm := 0xFFFFFFFF, reset := 0x148 },
  { off := chCxCount, cls := .cnt, wm := 0xFFFFFFFF },
  { off := chOscCfg, cls := .ctl, buf := true, wm := 0xFFF, reset := 0x8 },
  { off := chOscWin, cls := .dat, buf := true, wm := 0xFFFFFFFF, reset := 0x100803E8 },
  { off := chOscTh, cls := .dat, buf := true, wm := 0xFFFF, reset := 0x28F },
  { off := chOscDet, cls := .cnt, wm := 0xFFFFFFFF },
  { off := chSupSts, cls := .dat },
  { off := chSupFlags, cls := .sts, fl := 0x7F },
  { off := chLeCtl, cls := .ctl, wm := 0x7 },
  { off := chLeCfg, cls := .dat, wm := 0xFFFF, reset := 0x410 },
  { off := chLeQmax, cls := .dat, wm := 0xFFFFFFFF, reset := 0x3D4CCCCD },
  { off := chLeBrk, stride := 4, count := 8, cls := .dat, wm := 0xFFFFFFFF },
  { off := chLeRecmap, cls := .dat, wm := 0xFFFFFFFF },
  { off := chLeC, cls := .dat },
  { off := chLeR, cls := .dat },
  { off := chLeQ, cls := .dat },
  { off := chLeSts, cls := .dat },
  { off := chHoCfg, cls := .dat, buf := true, wm := 0xF3F7F, reset := 0xF0208 },
  { off := chHoTol, cls := .dat, buf := true, wm := 0xFFFF, reset := 0x42 },
  { off := chHoSts, cls := .dat },
  { off := chHoFlags, cls := .sts, fl := 0x7 } ]

/-- Registers of group CH, part 4. -/
def chRows4 : List RegRow := [
  { off := chHoFail, cls := .dat },
  { off := chHoDiff, cls := .dat },
  { off := chHoCount, cls := .cnt, wm := 0xFFFFFFFF },
  { off := chHoFails, cls := .cnt, wm := 0xFFFFFFFF },
  { off := chHoDrop, cls := .cnt, wm := 0xFFFFFFFF },
  { off := chArCfg, cls := .ctl, buf := true, wm := 0x1 },
  { off := chArMask, cls := .dat, buf := true, wm := 0xFF0FFF, reset := 0x100000 },
  { off := chArThr, cls := .dat, buf := true, wm := 0xFFFFFFFF, reset := 0x147BF333 },
  { off := chRakeCtl, cls := .ctl, wm := 0x3F },
  { off := chRakeCfg, cls := .ctl, buf := true, wm := 0xF },
  { off := chRakeBase, cls := .dat, buf := true, wm := 0x3FFFFF },
  { off := chRakeLen, cls := .dat, buf := true, wm := 0x7FFFFF },
  { off := chRakeStartIdx, cls := .dat, buf := true, wm := 0x3FFFFF },
  { off := chRakeSegtab, cls := .dat, buf := true, wm := 0x3FFFFF },
  { off := chRakeSegcfg, cls := .dat, buf := true, wm := 0xFF01FFFF, reset := 0x100 },
  { off := chRakeJtgt, cls := .dat, buf := true, wm := 0x3FFFFFF, reset := 0x3FFFFF },
  { off := chRakeSts, cls := .dat },
  { off := chRakePos, cls := .dat },
  { off := chRakeFlags, cls := .sts, fl := 0xFF },
  { off := chRakeErr, cls := .dat },
  { off := chRakeCnt, cls := .cnt, wm := 0xFFFFFFFF },
  { off := chRakeJdrop, cls := .cnt, wm := 0xFFFFFFFF },
  { off := chRakeIdx, cls := .dat },
  { off := chRakeRep, cls := .dat } ]

/-- Registers of group CH, part 5. -/
def chRows5 : List RegRow := [
  { off := chRakeLoop, stride := 4, count := 8, cls := .dat },
  { off := chStrCtl, cls := .ctl, wm := 0x3 },
  { off := chStrCfg, cls := .ctl, buf := true, wm := 0x7 },
  { off := chStrDbaseLo, cls := .dat, buf := true, wm := 0xFFFFFFFF },
  { off := chStrDbaseHi, cls := .dat, buf := true, wm := 0x3F },
  { off := chStrDsize, cls := .dat, buf := true, wm := 0x1FFFFFF },
  { off := chStrRing, cls := .dat, buf := true, wm := 0x3FFFFF },
  { off := chStrRlen, cls := .dat, buf := true, wm := 0x3FFFF, reset := 0x4 },
  { off := chStrLowwm, cls := .dat, buf := true, wm := 0x1FFFFFF },
  { off := chStrWptr, cls := .dat, wm := 0xFFFFFFFF },
  { off := chStrRptr, cls := .dat },
  { off := chStrSts, cls := .dat },
  { off := chStrFlags, cls := .sts, fl := 0x7F },
  { off := chUnderrunTicks, cls := .cnt, wm := 0xFFFFFFFF },
  { off := chUnderrunTicks + 4, cls := .cnt, wm := 0xFFFFFFFF },
  { off := chStrGaps, cls := .cnt, wm := 0xFFFFFFFF },
  { off := chStrPlayed, cls := .cnt, wm := 0xFFFFFFFF },
  { off := chNcoCtl, cls := .ctl, buf := true, wm := 0x3 },
  { off := chNcoFtwLo, cls := .dat, buf := true, wm := 0xFFFFFFFF },
  { off := chNcoFtwHi, cls := .dat, buf := true, wm := 0xFFFF },
  { off := chNcoAmp, cls := .dat, buf := true, wm := 0xFFFFFFFF },
  { off := chNcoPoff, cls := .dat, buf := true, wm := 0xFFFFFFFF },
  { off := chNcoPinitLo, cls := .dat, buf := true, wm := 0xFFFFFFFF },
  { off := chNcoPinitHi, cls := .dat, buf := true, wm := 0xFFFF } ]

/-- Registers of group CH, part 6. -/
def chRows6 : List RegRow := [
  { off := chNcoPhLo, cls := .dat },
  { off := chNcoPhHi, cls := .dat },
  { off := chNcoOut, cls := .dat },
  { off := chMeasCtl, cls := .ctl, wm := 0xFF },
  { off := chMeasCfg, cls := .ctl, buf := true, wm := 0x1FF },
  { off := chMeasSts, cls := .dat },
  { off := chMeasFlags, cls := .sts, fl := 0x7F },
  { off := chMeasDrop, cls := .cnt, wm := 0xFFFFFFFF },
  { off := chPansBase, cls := .dat, buf := true, wm := 0x7FFFF },
  { off := chPansSize, cls := .dat, buf := true, wm := 0xFFFFF },
  { off := chPansWm, cls := .dat, buf := true, wm := 0xFFFFFFF, reset := 0x1 },
  { off := chPansWptr, cls := .dat },
  { off := chPansRptr, cls := .dat, wm := 0xFFFFFFFF },
  { off := chPansSptr, cls := .dat },
  { off := chPansLost, cls := .cnt, wm := 0xFFFFFFFF },
  { off := chSpillDbaseLo, cls := .dat, buf := true, wm := 0xFFFFFFFF },
  { off := chSpillDbaseHi, cls := .dat, buf := true, wm := 0x3F },
  { off := chSpillDsize, cls := .dat, buf := true, wm := 0xFFFFFFF },
  { off := chBrnDbaseLo, cls := .dat, buf := true, wm := 0xFFFFFFFF },
  { off := chBrnDbaseHi, cls := .dat, buf := true, wm := 0x3F },
  { off := chBrnDsize, cls := .dat, buf := true, wm := 0x7FFFFFF },
  { off := chBrnWptr, cls := .dat },
  { off := chBrnRptr, cls := .dat, wm := 0xFFFFFFFF },
  { off := chBrnCfg, cls := .dat, buf := true, wm := 0x1F, reset := 0xC } ]

/-- Registers of group CH, part 7. -/
def chRows7 : List RegRow := [
  { off := chBrnLost, cls := .cnt, wm := 0xFFFFFFFF },
  { off := chApdDly, stride := 16, count := 64, cls := .dat, buf := true, wm := 0x3FFFFFF },
  { off := chApdLen, stride := 16, count := 64, cls := .dat, buf := true, wm := 0xFFFFFFFF },
  { off := chApdCfg, stride := 16, count := 64, cls := .dat, buf := true, wm := 0x7FFF, reset := 0x1 } ]

/-- Registers of group CH. -/
def chRows : List RegRow := chRows1 ++ chRows2 ++ chRows3 ++ chRows4 ++ chRows5 ++ chRows6 ++ chRows7

/-- Registers of group FLT. -/
def fltRows : List RegRow := [
  { off := fltSts, cls := .sts, fl := 0xFFFFFF },
  { off := fltEsc, cls := .dat },
  { off := fltPers, cls := .dat },
  { off := fltSev0, cls := .dat, priv := true, voted := true, cov := true, wm := 0xFFFFFFFF },
  { off := fltSev1, cls := .dat, priv := true, voted := true, cov := true, wm := 0xFF },
  { off := fltReact, cls := .dat, priv := true, voted := true, cov := true, wm := 0xFFFFFFFF, reset := 0x7030100 },
  { off := fltLast, cls := .dat },
  { off := fltCnt, cls := .cnt, wm := 0xFFFFFFFF },
  { off := fltRepeats, cls := .cnt, wm := 0xFFFFFFFF },
  { off := fltFenced, cls := .dat },
  { off := fltUnfence, cls := .grd, priv := true, wm := 0xFFFFFFFF },
  { off := fltInj, cls := .grd, priv := true, wm := 0xFFFFFFFF },
  { off := fltSysFltRstsrc, cls := .dat } ]

/-- The registers of a group. -/
def rowsOf : Grp → List RegRow
  | .sys => sysRows
  | .upd => updRows
  | .core => coreRows
  | .eng => engRows
  | .tile => tileRows
  | .cmp => cmpRows
  | .cap => capRows
  | .psc => pscRows
  | .brm => brmRows
  | .evc => evcRows
  | .calE => calERows
  | .calD => calDRows
  | .fab => fabRows
  | .ode => odeRows
  | .memc => memcRows
  | .host => hostRows
  | .dma => dmaRows
  | .ch => chRows
  | .flt => fltRows

/-- The row and the copy at an offset of a group: address A + 4 of a guarded pair counts as its row (R629). -/
def findRow : List RegRow → Nat → Option (RegRow × Nat)
  | [], _ => none
  | r :: rs, rel =>
    if r.count = 1 then
      (if rel = r.off ∨ (r.cls = .grd ∧ rel = r.off + 4) then some (r, 0) else findRow rs rel)
    else if r.off ≤ rel ∧ rel < r.off + r.stride * r.count ∧ (rel - r.off) % r.stride = 0 then
      some (r, (rel - r.off) / r.stride)
    else findRow rs rel

/-- The number of the fault frame of each block (R571): 0 SYS, 1 + x core Cx, 9 ENG, 10 + t TILEt, 14 BRM, 15 FAB, 16 ODE,
17 MEMC, 18 HOST, 19 + n CHn. -/
def frameOff (f : Nat) : Nat :=
  if f = 0 then 0xF000 else if f < 9 then 0xE000 + 0x100 * (f - 1) else if f = 9 then 0x8F000
  else if f < 14 then 0xA0000 + 0x4000 * (f - 10) + 0x3E00 else if f = 14 then 0xBF000 else if f = 15 then 0xDF000
  else if f = 16 then 0xEF000 else if f = 17 then 0xF7000 else if f = 18 then 0xFF000
  else 0x100000 + 0x1000 * (f - 19) + 0xF00

/-- R607: the rows a frame does not hold. -/
def frameHas (f rel : Nat) : Bool :=
  if rel = 0x28 ∨ rel = 0x2C then decide ((1 ≤ f ∧ f < 9) ∨ (10 ≤ f ∧ f < 14) ∨ f = 15 ∨ f = 17)
  else if rel = 0x38 then decide (f = 0) else true

/-- R655: the place of a view offset. -/
def locate (o : Nat) : Option Loc :=
  if o < 0x10000 then
    if 0xF000 ≤ o ∧ o < 0xF03C then some ⟨.flt, 0, o - 0xF000⟩
    else if 0xE000 ≤ o ∧ o < 0xE800 ∧ o % 0x100 < 0x3C then some ⟨.flt, 1 + (o - 0xE000) / 0x100, o % 0x100⟩
    else if 0x150 ≤ o ∧ o < 0x1D0 then some ⟨.upd, (o - 0x150) / 16, (o - 0x150) % 16⟩
    else if 0x800 ≤ o ∧ o < 0x900 then some ⟨.core, (o - 0x800) / 32, o % 32⟩
    else some ⟨.sys, 0, o⟩
  else if o < 0x80000 then none
  else if o < 0x90000 then
    (if 0x8F000 ≤ o then some ⟨.flt, 9, o - 0x8F000⟩ else some ⟨.eng, 0, o - 0x80000⟩)
  else if o < 0xA0000 then none
  else if o < 0xB0000 then
    let t := (o - 0xA0000) / 0x4000
    let r := o % 0x4000
    if 0x3E00 ≤ r ∧ r < 0x3F00 then some ⟨.flt, 10 + t, r - 0x3E00⟩
    else if 0x400 ≤ r ∧ r < 0x800 then some ⟨.cmp, 16 * t + (r - 0x400) / 0x40, r % 0x40⟩
    else if 0x800 ≤ r ∧ r < 0xA00 then some ⟨.cap, 32 * t + (r - 0x800) / 16, r % 16⟩
    else if 0x1000 ≤ r ∧ r < 0x2000 then some ⟨.psc, 4 * t + (r - 0x1000) / 0x400, r % 0x400⟩
    else some ⟨.tile, t, r⟩
  else if o < 0xC0000 then
    (if 0xBF000 ≤ o then some ⟨.flt, 14, o - 0xBF000⟩
     else if 0xB1000 ≤ o ∧ o < 0xB3000 then some ⟨.evc, (o - 0xB1000) / 0x40, o % 0x40⟩
     else some ⟨.brm, 0, o - 0xB0000⟩)
  else if o < 0xC0400 then some ⟨.calE, (o - 0xC0000) / 0x100, o % 0x100⟩
  else if o < 0xC1000 then none
  else if o < 0xC2000 then some ⟨.calD, 0, o - 0xC1000⟩
  else if o < 0xD0000 then none
  else if o < 0xE0000 then (if 0xDF000 ≤ o then some ⟨.flt, 15, o - 0xDF000⟩ else some ⟨.fab, 0, o - 0xD0000⟩)
  else if o < 0xF0000 then (if 0xEF000 ≤ o then some ⟨.flt, 16, o - 0xEF000⟩ else some ⟨.ode, 0, o - 0xE0000⟩)
  else if o < 0xF8000 then (if 0xF7000 ≤ o then some ⟨.flt, 17, o - 0xF7000⟩ else some ⟨.memc, 0, o - 0xF0000⟩)
  else if o < 0x100000 then
    (if 0xFF000 ≤ o then some ⟨.flt, 18, o - 0xFF000⟩
     else if 0xF8100 ≤ o ∧ o < 0xF8200 then some ⟨.dma, (o - 0xF8100) / 32, o % 32⟩
     else some ⟨.host, 0, o - 0xF8000⟩)
  else if o < 0x140000 then
    let n := (o - 0x100000) / 0x1000
    let r := o % 0x1000
    if 0xF00 ≤ r then some ⟨.flt, 19 + n, r - 0xF00⟩ else some ⟨.ch, n, r⟩
  else none

/-- The view offset of a place. -/
def offOf (l : Loc) : Nat :=
  match l.grp with
  | .sys => l.rel
  | .upd => 0x150 + 16 * l.inst + l.rel
  | .core => 0x800 + 32 * l.inst + l.rel
  | .eng => 0x80000 + l.rel
  | .tile => 0xA0000 + 0x4000 * l.inst + l.rel
  | .cmp => 0xA0400 + 0x4000 * (l.inst / 16) + 0x40 * (l.inst % 16) + l.rel
  | .cap => 0xA0800 + 0x4000 * (l.inst / 32) + 16 * (l.inst % 32) + l.rel
  | .psc => 0xA1000 + 0x4000 * (l.inst / 4) + 0x400 * (l.inst % 4) + l.rel
  | .brm => 0xB0000 + l.rel
  | .evc => 0xB1000 + 0x40 * l.inst + l.rel
  | .calE => 0xC0000 + 0x100 * l.inst + l.rel
  | .calD => 0xC1000 + l.rel
  | .fab => 0xD0000 + l.rel
  | .ode => 0xE0000 + l.rel
  | .memc => 0xF0000 + l.rel
  | .host => 0xF8000 + l.rel
  | .dma => 0xF8100 + 32 * l.inst + l.rel
  | .ch => 0x100000 + 0x1000 * l.inst + l.rel
  | .flt => frameOff l.inst + l.rel

/-- The register at a place: the block holds it, and a frame only where R607 gives it. -/
def rowAt (l : Loc) : Option (RegRow × Nat) :=
  match findRow (rowsOf l.grp) l.rel with
  | none => none
  | some p => if l.grp = .flt ∧ ¬ frameHas l.inst l.rel then none else some p

/-- A fault source of R575: its class (FLT_LAST.CLASS), whether it reports a condition (kind L), and its severity at
reset. -/
structure Src where
  cls : Nat
  lvl : Bool
  sev : Nat
deriving DecidableEq, Repr

/-- Classes of FLT_LAST.CLASS (R608). -/
abbrev clsMem : Nat := 0
abbrev clsLoop : Nat := 1
abbrev clsAnalog : Nat := 2
abbrev clsClock : Nat := 3
abbrev clsSupply : Nat := 4
abbrev clsThermal : Nat := 5
abbrev clsFabric : Nat := 6
abbrev clsConfig : Nat := 7
abbrev clsAccess : Nat := 8
abbrev clsCal : Nat := 9
abbrev clsSeq : Nat := 10

/-- R575: the sources of a channel frame. -/
def srcCh : List Src := [
  ⟨clsLoop, true, 2⟩, ⟨clsLoop, false, 0⟩, ⟨clsLoop, false, 0⟩, ⟨clsLoop, false, 0⟩, ⟨clsLoop, false, 0⟩,
  ⟨clsMem, false, 3⟩, ⟨clsConfig, false, 2⟩, ⟨clsLoop, false, 1⟩, ⟨clsLoop, false, 1⟩, ⟨clsAnalog, false, 1⟩,
  ⟨clsSeq, false, 1⟩, ⟨clsSeq, false, 1⟩, ⟨clsMem, false, 2⟩, ⟨clsSeq, false, 1⟩, ⟨clsMem, false, 2⟩,
  ⟨clsConfig, false, 0⟩, ⟨clsConfig, true, 3⟩ ]

/-- R575: the sources of a tile frame; PSC_LIMIT takes the class of its entry (R581). -/
def srcTile : List Src := [
  ⟨clsAnalog, false, 1⟩, ⟨clsAnalog, false, 1⟩, ⟨clsAnalog, true, 3⟩, ⟨clsAnalog, true, 3⟩,
  ⟨clsAnalog, false, 1⟩, ⟨clsAnalog, false, 1⟩, ⟨clsAnalog, false, 1⟩, ⟨clsAnalog, false, 1⟩,
  ⟨clsCal, false, 0⟩, ⟨clsCal, false, 1⟩, ⟨clsCal, false, 2⟩, ⟨clsMem, false, 2⟩,
  ⟨clsThermal, true, 2⟩, ⟨clsThermal, true, 3⟩, ⟨clsSupply, true, 2⟩, ⟨clsClock, true, 3⟩, ⟨clsConfig, false, 0⟩ ]

/-- R575: the sources of the ENG frame. -/
def srcEng : List Src := [
  ⟨clsLoop, false, 3⟩, ⟨clsLoop, false, 3⟩, ⟨clsLoop, false, 3⟩, ⟨clsLoop, false, 3⟩, ⟨clsConfig, false, 0⟩ ]

/-- R575: the sources of the SYS frame. -/
def srcSys : List Src := [
  ⟨clsClock, true, 3⟩, ⟨clsClock, true, 3⟩, ⟨clsSupply, false, 0⟩, ⟨clsSupply, true, 3⟩, ⟨clsThermal, true, 2⟩,
  ⟨clsThermal, true, 3⟩, ⟨clsConfig, true, 3⟩, ⟨clsAccess, false, 0⟩, ⟨clsAccess, false, 0⟩, ⟨clsConfig, false, 0⟩ ]

/-- R575: the sources of a core frame. -/
def srcCore : List Src := [ ⟨clsMem, false, 0⟩, ⟨clsMem, false, 3⟩, ⟨clsSeq, false, 2⟩, ⟨clsAccess, false, 1⟩ ]

/-- R575: the sources of the MEMC frame. -/
def srcMemc : List Src := [
  ⟨clsMem, false, 0⟩, ⟨clsMem, false, 2⟩, ⟨clsMem, false, 0⟩, ⟨clsMem, false, 0⟩, ⟨clsMem, false, 3⟩,
  ⟨clsMem, false, 3⟩, ⟨clsClock, true, 3⟩, ⟨clsClock, true, 3⟩, ⟨clsConfig, false, 0⟩ ]

/-- R575: the sources of the FAB frame. -/
def srcFab : List Src := [
  ⟨clsFabric, true, 1⟩, ⟨clsFabric, true, 1⟩, ⟨clsFabric, true, 1⟩, ⟨clsFabric, true, 1⟩,
  ⟨clsFabric, false, 0⟩, ⟨clsFabric, false, 0⟩, ⟨clsFabric, false, 0⟩, ⟨clsFabric, false, 0⟩,
  ⟨clsFabric, true, 2⟩, ⟨clsFabric, true, 2⟩, ⟨clsFabric, true, 2⟩, ⟨clsFabric, true, 2⟩,
  ⟨clsConfig, true, 3⟩, ⟨clsConfig, false, 0⟩ ]

/-- R575: the sources of the BRM frame. -/
def srcBrm : List Src := [ ⟨clsConfig, true, 3⟩, ⟨clsConfig, false, 0⟩ ]

/-- R575: the sources of the ODE frame. -/
def srcOde : List Src := [ ⟨clsMem, false, 2⟩, ⟨clsConfig, false, 0⟩ ]

/-- R575: the sources of the HOST frame. -/
def srcHost : List Src := [ ⟨clsAccess, true, 1⟩, ⟨clsAccess, false, 1⟩, ⟨clsConfig, false, 0⟩ ]

/-- R575: the sources of frame `f`. -/
def srcsOf (f : Nat) : List Src :=
  if f = 0 then srcSys else if f < 9 then srcCore else if f = 9 then srcEng else if f < 14 then srcTile
  else if f = 14 then srcBrm else if f = 15 then srcFab else if f = 16 then srcOde else if f = 17 then srcMemc
  else if f = 18 then srcHost else srcCh

/-- Severities packed two bits each from source `i` on. -/
def packSev : List Src → Nat
  | [] => 0
  | s :: r => s.sev + 4 * packSev r

/-- R814: the core each interrupt is routed to at reset, and its enable; the table stands with the cores' registers. -/
def irqReset (i : Nat) : Nat := if i = 27 ∨ i = 28 then 9 else if i ≤ 38 then 8 else 0

/-- R710: THERM_TH by grade. -/
def thermReset : Nat := if Config.gradeE then 100 + 256 * 115 else 95 + 256 * 110

/-- The value of register copy `i` of row `r` at place `l` right after reset. Where the reset value depends on the
instance it is given here: LE_BRK (R234), FLT_SEV (R575, R608), the cores' vectors (R838), THERM_TH (R710), the clamp
thresholds (R493). -/
def resetAt (l : Loc) (r : RegRow) (i : Nat) : Nat :=
  match l.grp with
  | .ch => if r.off = chLeBrk ∧ i ≠ 0 then 0x7F800000 else r.reset
  | .flt =>
    if r.off = fltSev0 then packSev ((srcsOf l.inst).take 16)
    else if r.off = fltSev1 then packSev ((srcsOf l.inst).drop 16) else r.reset
  | .core => if r.off = coreVec ∨ r.off = coreNmivec then 0x5400000 + 0x80000 * l.inst else r.reset
  | .cmp => if r.off = cmpClthrv ∨ r.off = cmpClthri then 4095 * 65536 else r.reset
  | .sys => if r.off = sysCoreIrqrt then irqReset i else if r.off = sysThermTh then thermReset else r.reset
  | .tile => if r.off = tileThermTh then thermReset else r.reset
  | .fab => if r.off = fabUidLo then Config.uid.toNat % 4294967296 else if r.off = fabUidHi then Config.uid.toNat / 4294967296 else r.reset
  | _ => r.reset

/-- The reset value of the register at a view offset; 0 where there is none. [DESIGN CHOICE, log 19] -/
def regReset (o : Nat) : Word :=
  match locate o with
  | none => 0
  | some l => match rowAt l with
    | none => 0
    | some (r, i) => BitVec.ofNat 32 (resetAt l r i)

end Sys2Proof.Machine
end

