-- ==== Sys2Proof/Machine/ChanState.lean ====
section
/-! DEFINITION. The state of one source-measure channel beside its registers: state machine, law, supervisor, handover,
Rake, stream, oscillator, aperture, rings, rails and comparators. -/

namespace Sys2Proof.Machine

/-- Channel states (R71). -/
inductive ChState where
  | off | armed | active | service | fenced
deriving DecidableEq, Repr

/-- The output-off disposition in effect (R68); `loop` when the channel drives its output. -/
inductive Disp where
  | loop | highz | zeroV | zeroI
deriving DecidableEq, Repr

/-- A current-range code and a voltage range. -/
structure Rng where
  i : Nat
  v : Nat
deriving DecidableEq, Repr

/-- Full scales before and after a swap, as F32 values (R185). -/
structure Scales where
  vOld : Int
  vNew : Int
  iOld : Int
  iNew : Int
deriving DecidableEq, Repr

/-- An owed swap evaluation (R181): the outgoing set of the first owed swap and the ranges of its last samples. -/
structure Owed where
  out : Nat
  rng : Rng
deriving DecidableEq, Repr

/-- The law of a channel (R149, R171 to R192). -/
structure Law where
  /-- BANK_ACT. -/
  act  : Nat := 0
  /-- BANK_SHD in force. -/
  shd  : Nat := 0
  /-- Observer states. -/
  x    : List Int := []
  /-- Integral state. -/
  z    : Int := 0
  /-- FDAC value in force during the present tick. -/
  u    : Int := 0
  /-- FDAC value formed for the next own boundary. -/
  uNext : Int := 0
  /-- +1 when `u` was reduced by the upper output limit, −1 when raised by the lower one (R153). -/
  uLim : Int := 0
  uLimNext : Int := 0
  /-- The FDAC code at the pins (R50, R226). -/
  code : Int := 0
  /-- The loop is evaluated: a law output stands for the next boundary. -/
  run  : Bool := false
  /-- The next evaluation is a cold one (R189). -/
  cold : Bool := false
  owed : Option Owed := none
  /-- A waiting snapshot: the first boundary it may capture (R192). -/
  snap : Option Nat := none
  /-- The strobe's SWAP to be made at the next boundary (R178). -/
  swapReq : Bool := false
  /-- That strobe changed the commanded mode too: its swap serves the change (R178). -/
  swapMode : Bool := false
  /-- A change of the commanded mode whose swap is still to be made (R55, R176). -/
  modeReq : Bool := false
  /-- A swap into or out of ZERO_V or ZERO_I to be made at the boundary (R70): its target. -/
  dispReq : Option Nat := none
  /-- SHD of a strobe with SWAP = 0, applied after the boundary's hardware swap (R171). -/
  shdReq : Option Nat := none
  /-- The evaluation of the last own boundary was made. -/
  made : Bool := false
deriving DecidableEq, Repr

/-- The loop supervisor (R196 to R223), the safety runs (R86, R87) and autoranging counts (R265). -/
structure Sup where
  ramp     : Bool := false
  rampVal  : Int := 0
  /-- A ramp starts at this boundary from the measured value once its sample is known (R198). -/
  rampNew  : Bool := false
  inCompl  : Bool := false
  /-- Direction of the crossover: negative limit. -/
  cxNeg    : Bool := false
  cxTick   : Nat := 0
  /-- A crossover detected on the last samples, with its direction (R207). -/
  cxReq    : Option Bool := none
  hbReq    : Bool := false
  /-- A hand-back that CX_EN = 0 makes, until it takes effect (R235). -/
  hbForce  : Bool := false
  fallback : Bool := false
  fbReq    : Bool := false
  oscSign  : Int := 0
  oscCnt   : Nat := 0
  oscN     : Nat := 0
  oscBlank : Nat := 0
  safeV    : Nat := 0
  safeI    : Nat := 0
  sink     : Nat := 0
  safeCause : Bool := false
  arUp     : Nat := 0
  arDn     : Nat := 0
  /-- Last samples received since the channel left OFF, and those before them. -/
  last     : Option (Int × Int) := none
  last2    : Option (Int × Int) := none
  /-- The present target rF and the set-point used at the last boundary. -/
  rF       : Int := 0
  rUse     : Int := 0
  /-- The compliance limit used at the last boundary. -/
  lim      : Int := 0
  /-- OFF_RAMP: the command that takes effect once the target reaches zero (R79), and whether it has. -/
  offCmd   : Option Nat := none
  /-- The swap requests that the entry into an output-off disposition beats at this boundary (R175, R176). -/
  beaten   : Nat := 0
  /-- Its ramp starts at this boundary from the present target (R204). -/
  offNew   : Bool := false
  offZero  : Bool := false
deriving DecidableEq, Repr

/-- A finished run whose fit is being solved (R229): the sums, VFS, IFS and SR_DIV of the run, and the last tick of the fit. -/
structure LeFit where
  sums : List Int
  vfs  : Nat
  ifs  : Nat
  div  : Nat
  due  : Nat := 0
deriving DecidableEq, Repr

/-- The load estimator (R224 to R232). -/
structure Le where
  /-- START latched; the run begins at the next own boundary. -/
  start  : Bool := false
  run    : Bool := false
  /-- Own samples taken in the run. -/
  idx    : Nat := 0
  total  : Nat := 0
  chip   : Nat := 1
  /-- PRBS register, 11 bits. -/
  lfsr   : Nat := 2047
  sums   : List Int := []
  fit    : Option LeFit := none
deriving DecidableEq, Repr

/-- Handover states (R243). -/
inductive HoSt where
  | idle | window | due | handed
deriving DecidableEq, Repr

/-- What a handover forms in the first tick of its window (R186): the target set, the full scales before and after it, and the entry
gains. -/
structure HoPre where
  set   : Nat
  sc    : Scales
  gains : List Coef
deriving DecidableEq, Repr

/-- The range handover of a channel (R236 to R266). -/
structure Ho where
  st     : HoSt := .idle
  volt   : Bool := false
  frm    : Nat := 0
  dst    : Nat := 0
  win    : Nat := 0
  skip   : Nat := 0
  tol    : Nat := 0
  /-- Own boundaries since Ts, the present one included. -/
  j      : Nat := 0
  sum    : Int := 0
  cnt    : Nat := 0
  defers : Nat := 0
  pend   : Option (Bool × Nat) := none
  /-- Requests that take effect at the next own boundary, oldest first (kind, target). -/
  reqs   : List (Bool × Nat) := []
  /-- Reason of an abandonment that takes effect at the next own boundary. -/
  abandon : Option Nat := none
  /-- The boundary at which a handover was complete (R241, R247). -/
  endAt  : Option Nat := none
  /-- What the first tick of the window has formed (R186): the target set, the full scales of the handover, and the entry gains. -/
  pre    : Option HoPre := none
deriving DecidableEq, Repr

/-- No handover runs: what CHn_HO_STS shows of the last one stays. -/
def Ho.rest (h : Ho) : Ho := { volt := h.volt, frm := h.frm, dst := h.dst, defers := h.defers }

/-- Rake states (R276). -/
inductive RkSt where
  | stopped | running | waiting | paused | starved
deriving DecidableEq, Repr

/-- The values that the entry or segment in force supplies (R60, R289). -/
structure RkVal where
  /-- The set-point code; none where it is CHn_SP (R344). -/
  force : Option Int := none
  limit : Int := 0
  /-- MODE = 3 (R287). -/
  off   : Bool := false
  /-- The reference ranges of the limit and of the set-point. -/
  ref   : Rng := ⟨15, 0⟩
  fref  : Rng := ⟨15, 0⟩
deriving DecidableEq, Repr

/-- An open loop (R296). -/
structure Loop where
  left    : Nat
  forever : Bool
  body    : Nat
deriving DecidableEq, Repr

/-- A granule as read: its samples, or the entry with an uncorrectable error. -/
structure Gran where
  smp : List Int
  bad : Option Nat := none
deriving DecidableEq, Repr

/-- Where the first granule of a repetition comes from. -/
inductive First where
  | ring | absent
  | own (g : Gran)
deriving DecidableEq, Repr

/-- What the decision for the next own boundary has chosen (R290 to R299, R312 to R314, R342). -/
inductive Next where
  | entry (idx : Nat) (w : List Nat)
  | rep   (seg : Nat) (enter : Bool) (left : Nat) (first : First)
  | gran  (first : First)
  | resume
  | stop  (why : Nat)
  | fault (idx reason : Nat)
deriving DecidableEq, Repr

/-- A decision and the loop stack, counter and latch it leaves. -/
structure Decision where
  next  : Next
  loops : List Loop := []
  /-- CHn_RAKE_CNT clears, the jump latch clears. -/
  clrCnt : Bool := false
  clear : Bool := false
  /-- A POINT or a repetition ends at the boundary. -/
  done  : Bool := false
  /-- The entries that a decision under way has read. -/
  reads : List Nat := []
deriving DecidableEq, Repr

/-- The Rake of a channel (R276 to R316). -/
structure Rake where
  st      : RkSt := .stopped
  /-- The state PAUSE left. -/
  back    : RkSt := .running
  /-- Commands latched for the next own boundary: 0 STOP, 1 PAUSE, 2 RESUME, 3 START, which in PAUSED is RESUME (R277, R316),
  4 CHECK. -/
  cmds    : List Nat := []
  pos     : Nat := 0
  val     : Option RkVal := none
  /-- The commanded mode FI that the entries give (R55). -/
  fi      : Option Bool := none
  /-- An entry fault or a timeout stopped the Rake at the present boundary (R306). -/
  errStop : Bool := false
  /-- Own samples of dwell or timeout left, the present one included. -/
  left    : Nat := 0
  /-- The entry or sample in force began at the boundary of a PAUSE: none of its dwell is used (R285). -/
  fresh   : Bool := false
  je      : Bool := false
  cinc    : Bool := false
  loops   : List Loop := []
  sweep   : Nat := 0
  begun   : Nat := 0
  jlatch  : Bool := false
  /-- The jump latch as it stood at the last own boundary (R290). -/
  jOld    : Bool := false
  /-- The WAIT in force: its words and the first tick whose firings count (R302). -/
  wait    : List Nat := []
  wFrom   : Nat := 0
  /-- A firing counted for the WAIT was latched before the last own boundary. -/
  wHit    : Bool := false
  seg     : Nat := 0
  repLeft : Nat := 0
  /-- Granule of the repetition, sample of the granule, and the granule being played. -/
  gi      : Nat := 0
  si      : Nat := 0
  cur     : List Int := []
  /-- The next granule of a resident repetition, once read. -/
  pre     : Option Gran := none
  /-- A streamed granule stood in the ring or the buffer in cycle 0 of the last own boundary. -/
  strOk   : Bool := false
  next    : Option Decision := none
  segOk   : Bool := false
  checking : Bool := false
  stopWhy : Nat := 0
  /-- Boundary B of an under-run gap, whether granule p is the first of its repetition, and GO_SAFE. -/
  gapB    : Nat := 0
  gapFirst : Bool := false
  gapSafe : Bool := false
deriving DecidableEq, Repr

/-- The streaming ring of a channel (R326 to R343). -/
structure Stream where
  /-- Granules read by the Rake: their slots are free. -/
  pos    : Nat := 0
  /-- A granule read and not yet played. -/
  buf    : Option Gran := none
  halted : Bool := false
deriving DecidableEq, Repr

/-- Aperture states (R378). -/
inductive ApSt where
  | idle | delay | integ | write
deriving DecidableEq, Repr

/-- The sample of the present own boundary as the measurement path sees it (R367 to R369). -/
structure MSamp where
  v    : Int := 0
  i    : Int := 0
  miss : Bool := true
  ovr  : Bool := false
  compl : Bool := false
  rng  : Rng := ⟨15, 0⟩
deriving DecidableEq, Repr

/-- The aperture of a channel (R370 to R386). -/
structure Aper where
  st    : ApSt := .idle
  desc  : Nat := 0
  dly   : Nat := 0
  cfg   : Nat := 0
  /-- Boundary S; own boundaries since S. -/
  s     : Nat := 0
  k     : Nat := 0
  /-- Fabric time of the boundary at which integration began. -/
  time  : Option Int := none
  /-- N, and own samples counted since integration began. -/
  n     : Nat := 0
  done  : Nat := 0
  /-- Samples received, sums, least and greatest values, samples with IN_COMPL = 1. -/
  nr    : Nat := 0
  sv    : Int := 0
  si    : Int := 0
  minV  : Int := 0
  maxV  : Int := 0
  minI  : Int := 0
  maxI  : Int := 0
  /-- The ranges in which the extremes were taken (R388), and the mode in effect at the last integrated sample: FI. -/
  minVr : Nat := 0
  maxVr : Nat := 0
  minIr : Nat := 0
  maxIr : Nat := 0
  fi    : Bool := false
  nCompl : Nat := 0
  /-- P used, LINE_NOM used, and the tick of the first crossing since the delay ended (R385, R386). -/
  lineP : Nat := 0
  lineNom : Bool := false
  crossed : Option Nat := none
  sweep : Nat := 0
  rng   : Rng := ⟨15, 0⟩
  rchg  : Bool := false
  gap   : Bool := false
  ovr   : Bool := false
  miss  : Bool := false
deriving DecidableEq, Repr

/-- A record waiting to be written into the Pans ring (R387 to R390): its fields but the CRC. -/
structure Rec where
  time  : Int
  sweep : Nat
  flags : Nat
  v     : Int
  i     : Int
  aux   : Int
  /-- The absolute cycle by which it is written (R378, R389). -/
  due   : Nat := 0
deriving DecidableEq, Repr

/-- A word of the Brine stream: whether it is a sample, the lost samples that its own loss leaves to be told of, and the tick of the
first of them (R407, R412). -/
structure BWord where
  w    : Nat
  smp  : Bool := false
  told : Nat := 0
  tick : Nat := 0
deriving DecidableEq, Repr

/-- The Brine stream of a channel (R406 to R412): the words of the line being filled, the tick of the first, the next sample's
index since enable, the pins of the last RANGE marker, and the loss to report. -/
structure Brine where
  line  : List BWord := []
  first : Nat := 0
  idx   : Option Nat := none
  pins  : Option (Nat × Nat × Nat) := none
  lost  : Nat := 0
  lostAt : Nat := 0
  /-- A SYNC is due before the next sample, since a LOST marker has been written (R407). -/
  sync : Bool := false
deriving DecidableEq, Repr

/-- The measurement path of a channel: apertures, Pans ring and Brine stream (R370 to R413). -/
structure Meas where
  /-- A record has been written into the ring since WPTR was reset (R796). -/
  stored  : Bool := false
  ap      : Aper := {}
  cur     : MSamp := {}
  /-- The Rake's MEAS of the present boundary. -/
  rakeReq : Option Nat := none
  /-- An under-run gap ended at the present boundary: B, its length and the sweep index in force at B (R350, R351). -/
  gapReq  : Option (Nat × Nat) := none
  gapSweep : Nat := 0
  /-- GO and MEAS_START requests for the next own boundary. -/
  goReq   : Option Nat := none
  evReq   : Bool := false
  abort   : Bool := false
  recs    : List Rec := []
  /-- Records dropped since the last LOST record, and the TIME of the first. -/
  dropped : Nat := 0
  dropTime : Int := 0
  brine   : Brine := {}
deriving DecidableEq, Repr

/-- The tracking-supply rails and PWM counters of a channel (R95 to R101), and the general timer. -/
structure Rail where
  /-- Rail targets in use, in units of 2^-179 V. -/
  th      : Int := 0
  tl      : Int := 0
  /-- Boundary of the last rise; RAILS_OK. -/
  rise    : Nat := 0
  ok      : Bool := true
  /-- The own boundary at which the targets were last formed (R98), and RAIL_FS as used since (R865). -/
  formed  : Option Nat := none
  fs      : Nat := 0
  dutyH   : Nat := 0
  dutyL   : Nat := 0
  /-- Dither carried from period to period, and the on-time of the present period in cycles. -/
  ditH    : Int := 0
  ditL    : Int := 0
  onH     : Nat := 0
  onL     : Nat := 0
  /-- The outputs are high, and the absolute cycle in which each falls within the present period. -/
  hiH     : Bool := false
  hiL     : Bool := false
  fallH   : Option Nat := none
  fallL   : Option Nat := none
deriving DecidableEq, Repr

/-- The comparators and the fast clamp of a channel (R462 to R493): bit k is comparator k. -/
structure Comp where
  /-- Registered outputs. -/
  out    : Nat := 0
  /-- Outputs as the clamp sees them, before registration. -/
  raw    : Nat := 0
  trip   : Bool := false
  /-- Base ticks of zero reading of every clamp comparator since the trip (R489). -/
  zero   : Nat := 0
  /-- The release condition has been met (R489). -/
  met    : Bool := false
  /-- A release key waits for the next own boundary (R490). -/
  relKey : Bool := false
  /-- The last boundary drove CLAMP_N by the comparators (R92). -/
  driven : Bool := false
  /-- The absolute cycle in which the next window of the sampling timer begins (R470). -/
  smpAt  : Option Nat := none
deriving DecidableEq, Repr

/-- The trims of a channel (R463, R525, R864): the present comparator taps, the present and the wanted delay taps, and the
cell selection. The wanted comparator taps are those of CMP_TRIMn. -/
structure Trim where
  cmp   : List Int := [0, 0, 0, 0]
  dly   : List Nat := [0, 0, 0]
  dlyTo : List Nat := [0, 0, 0]
  cells : List Nat := []
deriving DecidableEq, Repr

/-- A coefficient-set command in progress (R162). -/
structure Vfy where
  set     : Nat
  written : Bool
deriving DecidableEq, Repr

/-- One channel. -/
structure Chan where
  state : ChState := .off
  disp  : Disp := .highz
  /-- Commands latched for the next own boundary (codes of R72), in order of latching. -/
  cmds  : List Nat := []
  /-- The lane slot is reserved (R137). -/
  slot  : Bool := false
  /-- ORD_RES and SR_DIV accepted for admission, in force or pending (R142, R148). -/
  resOrd : Nat := 6
  resDiv : Nat := 1
  /-- Commanded mode in effect: FI (R55). -/
  fi    : Bool := false
  /-- Active ranges: RNG_P code and voltage range of the samples. -/
  rng   : Rng := ⟨15, 0⟩
  /-- A strobe changed CHn_SP, and the ramp flag it carries (R197, R203). -/
  spNew : Option Bool := none
  law   : Law := {}
  sup   : Sup := {}
  le    : Le := {}
  ho    : Ho := {}
  rake  : Rake := {}
  str   : Stream := {}
  /-- NCO accumulator, the accumulator of the next boundary, and n(k). -/
  acc   : Nat := 0
  accNext : Nat := 0
  nco   : Int := 0
  /-- A strobe applied PRESET (R359). -/
  preset : Bool := false
  /-- OUT_EN, RNG_P, RNG_S and VRNG at the pins. -/
  outEn : Bool := false
  rngP  : Nat := 15
  rngS  : Nat := 15
  vrngP : Nat := 0
  meas  : Meas := {}
  rail  : Rail := {}
  comp  : Comp := {}
  trim  : Trim := {}
  valid : BitVec 16 := 0
  vfy   : Option Vfy := none
  /-- CHn_UNFENCE has been written: the channel leaves FENCED at its next boundary (R22, R41). -/
  unf   : Bool := false
  /-- Task firings within the last 16 cycles that carry a tag: task, cycle, tag (R553). -/
  tags  : List (Nat × Nat × Nat) := []
deriving DecidableEq, Repr

/-- Converter states (R440). -/
inductive PscSt where
  | idle | regular | injected | cal
deriving DecidableEq, Repr

/-- What a modulator edge brings into effect (R433, R438, R439): a regular or an injected trigger, STOP, SEQ_EN = 0. -/
inductive PscEv where
  | reg | inj | stop | off
deriving DecidableEq, Repr

/-- A precision scan converter (R430 to R455). Times are absolute cycles. -/
structure Psc where
  st      : PscSt := .idle
  /-- 0 free, 1 user sequences, 2 calibration (R451). -/
  own     : Nat := 0
  row     : Nat := 0
  /-- The entry's SETTLE cycles have passed (R427). -/
  settled : Bool := false
  /-- The pending regular trigger (R436). -/
  pend    : Bool := false
  /-- What has been latched for the next modulator edges, each with the cycle of its latching, in order (R433). -/
  q       : List (Nat × PscEv) := []
  /-- SEQ_EN = 0 has been applied (R439). -/
  off     : Bool := false
  /-- The interrupted row of a regular pass (R434). -/
  ret     : Option Nat := none
  /-- MODE, REG_LEN and INJ_LEN of the running pass (R432). -/
  cont    : Bool := false
  regLen  : Nat := 1
  injLen  : Nat := 0
  /-- The four entry registers of the running entry. -/
  ent     : List Nat := []
  /-- The modulator edge at which the pending trigger's pass starts (R432, R436). -/
  startAt : Option Nat := none
  /-- The modulator edge at which the running entry starts, that of the end of its SETTLE, and that of its result (R427, R428). -/
  from_   : Nat := 0
  setAt   : Nat := 0
  due     : Nat := 0
  /-- The modulator's samples that the filter keeps from result to result (R428). -/
  flt     : List Int := []
  /-- The gate of SRC = 3 is armed (R444). -/
  gate    : Bool := false
  /-- The next expiry of the timer (R443). -/
  tmr     : Option Nat := none
  /-- Edges of the tile's PWM outputs that are still to come or to be looked at: cycle, and four times the local channel plus
  0 to 3 for H rising, H falling, L rising, L falling (R444, R446). -/
  edges   : List (Nat × Nat) := []
  /-- Edges whose DELAY runs: the cycle at which each is latched (R445). -/
  dly     : List Nat := []
deriving DecidableEq, Repr

/-- States of a step engine (R503). -/
inductive CalSt where
  | idle | bus | measure | commit
deriving DecidableEq, Repr

/-- The calibration step engine of a tile (R500 to R518): the registers read at GO, the bus configuration, the point and
its readings, the points measured, and for COMMIT the boundary M and the copy to be used. -/
structure CalStep where
  st      : CalSt := .idle
  step    : Nat := 0
  cfg     : Nat := 0
  time    : Nat := 0
  bus     : Nat := 0
  /-- The tick in which the bus was asked for, or the present point began (R498, R505). -/
  from_   : Nat := 0
  pt      : Nat := 0
  settled : Bool := false
  /-- The absolute cycle of the next reading, and the modulator's samples that the filter keeps (R428, R505). -/
  due     : Nat := 0
  flt     : List Int := []
  rd      : List (Int × Int) := []
  pts     : List (List (Int × Int)) := []
  m       : Nat := 0
  slot    : Nat := 0
  /-- The taps that CHECK has found (R531 to R533). -/
  taps    : List Int := []
deriving DecidableEq, Repr

/-- What a tile holds beside its registers: step engine, buried-reference tap and the tap wanted (R525, R533), the source on
which the Pip's switch is held open (R459), and by local converter what VSTD has recorded of the buried reference and of the
Pip (R500). -/
structure Tile where
  cal    : CalStep := {}
  refTap : Int := 0
  refTo  : Int := 0
  pipHeld : Option Nat := none
  /-- R_PIP as trimmed. -/
  rsrc   : Nat := 0
  refRd  : List Int := [0, 0, 0, 0]
  pipRd  : List Int := [0, 0, 0, 0]
deriving DecidableEq, Repr

end Sys2Proof.Machine
end

