-- ==== Sys2Proof/Machine/UnitState.lean ====
section
/-! DEFINITION. The state of the units around the channels: what the device sends, Bramble contributions, pins, strobes,
start-up, fabric ports and transactions, the dictionary's queue, DMA engines, the UART loader and the test port. -/

namespace Sys2Proof.Machine

/-- A contribution of a producer or of a software fire that an armed event channel has registered (R538): the channel,
the absolute CLK_CONV cycle, the slot (8 for the software fire) and the inherited tag. -/
structure Contrib where
  evc  : Nat
  cyc  : Nat
  slot : Nat
  tag  : Option Nat
deriving DecidableEq, Repr

/-- The last event that an event channel has passed: the cycle in which its listeners fired, and whether COINCIDE has counted it
(R302, R539, R543, R550). -/
structure Passed where
  cyc   : Nat
  twice : Bool
deriving DecidableEq, Repr

/-- A value held for a requester at a view offset: the first word of a guarded pair (R629), the low word of a counter
(R621) or a latched high word (R620). -/
structure Held where
  req : Req
  off : Nat
  val : Word
  /-- Base ticks since it was written. -/
  age : Nat := 0
deriving DecidableEq, Repr

/-- A pending strobe of an update group (R648, R649). -/
structure Strobe where
  /-- The captured shadows: view offset and value. One that is not listed was captured at its reset value. -/
  vals : List (Nat × Word)
  /-- Boundary A. -/
  at_  : Nat
  /-- ORD_RES and SR_DIV reserved before it, by channel, restored when it fails at A (R650). -/
  undo : List (Nat × Nat × Nat)
  /-- The channels whose CHn_GRP named the group at the capture. -/
  mine : List Nat := []
  /-- The first shadow of each other unit that the group named, and whether it named the TRIG pins. -/
  units : List Nat := []
  pins  : Bool := false
  /-- The shadows whose SWAP or PRESET was written 1 since the capture: requests of the next strobe (R645). -/
  again : List Nat := []
deriving DecidableEq, Repr

/-- What the device sends outside: non-maskable interrupts and core starts, fabric frames (with their link sequence number,
the CRC-32 that ends them, R729, and whether their end marker is valid, R736) and control blocks, PCI Express
completions, host-memory writes and MSI-X messages, serial bytes and flash commands, and test-port data. -/
inductive Out where
  | nmi (core frame : Nat)
  | start (core pc : Nat)
  | accessFault (core : Nat) (store : Bool)
  | frame (port lseq : Nat) (f : Frame) (crc : Word) (endOk : Bool)
  | ctrl (port : Nat) (nak : Bool) (lseq : Nat)
  | cpl (data : Option (List Byte))
  | hostWrite (addr : Nat) (data : List Byte)
  | hostRead (addr len : Nat)
  | msix (vec : Nat)
  | uart (b : Byte)
  | xspi (opcode addr : Nat) (data : List Byte)
  | jtag (instr : Nat) (data : List Nat)
deriving DecidableEq, Repr

/-- A TRIG pin (R564 to R567): the level driven from outside, the level driven by the device, the absolute cycle in which
a pulse ends. -/
structure Trig where
  level : Bool := false
  out   : Bool := false
  till  : Option Nat := none
deriving DecidableEq, Repr

/-- The ALIVE pin (R595 to R597), and the base ticks to its next transition. -/
structure Alive where
  on    : Bool := false
  level : Bool := false
  left  : Nat := 0
  /-- An ALIVE_STOP has stopped it and its next transition is still to come (R596). -/
  held  : Bool := false
  /-- Base ticks of the 1 µs within which it stops that are left (R595). -/
  soon  : Nat := 0
deriving DecidableEq, Repr

/-- The UART loader of the boot ROM (R836): 0 prompting, 1 0x55 received, 2 length, 3 data, 4 CRC, 5 verification. -/
structure Loader where
  on  : Bool := false
  st  : Nat := 0
  buf : List Byte := []
  len : Nat := 0
  pos : Nat := 0
deriving DecidableEq, Repr

/-- Start-up (R659 to R692). -/
structure Boot where
  /-- 0 the device drives RESET_N, 1 released and not yet 5 µs high, 2 the sequence runs. -/
  phase  : Nat := 0
  /-- Load attempts of this sequence, by die. -/
  tries  : Tbl Nat := []
  /-- PCI Express and the ports that the strap enables (R673). -/
  pcie   : Bool := false
  /-- The PCI Express PHY did not qualify in time and stays in reset (R679). -/
  phyHeld : Bool := false
  ports  : Nat := 0
  /-- An image has been verified and waits for the end of step 4 (R682). -/
  ok     : Bool := false
  /-- A verification runs, and its source as SYS_BOOT_STS.SRC. -/
  busy   : Bool := false
  src    : Nat := 0
  loader : Loader := {}
  /-- Tiles whose trim load a block reset reruns (R690). -/
  reload : List Nat := []
  /-- Tiles whose factory calibration has been loaded (R526), and those of them not yet released (R864). -/
  filled : List Nat := []
  fresh  : List Nat := []
deriving DecidableEq, Repr

/-- A frame sent and not yet acknowledged (R734). -/
structure Sent where
  frame : Frame
  lseq  : Nat
  tries : Nat
  /-- Its last attempt has been acknowledged; it is kept while a frame sent before it waits (R734). -/
  acked : Bool := false
deriving DecidableEq, Repr

/-- A fabric port (R727, R734). -/
structure Port where
  lseq : Nat := 0
  sent : List Sent := []
  /-- TIME frames have been exchanged on the link since it came up (R756). -/
  timed : Bool := false
  /-- The partner's last T_tx and its arrival time, as a TIME frame carries them (R731). -/
  heard : Option (List Byte) := none
  /-- Base ticks of training (R727). -/
  train : Nat := 0
deriving DecidableEq, Repr

/-- A local dictionary request as its descriptor gives it (R784). -/
structure LocAsk where
  idx   : Nat
  sub   : Nat
  raw   : Bool
  write : Option (List Byte)
deriving DecidableEq, Repr

/-- A read that is not completed yet (R749), with the base ticks since it arrived. -/
structure SlowRead where
  src : Nat
  tag : Nat
  age : Nat := 0
deriving DecidableEq, Repr

/-- An outstanding transaction (R751 to R754, R790). -/
structure Txn where
  tag   : Nat
  op    : Nat
  port  : Option Nat
  dst   : Nat
  user  : Nat
  dptr  : Nat
  room  : Nat
  /-- The DTAG of a PENDING answer (R791). -/
  dtag  : Option Nat
  /-- A reply held while the completion ring is full (R754). -/
  held  : Option (Nat × Nat × Nat × List Byte)
  /-- The second completion of a request whose PENDING completion is held (R790, R791). -/
  next  : Option (Nat × Nat × Nat × List Byte) := none
  /-- A local dictionary request that waits for the engine (R784). -/
  ask   : Option LocAsk := none
  /-- Base ticks since it was sent, or was answered PENDING (R753, R791). -/
  age   : Nat := 0
deriving DecidableEq, Repr

/-- A request that this node has handed over on its last hop and that is not yet answered, and the base ticks since (R750). -/
structure Transit where
  port : Nat
  src  : Nat
  tag  : Nat
  age  : Nat := 0
deriving DecidableEq, Repr

/-- Harvest maps (R797). -/
structure HvMaps where
  dn    : List Nat := []
  up    : List Nat := []
  dnLen : Nat := 0
  upBase : Nat := 0
  upLen : Nat := 0
deriving DecidableEq, Repr

/-- The Harvest exchange of the present frame (R763 to R765, R797 to R801). -/
structure Hv where
  /-- A frame has started since reset. -/
  begun : Bool := false
  start : Nat := 0
  /-- A frame starts in the present tick, and its exchange has not been begun. -/
  due   : Bool := false
  got   : List (Nat × List Byte) := []
  ups   : List Nat := []
  sent  : Bool := false
  fired : Bool := false
  maps  : HvMaps := {}
  next  : Option HvMaps := none
  /-- The map objects as written, by index × 256 + subindex. -/
  objs  : Tbl Nat := []
deriving DecidableEq, Repr

/-- The fabric (R723 to R768). -/
structure Fab where
  ports : Tbl Port := []
  txns  : List Txn := []
  nextTag : Nat := 0
  transit : List Transit := []
  reads : List SlowRead := []
  /-- The tick of the GO of a frame length, and the length (R762). -/
  frameGo : Option (Nat × Nat) := none
  hv    : Hv := {}
  /-- θ to be corrected by a step, in ps (R760). -/
  step  : Option Int := none
  /-- Base ticks since a TIME frame last arrived, by port (R759). -/
  quiet : List Nat := [0, 0, 0, 0]
  /-- Base ticks since each of the dictionary engine's latest requests arrived (R775). -/
  asks  : List Nat := []
deriving DecidableEq, Repr

/-- An entry of the firmware queue (R778, R779). -/
structure FwReq where
  dtag  : Nat
  slot  : Nat
  /-- INDEX and SUB (R787). -/
  key   : Nat
  write : Bool
  src   : Nat
  loc   : Bool
  tag   : Nat
  room  : Nat
deriving DecidableEq, Repr

/-- A DMA engine (R831 to R833): the descriptor whose data have moved and whose completion is to come. -/
structure Dma where
  cur : Option DmaDesc := none
deriving DecidableEq, Repr

/-- The update engine (R824 to R826). -/
structure Upd where
  slot : Nat
  src  : Nat
deriving DecidableEq, Repr

/-- The cores (R805 to R815). -/
structure Cpu where
  /-- Cores that complete a HALT (R810). -/
  halting : List Nat := []
  /-- The state a gated core left (R716, R717). -/
  back    : Tbl Nat := []
  /-- Cores asked to wake, with the boundaries until they run (R716). -/
  waking  : List (Nat × Nat) := []
  /-- Cores with MTIP raised. -/
  mtip    : List Nat := []
  mtimecmp : Tbl Nat := []
  /-- The cores' registers (R805, R810). -/
  regs    : Tbl CoreRegs := []
  /-- Events before the tiles' release that have shown mtime (the model's own, log 143). -/
  shown   : Nat := 0
  /-- Watchdogs' remaining time, in base ticks. -/
  wdog    : Tbl Nat := []
  upd     : Option Upd := none
deriving DecidableEq, Repr

/-- What the PCI Express configuration space tells of the device (R827): Vendor and Device ID, Class Code and Revision ID, the
subsystem's IDs, and the greatest payload, read request, speed and width; AER. It has one function and neither SR-IOV nor ATS. -/
structure Pcie where
  vendor    : Nat := 0x1FB7
  device    : Nat := 0x6464
  subVendor : Nat := 0x1FB7
  subsystem : Nat := 0x0001
  classCode : Nat := 0x118000
  revision  : Nat := 0xB1
  payload   : Nat := 512
  readReq   : Nat := 4096
  gen       : Nat := 4
  width     : Nat := 4
  aer       : Bool := true
  /-- What the link runs at since it came up: the generation and the lanes. -/
  speed     : Nat := 0
  lanes     : Nat := 0
  /-- The model's own: how often it has come up, the number by which those two have their free values. [DESIGN CHOICE, log 148] -/
  ups       : Nat := 0
  /-- Device Control. [PRESUMED, log 106] -/
  devCtl    : Nat := 0x2000
deriving DecidableEq, Repr

/-- The host port and serial interfaces (R827 to R836). -/
structure HostP where
  linkUp : Bool := false
  pcie   : Pcie := {}
  dma    : Tbl Dma := []
  /-- DMA engines and the xSPI unit whose interrupt line is held. -/
  dmaIrq : List Nat := []
  xspiIrq : Bool := false
  rx     : List Byte := []
  tx     : List Byte := []
  /-- CLK_PER cycles for which the oldest byte of `tx` has been on the line. -/
  txAcc  : Nat := 0
  /-- Lines that were high when MSI-X was last judged. -/
  lines  : List Nat := []
deriving DecidableEq, Repr

/-- The configuration CRC (R633 to R641): sets 0 to 66. -/
structure Crc where
  /-- Sets whose commit state differs from that at reset (R636). -/
  flipped : List Nat := []
  /-- Reference by set; none is that formed from the reset contents. -/
  refs    : Tbl (Option Nat) := []
  /-- The reference last written for a set, where it differs from that. -/
  wrote   : Tbl (Option Nat) := []
  /-- A pass over the set of SEL has not completed since a write (R637). -/
  pass    : Bool := false
  /-- A commit runs, with its set and reference (R639). -/
  run     : Option (Nat × Nat) := none
  /-- Channels whose commit takes effect at their next boundary (R633). -/
  late    : List Nat := []
  /-- Their committed contents by offset. -/
  lateVal : List (Nat × Nat) := []
deriving DecidableEq, Repr

/-- The clocks' throttle (R704 to R706) and the reference. -/
structure Clk where
  throttle : Bool := false
  /-- A throttle ends at the next boundary. -/
  ending   : Bool := false
  /-- Wake requests that wait for the end of TO_STANDBY (R712): those of channels and those to cores. -/
  wakeChans : List Nat := []
  wakeCores : List Nat := []
  /-- REF_SRC = 1 was written and the move of the reference is still to be made; the port whose clock the reference was last moved to
  (R699). -/
  move      : Bool := false
  refPort   : Nat := 0
  /-- Base ticks since a core-rail sensor last read below DROOP_TH (R704), and since holdover began (R700). -/
  quiet     : Nat := 0
  hold      : Nat := 0
  /-- Base ticks since each DDR5 channel began to train or was last accessed (R713, R821). -/
  ddr       : List Nat := [0, 0]
deriving DecidableEq, Repr

/-- The IEEE 1149.1 port: the instruction in force (0 IDCODE, 1 BYPASS, 2 SAMPLE/PRELOAD, 3 EXTEST, 4 SYSRD, 5 DBG). -/
structure Jtag where
  instr : Nat := 0
deriving DecidableEq, Repr

end Sys2Proof.Machine
end

