-- ==== Sys2Proof/Machine/State.lean ====
section
/-! DEFINITION. The state of the device as plain data, its faults and refusals, and the state after reset. -/

namespace Sys2Proof.Machine

/-- No command of the table ends the block: every outcome the spec gives is a next state. [DEDUCED, log 16] -/
inductive Fault where
deriving DecidableEq, Repr

/-- Why a command has no meaning. -/
inductive Refusal where
  /-- Raised by Dispatch.lean for a command without a meaning; safe, since nothing is claimed of it. -/
  | notModelled (mnemonic : String)
deriving DecidableEq, Repr

/-- The state of the device. -/
structure State where
  /-- Commands waiting, first in first out. -/
  pending : List Instr := []
  /-- The base tick counter (R29). -/
  tick    : Nat := 0
  /-- The first cycle of the present tick that the commands given with a cycle have not passed (log 2). -/
  cyc     : Nat := 0
  /-- The tile domains are released: base ticks run (R31, R680). -/
  running : Bool := false
  /-- Registers in force, by view offset; unlisted ones hold their reset value. -/
  regs    : Tbl Word := []
  /-- Shadows of mark B and working copies of mark C that differ from the reset value. -/
  shadow  : Tbl Word := []
  /-- Voted registers with one mismatched copy (R632). -/
  voteErr : List Nat := []
  /-- The model's own: while a channel's boundary is worked out, the STS registers whose SEQ has advanced in the cycle that
  the present part of it stands for (R627). -/
  seqRun  : Option (List Nat) := none
  /-- The model's own: the absolute cycle in which events acted last, with the STS registers whose SEQ has advanced in it (R627). -/
  seqAt   : Option (Nat × List Nat) := none
  /-- On-chip memories and the DDR5 window, by physical address; unlisted bytes read as zero. -/
  mem     : Tbl Byte := []
  /-- Words with an uncorrectable error, by the address of their codeword. -/
  memUE   : List Nat := []
  /-- Words with a correctable error that an injection has left, likewise. -/
  memCE   : List Nat := []
  chans   : Tbl Chan := []
  /-- Fenced tiles t, cores 16 + x, ports 32 + p and DDR5 channels 48 + x (R37). -/
  fenced  : List Nat := []
  /-- The model's own: the absolute cycle of the last fences, with the tiles, cores, ports and DDR5 channels fenced in it (R692). -/
  fenceAt : Option (Nat × List Nat) := none
  /-- Tiles held in reset: not yet released, held by R676 or R679, or reset by a block reset. -/
  held    : BitVec 4 := 15
  /-- Calibration objects whose copy B is in use (R519), objects whose copies are both bad (R528), and objects whose
  select bit flips at a boundary (R522, R527). -/
  calSel  : List Nat := []
  calBad  : List Nat := []
  calFlip : List (Nat × Nat) := []
  /-- Objects whose coefficients in use are not those of the copy in use until the next boundary whose tick is a multiple of
  4,000, with G, O and Q (R515, R529), and the tiles whose forming of coefficients has failed in this millisecond. -/
  calHold : Tbl (Option (Int × Int × Int)) := []
  calKeep : List Nat := []
  /-- The tiles' latest temperature words and those in use (R513, R515). -/
  tileT   : Tbl Word := []
  tileTUse : Tbl Word := []
  /-- Trim taps, converters, capture units and step engines of the tiles. -/
  tiles   : Tbl Tile := []
  pscs    : Tbl Psc := []
  /-- The phase of the modulator edges: the absolute cycles that leave this remainder modulo 32 (R418). At reset 0, a DESIGN
  CHOICE (log 59). -/
  auxPh   : Nat := 0
  contribs : List Contrib := []
  /-- The event that each event channel passed last. -/
  evcLast : Tbl (Option Passed) := []
  /-- Re-entries that each event channel passed, with their tick (R555). -/
  loopCnt : Tbl (Nat × Nat) := []
  /-- The absolute cycles of each task's latest firings: 1 by an event, 2 directly, 3 by both (R539, R549). -/
  fired   : Tbl (List (Nat × Nat)) := []
  trig    : Tbl Trig := []
  alive   : Alive := {}
  /-- Registered reactions of the set fault sources: frame × 32 + source, with the reaction byte; the fence unit is
  marked by bit 2. -/
  fltReg  : Tbl Nat := []
  /-- Causes of kind-L sources that are present: frame × 32 + source. -/
  causes  : List Nat := []
  /-- Faults that a fence has brought about and that register after it: frame and source. -/
  later   : List (Nat × Nat) := []
  /-- Consecutive ticks of failed and of good upward transfers, by tile (R577). -/
  linkBad : Tbl Nat := []
  linkGood : Tbl Nat := []
  guards  : List Held := []
  holds   : List Held := []
  latches : List Held := []
  strobes : Tbl (Option Strobe) := []
  crc     : Crc := {}
  /-- The absolute cycle of the refill engine's last move (R336). -/
  refillAt : Option Nat := none
  /-- The last crossing intervals of the tiles' line meters, newest first (R384). -/
  lines   : Tbl (List Nat) := []
  /-- Tiles whose line meter has met a crossing since it was enabled or given its source (R384). -/
  lineOn  : List Nat := []
  /-- Groups whose UPD_GRPg task has fired in the present cycle (R142). -/
  updDue  : List Nat := []
  /-- The absolute cycle in which each group's last strobe was latched (R647). -/
  updAt   : Tbl (Option Nat) := []
  boot    : Boot := {}
  fab     : Fab := {}
  fwq     : List FwReq := []
  nextDtag : Nat := 0
  cpu     : Cpu := {}
  hostp   : HostP := {}
  clk     : Clk := {}
  jtag    : Jtag := {}
  out     : List Out := []
deriving DecidableEq, Repr

/-- The device right after power-on (R659, R662): every register at its reset value, every tile held, no command waiting.
[DEDUCED, log 18] -/
def State.reset : State := {}

end Sys2Proof.Machine
end

