-- ==== Sys2Proof/Machine/Table.lean ====
section
/-! DEFINITION. Sparse maps in one canonical form: keys strictly rising, no entry equal to the default. Memory, registers
and the units the spec counts are kept in them, so that equal contents are equal data. -/

namespace Sys2Proof.Machine

/-- The value at key `k`; an unlisted key reads as `d k`. -/
def tget {α : Type} (d : Nat → α) : Tbl α → Nat → α
  | [], k => d k
  | (j, v) :: r, k => if j = k then v else tget d r k

/-- The map without an entry at `k`. -/
def tdel {α : Type} : Tbl α → Nat → Tbl α
  | [], _ => []
  | (j, w) :: r, k => if j = k then tdel r k else (j, w) :: tdel r k

/-- The map with `v` at `k`. Writing the default removes the entry. -/
def tput {α : Type} [DecidableEq α] (d : Nat → α) : Tbl α → Nat → α → Tbl α
  | [], k, v => if v = d k then [] else [(k, v)]
  | (j, w) :: r, k, v =>
    if j = k then tput d r k v
    else if j < k then (j, w) :: tput d r k v
    else if v = d k then (j, w) :: tdel r k
    else (k, v) :: (j, w) :: tdel r k

/-- Every key is above `lo`, the keys rise strictly, and no entry holds its default. -/
def tok {α : Type} [DecidableEq α] (d : Nat → α) : Nat → Tbl α → Bool
  | _, [] => true
  | lo, (j, v) :: r => decide (lo ≤ j) && decide (v ≠ d j) && tok d (j + 1) r

/-- The canonical form. -/
def twf {α : Type} [DecidableEq α] (d : Nat → α) (t : Tbl α) : Bool := tok d 0 t

/-- The values at `n` keys from `k` on. -/
def tslice {α : Type} (d : Nat → α) (t : Tbl α) (k n : Nat) : List α :=
  (List.range n).map fun i => tget d t (k + i)

/-- Write a list of values from key `k` on. -/
def tputs {α : Type} [DecidableEq α] (d : Nat → α) : Tbl α → Nat → List α → Tbl α
  | t, _, [] => t
  | t, k, v :: vs => tputs d (tput d t k v) (k + 1) vs

end Sys2Proof.Machine
end

