-- ==== Sys2Proof/Machine/Ops.lean ====
section
/-! DEFINITION. The named operations over registers, memory, channels and events that every command shares. -/

namespace Sys2Proof.Machine

/-! Registers. -/

/-- The content in force of the register at view offset `o`. -/
def State.rg (s : State) (o : Nat) : Nat := (tget regReset s.regs o).toNat

/-- Store a content in force. -/
def State.setRg (s : State) (o v : Nat) : State :=
  { s with regs := tput regReset s.regs o (BitVec.ofNat 32 v) }

/-- The shadow of a register of mark B or the working copy of one of mark C. -/
def State.sh (s : State) (o : Nat) : Nat := (tget regReset s.shadow o).toNat

/-- Store a shadow or working copy. -/
def State.setSh (s : State) (o v : Nat) : State :=
  { s with shadow := tput regReset s.shadow o (BitVec.ofNat 32 v) }

/-- Store a content in force and its shadow. -/
def State.setBoth (s : State) (o v : Nat) : State := (s.setRg o v).setSh o v

/-- The view offset of register `rel` of channel `n`. -/
def chOff (n rel : Nat) : Nat := 0x100000 + 0x1000 * n + rel

/-- The view offset of register `rel` of tile `t`. -/
def tileOff (t rel : Nat) : Nat := 0xA0000 + 0x4000 * t + rel

/-- The view offset of comparator register `rel` of channel `n` (R492). -/
def cmpOff (n rel : Nat) : Nat := 0xA0400 + 0x4000 * (n / 16) + 0x40 * (n % 16) + rel

/-- The view offset of engine register `rel`. -/
def engOff (rel : Nat) : Nat := 0x80000 + rel

/-- A register in force of channel `n`. -/
def State.cr (s : State) (n rel : Nat) : Nat := s.rg (chOff n rel)

/-- Set a register of channel `n`. -/
def State.setCr (s : State) (n rel v : Nat) : State := s.setRg (chOff n rel) v

/-- R627: set the flags of `mask` in the STS register at `o`; SEQ increments in a cycle in which any of them newly sets,
once. [DEDUCED, log 15] -/
def State.flag (s : State) (o mask : Nat) : State :=
  let w := s.rg o
  let fl := w % 16777216
  let new := fl ||| mask
  if new = fl then s
  else match s.seqRun with
    | none => s.setRg o (new + 16777216 * ((w / 16777216 + 1) % 256))
    | some l =>
      if l.contains o then s.setRg o (new + 16777216 * (w / 16777216))
      else State.setRg { s with seqRun := some (o :: l) } o (new + 16777216 * ((w / 16777216 + 1) % 256))

/-- What follows, up to the next of these two, happens in one cycle. -/
def State.cycleBegin (s : State) : State := { s with seqRun := some [] }

/-- What follows happens in cycles of its own. -/
def State.cycleEnd (s : State) : State := { s with seqRun := none }

/-- Set flags of an STS register of channel `n`. -/
def State.cflag (s : State) (n rel mask : Nat) : State := s.flag (chOff n rel) mask

/-- Add `k` to a counter that holds at 0xFFFF_FFFF. -/
def State.count (s : State) (o : Nat) (k : Nat := 1) : State := s.setRg o (holdAdd (s.rg o) k)

/-- Add to a holding counter of channel `n`. -/
def State.ccount (s : State) (n rel : Nat) (k : Nat := 1) : State := s.count (chOff n rel) k

/-- Add `k` to a counter that wraps. -/
def State.countWrap (s : State) (o : Nat) (k : Nat := 1) : State := s.setRg o (wrapAdd (s.rg o) k)

/-- Add `k` to the 64-bit counter whose low word is at `o`. -/
def State.count64 (s : State) (o k : Nat) : State :=
  let v := (s.rg o + 4294967296 * s.rg (o + 4) + k) % 18446744073709551616
  (s.setRg o (v % 4294967296)).setRg (o + 4) (v / 4294967296)

/-- Set a field of a register: bits `hi` down to `lo` take `v`. -/
def setBits (w hi lo v : Nat) : Nat :=
  w - bitsOf w hi lo * 2 ^ lo + (v % 2 ^ (hi + 1 - lo)) * 2 ^ lo

/-! Channels. -/

/-- Channel `n`. -/
def State.ch (s : State) (n : Nat) : Chan := tget (fun _ => ({} : Chan)) s.chans n

/-- Replace channel `n`. -/
def State.setCh (s : State) (n : Nat) (c : Chan) : State :=
  { s with chans := tput (fun _ => ({} : Chan)) s.chans n c }

/-- Change channel `n`. -/
def State.updCh (s : State) (n : Nat) (f : Chan → Chan) : State := s.setCh n (f (s.ch n))

/-- SR_DIV in force of channel `n`. -/
def State.srDiv (s : State) (n : Nat) : Nat := let d := bitsOf (s.cr n chSrdiv) 12 0; if d = 0 then 1 else d

/-- The present tick is an own boundary of channel `n` (R28). -/
def State.own (s : State) (n : Nat) : Bool := decide (s.tick % s.srDiv n = 0)

/-- Full scale in force of current range `c`, as an F32 word. -/
def State.ifs (s : State) (n c : Nat) : Nat := if c < 12 then s.cr n (chIfs + 4 * c) else 0

/-- Full scale in force of voltage range `v`. -/
def State.vfs (s : State) (n v : Nat) : Nat := s.cr n (chVfs + 4 * (v % 4))

/-- R62: a current range is implemented. -/
def State.iImpl (s : State) (n c : Nat) : Bool := decide (c < 12) && f32pos (s.ifs n c)

/-- R62: a voltage range is implemented. -/
def State.vImpl (s : State) (n v : Nat) : Bool := f32pos (s.vfs n v)

/-! Memory. -/

/-- R656: memory that nothing has written reads as zero. [DESIGN CHOICE, log 20] -/
def memDef (_ : Nat) : Byte := 0

/-- One byte of memory. -/
def State.byte (s : State) (a : Nat) : Byte := tget memDef s.mem a

/-- `n` bytes from `a` on. -/
def State.bytes (s : State) (a n : Nat) : List Byte := tslice memDef s.mem a n

/-- The 32-bit little-endian word at `a`. -/
def State.w32 (s : State) (a : Nat) : Nat := leNat (s.bytes a 4)

/-- The 64-bit little-endian word at `a`. -/
def State.w64 (s : State) (a : Nat) : Nat := leNat (s.bytes a 8)

/-- The base of the codeword that holds address `a`: RS(38,32) on chip, RS(144,128) in DDR5. [DEDUCED, log 21] -/
def codeword (a : Nat) : Nat := if a < 0x4000000000 then a / 32 * 32 else a / 128 * 128

/-- A byte of `n` from `a` on lies in a codeword with an uncorrectable error. -/
def State.ue (s : State) (a n : Nat) : Bool :=
  s.memUE.any fun w => decide (codeword a ≤ w) && decide (w < a + n)

/-- The DDR5 window. -/
abbrev ddrBase : Nat := 0x4000000000

/-- The DDR5 channel of window offset `o`. -/
def ddrOf (o : Nat) : Nat := if o < 137438953472 then 0 else 1

/-! Error injection (R604 to R606). -/

/-- FLT_INJ of frame `f` selects checker `chk`, on `unit` where it names one. -/
def State.injHit (s : State) (f chk : Nat) (unit : Option Nat) : Bool :=
  let w := s.rg (frameOff f + fltInj)
  decide (bitsOf w 3 0 = chk) && decide (bitsOf w 5 4 ≠ 0) &&
    (match unit with
     | some u => decide (bitsOf w 8 7 = u)
     | none => true)

/-- R604: a one-shot MODE returns to 0 at the generation it acts on. -/
def State.injUse (s : State) (f : Nat) : State :=
  let o := frameOff f + fltInj
  let w := s.rg o
  if bitsOf w 5 4 = 1 then s.setRg o (w - 16) else s

/-- A transfer or a frame is generated under checker `chk`. -/
def State.injGen (s : State) (f chk : Nat) (unit : Option Nat) : State := if s.injHit f chk unit then s.injUse f else s

/-- The codewords that the bytes `a` to `a + n - 1` lie in, at most `k` of them. -/
def codewords (a n : Nat) : Nat → List Nat
  | 0 => []
  | k + 1 =>
    let w := codeword a
    let z := if a < ddrBase then w + 32 else w + 128
    if n = 0 then [] else w :: (if z < a + n then codewords z (a + n - z) k else [])

/-- The marks of injected check bits on the words that a store has written: uncorrectable, or correctable. -/
def State.memInj (s : State) (a n : Nat) : State :=
  let hit := if a < ddrBase then s.injHit 17 1 none else s.injHit 17 2 (some (ddrOf (a - ddrBase)))
  if ¬ hit then s
  else
    let w := s.rg (frameOff 17 + fltInj)
    let cs := if bitsOf w 5 4 = 1 then [codeword a] else codewords a n (n + 1)
    let s := s.injUse 17
    if bitOf w 6 then { s with memUE := s.memUE ++ cs } else { s with memCE := s.memCE ++ cs }

/-- Bytes stored from `a` on. A stored codeword is encoded anew. -/
def State.storeRaw (s : State) (a : Nat) (bs : List Byte) : State :=
  let out := fun w => !(decide (codeword a ≤ w) && decide (w < a + bs.length))
  { s with mem := tputs memDef s.mem a bs, memUE := s.memUE.filter out, memCE := s.memCE.filter out }

/-- Store bytes from `a` on. -/
def State.store (s : State) (a : Nat) (bs : List Byte) : State := (s.storeRaw a bs).memInj a bs.length

/-! DDR5 (R820, R821). -/

/-- GiB installed for a code of SIZE. -/
def ddrBytes (code : Nat) : Nat := if 1 ≤ code ∧ code ≤ 5 then 8589934592 * 2 ^ (code - 1) else 0

/-- Bytes installed in DDR5 channel `x`. -/
def State.ddrSize (s : State) (x : Nat) : Nat := ddrBytes (bitsOf (s.rg (0xF0000 + memcDdrCfg + 32 * x)) 2 0)

/-- The bytes at window offset `o` on lie in installed DDR5 (R319, R413). -/
def State.ddrIn (s : State) (o k : Nat) : Bool :=
  if o + k ≤ 137438953472 then decide (o + k ≤ s.ddrSize 0)
  else if 137438953472 ≤ o then decide (o - 137438953472 + k ≤ s.ddrSize 1)
  else decide (s.ddrSize 0 = 137438953472) && decide (o + k - 137438953472 ≤ s.ddrSize 1)

/-- DDR5 channel `x` is ready, or in the self-refresh that an access ends (R713), and not fenced. -/
def State.ddrReady (s : State) (x : Nat) : Bool :=
  let st := bitsOf (s.rg (0xF0000 + memcDdrSts + 32 * x)) 2 0
  (decide (st = 2) || decide (st = 3)) && !s.fenced.contains (48 + x)

/-- An access to `k` bytes at window offset `o` can be made. -/
def State.ddrOk (s : State) (o k : Nat) : Bool := s.ddrIn o k && s.ddrReady (ddrOf o) && s.ddrReady (ddrOf (o + k - 1))

/-- The MEMC register `rel` of DDR5 channel `x`. -/
def ddrOff (x rel : Nat) : Nat := 0xF0000 + 32 * x + rel

/-- R818, R823: the address of the last uncorrectable word, or burst, is recorded. -/
def State.ueAt (s : State) (w : Nat) : State :=
  if w < ddrBase then s.setRg (0xF0000 + memcSramAddr) w
  else
    let o := w - ddrBase
    (s.setRg (ddrOff (ddrOf o) memcDdrAddr) (o % 4294967296)).setRg (ddrOff (ddrOf o) (memcDdrAddr + 4)) (o / 4294967296)

/-- R817, R818, R823: what a unit reads that raises no source of the memories (R576): corrected words are written back, the last
uncorrectable one is recorded. -/
def State.unitRead (s : State) (a n : Nat) : State :=
  let inside := fun w => decide (codeword a ≤ w) && decide (w < a + n)
  let bad := s.memUE.filter inside
  let s := { s with memCE := s.memCE.filter fun w => !inside w }
  if bad = [] then s else s.ueAt (bad.foldl max 0)

/-- R869: bytes stored word by word. A word that a narrower piece meets with an uncorrectable error keeps its content; the second answer
lists those. -/
def State.putGo : Nat → State → Nat → List Byte → List Nat → State × List Nat
  | 0, s, _, _, bad => (s, bad)
  | k + 1, s, a, bs, bad =>
    if bs = [] then (s, bad)
    else
      let w := codeword a
      let z := if a < ddrBase then 32 else 128
      let n := w + z - a
      if s.memUE.contains w ∧ (a ≠ w ∨ bs.length < z) then State.putGo k (s.ueAt w) (a + n) (bs.drop n) (bad ++ [w])
      else State.putGo k (s.store a (bs.take n)) (a + n) (bs.drop n) bad

/-- R869: bytes stored by a unit. -/
def State.put (s : State) (a : Nat) (bs : List Byte) : State × List Nat :=
  if s.memUE = [] then (s.store a bs, []) else State.putGo (bs.length + 1) s a bs []

/-- DDR5 channel `x` moves from one state to another. -/
def State.ddrMove (s : State) (from_ to_ : Nat) (x : Nat) : State :=
  let w := s.rg (ddrOff x memcDdrSts)
  if bitsOf w 2 0 = from_ then s.setRg (ddrOff x memcDdrSts) (setBits w 2 0 to_) else s

/-- The training of DDR5 channel `x` begins, or it is accessed. -/
def State.ddrStart (s : State) (x : Nat) : State := { s with clk := { s.clk with ddr := s.clk.ddr.set x 0 } }

/-- Base ticks since then. -/
def State.ddrAge (s : State) (x : Nat) : Nat := s.clk.ddr.getD x 0

/-- R713: an access ends a DDR5 channel's self-refresh. -/
def State.ddrWake (s : State) (a : Nat) : State :=
  if ddrBase ≤ a then
    let x := ddrOf (a - ddrBase)
    (s.ddrStart x).ddrMove 3 2 x
  else s

/-- `f` for each number of a list in turn. -/
def State.each (s : State) (f : State → Nat → State) : List Nat → State
  | [] => s
  | n :: r => (f s n).each f r

/-! Events (R537, R538, R545). -/

/-- The absolute CLK_CONV cycle of cycle `c` of the present tick. -/
def State.at_ (s : State) (c : Nat) : Nat := s.tick * 50 + c

/-- The cycle of the present tick in which a register write given now completes, where a rule asks for it: the first one that no
command given with a cycle has passed. [DESIGN CHOICE, log 2] -/
def State.wcyc (s : State) : Nat := min 49 s.cyc

/-- Cycle `c` of the present tick is passed. -/
def State.passed (s : State) (c : Nat) : State := { s with cyc := max s.cyc (c + 1) }

/-- What began `a` base ticks ago, in whichever cycle of its tick, can have lasted `n` CLK_CONV cycles by now; before the tiles
are released no base tick tells the time. [DEDUCED, log 110] -/
def State.canHaveLasted (s : State) (a n : Nat) : Bool := decide (n ≤ 50 * a + 49) || !s.running

/-- It has lasted them by the end of the present tick. -/
def hasLasted (a n : Nat) : Bool := decide (n ≤ 50 * a)

/-- The first modulator edge after absolute cycle `c` (R418, R433). [DESIGN CHOICE, log 59] -/
def State.modEdge (s : State) (c : Nat) : Nat := if c < s.auxPh then s.auxPh else s.auxPh + ((c - s.auxPh) / 32 + 1) * 32

/-- `x` placed in a list ordered by time, after those of its own time. -/
def insertAt {α : Type} (t : α → Nat) (x : α) : List α → List α
  | [] => [x]
  | y :: r => if t x < t y then x :: y :: r else y :: insertAt t x r

/-- The view offset of register `rel` of event channel `c`. -/
def evcOff (c rel : Nat) : Nat := 0xB1000 + 0x40 * c + rel

/-- The event channel is armed (R537). -/
def State.armed (s : State) (c : Nat) : Bool := bitOf (s.rg (0xB0000 + brmArmed + 4 * (c / 32))) (c % 32)

/-- The slots of channel `c` that hold producer `kind`, `inst`. -/
def State.slotsFor (s : State) (c kind inst : Nat) : List Nat :=
  (List.range 8).filter fun j =>
    let w := s.rg (evcOff c (evcProd + 4 * j))
    bitOf w 15 && decide (bitsOf w 7 0 = kind) && decide (bitsOf w 14 8 = inst)

/-- The armed event channels, in ascending order. -/
def State.armedList (s : State) : List Nat :=
  (List.range 4).flatMap fun w =>
    let a := s.rg (0xB0000 + brmArmed + 4 * w)
    if a = 0 then [] else ((List.range 32).filter fun b => bitOf a b).map fun b => 32 * w + b

/-- A producer fires in absolute cycle `cyc` with inherited tag `tag`: every armed channel registers it once for each of
its slots (R537, R538, R546). -/
def State.fireAt (s : State) (kind inst cyc : Nat) (tag : Option Nat) : State :=
  { s with contribs := s.contribs ++ s.armedList.flatMap fun c =>
      (s.slotsFor c kind inst).map fun j => { evc := c, cyc := cyc, slot := j, tag := tag } }

/-- mtime (R808). -/
def State.mtime (s : State) : Nat := s.rg sysCoreMtime + 4294967296 * s.rg (sysCoreMtime + 4)

/-- mtime counts `n` cycles on. -/
def State.mtimeAdd (s : State) (n : Nat) : State :=
  let m := (s.mtime + n) % 18446744073709551616
  (s.setRg sysCoreMtime (m % 4294967296)).setRg (sysCoreMtime + 4) (m / 4294967296)

/-- R808: from the release of the core domain mtime counts; before base ticks tell the time it has counted an open number of cycles at
each event that shows it. [DESIGN CHOICE, log 143] -/
def State.mtimeShow (s : State) : State :=
  if s.running ∨ bitOf (s.rg sysRstSts) 6 = false then s
  else State.mtimeAdd { s with cpu := { s.cpu with shown := s.cpu.shown + 1 } } (Config.bootTime s.cpu.shown)

/-- The registers of core `x`. -/
def State.coreRegs (s : State) (x : Nat) : CoreRegs := tget (fun _ => ({} : CoreRegs)) s.cpu.regs x

/-- Replace them. -/
def State.setCoreRegs (s : State) (x : Nat) (r : CoreRegs) : State :=
  { s with cpu := { s.cpu with regs := tput (fun _ => ({} : CoreRegs)) s.cpu.regs x r } }

/-- R686, R810: core `x` starts at `pc` with its registers at their reset values. [DESIGN CHOICE, log 142] -/
def State.coreStart (s : State) (x pc : Nat) : State :=
  { s.setCoreRegs x { pc := BitVec.ofNat 32 pc } with out := s.out ++ [.start x pc] }

/-- The view offset of FAB register `rel`. -/
abbrev fabOff (rel : Nat) : Nat := 0xD0000 + rel

/-- R32: the frame length in force. -/
def State.frameLen (s : State) : Nat := max 1 (bitsOf (s.rg (fabOff fabFrame)) 15 0)

/-- R32, R545: the producers TICK and FRAME in cycle 0 of a base tick. -/
def State.tickFires (s : State) : State :=
  let s := s.fireAt 0 0 (s.at_ 0) none
  if s.tick % s.frameLen = 0 then
    State.fireAt { s with fab := { s.fab with hv := { s.fab.hv with due := true } } } 1 0 (s.at_ 0) none
  else s

/-- The tag under which `Chan.tags` holds a task that carries none. -/
abbrev noTag : Nat := 128

/-- R547: the tasks of channel `n` of which producer `kind` is a consequence. What follows the end of a WAIT comes at least 50
cycles after its firing (R302), so that it never inherits (R553). [DEDUCED, log 120] -/
def conseqTasks (kind n : Nat) : List Nat :=
  if kind = 7 then [n, 64 + n] else if 4 ≤ kind ∧ kind ≤ 6 then [64 + n] else []

/-- R552, R553: the tag an event of channel `n` inherits in absolute cycle `cyc`: that of the latest qualifying task. -/
def inheritTag (tags : List (Nat × Nat × Nat)) (tasks : List Nat) (cyc : Nat) : Option Nat :=
  let best := tags.foldl (fun (b : Option (Nat × Nat)) t =>
    if tasks.contains t.1 && decide (t.2.1 < cyc) && decide (cyc ≤ t.2.1 + 16) then
      match b with
      | none => some (t.2.1, t.2.2)
      | some (c, g) => if c ≤ t.2.1 then some (t.2.1, t.2.2) else some (c, g)
    else b) none
  match best with
  | some (_, g) => if g = noTag then none else some g
  | none => none

/-- A producer of channel `n` fires in absolute cycle `k`. Events of a fenced unit reach no channel (R563). -/
def State.fireChAt (s : State) (kind n k : Nat) : State :=
  let x := s.ch n
  if x.state = .fenced then s else s.fireAt kind n k (inheritTag x.tags (conseqTasks kind n) k)

/-- A producer of channel `n` fires in cycle `c` of the present tick. -/
def State.fireCh (s : State) (kind n c : Nat) : State := s.fireChAt kind n (s.at_ c)

/-! Memory-mapped areas of a channel. -/

/-- The physical address of region-relative Rake entry `j` of channel `n` (R270, R271). -/
def State.rakeAddr (s : State) (n j : Nat) : Nat := 16 * (bitsOf (s.cr n chRakeBase) 21 0 + j)

/-- The address of coefficient set `k` of channel `n` (R155). -/
def setAddr (n k : Nat) : Nat := 0x5000000 + (16 * n + k) * 0x400

end Sys2Proof.Machine
end

