-- ==== Sys2Proof/Machine/Link.lean ====
section
/-! DEFINITION. The fabric's link and transaction layer: port states, routes, frames sent and answered, the completion
ring (R727 to R739, R751 to R754). -/

namespace Sys2Proof.Machine

/-- A FAB register. -/
def State.fr (s : State) (rel : Nat) : Nat := s.rg (fabOff rel)

/-- STATE of port `p`: 0 DISABLED, 1 DOWN, 2 TRAINING, 3 UP, 4 FENCED. -/
def State.portSt (s : State) (p : Nat) : Nat := bitsOf (s.fr fabPortSts) (3 * p + 2) (3 * p)

/-- Set the state of port `p`. -/
def State.setPortSt (s : State) (p v : Nat) : State :=
  s.setRg (fabOff fabPortSts) (setBits (s.fr fabPortSts) (3 * p + 2) (3 * p) v)

/-- Port `p`. -/
def State.port (s : State) (p : Nat) : Port := tget (fun _ => {}) s.fab.ports p

/-- Replace port `p`. -/
def State.setPort (s : State) (p : Nat) (v : Port) : State :=
  { s with fab := { s.fab with ports := tput (fun _ => {}) s.fab.ports p v } }

/-- The node's address. -/
def State.addr (s : State) : Nat := bitsOf (s.fr fabAddr) 11 0

/-- ASSIGNED. -/
def State.assigned (s : State) : Bool := bitOf (s.fr fabAddr) 12

/-- Strap roles (R670): the code, fabric root and fabric member. -/
def State.strapCode (s : State) : Nat := bitsOf (s.rg sysStrap) 11 8
def State.svcHold (s : State) : Bool := bitOf (s.rg sysStrap) 14
def State.isRoot (s : State) : Bool := !s.svcHold && (s.strapCode == 4 || s.strapCode == 5)
def State.isMember (s : State) : Bool := !s.svcHold && (s.strapCode == 2 || s.strapCode == 3 || s.strapCode == 7)

/-- EXPECT of port `p`. -/
def State.expect (s : State) (p : Nat) : Bool := bitOf (s.fr fabPortCtl) (8 + p)

/-- UP_PORT. -/
def State.upPort (s : State) : Nat := bitsOf (s.rg sysClkCfg) 2 1

/-- R738: the egress port of a destination; 7 unroutable. -/
def State.egress (s : State) (dst : Nat) : Nat := bitsOf (s.fr (fabRt + 4 * dst)) 2 0

/-- The header of a frame (R730). -/
def frameHead (f : Frame) (lseq : Nat) : List Byte :=
  leBytes 4 (f.typ.toNat + 16 * f.dst.toNat + 65536 * f.src.toNat)
    ++ leBytes 4 (f.len.toNat + 1024 * f.hops.toNat + 65536 * b2n f.priv + 131072 * f.tag.toNat)
    ++ leBytes 4 (lseq % 256 + 256 * f.w2.toNat) ++ leBytes 4 f.w3.toNat

/-- What a frame's CRC covers: header, and payload padded with zeros to at least 44 bytes (R729). -/
def frameBytes (f : Frame) (lseq : Nat) : List Byte :=
  frameHead f lseq ++ f.data ++ List.replicate (44 - f.data.length) 0

/-- The CRC of a frame (R729). [DEDUCED, log 129] -/
def frameCrc (f : Frame) (lseq : Nat) : Word := crc32 (frameBytes f lseq)

/-- A frame as it goes out, whole and with a valid end marker. -/
def frameOut (p lseq : Nat) (f : Frame) : Out := .frame p lseq f (frameCrc f lseq) true

/-- The CRC of a frame that arrives holds (R734). -/
def crcHolds (rx : Rx) : Bool := decide (rx.crc = frameCrc rx.frame rx.lseq.toNat)

/-- A frame on the wire of port `p`; its CRC is formed at each attempt, and inverted by an injection (R605). [DESIGN CHOICE, log 130] -/
def State.wire (s : State) (p lseq : Nat) (f : Frame) (endOk : Bool) : State :=
  let bad := s.injHit 15 4 (some p)
  let s := s.injGen 15 4 (some p)
  { s with out := s.out ++ [.frame p lseq f (if bad then ~~~frameCrc f lseq else frameCrc f lseq) endOk] }

/-- A frame goes out of port `p` with the next link sequence number (R730, R734). -/
def State.emit (s : State) (p : Nat) (f : Frame) : State :=
  let v := s.port p
  (s.setPort p { v with lseq := (v.lseq + 1) % 256, sent := v.sent ++ [{ frame := f, lseq := v.lseq, tries := 1 }] }).wire
    p v.lseq f true

/-- R736: a forwarded copy that ends with an invalid end marker; no answer to it is awaited. -/
def State.emitBad (s : State) (p : Nat) (f : Frame) : State :=
  let v := s.port p
  (s.setPort p { v with lseq := (v.lseq + 1) % 256 }).wire p v.lseq f false

/-- FAB_DROPp counts a discarded frame. -/
def State.drop (s : State) (p : Nat) : State := s.count (fabOff (fabDrop + 4 * p))

/-- A frame of this node on its way: the route's port, if it is UP. -/
def State.sendFrame (s : State) (f : Frame) : State :=
  let p := s.egress f.dst.toNat
  if p < 4 ∧ s.portSt p = 3 then s.emit p f else s

/-- A REPLY (R731). -/
def replyFrame (from_ dst tag status cause done : Nat) (data : List Byte) : Frame :=
  { typ := 3, dst := BitVec.ofNat 12 dst, src := BitVec.ofNat 12 from_, len := BitVec.ofNat 10 data.length, hops := 0, priv := false
    tag := BitVec.ofNat 12 tag, w2 := BitVec.ofNat 24 (status + 16 * cause + 256 * done), w3 := 0, data := data }

/-- A request is answered to its source. -/
def State.answer (s : State) (dst tag status cause done : Nat) (data : List Byte) : State :=
  s.sendFrame (replyFrame s.addr dst tag status cause done data)

/-- A TOPO frame of this node, over the route to the root (R744). -/
def State.topoOut (s : State) (p : Nat) (up : Bool) : State :=
  if ¬ s.isRoot then
    s.sendFrame { typ := 10, dst := 0, src := BitVec.ofNat 12 s.addr, len := 0, hops := 0, priv := false, tag := 0
                  w2 := BitVec.ofNat 24 (p + 4 * b2n up), w3 := 0, data := [] }
  else s

/-! The completion ring (R751, R754). -/

/-- The fabric buffers. -/
abbrev fabBuf : Nat := 0x5C00000

/-- The ring has no room. -/
def State.cqFull (s : State) : Bool :=
  decide (bitsOf (s.fr fabCqSize) 15 0 ≤ (s.fr fabCqWptr + 4294967296 - s.fr fabCqRptr) % 4294967296)

/-- Fabric time of the present tick, in ns (R30, R31, R755). -/
def State.now (s : State) : Int := 250 * (s.tick : Int)

/-- Every channel is OFF or FENCED (R760). -/
def State.chansQuiet (s : State) : Bool := s.chans.all fun p => decide (p.2.state = .off) || decide (p.2.state = .fenced)

/-- Bytes that the transaction layer stores; SRAM_UE of a word that it cannot write is left in `later` (R818, R869). -/
def State.fabPut (s : State) (a : Nat) (bs : List Byte) : State :=
  let p := s.put a bs
  if p.2 = [] then p.1 else { p.1 with later := p.1.later ++ [(17, 1)] }

/-- A completion record is written. -/
def State.cqPut (s : State) (tag status cause done user : Nat) : State :=
  let w := s.fr fabCqWptr
  let a := fabBuf + 32 * bitsOf (s.fr fabCqBase) 15 0 + 16 * (w % max 1 (bitsOf (s.fr fabCqSize) 15 0))
  let t := (BitVec.ofInt 64 s.now).toNat % 4294967296
  let s := s.fabPut a (leBytes 4 (tag % 4096 + 4096 * status + 65536 * cause + 1048576 * done) ++ leBytes 4 user
    ++ leBytes 4 t ++ leBytes 4 0)
  s.setRg (fabOff fabCqWptr) ((w + 1) % 4294967296)

/-- A transaction completes, or its reply is held while the ring is full. A PENDING answer keeps its tag outstanding
(R790, R791). -/
def State.finish (s : State) (t : Txn) (status cause done : Nat) (data : List Byte) (keep : Option Nat) : State :=
  let others := s.fab.txns.filter fun x => x.tag ≠ t.tag
  let t := if t.dtag = keep then t else { t with age := 0 }
  if s.cqFull then
    { s with fab := { s.fab with txns := others ++ [{ t with dtag := keep, held := some (status, cause, done, data) }] } }
  else
    let s := if data = [] then s else s.fabPut (fabBuf + t.dptr) data
    let s := { s with fab := { s.fab with txns :=
      if keep.isSome then others ++ [{ t with dtag := keep, held := none }] else others } }
    s.cqPut t.tag status cause done t.user

/-- Transactions through port `p` complete with PATH_LOST (R752). -/
def State.loseTxns (s : State) (p : Nat) : List Txn → State
  | [] => s
  | t :: r => (if t.port = some p ∧ t.held = none ∧ t.dtag = none then s.finish t 5 0 0 [] none else s).loseTxns p r

/-- A transit request is answered with PATH_LOST, another frame is discarded (R752). -/
def State.loseFrame (s : State) (f : Frame) : State :=
  let t := f.typ.toNat
  if t = 1 ∨ t = 2 ∨ (t = 9 ∧ f.w3.toNat % 4 ≠ 2) then
    (if f.src.toNat = s.addr then s else s.answer f.src.toNat f.tag.toNat 5 0 0 [])
  else s

/-- The frames a port holds when it goes down. -/
def State.loseFrames (s : State) : List Sent → State
  | [] => s
  | x :: r => (s.loseFrame x.frame).loseFrames r

/-- R728: the cause of LINK of port `p` is present while the port is fenced, and while EXPECT = 1 and it is not UP;
where LINK is yet to be reported it begins with the report (R583). -/
def State.linkLevel (s : State) (p : Nat) : State :=
  let k := 15 * 32 + p
  let on := decide (s.portSt p = 4) || (s.expect p && decide (s.portSt p ≠ 3))
  if on = s.causes.contains k ∨ s.later.contains (15, p) then s
  else { s with causes := if on then k :: s.causes else s.causes.filter (· ≠ k) }

/-- Port `p` leaves its state for DOWN or FENCED (R727, R728, R744, R752); LINK is raised where it leaves UP with
EXPECT = 1. -/
def State.portDown (s : State) (p to_ : Nat) : State :=
  let was := s.portSt p
  let s := s.setPortSt p to_
  if was = 3 then
    let held := (s.port p).sent.filter fun x => !x.acked
    let s := s.setPort p {}
    let s := s.flag (fabOff fabFlags) (2 ^ p)
    let s := s.loseTxns p s.fab.txns
    let s := s.loseFrames held
    let s := { s with fab := { s.fab with transit := s.fab.transit.filter fun x => x.port ≠ p } }
    let s := s.topoOut p false
    if s.expect p then { s with later := s.later ++ [(15, p)] } else s.linkLevel p
  else s.linkLevel p

end Sys2Proof.Machine
end

