-- ==== Sys2Proof/Machine/Flags.lean ====
section
/-! DEFINITION. Fault frames and fences: how a source registers (R582 to R588), what its reactions do (R589 to R595) and
what a fence of each unit leaves (R38 to R44, R191, R261, R282, R381). -/

namespace Sys2Proof.Machine

/-- The view offset of register `rel` of frame `f`. -/
def fltOff (f rel : Nat) : Nat := frameOff f + rel

/-- Frame numbers (R571). -/
abbrev frSys : Nat := 0
abbrev frCore (x : Nat) : Nat := 1 + x
abbrev frEng : Nat := 9
abbrev frTile (t : Nat) : Nat := 10 + t
abbrev frBrm : Nat := 14
abbrev frFab : Nat := 15
abbrev frOde : Nat := 16
abbrev frMemc : Nat := 17
abbrev frHost : Nat := 18
abbrev frCh (n : Nat) : Nat := 19 + n

/-- Source numbers of a channel frame (R575). -/
abbrev fcSafeLimit : Nat := 0
abbrev fcCoefEcc : Nat := 5
abbrev fcSetNotValid : Nat := 6
abbrev fcOscDetect : Nat := 7
abbrev fcClampTrip : Nat := 8
abbrev fcHoFail : Nat := 9
abbrev fcWaitTimeout : Nat := 10
abbrev fcRakeEntry : Nat := 11
abbrev fcRakeEcc : Nat := 12
abbrev fcUnderrun : Nat := 13
abbrev fcStrEcc : Nat := 14
abbrev fcCfgCrc : Nat := 16

/-- Source numbers of a tile frame. -/
abbrev ftLinkCrc : Nat := 0
abbrev ftLinkLate : Nat := 1
abbrev ftLinkDown : Nat := 2
abbrev ftTrimCrc : Nat := 3
abbrev ftPscLimit (c : Nat) : Nat := 4 + c
abbrev ftCalReject : Nat := 8
abbrev ftCalCrc : Nat := 9
abbrev ftNoCal : Nat := 10
abbrev ftCalEcc : Nat := 11
abbrev ftTempHi : Nat := 12
abbrev ftTempCrit : Nat := 13
abbrev ftSupply : Nat := 14
abbrev ftClkQual : Nat := 15

/-- Source numbers of the other frames. -/
abbrev fsPllUnlock : Nat := 0
abbrev fsRefclkLost : Nat := 1
abbrev fsDroop : Nat := 2
abbrev fsCoreSupply : Nat := 3
abbrev fsTempHi : Nat := 4
abbrev fsTempCrit : Nat := 5
abbrev fsRtCrc : Nat := 6
abbrev fsBusErr : Nat := 7
abbrev fsGuardErr : Nat := 8
abbrev fxTcmCe : Nat := 0
abbrev fxTcmUe : Nat := 1
abbrev fxWdog : Nat := 2
abbrev fxBusFault : Nat := 3
abbrev fmSramCe : Nat := 0
abbrev fmSramUe : Nat := 1
abbrev fmDdrCe (x : Nat) : Nat := 2 + x
abbrev fmDdrUe (x : Nat) : Nat := 4 + x
abbrev fmDdrLink (x : Nat) : Nat := 6 + x
abbrev ffLink (p : Nat) : Nat := p
abbrev ffCrc (p : Nat) : Nat := 4 + p
abbrev ffSync (p : Nat) : Nat := 8 + p
abbrev ffRouteCrc : Nat := 12
abbrev fbSecCrc : Nat := 0
abbrev foDictEcc : Nat := 0
abbrev fhLinkDown : Nat := 0
abbrev fhDmaErr : Nat := 1

/-- Codes of the units in `State.fenced`. -/
abbrev unTile (t : Nat) : Nat := t
abbrev unCore (x : Nat) : Nat := 16 + x
abbrev unPort (p : Nat) : Nat := 32 + p
abbrev unDdr (x : Nat) : Nat := 48 + x

/-- R575: what FENCE acts on for source `i` of frame `f`; channel n is coded 64 + n. -/
def fenceTarget (f i : Nat) : Option Nat :=
  if 19 ≤ f then some (64 + (f - 19))
  else if 10 ≤ f ∧ f < 14 then some (unTile (f - 10))
  else if f = 9 then (if i < 4 then some (unTile i) else none)
  else if 1 ≤ f ∧ f < 9 then some (unCore (f - 1))
  else if f = 17 then (if 2 ≤ i ∧ i < 8 then some (unDdr (i % 2)) else none)
  else if f = 15 then (if i < 12 then some (unPort (i % 4)) else none)
  else none

/-- A unit of `State.fenced` is fenced. -/
def State.isFenced (s : State) (u : Nat) : Bool := s.fenced.contains u

/-- The channels of tile `t`. -/
def tileChans (t : Nat) : List Nat := (List.range 16).map (16 * t + ·)

/-- The tile of a channel. -/
def tileOf (n : Nat) : Nat := n / 16

/-- The values that a channel loses when it leaves ARMED, ACTIVE or SERVICE for OFF or FENCED: states and integral
(R191), a waiting snapshot (R192), supervisor status (R196), the accumulator (R352) and the rails (R71). -/
def Chan.drop (c : Chan) : Chan :=
  { c with law := { act := c.law.act, shd := c.law.shd }
           sup := {}, acc := 0, accNext := 0, nco := 0, preset := false, slot := false, disp := .highz
           rail := { ok := c.rail.ok, rise := c.rail.rise }
           spNew := none }

/-- R232: a running estimator run is abandoned with reason `why`. [DESIGN CHOICE, log 140] -/
def State.leAbort (s : State) (n why : Nat) : State :=
  let c := s.ch n
  if c.le.run || c.le.start then
    let s := s.setCh n { c with le := { fit := c.le.fit } }
    let s := s.setCr n chLeSts (setBits (s.cr n chLeSts) 11 8 why)
    s.cflag n chSupFlags 0x10
  else s

/-- R82: the registers that a channel block reset returns to their reset values. -/
def State.chanRegReset (s : State) (n : Nat) : State :=
  [chCtl, chCfg, chSp, chLim, chFlags, chRefuse].foldl (fun s r =>
    let o := chOff n r
    s.setBoth o (regReset o).toNat) s

/-! Calibration steps that a fence ends (R508, R518, R572). -/

/-- The view offset of step-engine register `rel` of tile `t`. -/
def calOff (t rel : Nat) : Nat := 0xC0000 + 0x100 * t + rel

/-- The view offset of calibration register `rel` of the device. -/
def caldOff (rel : Nat) : Nat := 0xC1000 + rel

/-- The tile's own state. -/
def State.tile (s : State) (t : Nat) : Tile := tget (fun _ => ({} : Tile)) s.tiles t

/-- Replace it. -/
def State.setTile (s : State) (t : Nat) (v : Tile) : State :=
  { s with tiles := tput (fun _ => ({} : Tile)) s.tiles t v }

/-- Converter `m`. -/
def State.psc (s : State) (m : Nat) : Psc := tget (fun _ => ({} : Psc)) s.pscs m

/-- Replace it. -/
def State.setPsc (s : State) (m : Nat) (v : Psc) : State :=
  { s with pscs := tput (fun _ => ({} : Psc)) s.pscs m v }

/-- The step kind, channel, converter of a step. -/
def calKind (c : CalStep) : Nat := bitsOf c.step 3 0
def calCh (t : Nat) (c : CalStep) : Nat := 16 * t + bitsOf c.step 7 4
def calPsc (t : Nat) (c : CalStep) : Nat := 4 * t + bitsOf c.step 13 12

/-- A step of kind VRANGE or IRANGE that measures, or that waits for its commit, drives the stage of channel `n` (R67, R71, R499).
[DEDUCED, log 136] -/
def State.calDrives (s : State) (n : Nat) : Bool :=
  let c := (s.tile (tileOf n)).cal
  (decide (c.st = .measure) || decide (c.st = .commit)) && (decide (calKind c = 2) || decide (calKind c = 3)) &&
    decide (calCh (tileOf n) c = n)

/-- The channel `n` takes part in a step of its tile (R500). -/
def State.calOn (s : State) (n : Nat) : Bool :=
  let c := (s.tile (tileOf n)).cal
  decide (c.st ≠ .idle) && decide (1 ≤ calKind c) && decide (calKind c ≤ 7) && decide (calCh (tileOf n) c = n)

/-- A step ends in absolute cycle `cyc`: the converter is released, the bus is released and CAL_BUS fires if it was requested (R496, R501), but from a fenced
tile (R563). -/
def State.calFree (s : State) (t cyc : Nat) : State :=
  let v := s.tile t
  let c := v.cal
  let m := calPsc t c
  let k := calKind c
  let s := if k = 6 ∨ k = 7 then s else
    if (s.psc m).own = 2 then s.setPsc m {} else s
  let s := s.setTile t { v with cal := {} }
  if c.bus ≠ 0 ∧ ¬ s.isFenced (unTile t) then s.fireAt 24 t cyc none else s

/-- REASON of CAL_RESULTt. -/
def State.calWhy (s : State) (t why : Nat) : State :=
  s.setRg (calOff t calResult) (setBits (s.rg (calOff t calResult)) 7 0 why)

/-- R518: a step is rejected with reason `why`; the CAL_REJECT source reports after it. -/
def State.calReject (s : State) (t why : Nat) : State :=
  let s := s.calWhy t why
  let s := (s.flag (calOff t calFlags) 5).count (caldOff calRejects)
  let s := s.calFree t (s.at_ s.wcyc)
  { s with later := s.later ++ [(10 + t, 8)] }

/-- A step of tile `t` that channel `n`, or any channel, takes part in is abandoned (R508). What a step in COMMIT has written
stands in the copies not in use, and does not come into use. [DEDUCED, log 118] -/
def State.calAbandon (s : State) (t : Nat) (n : Option Nat) : State :=
  let c := (s.tile t).cal
  if c.st = .idle then s
  else match n with
    | none => s.calReject t 8
    | some n => if s.calOn n then s.calReject t 8 else s

/-- R459: the Pip's switch on a tap of a channel that is not OFF or SERVICE is held open. -/
def State.pipStep (s : State) (t : Nat) : State :=
  let w := s.rg (tileOff t tilePipCtl)
  let c := s.ch (16 * t + bitsOf w 7 4)
  let hold := decide (bitsOf w 1 0 = 2) && decide (bitsOf w 3 2 < 2) && decide (c.state ≠ .off) && decide (c.state ≠ .service)
  let v := s.tile t
  let new := if hold then some (w % 256) else none
  if v.pipHeld = new then s
  else
    let s := s.setTile t { v with pipHeld := new }
    if hold then s.flag (tileOff t tilePipSts) 1 else s

/-- R86, R365: a channel that takes no samples has no cause of SAFE_LIMIT. -/
def State.safeEnd (s : State) (n : Nat) : State :=
  { s with causes := s.causes.filter (· ≠ frCh n * 32 + fcSafeLimit) }

/-- R38, R71, R76, R84, R373, R593: channel `n` enters FENCED; one that is FENCED stays as it is, an accepted unfence included. Latched commands are discarded and counted, the Rake, a handover and an
aperture are discarded without a record, and the channel is reset. [DEDUCED, log 50] [DEDUCED, log 51] [DEDUCED, log 54] -/
def State.fenceChan (s : State) (n : Nat) : State :=
  let c := s.ch n
  if c.state = .fenced then s
  else
    let s := s.ccount n chCmdDrop c.cmds.length
    let late := b2n c.meas.goReq.isSome + b2n c.meas.evReq + b2n c.meas.rakeReq.isSome
    let s := if late = 0 then s else (s.cflag n chMeasFlags 2).ccount n chMeasDrop late
    let s := s.leAbort n 3
    let s := if c.law.snap.isSome then s.setCr n chLawSnap 0 else s
    let c := s.ch n
    let s := s.calAbandon (tileOf n) (some n)
    let s := s.setCh n { c.drop with
      state := .fenced, comp := { smpAt := c.comp.smpAt }, cmds := [], le := {}
      ho := c.ho.rest, rng := ⟨15, c.rng.v⟩
      rake := { segOk := c.rake.segOk, stopWhy := c.rake.stopWhy, checking := false }
      meas := { c.meas with ap := {}, rakeReq := none, goReq := none, evReq := false, abort := false }
      outEn := false, rngP := 15, rngS := 15
      tags := [] }
    ((s.chanRegReset n).safeEnd n).pipStep (tileOf n)

/-- R591: a tile fence also fences every channel of the tile. -/
def State.fenceChans (s : State) : List Nat → State
  | [] => s
  | n :: r => State.fenceChans (s.fenceChan n) r

/-- R870: the bits of a tile register that a tile reset keeps. -/
def tileKeep (o : Nat) : Nat :=
  match locate o with
  | none => 0
  | some l => match rowAt l with
    | none => 0
    | some (r, _) =>
      if r.voted ∨ r.cov ∨ l.grp = .flt then 4294967295
      else if l.grp = .cap ∧ l.rel = capCfg then 0x3
      else if l.grp = .psc ∧ l.rel = pscCfg then 0x1
      else if (l.grp = .psc ∧ l.rel = pscGrp) ∨ (l.grp = .tile ∧ (l.rel = tileCapGrp ∨ l.rel = tilePipGrp)) then 4294967295
      else 0

/-- The registers in `ks` returned to reset but for the bits they keep. -/
def resetRegs (keep : Nat → Nat) : List (Nat × Word) → Tbl Word → Tbl Word
  | [], t => t
  | (o, v) :: r, t =>
    let m := keep o
    resetRegs keep r (tput regReset t o
      (BitVec.ofNat 32 ((v.toNat &&& m) ||| ((regReset o).toNat &&& (4294967295 - m)))))

/-- R870: the registers of a tile's block after a tile reset. -/
def State.tileRegReset (s : State) (t : Nat) : State :=
  let inT := fun p : Nat × Word => decide (tileOff t 0 ≤ p.1) && decide (p.1 < tileOff t 0 + 0x4000)
  { s with regs := resetRegs tileKeep (s.regs.filter inT) s.regs
           shadow := resetRegs tileKeep (s.shadow.filter inT) s.shadow }

/-- The address of channel `n`'s trim record (R519). -/
def trimAddr (n : Nat) : Nat := 0x5320000 + 0x100 * n

/-- R864, R870: delay taps and cell selection of a channel as its trim record gives them. -/
def State.trimReload (s : State) (n : Nat) : State :=
  let d := (s.bytes (trimAddr n + 0x40) 3).map fun b => b.toNat % 64
  let cells := (s.bytes (trimAddr n) 63).map (·.toNat)
  (s.unitRead (trimAddr n) 256).updCh n fun c => { c with trim := { c.trim with dly := d, dlyTo := d, cells := cells } }

/-- The reloads of a tile's channels. -/
def State.trimReloads (s : State) : List Nat → State
  | [] => s
  | n :: r => State.trimReloads (s.trimReload n) r

/-- R441, R870: the tile's converters are IDLE again, with no trigger pending, and keep their ownership; SEQ_EN = 0 once applied
still takes effect (R439). -/
def State.pscReset (s : State) : List Nat → State
  | [] => s
  | m :: r =>
    let p := s.psc m
    State.pscReset (s.setPsc m { own := p.own, off := p.off, q := p.q.filter fun e => e.2 = .off }) r

/-- R870: the reset of tile `t`. -/
def State.tileReset (s : State) (t : Nat) : State :=
  let s := s.calAbandon t none
  let s := s.tileRegReset t
  let s := s.setRg (tileOff t tilePipRsrc) (s.tile t).rsrc
  let s := s.pscReset ((List.range 4).map (4 * t + ·))
  let s := s.setTile t { s.tile t with pipHeld := none }
  let s := (tileChans t).foldl (fun s n => s.updCh n fun c => { c with comp := {}, outEn := false, rngP := 15, rngS := 15 }) s
  let s := { s with lines := tput (fun _ => []) s.lines t [], lineOn := s.lineOn.filter (· ≠ t) }
  s.trimReloads (tileChans t)

/-- Unit `u` is fenced, in the present cycle. -/
def State.fenceMark (s : State) (u : Nat) : State :=
  let z := s.at_ s.wcyc
  let l := match s.fenceAt with
    | some (c, l) => if c = z then l else []
    | none => []
  { s with fenced := u :: s.fenced, fenceAt := some (z, u :: l) }

/-- Unit `u` was fenced in the present cycle. -/
def State.fencedNow (s : State) (u : Nat) : Bool := match s.fenceAt with
  | some (c, l) => decide (c = s.at_ s.wcyc) && l.contains u
  | none => false

/-- A fence of a tile: its channels are FENCED (R591), and the tile is reset (R38, R870). Its events are masked first. -/
def State.fenceTile (s : State) (t : Nat) : State :=
  if s.isFenced (unTile t) then s
  else
    let s := (s.fenceMark (unTile t)).fenceChans (tileChans t)
    s.tileReset t

/-! Cores, ports and DDR5 channels (R592). -/

/-- The view offset of register `rel` of core `x`. -/
def coreOff (x rel : Nat) : Nat := 0x800 + 32 * x + rel

/-- STATE of core `x` (R809). -/
def State.coreSt (s : State) (x : Nat) : Nat := bitsOf (s.rg (coreOff x coreSts)) 2 0

/-- Set it. -/
def State.setCoreSt (s : State) (x v : Nat) : State := s.setRg (coreOff x coreSts) v

/-- R839: the outcome of an update: FAIL with its reason, or DONE. -/
def State.updFlag (s : State) (mask why : Nat) : State :=
  let s := s.setRg sysCoreUpdSts (setBits (s.rg sysCoreUpdSts) 11 8 why)
  s.flag sysCoreUpdSts mask

/-- R826: an update of core `x` is abandoned, and the content of its memory is undefined. -/
def State.updAbandon (s : State) (x : Nat) : State :=
  match s.cpu.upd with
  | some u => if u.slot = x then
      let s := s.store (0x5400000 + 0x80000 * x) ((List.range 524288).map fun i => Config.tcmAfter x i)
      { (s.updFlag 4 10) with cpu := { s.cpu with upd := none } }
    else s
  | none => s

/-- Registers of view offsets `lo` to `hi - 1` but `keep` return to their reset values. -/
def State.blockRegReset (s : State) (lo hi : Nat) (keep : List Nat) : State :=
  let out := fun p : Nat × Word => !(decide (lo ≤ p.1) && decide (p.1 < hi)) || keep.contains p.1
  { s with regs := s.regs.filter out, shadow := s.shadow.filter out }

/-- R38, R690: the reset of core `x`: its registers, those of its block and its watchdog, but not its memory; STATE is left to the caller. -/
def State.coreReset (s : State) (x : Nat) : State :=
  let s := ((s.updAbandon x).blockRegReset (coreOff x 0) (coreOff x 32) [coreOff x coreSts]).setCoreRegs x {}
  { s with cpu := { s.cpu with
      halting := s.cpu.halting.filter (· ≠ x), waking := s.cpu.waking.filter (·.1 ≠ x), wdog := tput (fun _ => 0) s.cpu.wdog x 0, back := tput (fun _ => 1) s.cpu.back x 1
      mtip := s.cpu.mtip.filter (· ≠ x), mtimecmp := tput (fun _ => 18446744073709551615) s.cpu.mtimecmp x 18446744073709551615 } }

/-- R38, R690: a DDR5 controller's reset; what the channel held is lost, and reads as memory that nothing has written. STATE is
left to the caller. -/
def State.ddrReset (s : State) (x : Nat) : State :=
  let lo := ddrBase + 137438953472 * x
  let out := fun a => !(decide (lo ≤ a) && decide (a < lo + 137438953472))
  let s := { s with mem := s.mem.filter fun p => out p.1, memUE := s.memUE.filter out, memCE := s.memCE.filter out }
  s.blockRegReset (ddrOff x 0) (ddrOff x 32) [ddrOff x memcDdrSts]

/-- R38, R690: the reset of port `p`: its link's state, its registers and its bits of FAB_PORT_CTL. The routing table and the
fault frame stay, and STATE is left to the caller. -/
def State.portReset (s : State) (p : Nat) : State :=
  let s := (s.setPort p {}).setRg (fabOff fabPortCtl) (s.fr fabPortCtl &&& (4294967295 - 273 * 2 ^ p))
  let os := [fabDelay, fabAsym, fabRetry, fabCrcerr, fabDrop].map fun r => fabOff (r + 4 * p)
  { s with regs := s.regs.filter fun q => !os.contains q.1, shadow := s.shadow.filter fun q => !os.contains q.1
           voteErr := s.voteErr.filter fun o => !os.contains o }

/-- A fence of a core, a port or a DDR5 channel, with the unit's reset (R38, R592). A port that the strap disables is not
fenced (R673). -/
def State.fenceUnit (s : State) (u : Nat) : State :=
  if s.isFenced u ∨ (32 ≤ u ∧ u < 36 ∧ s.portSt (u - 32) = 0 ∧ bitOf s.boot.ports (u - 32) = false) then s
  else
    let s := s.fenceMark u
    if 48 ≤ u then (s.ddrReset (u - 48)).setRg (ddrOff (u - 48) memcDdrSts) 5
    else if 32 ≤ u then ((s.portDown (u - 32) 4).portReset (u - 32)).linkLevel (u - 32)
    else (s.coreReset (u - 16)).setCoreSt (u - 16) 5

/-- A fence of the unit coded `u`. -/
def State.fence (s : State) (u : Nat) : State :=
  if 64 ≤ u then s.fenceChan (u - 64)
  else if u < 4 then s.fenceTile u
  else s.fenceUnit u

/-- R716: core `x` resumes from wait-for-interrupt, or its gate opens and it runs again from where it stopped. -/
def State.coreOpen (s : State) (x : Nat) : State :=
  let st := s.coreSt x
  if st = 2 then s.setCoreSt x 1
  else if st = 4 then
    let back := tget (fun _ => 1) s.cpu.back x
    let s := s.setCoreSt x (if back = 2 then 1 else back)
    { s with cpu := { s.cpu with back := tput (fun _ => 1) s.cpu.back x 1 } }
  else s

/-- R716: a wake request of core `x`: a core in wait-for-interrupt or gated runs at once or within four boundaries (1 µs, R863). One
that arrives during TO_STANDBY waits for its end (R712). [DESIGN CHOICE, log 125] -/
def State.wakeCore (s : State) (x : Nat) : State :=
  if bitsOf (s.rg sysPwrSts) 1 0 = 1 then
    { s with clk := { s.clk with wakeCores := if s.clk.wakeCores.contains x then s.clk.wakeCores else s.clk.wakeCores ++ [x] } }
  else if s.coreSt x = 2 ∨ s.coreSt x = 4 then
    match Config.wakeDelay s.tick x with
    | 0 => s.coreOpen x
    | d => { s with cpu := { s.cpu with waking := s.cpu.waking ++ [(x, d.val)] } }
  else s

/-- The cores whose time to wake is over at a boundary. -/
def State.coresOpen (s : State) : State :=
  let l := s.cpu.waking.map fun p => (p.1, p.2 - 1)
  (l.filter (·.2 = 0)).foldl (fun s p => s.coreOpen p.1) { s with cpu := { s.cpu with waking := l.filter (·.2 ≠ 0) } }

/-- Wake requests of several cores. -/
def State.wakeCores (s : State) : List Nat → State
  | [] => s
  | x :: r => State.wakeCores (s.wakeCore x) r

/-- R716, R813: core `x` takes an NMI: from RUN, wait-for-interrupt or a gated clock it jumps to CORE_NMIVECx, during TO_STANDBY as well. A
halted core does not. [DESIGN CHOICE, log 144] -/
def State.coreNmi (s : State) (x f : Nat) : State :=
  let st := s.coreSt x
  if st = 3 ∨ (st = 4 ∧ tget (fun _ => 1) s.cpu.back x = 3) then s
  else
    let s := (s.setCoreSt x 1).setCoreRegs x { s.coreRegs x with pc := BitVec.ofNat 32 (s.rg (coreOff x coreNmivec)) }
    { s with cpu := { s.cpu with back := tput (fun _ => 1) s.cpu.back x 1 }, out := s.out ++ [.nmi x f] }

/-- R590, R813: NMIs of frame `f` to the cores named; a fenced core or one in reset loses it. -/
def State.nmis (s : State) (f : Nat) : List Nat → State
  | [] => s
  | x :: r =>
    let s := if s.isFenced (unCore x) ∨ s.coreSt x = 0 then s.flag (fltOff f fltSts) 0x100000
      else s.coreNmi x f
    State.nmis s f r

/-- The class of source `i` of frame `f` as it registered, or by R575. -/
def State.srcClass (s : State) (f i : Nat) : Nat :=
  let v := tget (fun _ => 0) s.fltReg (f * 32 + i)
  if v ≠ 0 then v / 256 % 16 else ((srcsOf f).getD i ⟨15, false, 0⟩).cls

/-- R584: a source flag of class `c` is set in the frame before this cycle. -/
def State.classSet (s : State) (f sts c : Nat) : Bool :=
  (List.range 20).any fun i => bitOf sts i && decide (s.srcClass f i = c)

/-- The programmed severity of source `i` (R608). -/
def State.sevOf (s : State) (f i : Nat) : Nat :=
  if i < 16 then bitsOf (s.rg (fltOff f fltSev0)) (2 * i + 1) (2 * i)
  else bitsOf (s.rg (fltOff f fltSev1)) (2 * i - 31) (2 * i - 32)

/-- A fault as it registers: source, class, escalation, effective severity and the byte of the reaction table. -/
structure Regd where
  src  : Nat
  cls  : Nat
  esc  : Bool
  sev  : Nat
  byte : Nat
deriving DecidableEq, Repr

/-- R584, R585: the faults of one cycle judged in ascending index. -/
def State.judge (s : State) (f sts : Nat) : List Nat → List (Nat × Nat) → List Regd
  | _, [] => []
  | seen, (i, c) :: r =>
    let esc := s.classSet f sts c || seen.contains c
    let sev := min 3 (s.sevOf f i + b2n esc)
    { src := i, cls := c, esc := esc, sev := sev, byte := bitsOf (s.rg (fltOff f fltReact)) (8 * sev + 7) (8 * sev) }
      :: State.judge s f sts (c :: seen) r

/-- The low 14 bits and more of FLT_LAST for a registered fault (R608). -/
def lastWord (g : Regd) : Nat :=
  g.src + 32 * g.cls + 512 * g.sev + 2048 * b2n g.esc + 8192 * (g.byte % 32) + 262144 * (g.byte / 32)

/-- SYS_FLT_RSTSRC of a registered fault of frame `f` (R594, R608). -/
def rstWord (f : Nat) (g : Regd) : Nat :=
  let b := if f = 0 then (1, 0) else if f < 9 then (2, f - 1) else if f = 9 then (3, 0) else if f < 14 then (4, f - 10)
    else if f = 14 then (5, 0) else if f = 15 then (6, 0) else if f = 16 then (7, 0) else if f = 17 then (8, 0)
    else if f = 18 then (9, 0) else (10, f - 19)
  b.1 + 16 * b.2 + 1024 * g.src + 32768 * g.cls + 524288 * g.sev + 2097152 * b2n g.esc + 4194304 * (g.byte % 32)
    + 134217728 * (g.byte / 32)

/-- The registers that keep their value through a chip reset: SYS_FLT_RSTSRC when the cause is SELF (R573), the trim-load
counts unless the cause is power-on (R677). -/
def chipKeep (cause o : Nat) : Bool :=
  (decide (cause = 2) && decide (o = fltOff frSys fltSysFltRstsrc)) ||
  (decide (cause ≠ 0) && decide (0x210 ≤ o) && decide (o < 0x224))

/-- R826: a reset during a firmware update leaves undefined content in the core's memory. -/
def State.tcmLost (s : State) : State :=
  match s.cpu.upd with
  | some u => s.storeRaw (0x5400000 + 0x80000 * u.slot) ((List.range 524288).map fun i => Config.tcmAfter u.slot i)
  | none => s

/-- R659, R662, R664: the device in reset with cause `cause` (0 POR, 1 PIN, 2 SELF). What reset does not reach stays: the
waiting commands, the memory contents and what was sent. -/
def State.chipReset (s : State) (cause : Nat) : State :=
  let s := s.tcmLost
  let r : State := { pending := s.pending, mem := s.mem, memUE := s.memUE, memCE := s.memCE, out := s.out
                     regs := s.regs.filter fun p => chipKeep cause p.1
                     trig := (s.trig.filter fun p => p.2.level).map fun p => (p.1, { level := true }), jtag := s.jtag }
  r.setRg sysRstCause cause

/-- The registration of faults judged in one cycle: flags, counters, records, and the reactions FENCE, NMI and CHIPRST in
the order of R582, R586 and R594. -/
def State.register (s : State) (f : Nat) (gs : List Regd) : State :=
  match gs with
  | [] => s
  | g :: _ =>
    let s := s.flag (fltOff f fltSts) (gs.foldl (fun m g => m ||| 2 ^ g.src) 0)
    let s := s.count (fltOff f fltCnt) gs.length
    let s := s.setRg (fltOff f fltLast) (lastWord g)
    let s := gs.foldl (fun s g =>
      let e := s.rg (fltOff f fltEsc)
      let e := if g.esc then e ||| 2 ^ g.src else if bitOf e g.src then e - 2 ^ g.src else e
      let s := s.setRg (fltOff f fltEsc) e
      { s with fltReg := tput (fun _ => 0) s.fltReg (f * 32 + g.src) (g.byte + 256 * g.cls + 4096) }) s
    let s := if gs.any fun g => bitOf g.byte 4 then { s with alive := { s.alive with held := true, soon := if s.alive.held then s.alive.soon else 4 } } else s
    let s := gs.foldl (fun s g => if bitOf g.byte 2 then
      match fenceTarget f g.src with
      | some u => s.fence u
      | none => s else s) s
    let cores := (List.range 8).filter fun x => gs.any fun g => bitOf g.byte 1 && decide (g.byte / 32 = x)
    let s := s.nmis f cores
    match gs.find? (fun g => bitOf g.byte 3) with
    | some g => (s.setRg (fltOff frSys fltSysFltRstsrc) (rstWord f g)).chipReset 2
    | none => s

/-- The frame and the VOTE source of the block that holds the register at a place. -/
def voteSource (l : Loc) : Nat × Nat :=
  let tile := fun t => (frTile t, 16)
  match l.grp with
  | .ch => (frCh l.inst, 15)
  | .cmp => tile (l.inst / 16)
  | .cap => tile (l.inst / 32)
  | .psc => tile (l.inst / 4)
  | .tile => tile l.inst
  | .eng => (frEng, 4)
  | .brm => (frBrm, 1)
  | .evc => (frBrm, 1)
  | .fab => (frFab, 13)
  | .ode => (frOde, 1)
  | .memc => (frMemc, 8)
  | .host => (frHost, 2)
  | .dma => (frHost, 2)
  | .flt =>
    let f := l.inst
    if 19 ≤ f then (f, 15) else if f = 9 then (f, 4) else if f < 10 then (frSys, 9) else if f < 14 then (f, 16)
    else if f = 14 then (f, 1) else if f = 15 then (f, 13) else if f = 16 then (f, 1) else if f = 17 then (f, 8) else (f, 2)
  | _ => (frSys, 9)

/-- The registers of frame `f` that say how its sources `is` react (R608). -/
def reactRegs (f : Nat) (is : List Nat) : List Nat :=
  if is = [] then []
  else fltOff f fltReact :: ((if is.any fun i => decide (i < 16) then [fltOff f fltSev0] else []) ++
    (if is.any fun i => decide (16 ≤ i) then [fltOff f fltSev1] else []))

/-- R632: the vote at their use; the block's VOTE is left in `later`. -/
def State.reactVotes (s : State) (f : Nat) (is : List Nat) : State :=
  let bad := s.voteErr.filter (reactRegs f is).contains
  if bad = [] then s
  else { s with voteErr := s.voteErr.filter fun o => !bad.contains o, later := s.later ++ [voteSource ⟨.flt, f, fltReact⟩] }

/-- Sources of frame `f` report in one cycle, each with its class, in ascending index (R582, R583); what a fence brings
about is left in `later`. -/
def State.report0 (s : State) (f : Nat) (rs : List (Nat × Nat)) : State :=
  let sts := s.rg (fltOff f fltSts)
  let rep := (rs.filter fun p => bitOf sts p.1).length
  let s := if rep = 0 then s else s.count (fltOff f fltRepeats) rep
  let new := rs.filter fun p => !bitOf sts p.1
  let s := s.reactVotes f (new.map (·.1))
  s.register f (s.judge f sts [] new)

/-- The class of a source by R575. -/
def srcCls (f i : Nat) : Nat := ((srcsOf f).getD i ⟨15, false, 0⟩).cls

/-- Sources of frame `f` in one cycle: events, and kind-L sources whose causes begin. -/
def State.onsets0 (s : State) (f : Nat) (is : List Nat) : State :=
  let lvl := fun i => ((srcsOf f).getD i ⟨15, false, 0⟩).lvl
  let new := is.filter fun i => !(lvl i && s.causes.contains (f * 32 + i))
  if new = [] then s
  else State.report0 { s with causes := (new.filter lvl).map (f * 32 + ·) ++ s.causes } f (new.map fun i => (i, srcCls f i))

/-- A kind-L source whose cause begins, or an event. -/
def State.onset0 (s : State) (f i : Nat) : State := s.onsets0 f [i]

/-- The sources that fences and links have left to report, those of one frame that follow each other in one cycle. -/
def State.drain : Nat → State → State
  | 0, s => s
  | k + 1, s => match s.later with
    | [] => s
    | (f, i) :: r =>
      let mine := fun p : Nat × Nat => decide (p.1 = f)
      State.drain k (State.onsets0 { s with later := r.dropWhile mine } f (i :: (r.takeWhile mine).map (·.2)).eraseDups)

/-- Every source left to report. A fence leaves at most one of its unit, and no unit is fenced twice; a frame's table is voted at most
once for each of its registers. -/
def State.settleFaults (s : State) : State := s.drain 512

/-- Sources of frame `f` report in one cycle, and what their fences bring about. -/
def State.report (s : State) (f : Nat) (rs : List (Nat × Nat)) : State := (s.report0 f rs).settleFaults

/-- One source of frame `f` reports an event. -/
def State.fault (s : State) (f i : Nat) : State := s.report f [(i, srcCls f i)]

/-- A kind-L cause begins: reported at its onset only (R583). -/
def State.cause (s : State) (f i : Nat) : State :=
  let k := f * 32 + i
  if s.causes.contains k then s else State.fault { s with causes := k :: s.causes } f i

/-- A kind-L cause ends. -/
def State.uncause (s : State) (f i : Nat) : State :=
  { s with causes := s.causes.filter (· ≠ f * 32 + i) }

/-- A transaction completes, and what its stores bring about. -/
def State.complete (s : State) (t : Txn) (status cause done : Nat) (data : List Byte) (keep : Option Nat) : State :=
  let u := s.finish t status cause done data keep
  if u.later = s.later then u else u.settleFaults

/-- R869: bytes that firmware stores in the memory of core `x`. -/
def State.corePut (s : State) (x a : Nat) (bs : List Byte) : State :=
  let p := s.put a bs
  if p.2 = [] then p.1 else p.1.fault (frCore x) fxTcmUe

/-- R595: an ALIVE_STOP is active while a source flag is set whose registered fault included it. -/
def State.aliveStop (s : State) : Bool := s.fltReg.any fun p => bitOf p.2 4

/-! Voting (R632, R579). -/

/-- The frame whose injections reach the register at a place: that of the block which holds it (R604, R605). -/
def voteFrame (l : Loc) : Nat :=
  match l.grp with
  | .flt => l.inst
  | .core => frCore l.inst
  | _ => (voteSource l).1

/-- The register at `o` is voted. -/
def isVoted (o : Nat) : Bool := match locate o with
  | some l => (match rowAt l with
    | some (r, _) => r.voted
    | none => false)
  | none => false

/-- A vote corrects the register at `o`. -/
def State.voteFix (s : State) (o : Nat) : State :=
  let s := { s with voteErr := s.voteErr.filter (· ≠ o) }
  match locate o with
  | some l => s.fault (voteSource l).1 (voteSource l).2
  | none => s

/-- Votes that correct several registers. -/
def State.voteFixes (s : State) : List Nat → State
  | [] => s
  | o :: r => (s.voteFix o).voteFixes r

/-- R632: the scrub visits the register at `o` in the present tick: at least once in 200 base ticks. -/
def State.scrubbed (s : State) (o : Nat) : Bool :=
  Config.scrubs o s.tick || (List.range 200).all fun k => !Config.scrubs o (s.tick - k)

/-- R632: the vote at a use of the registers of `os`. [DESIGN CHOICE, log 64] -/
def State.votes (s : State) (os : List Nat) : State := s.voteFixes (s.voteErr.filter os.contains)

/-- R605: a voted register is written: under CHK 5 one copy is stored inverted. -/
def State.voteWrite (s : State) (o : Nat) : State :=
  match locate o with
  | none => s
  | some l =>
    let f := voteFrame l
    let s := { s with voteErr := s.voteErr.filter (· ≠ o) }
    if s.injHit f 5 none then let s := s.injGen f 5 none; { s with voteErr := s.voteErr ++ [o] } else s

/-- R589: the interrupt of frame `f`. -/
def State.irq (s : State) (f : Nat) : Bool :=
  s.fltReg.any fun p => decide (p.1 / 32 = f) && bitOf p.2 0

end Sys2Proof.Machine
end

