-- ==== Sys2Proof/Machine/Law.lean ====
section
/-! DEFINITION. The control law: coefficient sets as they stand in memory (R155 to R159), the evaluation of R149, the swap
evaluation of R179 to R187 and the cold evaluation of R190. -/

namespace Sys2Proof.Machine

/-- A coefficient set as the engine reads it (R157, R158). -/
structure CoefSet where
  order : Nat
  fi    : Bool
  xinit : Nat
  zinit : Nat
  aw    : Bool
  stype : List Nat
  umax  : Int
  umin  : Int
  z0    : Int
  x0    : List Int
  n     : Coef
  ki    : Coef
  w     : Coef
  nk    : List Coef
  gam   : List Coef
  lv    : List Coef
  li    : List Coef
  phi   : List (List Coef)
deriving DecidableEq, Repr

/-- The header word of set `k` of channel `n`. -/
def State.setHdr (s : State) (n k : Nat) : Nat := s.w32 (setAddr n k)

/-- ORDER of a set. -/
def State.setOrder (s : State) (n k : Nat) : Nat := bitsOf (s.setHdr n k) 3 0

/-- MODE of a set: FI. -/
def State.setFi (s : State) (n k : Nat) : Bool := bitOf (s.setHdr n k) 4

/-- The valid bit of a set (R161). -/
def State.setValid (s : State) (n k : Nat) : Bool := bitOf (s.ch n).valid.toNat k

/-- The coefficient word at `a`. -/
def State.coef (s : State) (a : Nat) : Coef := coefOf (s.w64 a)

/-- Set `k` of channel `n`, the terms at or above ORDER left out (R159). [DEDUCED, log 34] -/
def State.loadSet (s : State) (n k : Nat) : CoefSet :=
  let a := setAddr n k
  let h := s.w32 a
  let o := bitsOf h 3 0
  let r := List.range o
  { order := o, fi := bitOf h 4, xinit := bitsOf h 6 5, zinit := bitsOf h 8 7, aw := bitOf h 9
    stype := r.map fun i => bitsOf h (17 + 2 * i) (16 + 2 * i)
    umax := sgn32 (s.w32 (a + 4)), umin := sgn32 (s.w32 (a + 8)), z0 := sgn32 (s.w32 (a + 12))
    x0 := r.map fun i => sgn32 (s.w32 (a + 0x10 + 4 * i))
    n := s.coef (a + 0x30), ki := s.coef (a + 0x38), w := s.coef (a + 0x40)
    nk := r.map fun i => s.coef (a + 0x80 + 8 * i)
    gam := r.map fun i => s.coef (a + 0xC0 + 8 * i)
    lv := r.map fun i => s.coef (a + 0x100 + 16 * i)
    li := r.map fun i => s.coef (a + 0x108 + 16 * i)
    phi := r.map fun i => r.map fun j => s.coef (a + 0x180 + 64 * i + 8 * j) }

/-- The parts of a set that an evaluation fetches, as (offset, length): a codeword with an uncorrectable error in one of
them is COEF_ECC (R159, R167). -/
def setParts (o : Nat) : List (Nat × Nat) :=
  [(0, 0x48), (0x80, 8 * o), (0xC0, 8 * o), (0x100, 16 * o)] ++ (List.range o).map fun i => (0x180 + 64 * i, 8 * o)

/-- The parts of the set that a swap evaluation brings in, or a cold evaluation uses (R179, R183, R190): the header to N, and −K. -/
def inParts (o : Nat) : List (Nat × Nat) := [(0, 0x38), (0x80, 8 * o)]

/-- The parts of the outgoing set that a swap evaluation fetches (R181, R182): KI and W, Γ, L and Φ. -/
def outParts (o : Nat) : List (Nat × Nat) :=
  [(0, 4), (0x38, 16), (0xC0, 8 * o), (0x100, 16 * o)] ++ (List.range o).map fun i => (0x180 + 64 * i, 8 * o)

/-- An uncorrectable error in parts of set `k`. -/
def State.setUE (s : State) (n k : Nat) (parts : Nat → List (Nat × Nat) := setParts) : Bool :=
  (parts (s.setOrder n k)).any fun p => s.ue (setAddr n k + p.1) p.2

/-- The sets whose coefficients the evaluation due fetches with an uncorrectable error (R167). -/
def State.badSets (s : State) (n : Nat) : List Nat :=
  let l := (s.ch n).law
  (if s.setUE n l.act (if l.cold ∨ l.owed.isSome then inParts else setParts) then [l.act] else []) ++
  (match l.owed with
    | some o => if ¬ l.cold ∧ s.setUE n o.out outParts then [o.out] else []
    | none => [])

/-- The coefficients that the evaluation due fetches are read (R817, R818). -/
def State.lawReads (s : State) (n : Nat) : State :=
  if s.memUE = [] ∧ s.memCE = [] then s
  else
    let l := (s.ch n).law
    let reads := fun (s : State) (k : Nat) (parts : Nat → List (Nat × Nat)) =>
      (parts (s.setOrder n k)).foldl (fun s p => s.unitRead (setAddr n k + p.1) p.2) s
    let s := reads s l.act (if l.cold ∨ l.owed.isSome then inParts else setParts)
    match l.owed with
    | some o => if l.cold then s else reads s o.out outParts
    | none => s

/-- The samples of an evaluation, calibrated. -/
structure Samp where
  v : Int
  i : Int
deriving DecidableEq, Repr

/-- What an evaluation leaves: states, integral, output, which limit acted, the events, and the states before the
rescaling of R187 (for a snapshot). -/
structure LawOut where
  x    : List Int
  z    : Int
  u    : Int
  lim  : Int
  ev   : SatEv
  snap : List Int
deriving DecidableEq, Repr

/-- R149 step 1, one row: Φ in column order, Γ, L for yV, L for yI (R152). -/
def rowX (c : CoefSet) (x : List Int) (u : Int) (y : Samp) (i : Nat) (ev : SatEv) : Int × SatEv :=
  let ts := (c.phi.getD i []).zip x ++ [(c.gam.getD i ⟨0, 0⟩, u), (c.lv.getD i ⟨0, 0⟩, y.v), (c.li.getD i ⟨0, 0⟩, y.i)]
  let (a, ev) := macSum ev ts
  let (r, sat) := accConv a
  (r, { ev with st := ev.st || sat })

/-- R149 step 1: the observer update. -/
def stepX (c : CoefSet) (x : List Int) (u : Int) (y : Samp) (ev : SatEv) : List Int × SatEv :=
  (List.range c.order).foldl (fun (a : List Int × SatEv) i =>
    let (r, ev) := rowX c x u y i a.2
    (a.1 ++ [r], ev)) ([], ev)

/-- R151: the error on set-point `r` of a set's own mode. -/
def errOf (fi : Bool) (r : Int) (y : Samp) : Int := sat32 (r - (if fi then y.i else y.v))

/-- R149 step 2 with the conditional integration of R153. -/
def stepZ (c : CoefSet) (z e uLim : Int) (ev : SatEv) : Int × SatEv :=
  let p := c.ki.c * e
  let held := c.aw && ((decide (uLim > 0) && decide (p > 0)) || (decide (uLim < 0) && decide (p < 0)))
  let (a, ev) := macSum ev [(c.w, z), (c.ki, if held then 0 else e)]
  let (r, sat) := accConv a
  (r, { ev with st := ev.st || sat })

/-- R120: the output limits of the set. -/
def limitU (c : CoefSet) (v : Int) (ev : SatEv) : Int × Int × SatEv :=
  if v > c.umax then (c.umax, 1, { ev with out := true })
  else if v < c.umin then (c.umin, -1, { ev with out := true })
  else (v, 0, ev)

/-- R149 step 3 with the gains `g` (R150): −K terms, N, and the integral through the unit coefficient (R121). -/
def stepU (c : CoefSet) (g : List Coef) (x : List Int) (r z : Int) (ev : SatEv) : Int × Int × SatEv :=
  let (a, ev) := macSum ev (g.zip x ++ [(c.n, r), (unitCoef, z)])
  let (v, sat) := accConv a
  limitU c v { ev with out := ev.out || sat }

/-- The output row without its z term (R184). -/
def rowW (c : CoefSet) (g : List Coef) (x : List Int) (r : Int) (ev : SatEv) : Int × SatEv :=
  let (a, ev) := macSum ev (g.zip x ++ [(c.n, r)])
  ((accConv a).1, ev)

/-- R149: the evaluation outside a swap and a cold evaluation. -/
def evalLaw (c : CoefSet) (x : List Int) (z u uLim r : Int) (y : Samp) : LawOut :=
  let (x', ev) := stepX c x u y {}
  let (z', ev) := stepZ c z (errOf c.fi r y) uLim ev
  let (u', lim, ev) := stepU c c.nk x' r z' ev
  { x := x', z := z', u := u', lim := lim, ev := ev, snap := x' }

/-- Output and integral of a swap evaluation: with BUMPLESS z′ = sat(u_prev − w) and u = limit(w + z′)
(R184). -/
def bumpU (c : CoefSet) (g : List Coef) (x : List Int) (r z uPrev : Int) (ev : SatEv) : Int × Int × Int × SatEv :=
  if c.zinit = 1 then
    let (w, ev) := rowW c g x r ev
    let z' := sat32 (uPrev - w)
    let (u, lim, ev) := limitU c (sat32 (w + z')) ev
    (u, lim, z', ev)
  else
    let (u, lim, ev) := stepU c g x r z ev
    (u, lim, z, ev)

/-- R185: σ of a state type as a fraction; 1 where the ranges are equal or not implemented. -/
def sigmaOf (sc : Scales) (t : Nat) : Int × Int :=
  if t = 1 then (if sc.vOld ≤ 0 ∨ sc.vNew ≤ 0 then (1, 1) else (sc.vOld, sc.vNew))
  else if t = 2 then (if sc.iOld ≤ 0 ∨ sc.iNew ≤ 0 then (1, 1) else (sc.iOld, sc.iNew))
  else (1, 1)

/-- R257: multiplication by σV, half to even and saturated; a saturation sets SAT_STATE. -/
def mulSigV (sc : Scales) (v : Int) (ev : SatEv) : Int × SatEv :=
  let (a, b) := sigmaOf sc 1
  let r := rne (v * a) b
  (sat32 r, { ev with st := ev.st || decide (r > max32) || decide (r < -max32) })

/-- The states that XINIT maps into the incoming set (R183): states below m, then zeros, then the delay state. A preset of
−2^31 is used as it stands. [DESIGN CHOICE, log 93] -/
def mapX (cin : CoefSet) (nOut : Nat) (x : List Int) (delay : Int) : List Int :=
  let m := (min cin.order nOut) - 1
  (List.range cin.order).map fun i =>
    if i + 1 = cin.order then delay
    else if cin.xinit = 2 then cin.x0.getD i 0
    else if i < m then x.getD i 0 else 0

/-- R187: each typed state multiplied by σi in the phase-1 window after a SCALE swap evaluation. -/
def rescaleX (cin : CoefSet) (sc : Scales) (x : List Int) (ev : SatEv) : List Int × SatEv :=
  (List.range x.length).foldl (fun (a : List Int × SatEv) i =>
    let v := x.getD i 0
    let t := cin.stype.getD i 0
    if t = 0 then (a.1 ++ [v], a.2)
    else
      let (p, q) := sigmaOf sc t
      let (acc, ev) := macSum a.2 [(formCoef p q, v)]
      let (r, sat) := accConv acc
      (a.1 ++ [r], { ev with st := ev.st || sat })) ([], ev)

/-- R186: the entry gains −K[i] × σi of the typed states. -/
def entryGains (cin : CoefSet) (sc : Scales) : List Coef :=
  (List.range cin.order).map fun i =>
    let k := cin.nk.getD i ⟨0, 0⟩
    let t := cin.stype.getD i 0
    if t = 0 then k else
      let (p, q) := sigmaOf sc t
      prodCoef k (formCoef p q)

/-- R179 to R187, R257: the swap evaluation by outgoing set `co` into incoming set `ci`. The entry gains take −K and the full scales as
they stand at this evaluation, but where a handover has formed them, `pre`. [DEDUCED, log 32] [DEDUCED, log 33]
[DESIGN CHOICE, log 122] -/
def evalSwap (co ci : CoefSet) (sc : Scales) (pre : Option (List Coef)) (x : List Int) (z u uLim r : Int) (y : Samp) : LawOut :=
  let (xo, ev) := stepX co x u y {}
  let (zo, ev) := stepZ co z (errOf co.fi r y) uLim ev
  let delay0 := xo.getD (co.order - 1) 0
  let (delay, ev) := if ci.xinit = 2 then mulSigV sc u ev else mulSigV sc delay0 ev
  let (zk, ev) := if ci.zinit = 0 then mulSigV sc zo ev else (zo, ev)
  let (up, ev) := if ci.zinit = 1 then mulSigV sc u ev else (u, ev)
  let xi := mapX ci co.order xo delay
  let z1 := if ci.zinit = 0 then zk else if ci.zinit = 3 then ci.z0 else 0
  let g := if ci.xinit = 1 then pre.getD (entryGains ci sc) else ci.nk
  let (u', lim, z', ev) := bumpU ci g xi r z1 up ev
  let (xr, ev) := if ci.xinit = 1 then rescaleX ci sc xi ev else (xi, ev)
  { x := xr, z := z', u := u', lim := lim, ev := ev, snap := xi }

/-- R190: the cold evaluation: z by ZINIT, then step 3 of R149. -/
def evalCold (c : CoefSet) (r : Int) : LawOut :=
  let x := (List.range c.order).map fun i => if i + 1 = c.order then 0 else if c.xinit = 2 then c.x0.getD i 0 else 0
  let z := if c.zinit = 3 then c.z0 else if c.zinit = 1 then sat32 (-(rowW c c.nk x r {}).1) else 0
  let (u, lim, ev) := stepU c c.nk x r z {}
  { x := x, z := z, u := u, lim := lim, ev := ev, snap := x }

/-- R50: the FDAC code of an output, with the estimator's perturbation (R226). -/
def fdacCode (u pert : Int) : Int := satTo 524287 (satTo 524287 (rne u 4096) + pert)

/-- What a handover has formed for the swap that takes effect at the present boundary (R186): where its set is the target formed for
and the swap's evaluation is not one owed over a change of range (R181). [DESIGN CHOICE, log 122] -/
def Chan.preOf (c : Chan) : Option HoPre :=
  match c.ho.pre, c.law.owed with
  | some p, some o => if c.ho.st = .handed ∧ p.set = c.law.act ∧ o.rng = c.rng then some p else none
  | _, _ => none

/-- R179, R190, R149: the evaluation due on the present boundary. `sc` holds the ranges of the swap. -/
def State.lawEval (s : State) (n : Nat) (r : Int) (y : Samp) (sc : Scales) : LawOut :=
  let l := (s.ch n).law
  let c := s.loadSet n l.act
  if l.cold then evalCold c r
  else match l.owed with
    | some o => evalSwap (s.loadSet n o.out) c sc (((s.ch n).preOf).map (·.gains)) l.x l.z l.u l.uLim r y
    | none => evalLaw c l.x l.z l.u l.uLim r y

end Sys2Proof.Machine
end

