-- ==== Sys2Proof/Machine/Operands.lean ====
section
/-! DEFINITION. The operands of a channel's evaluation: conditioned samples (R109, R509, R511), limits (R56 to R58), the
set-point in use (R59, R60, R111, R289) and the sets that hardware swaps target (R170, R255). -/

namespace Sys2Proof.Machine

/-- A correction (R509, R510). -/
structure CalCoef where
  g : Int := 1073741824
  o : Int := 0
  q : Int := 0
deriving DecidableEq, Repr

/-- R509: a correction applied to a converter value. -/
def correct (c : CalCoef) (x : Int) : Int :=
  let d := sat32 (x - c.o)
  sat32 (rne (c.g * d * 1073741824 + c.q * d * d) 1152921504606846976)

/-- The address of object `j` (R519): channel objects, converter objects from 2,048 on, trim records from 2,560 on. -/
def objAddr (j : Nat) : Nat :=
  if j < 2048 then 0x5100000 + 0x400 * j else if j < 2560 then 0x5300000 + 0x400 * (j - 2048)
  else 0x5320000 + 0x100 * (j - 2560)

/-- The tile of object `j`. -/
def objTile (j : Nat) : Nat :=
  if j < 2048 then j / 512 else if j < 2560 then (j - 2048) / 32 else (j - 2560) / 16

/-- The copy in use of object `j`, and the other copy (R519, R520). -/
def State.objUse (s : State) (j : Nat) : Nat := objAddr j + (if s.calSel.contains j then 0x200 else 0)
def State.objOther (s : State) (j : Nat) : Nat := objAddr j + (if s.calSel.contains j then 0 else 0x200)

/-- The CRC of a copy or a trim record holds, and it can be read. -/
def State.copyOk (s : State) (a len : Nat) : Bool :=
  !s.ue a len && decide (s.w32 (a + len - 4) = (crc32c (s.bytes a (len - 4))).toNat)

/-- A point of a calibration object (R512, R520). -/
structure CalPt where
  temp : Int
  g    : Int
  o    : Int
  q    : Int
  raw  : List Byte
deriving DecidableEq, Repr

/-- The points of the copy at `a`. -/
def State.calPts (s : State) (a : Nat) : List CalPt :=
  let n := s.w32 a % 16
  if n = 0 ∨ n > 8 then []
  else (List.range n).map fun p =>
    let b := a + 0x20 + 32 * p
    { temp := sgn32 (s.w32 b), g := sgn32 (s.w32 (b + 4)), o := sgn32 (s.w32 (b + 8)), q := sgn32 (s.w32 (b + 12))
      raw := s.bytes b 32 }

/-- R514: a value between two points. -/
def lerp (a b ta tb t : Int) : Int := if tb ≤ ta then a else a + rne ((b - a) * (t - ta)) (tb - ta)

/-- R514: the coefficients at temperature `t`. -/
def interp (t : Int) : List CalPt → CalCoef
  | [] => {}
  | [p] => { g := p.g, o := p.o, q := p.q }
  | p :: r :: l =>
    if t ≤ p.temp then { g := p.g, o := p.o, q := p.q }
    else if t < r.temp then
      { g := lerp p.g r.g p.temp r.temp t, o := lerp p.o r.o p.temp r.temp t, q := lerp p.q r.q p.temp r.temp t }
    else interp t (r :: l)

/-- A tile's temperature in use (R513, R515) and its latest one. -/
def State.tempUse (s : State) (t : Nat) : Int := (tget (fun _ => (0 : Word)) s.tileTUse t).toInt
def State.tempNow (s : State) (t : Nat) : Int := (tget (fun _ => (0 : Word)) s.tileT t).toInt

/-- The correction in use of object `j` (R514, R515, R529); the nominal one where both copies are bad (R528) or the copy holds no
points. -/
def State.calOf (s : State) (j : Nat) : CalCoef :=
  match tget (fun _ => none) s.calHold j with
  | some (g, o, q) => { g := g, o := o, q := q }
  | none => if s.calBad.contains j then {} else interp (s.tempUse (objTile j)) (s.calPts (s.objUse j))

/-- The corrections in use of several objects stay until the next boundary at which coefficients take effect (R515). -/
def State.calHolds (s : State) : List Nat → State
  | [] => s
  | j :: r =>
    let c := s.calOf j
    ({ s with calHold := tput (fun _ => none) s.calHold j (some (c.g, c.o, c.q)) } : State).calHolds r

/-- The signed value of a 20-bit converter code. -/
def sgn20 (b : BitVec 20) : Int := b.toInt

/-- R109, R511: a converter code conditioned by object `j`. -/
def State.cond (s : State) (j : Nat) (b : BitVec 20) : Int := correct (s.calOf j) (sgn20 b * 4096)

/-- R368: a raw code at an end of the converter. -/
def overrange (b : BitVec 20) : Bool := b = 0x7FFFF#20 || b = 0x80000#20

/-- R65: an F32 value in engineering units as a code of full scale `fs`. -/
def codeOfW (w fs : Nat) : Int :=
  match f32 w with
  | .nan => 0
  | .inf neg => if neg then -max32 else max32
  | .fin v => codeOf v (f32v fs)

/-- The mode in effect (R54): FI. -/
def State.modeAct (s : State) (n : Nat) : Bool := s.setFi n (s.ch n).law.act

/-- The full scale of quantity current (`true`) or voltage in ranges `g`. -/
def State.fsOf (s : State) (n : Nat) (cur : Bool) (g : Rng) : Nat := if cur then s.ifs n g.i else s.vfs n g.v

/-- The ranges of the samples: the active ones, and in SERVICE those at the pins (R85, R499). -/
def Chan.smpRng (c : Chan) : Rng := if c.state = .service then ⟨c.rngP, c.vrngP⟩ else c.rng

/-- The safety limits of a quantity in codes of the ranges in use (R57, R65): positive, negative. -/
def State.safeLims (s : State) (n : Nat) (cur : Bool) : Int × Int :=
  let fs := s.fsOf n cur (s.ch n).smpRng
  if cur then (codeOfW (s.cr n chSafeIpos) fs, codeOfW (s.cr n chSafeIneg) fs)
  else (codeOfW (s.cr n chSafeVpos) fs, codeOfW (s.cr n chSafeVneg) fs)

/-- R57: the effective limits of quantity `cur` for a limit `l`: positive, negative, and whether one is capped (R58). -/
def State.effLims (s : State) (n : Nat) (cur : Bool) (l : Int) : Int × Int × Bool :=
  let a : Int := l.natAbs
  let (sp, sn) := s.safeLims n cur
  let lp := min a (min sp 1073741824)
  let ln := max (-a) (max sn (-1073741824))
  (lp, ln, decide (lp < a) || decide (-ln < a))

/-- R59: a set-point of quantity `cur` clipped, and whether it was. -/
def State.clipSp (s : State) (n : Nat) (cur : Bool) (v : Int) : Int × Bool :=
  let (sp, sn) := s.safeLims n cur
  let c := max (max sn (-1073741824)) (min (min sp 1073741824) v)
  (c, decide (c ≠ v))

/-- R289: a code of an entry's reference range in the range in use. -/
def State.toUse (s : State) (n : Nat) (cur : Bool) (ref : Rng) (v : Int) : Int :=
  let g := (s.ch n).rng
  if cur then (if ref.i = g.i then v else rescale v (f32v (s.ifs n ref.i)) (f32v (s.ifs n g.i)))
  else (if ref.v = g.v then v else rescale v (f32v (s.vfs n ref.v)) (f32v (s.vfs n g.v)))

/-- R60: the set-point value of the channel, from its Rake or CHn_SP, for commanded mode `fi`. -/
def State.baseSp (s : State) (n : Nat) (fi : Bool) : Int :=
  match (s.ch n).rake.val with
  | some { force := some f, fref := g, .. } => s.toUse n fi g f
  | _ => sgn32 (s.cr n chSp)

/-- R56, R60: the compliance limit of the channel, a code of the other quantity. -/
def State.baseLim (s : State) (n : Nat) (fi : Bool) : Int :=
  match (s.ch n).rake.val with
  | some v => s.toUse n (!fi) v.ref v.limit
  | none => sgn32 (s.cr n chLim)

/-- R111, R357: the set-point with the oscillator. -/
def State.sumSp (s : State) (n : Nat) (fi : Bool) : Int :=
  let v := s.baseSp n fi
  let c := s.ch n
  if bitOf (s.cr n chNcoCtl) 0 ∧ c.disp = .loop then sat32 (v + c.nco) else v

/-- The set map entry of mode `fi` in current range `c` (R168). -/
def State.smap (s : State) (n c : Nat) (fi : Bool) : Nat :=
  let w := s.cr n (chSmap + 4 * (c / 2))
  let lo := 8 * (c % 2) + (if fi then 4 else 0)
  bitsOf w (lo + 3) lo

/-- The fallback set of a mode (R221). -/
def State.fbSet (s : State) (n : Nat) (fi : Bool) : Nat :=
  let w := s.cr n chOscCfg
  if fi then bitsOf w 11 8 else bitsOf w 7 4

/-- ZV_SET, ZI_SET (R68). -/
def State.zeroSet (s : State) (n : Nat) (d : Disp) : Nat :=
  let w := s.cr n chOffCfg
  if d = .zeroI then bitsOf w 7 4 else bitsOf w 3 0

/-- The output-off disposition that OFF_STATE in force selects (R68). -/
def State.offDisp (s : State) (n : Nat) : Disp :=
  match bitsOf (s.cr n chCfg) 2 1 with
  | 1 => .zeroV
  | 2 => .zeroI
  | _ => .highz

/-- R170: the target of a crossover or hand-back to mode `fi`. -/
def State.cxTarget (s : State) (n : Nat) (fi : Bool) : Nat :=
  let c := s.ch n
  if c.sup.fallback then s.fbSet n fi else s.smap n c.rng.i fi

/-- The ranges after the running handover. -/
def Chan.hoRng (c : Chan) : Rng := if c.ho.volt then ⟨c.rng.i, c.ho.dst⟩ else ⟨c.ho.dst, c.rng.v⟩

/-- R255: the target of the handover swap. -/
def State.hoTarget (s : State) (n : Nat) : Nat :=
  let c := s.ch n
  if c.disp = .zeroV ∨ c.disp = .zeroI then s.zeroSet n c.disp else s.smap n c.hoRng.i (s.modeAct n)

/-- The ranges in use from the channel's next own boundary on: at T0 + 1 those of a handover just made (R244). -/
def Chan.rngB (c : Chan) : Rng := if c.ho.st = .handed then c.hoRng else c.rng

/-- The commanded mode (R55): that of the entry in force, or CHn_CFG.MODE. -/
def State.cmdFi (s : State) (n : Nat) : Bool :=
  match (s.ch n).rake.fi with
  | some f => f
  | none => bitOf (s.cr n chCfg) 0

/-- R237: the states in which a handover can run. [DEDUCED, log 42] -/
def State.hoRuns (s : State) (n : Nat) : Bool :=
  let c := s.ch n
  decide (c.state = .active) || (decide (c.state = .armed) && decide (s.offDisp n ≠ .highz))

/-- The recorded ranges CHn_CFG.IRNG and VRNG in force. -/
def State.cfgRng (s : State) (n : Nat) : Rng :=
  let w := s.cr n chCfg
  ⟨bitsOf w 6 3, bitsOf w 8 7⟩

/-- SWAP or PRESET of the shadow at `o`, of channel `n`, is written 1: a request of the strobe after a pending one (R645). -/
def State.askAgain (s : State) (n o : Nat) : State :=
  { s with strobes := s.strobes.map fun p => (p.1, p.2.map fun b => if b.mine.contains n then { b with again := o :: b.again } else b) }

/-- R262: autoranging holds the current range. -/
def State.arHolds (s : State) (n : Nat) : Bool := bitOf (s.cr n chArCfg) 0 && decide ((s.ch n).state = .active)

end Sys2Proof.Machine
end

