-- ==== Sys2Proof/Machine/Handover.lean ====
section
/-! DEFINITION. Bank swaps (R172 to R178, R223), range requests and the handover's progress at a boundary (R236 to R261). -/

namespace Sys2Proof.Machine

/-- The exchange of the bank pointers with its counts (R172, R173, R193). -/
def State.exchange (s : State) (n target : Nat) : State :=
  let c := s.ch n
  let s := s.setCh n { c with law := { c.law with act := target, shd := c.law.act } }
  let s := s.ccount n chSwaps
  s.setCr n chSwapTick (s.tick % 4294967296)

/-- A swap of an evaluated loop: the evaluation is owed by the outgoing set unless one is owed already (R179, R181), the
oscillation count stops (R219), an estimator run ends with reason `why` (R232), and FALLBACK follows R223. -/
def State.swapTo (s : State) (n target why : Nat) (keepFb : Bool) : State :=
  let c := s.ch n
  let owed := match c.law.owed with
    | some o => some o
    | none => some { out := c.law.act, rng := c.rng }
  let s := s.setCh n { c with
    law := { c.law with owed := owed }
    sup := { c.sup with fallback := c.sup.fallback && keepFb
                        oscSign := 0, oscCnt := 0, oscN := 0
                        oscBlank := bitsOf (s.cr n chOscWin) 31 24 + 1 } }
  (s.exchange n target).leAbort n why

/-- R195: a hardware swap found its target invalid. -/
def State.setNotValid (s : State) (n : Nat) : State := (s.cflag n chSetSts 0x10).fault (frCh n) fcSetNotValid

/-! Handover. -/

/-- R253: the running handover ends without a swap. -/
def State.hoDrop (s : State) (n why : Nat) : State :=
  let c := s.ch n
  let h := c.ho
  let s := s.setCr n chHoFail (why + 16 * b2n h.volt + 256 * h.frm + 4096 * h.dst)
  let s := (s.cflag n chHoFlags 2).ccount n chHoFails
  s.setCh n { s.ch n with ho := { h with st := .idle, abandon := none } }

/-- R253, R254: its end, with its fault. -/
def State.hoAbandon (s : State) (n why : Nat) : State :=
  let s := s.hoDrop n why
  if why = 3 then s else s.fault (frCh n) fcHoFail

/-- R195, R245, R253: its target is invalid; both faults register in one cycle (R586). [DEDUCED, log 39] -/
def State.hoInvalid (s : State) (n : Nat) : State :=
  ((s.cflag n chSetSts 0x10).hoDrop n 6).report (frCh n) [(fcSetNotValid, clsConfig), (fcHoFail, clsAnalog)]

/-- A range request of kind `volt` for range `g` is latched for the channel's next own boundary (R236). -/
def State.reqRange (s : State) (n : Nat) (volt : Bool) (g : Nat) : State :=
  s.updCh n fun c => { c with ho := { c.ho with reqs := c.ho.reqs ++ [(volt, g)] } }

/-- A handover starts at the present boundary Ts; a request for the active range starts nothing (R237, R243, R873). -/
def State.hoStart (s : State) (n : Nat) (volt : Bool) (g : Nat) : State :=
  let c := s.ch n
  let cur := if volt then c.rng.v else c.rng.i
  if g = cur then s
  else
    let w := s.cr n chHoCfg
    s.setCh n { c with ho := { c.ho with
      st := .window, volt := volt, frm := cur, dst := g, win := bitsOf w 6 0, skip := bitsOf w 13 8
      tol := bitsOf (s.cr n chHoTol) 15 0, j := 0, sum := 0, cnt := 0, defers := 0, abandon := none, pre := none } }

/-- One request takes effect: it starts, merges with the running handover, or becomes the pending request (R239). `blocked`
when a handover ends or has started at this boundary (R241). [DEDUCED, log 38] -/
def State.hoTake (s : State) (n : Nat) (blocked : Bool) (q : Bool × Nat) : State :=
  let c := s.ch n
  let h := c.ho
  if h.st = .idle ∧ ¬ blocked then s.hoStart n q.1 q.2
  else if h.st ≠ .idle ∧ h.volt = q.1 ∧ h.dst = q.2 then s
  else
    let s := if h.pend.isSome then s.ccount n chHoDrop else s
    s.updCh n fun c => { c with ho := { c.ho with pend := some q } }

/-- The requests that take effect at this boundary, in order. -/
def State.hoTakeAll (s : State) (n : Nat) (blocked : Bool) : List (Bool × Nat) → State
  | [] => s
  | q :: r => (s.hoTake n blocked q).hoTakeAll n blocked r

/-- R246, R247: a handover is complete at T0 + 1: the new range is in use from the very beginning of that boundary. -/
def State.hoFinish (s : State) (n : Nat) : State :=
  if (s.ch n).ho.st = .handed then
    let s := (s.cflag n chHoFlags 1).ccount n chHoCount
    s.updCh n fun c => { c with rng := c.hoRng, ho := { c.ho with st := .idle, abandon := none, endAt := some s.tick } }
  else s

/-- An abandonment that is due takes effect, before the swaps of the boundary (R250 to R252). -/
def State.hoEnd (s : State) (n : Nat) : State :=
  let h := (s.ch n).ho
  match h.abandon with
  | some why => if h.st = .idle then s else s.hoAbandon n why
  | none => s

/-- The pending request and the requests of the boundary, after its swaps; `was` is the handover's state before the boundary
(R239, R241, R266). -/
def State.hoRequests (s : State) (n : Nat) (was : HoSt) : State :=
  let c := s.ch n
  if ¬ s.hoRuns n then s.setCh n { c with ho := { c.ho with reqs := [], endAt := none } }
  else
    let ended := (decide (was ≠ .idle) && decide (c.ho.st = .idle)) || decide (c.ho.endAt = some s.tick)
    let reqs := c.ho.reqs
    let c := if ended then { c with sup := { c.sup with arUp := 0, arDn := 0 } } else c
    let s := s.setCh n { c with ho := { c.ho with reqs := [], endAt := none } }
    let s := match c.ho.pend with
      | some q => if c.ho.st = HoSt.idle ∧ ¬ ended then
          (s.updCh n fun c => { c with ho := { c.ho with pend := none } }).hoStart n q.1 q.2 else s
      | none => s
    s.hoTakeAll n ended reqs

/-! Arbitration of the swaps of one boundary (R175). -/

/-- The first swap request of a boundary, by priority. -/
inductive SwapReq where
  | none | disp (t : Nat) | fallback | handover | cross (neg : Bool) | back | mode | strobe
deriving DecidableEq, Repr

/-- The hardware swap requests that fall on the present boundary, by ascending priority number (R175). -/
def State.hwReqs (s : State) (n : Nat) : List SwapReq :=
  let c := s.ch n
  (match c.law.dispReq with
    | some t => [.disp t]
    | _ => []) ++
  (if c.sup.fbReq then [.fallback] else []) ++
  (if c.ho.st = .due then [.handover] else []) ++
  (match c.sup.cxReq with
    | some g => if c.disp = .loop then [.cross g] else []
    | _ => []) ++
  (if (c.sup.hbReq || c.sup.hbForce) ∧ c.disp = .loop then [.back] else []) ++
  (if c.law.modeReq then [.mode] else [])

/-- The requests of the boundary with the strobe's SWAP last (R175). -/
def State.swapReqs (s : State) (n : Nat) : List SwapReq :=
  s.hwReqs n ++ (if (s.ch n).law.swapReq then [.strobe] else [])

/-- IN_COMPL clears and COMPL_EXIT fires (R210, R212, R876). -/
def State.endCompl (s : State) (n : Nat) : State :=
  if (s.ch n).sup.inCompl then
    (s.updCh n fun c => { c with sup := { c.sup with inCompl := false, hbReq := false, hbForce := false } }).fireCh 9 n 0
  else s

/-- A request that takes effect (R172, R195, R207, R210, R221, R244, R245). A mode change whose target is invalid changes the mode and
leaves IN_COMPL as it is. [DEDUCED, log 41] [DESIGN CHOICE, log 124] -/
def State.takeSwap (s : State) (n : Nat) (q : SwapReq) : State :=
  let c := s.ch n
  match q with
  | .none => s
  | .disp t =>
    let s := s.updCh n fun c => { c with law := { c.law with dispReq := none } }
    if s.setValid n t then s.swapTo n t 2 false else s.setNotValid n
  | .fallback =>
    let t := s.fbSet n (s.modeAct n)
    let s := s.updCh n fun c => { c with sup := { c.sup with fbReq := false } }
    if s.setValid n t then
      let s := s.swapTo n t 2 true
      (s.updCh n fun c => { c with sup := { c.sup with fallback := true } }).cflag n chSupFlags 4
    else s.setNotValid n
  | .handover =>
    let t := s.hoTarget n
    if s.setValid n t then
      let s := s.swapTo n t 6 false
      s.updCh n fun c => { c with ho := { c.ho with st := .handed } }
    else s.hoInvalid n
  | .cross neg =>
    let t := s.cxTarget n (!c.fi)
    if s.setValid n t then
      let s := s.swapTo n t 2 true
      let s := s.updCh n fun c => { c with sup := { c.sup with inCompl := true, cxNeg := neg, cxTick := s.tick } }
      (s.ccount n chCxCount).fireCh 8 n 0
    else s.setNotValid n
  | .back =>
    let t := s.cxTarget n c.fi
    if s.setValid n t then (s.swapTo n t 2 true).endCompl n
    else (s.updCh n fun c => { c with sup := { c.sup with hbForce := false } }).setNotValid n
  | .mode =>
    let fi := s.cmdFi n
    let t := s.smap n c.rng.i fi
    let s := s.updCh n fun c => { c with fi := fi, law := { c.law with modeReq := false } }
    if s.setValid n t then (s.swapTo n t 2 false).endCompl n else s.setNotValid n
  | .strobe =>
    let s := s.updCh n fun c => { c with law := { c.law with swapReq := false } }
    (s.swapTo n c.law.shd 2 false).endCompl n

/-- R176, R245: a hardware request that does not take effect. -/
def State.loseSwap (s : State) (n : Nat) (q : SwapReq) : State :=
  match q with
  | .strobe => s
  | .handover =>
    let s := s.ccount n chSwapLost
    let d := (s.ch n).ho.defers + 1
    let s := s.updCh n fun c => { c with ho := { c.ho with defers := d } }
    if d ≥ 16 then s.hoAbandon n 4 else s
  | _ => s.ccount n chSwapLost

/-- The lost requests of a boundary. -/
def State.loseAll (s : State) (n : Nat) : List SwapReq → State
  | [] => s
  | q :: r => (s.loseSwap n q).loseAll n r

/-- R189: the set named by BANK_ACT is of mode `fi`; its valid bit and its ORDER are not asked. [DEDUCED, log 115] -/
def State.actServes (s : State) (n : Nat) (fi : Bool) : Bool := decide (s.setFi n (s.ch n).law.act = fi)

/-- R189: BANK_ACT before a cold evaluation. [DESIGN CHOICE, log 123] -/
def State.coldBank (s : State) (n : Nat) : State :=
  let c := s.ch n
  let t := if c.disp = .zeroV ∨ c.disp = .zeroI then s.zeroSet n c.disp
    else if s.actServes n c.fi then c.law.act else s.smap n c.rng.i c.fi
  let l := if t = c.law.act then c.law else { c.law with act := t, shd := c.law.act }
  s.setCh n { c with law := { l with owed := none, modeReq := false, dispReq := none }
                     sup := { c.sup with fallback := false } }

/-- R171: SHD of a strobe without SWAP is applied after the boundary's hardware swap. -/
def State.applyShd (s : State) (n : Nat) : State :=
  s.updCh n fun c => { c with law := match c.law.shdReq with
    | some v => { c.law with shd := v, shdReq := none }
    | none => c.law }

/-- A swap of a channel whose loop is not evaluated: the pointers are exchanged, FALLBACK clears (R223) and an estimator run
ends with reason `why` (R232). -/
def State.idleSwap (s : State) (n target why : Nat) : State :=
  let s := s.updCh n fun c => { c with sup := { c.sup with fallback := false } }
  (s.exchange n target).leAbort n why

/-- The handover swap of a channel whose loop is not evaluated (R244, R255). -/
def State.idleHandover (s : State) (n : Nat) : State :=
  let t := s.hoTarget n
  if s.setValid n t then (s.idleSwap n t 6).updCh n fun c => { c with ho := { c.ho with st := .handed } }
  else s.hoInvalid n

/-- The supervision's requests on the boundary of a cold evaluation: none takes effect there (R176). [DESIGN CHOICE, log 123] -/
def State.coldLost (s : State) (n : Nat) : Nat :=
  ((s.hwReqs n).filter fun q => match q with
    | .fallback | .cross _ | .back => true
    | _ => false).length

/-- The swaps of an own boundary: at most one takes effect (R175). Where the loop is not evaluated, a strobe's SWAP only
exchanges the pointers. The first request takes precedence whether or not its target is valid. On the boundary of a cold evaluation a
strobe's SWAP comes before the choice of R189, a handover that is due is deferred, and the requests of the supervision are lost (R176);
while it stays owed the choice is made anew. [DESIGN CHOICE, log 123] [DEDUCED, log 94] -/
def State.arbitrate (s : State) (n : Nat) : State :=
  let c := s.ch n
  let s :=
    if c.law.cold ∨ ¬ c.law.run then
      let s := if c.law.swapReq then
        (s.idleSwap n c.law.shd 2).updCh n fun c => { c with law := { c.law with swapReq := false } } else s
      let s := if c.ho.st = .due then (if c.law.cold then s.loseSwap n .handover else s.idleHandover n) else s
      if c.law.cold then (s.ccount n chSwapLost (s.coldLost n)).coldBank n else s
    else
      match s.swapReqs n with
      | [] => s
      | q :: r => (s.takeSwap n q).loseAll n r
  let s := s.updCh n fun c => { c with sup := { c.sup with cxReq := none, hbReq := false } }
  let s := s.updCh n fun c => { c with law := { c.law with swapMode := false } }
  s.applyShd n

end Sys2Proof.Machine
end

