-- ==== Sys2Proof/Machine/Supervise.lean ====
section
/-! DEFINITION. What a boundary does with a channel's samples: set-point and ramp (R197 to R204), the evaluation with its
flags (R124 to R128, R167, R192), crossover, hand-back and oscillation detection (R206 to R221), safety limits (R85 to R87),
the load estimator's sums (R226 to R228) and autoranging counts (R262 to R265); and the commands of the estimator. -/

namespace Sys2Proof.Machine

/-- The samples of a channel on a boundary: the raw codes, and whether they are missing, whether a coefficient fetch fails
and whether the FDAC value is late. -/
structure BIn where
  v    : BitVec 20 := 0
  ia   : BitVec 20 := 0
  ib   : BitVec 20 := 0
  miss : Bool := false
  ecc  : Bool := false
  late : Bool := false
deriving DecidableEq, Repr

/-- The loop is evaluated at the present boundary (R68, R71). -/
def Chan.loopOn (c : Chan) : Bool :=
  (decide (c.state = .active) || decide (c.state = .armed)) && decide (c.disp ≠ .highz)

/-- R109, R246: the calibrated samples of the paths in use. -/
def State.samples (s : State) (n : Nat) (b : BIn) : Option Samp :=
  let g := (s.ch n).smpRng
  if b.miss then none
  else some { v := s.cond (32 * n + 12 + g.v) b.v
              i := if g.i < 12 then s.cond (32 * n + g.i) b.ia else sgn20 b.ia * 4096 }

/-- R199, R201: the ramp step per own sample of quantity `cur`; 0 disables the ramp (R200). -/
def State.rampStep (s : State) (n : Nat) (cur : Bool) : Int :=
  let w := s.cr n (if cur then chSsSlewI else chSsSlewV)
  if f32v w = 0 then 0
  else max 1 (codeOfW w (s.fsOf n cur (s.ch n).rng)) * (s.srDiv n : Int)

/-- The measured forced quantity for the start of a ramp (R198). -/
def rampFrom (fi : Bool) (y : Option Samp) (last : Option (Int × Int)) : Int :=
  match y with
  | some y => if fi then y.i else y.v
  | none => match last with
    | some l => if fi then l.2 else l.1
    | none => 0

/-- One step of a ramp towards `t` (R198). -/
def rampMove (st v t : Int) : Int := v + max (-st) (min st (t - v))

/-- A set-point value clipped, with its flag (R59). -/
def State.clipped (s : State) (n : Nat) (cur : Bool) (v : Int) : State × Int :=
  let (r, clip) := s.clipSp n cur v
  (if clip then s.cflag n chFlags 0x10 else s, r)

/-- The forced target of a boundary of an evaluated loop, with its ramp (R197 to R205). -/
def State.rampStage (s : State) (n : Nat) (y : Option Samp) : State :=
  let c := s.ch n
  let off := c.sup.offCmd.isSome
  let st := s.rampStep n c.fi
  let (s, tgt) := if off then (s, 0) else s.clipped n c.fi (s.sumSp n c.fi)
  let spNew := if off then none else c.spNew
  let start := (c.sup.offNew || c.sup.rampNew || decide (spNew = some true)) && decide (st ≠ 0)
  let s := if start then s.leAbort n 7 else s
  let run := decide (st ≠ 0) && c.sup.ramp && decide (spNew ≠ some false)
  let (s, v) := if start && c.sup.offNew then (s, c.sup.rampVal)
    else if start then s.clipped n c.fi (rampFrom c.fi y c.sup.last)
    else (s, if run then rampMove st c.sup.rampVal tgt else tgt)
  s.updCh n fun c => { c with spNew := none, sup := { c.sup with
    ramp := (start || run) && decide (v ≠ tgt), rampVal := v, rampNew := false, offNew := false, rF := v
    offZero := off && decide (v = 0) } }

/-- Set-point, limit and ramp of the boundary. A change of the commanded mode whose swap is deferred (R176) leaves the target
and the limit of the mode in force as they were. [DEDUCED, log 43] [DESIGN CHOICE, log 95] [DEDUCED, log 135] -/
def State.spStage (s : State) (n : Nat) (y : Option Samp) : State :=
  let c := s.ch n
  if c.state = .active ∧ c.disp = .loop then
    let wait := c.law.modeReq
    let s := if wait ∧ c.sup.offCmd.isNone then s else s.rampStage n y
    let lim := if wait then c.sup.lim else s.baseLim n c.fi
    let (lp, ln, cap) := s.effLims n (!c.fi) lim
    let s := if cap then s.cflag n chFlags 8 else s
    s.updCh n fun c => { c with sup := { c.sup with
      lim := lim, rUse := if c.sup.inCompl then (if c.sup.cxNeg then ln else lp) else c.sup.rF } }
  else if c.state = .active ∨ c.state = .armed then
    let (s, v) := s.clipped n c.fi (s.baseSp n c.fi)
    s.updCh n fun c => { c with spNew := none, sup := { c.sup with
      ramp := false, rampNew := false, rF := v, rUse := 0, lim := s.baseLim n c.fi } }
  else s

/-- The full scales from ranges `a` to ranges `b` (R185). -/
def State.scalesOf (s : State) (n : Nat) (a b : Rng) : Scales :=
  { vOld := f32v (s.vfs n a.v), vNew := f32v (s.vfs n b.v), iOld := f32v (s.ifs n a.i), iNew := f32v (s.ifs n b.i) }

/-- R186: what a handover forms in the first tick of its window. -/
def State.hoForm (s : State) (n : Nat) : HoPre :=
  let c := s.ch n
  let t := s.hoTarget n
  let sc := s.scalesOf n c.rng c.hoRng
  { set := t, sc := sc, gains := entryGains (s.loadSet n t) sc }

/-- The ranges between which an owed evaluation rescales (R181, R185, R256); a handover's are those that its window has formed.
[DEDUCED, log 37] -/
def State.scales (s : State) (n : Nat) : Scales :=
  let c := s.ch n
  let a := match c.law.owed with
    | some o => o.rng
    | none => c.rng
  let b := if c.ho.st = .handed then c.hoRng else c.rng
  match c.preOf with
  | some p => p.sc
  | none => s.scalesOf n a b

/-- R124 to R128: the flags of an evaluation's saturations. -/
def State.satFlags (s : State) (n : Nat) (ev : SatEv) : State :=
  let m := b2n ev.mul + 2 * b2n ev.acc + 4 * b2n ev.out + 8 * b2n ev.st
  if m = 0 then s
  else
    let o := engOff (engSat + 4 * n)
    let old := s.rg o % 16
    let s := if old = 0 then s.setRg (engOff (engSatfirst + 4 * n)) (s.tick % 4294967296) else s
    let s := s.flag o m
    let s := s.count (engOff (engSatcnt + 4 * n))
    s.report (frCh n) (((List.range 4).filter fun i => bitOf m i && !bitOf old i).map fun i => (i + 1, clsLoop))

/-- R192: a waiting snapshot captures the evaluation. -/
def State.snapStage (s : State) (n : Nat) (o : LawOut) : State :=
  match (s.ch n).law.snap with
  | none => s
  | some k =>
    if s.tick < k then s
    else
      let s := (List.range 8).foldl (fun s i =>
        s.setCr n (chXsnap + 4 * i) (word32 (o.snap.getD i 0)).toNat) s
      let s := s.setCr n chZsnap (word32 o.z).toNat
      let s := s.setCr n chUsnap (word32 o.u).toNat
      let s := s.setCr n chSnapTick (s.tick % 4294967296)
      let s := s.setCr n chLawSnap 0
      s.updCh n fun c => { c with law := { c.law with snap := none } }

/-- The lane makes no evaluation: states and FDAC value are kept (R134, R167). [DEDUCED, log 35] -/
def State.missEval (s : State) (n : Nat) : State :=
  s.updCh n fun c => { c with law := { c.law with uNext := c.law.u, uLimNext := c.law.uLim, made := false } }

/-- The valid bits of sets cleared. -/
def State.dropValid (s : State) (n : Nat) (ks : List Nat) : State :=
  s.updCh n fun c => { c with valid := ks.foldl (fun v k => v &&& ~~~(BitVec.ofNat 16 (2 ^ k))) c.valid }

/-- R167: an uncorrectable coefficient in the sets `ks`. -/
def State.coefEcc (s : State) (n : Nat) (ks : List Nat) : State :=
  let s := s.dropValid n ks
  ((s.cflag n chSetSts 0x20).fault (frCh n) fcCoefEcc).missEval n

/-- The evaluation of the boundary. -/
def State.evalStage (s : State) (n : Nat) (b : BIn) (y : Option Samp) : State :=
  if (s.ch n).loopOn then
    match y with
    | none => s.missEval n
    | some y =>
      let bad := if b.ecc then [(s.ch n).law.act] else s.badSets n
      let s := s.lawReads n
      if bad ≠ [] then s.coefEcc n bad
      else
        let o := s.lawEval n (s.ch n).sup.rUse y (s.scales n)
        let s := s.updCh n fun c => { c with law := { c.law with
          x := o.x, z := o.z, run := true, cold := false, owed := none, made := true
          uNext := if b.late then c.law.u else o.u, uLimNext := if b.late then c.law.uLim else o.lim } }
        (s.snapStage n o).satFlags n o.ev
  else s

/-- R206, R209, R214: crossover and hand-back on the samples of the boundary. -/
def State.cxStage (s : State) (n : Nat) (y : Samp) : State :=
  let c := s.ch n
  let yF := if c.fi then y.i else y.v
  let yC := if c.fi then y.v else y.i
  let (lp, ln, _) := s.effLims n (!c.fi) c.sup.lim
  if c.sup.inCompl then
    let w := s.cr n chCxHyst
    let h : Int := (bitsOf w 15 0 * 16384 : Nat)
    let d := if c.sup.cxNeg then -(yF - c.sup.rF) else yF - c.sup.rF
    if d ≥ h ∧ s.tick ≥ c.sup.cxTick + bitsOf w 31 16 then
      s.setCh n { c with sup := { c.sup with hbReq := true } } else s
  else if yC ≥ lp ∨ yC ≤ ln then
    if bitOf (s.cr n chCxCfg) 0 then
      s.setCh n { c with sup := { c.sup with cxReq := some (decide (¬ yC ≥ lp)) } }
    else s.cflag n chSupFlags 1
  else s

/-- R874: with ZERO_V or ZERO_I, a sample of the other quantity at OFF_LIM. -/
def State.offLimStage (s : State) (n : Nat) (y : Samp) : State :=
  let c := s.ch n
  let l : Int := (sgn32 (s.cr n chOffLim)).natAbs
  let yC := if c.disp = .zeroV then y.i else y.v
  if yC ≥ l ∨ yC ≤ -l then s.cflag n chSupFlags 1 else s

/-- R220, R221: a detection and its reaction. [DEDUCED, log 45] -/
def State.oscDetect (s : State) (n : Nat) : State :=
  let w := s.cr n chOscCfg
  let s := s.updCh n fun c => { c with sup := { c.sup with oscCnt := 0, oscN := 0 } }
  let s := ((s.cflag n chSupFlags 2).ccount n chOscDet).fault (frCh n) fcOscDetect
  let c := s.ch n
  if c.state = .fenced then s
  else match bitsOf w 2 1 with
    | 1 => if c.sup.fallback then (if bitOf w 3 then s.fenceChan n else s)
           else s.setCh n { c with sup := { c.sup with fbReq := true } }
    | 2 => s.fenceChan n
    | _ => s

/-- R219: one of the own samples after a swap, its evaluation's included, has passed; a swap evaluation still owed holds
the count. -/
def State.oscPass (s : State) (n : Nat) : State :=
  s.updCh n fun c => { c with sup := { c.sup with
    oscBlank := if c.law.owed.isSome then c.sup.oscBlank else c.sup.oscBlank - 1 } }

/-- R217 to R219: crossing counts on the loop error of the evaluation; `blank` for a sample that is not counted. -/
def State.oscStage (s : State) (n : Nat) (y : Samp) (blank : Bool) : State :=
  let c := s.ch n
  if ¬ bitOf (s.cr n chOscCfg) 0 ∨ blank then
    s.setCh n { c with sup := { c.sup with oscSign := 0, oscCnt := 0, oscN := 0 } }
  else
    let e := errOf (s.modeAct n) c.sup.rUse y
    let th : Int := (bitsOf (s.cr n chOscTh) 15 0 * 16384 : Nat)
    let sg : Int := if e ≥ th then 1 else if e ≤ -th then -1 else 0
    let hit := decide (c.sup.oscSign ≠ 0) && decide (sg ≠ 0) && decide (sg ≠ c.sup.oscSign)
    let cnt := c.sup.oscCnt + b2n hit
    let s := s.setCh n { c with sup := { c.sup with
      oscSign := if sg ≠ 0 then sg else c.sup.oscSign, oscCnt := cnt, oscN := c.sup.oscN + 1 } }
    if hit ∧ cnt ≥ bitsOf (s.cr n chOscWin) 23 16 then s.oscDetect n else s

/-- One more sample of a run, or its end. -/
def runOn (hit : Bool) (k : Nat) : Nat := if hit then k + 1 else 0

/-- R85 to R87: the safety limits on a calibrated sample; a quantity on a range without a full scale has no code of a limit and is
not judged. [DEDUCED, log 46] [DESIGN CHOICE, log 126] -/
def State.safeStage (s : State) (n : Nat) (y : Samp) : State :=
  let c := s.ch n
  if c.state = .off ∨ c.state = .fenced then s
  else
    let ctl := s.cr n chSafeCtl
    let cnt := bitsOf ctl 7 0
    let (vp, vn) := s.safeLims n false
    let (ip, ig) := s.safeLims n true
    let iOk := s.iImpl n c.smpRng.i
    let vOk := s.vImpl n c.smpRng.v
    let rv := runOn (vOk && (decide (y.v > vp) || decide (y.v < vn))) c.sup.safeV
    let ri := runOn (iOk && (decide (y.i > ip) || decide (y.i < ig))) c.sup.safeI
    let snk := !bitOf ctl 8 && vOk && iOk && decide (y.v * y.i < 0) &&
      decide ((y.i.natAbs : Int) > (bitsOf ctl 15 9 * 8388608 : Nat))
    let rk := runOn snk c.sup.sink
    let bad := fun k : Nat => decide (cnt ≤ k) && decide (0 < k)
    let m := 2 * b2n (bad rv) + 4 * b2n (bad ri) + 32 * b2n (bad rk)
    let s := s.setCh n { c with sup := { c.sup with safeV := rv, safeI := ri, sink := rk } }
    if m = 0 then s.uncause (frCh n) fcSafeLimit else (s.cflag n chFlags m).cause (frCh n) fcSafeLimit

/-! Load estimator (R224 to R232). -/

/-- The PRBS of x^11 + x^9 + 1 after one chip. [PRESUMED, log 24] -/
def prbsNext (r : Nat) : Nat := (r * 2 + b2n (bitOf r 10 != bitOf r 8)) % 2048

/-- R226: the perturbation of the present chip in FDAC codes. -/
def Chan.lePert (c : Chan) : Int :=
  if c.le.run then (if bitOf c.le.lfsr 10 == Config.prbsOnePlus then 2 else -2) else 0

/-- The list with its `i`-th entry increased. -/
def addAt (l : List Int) (i : Nat) (v : Int) : List Int :=
  (List.range 6).map fun j => l.getD j 0 + (if j = i then v else 0)

/-- R228: the sums ΣΔv², ΣΔv·Δ²v, Σ(Δ²v)², ΣΔi·Δv, ΣΔi·Δ²v and ΣΔi² with one sample more. -/
def leSums (l : List Int) (dv d2 di : Int) : List Int :=
  addAt (addAt (addAt (addAt (addAt (addAt l 0 (dv * dv)) 1 (dv * d2)) 2 (d2 * d2)) 3 (di * dv)) 4 (di * d2)) 5 (di * di)

/-- R226 to R228: the estimator on an own sample; the samples before it are the last two received. [DEDUCED, log 96] -/
def State.leStage (s : State) (n : Nat) (y : Option Samp) : State :=
  let c := s.ch n
  let le := c.le
  if ¬ le.run then s
  else
    let idx := le.idx + 1
    let sums := match y, c.sup.last, c.sup.last2 with
      | some y, some p, some q =>
        let dv := y.v - p.1
        leSums le.sums dv (dv - (p.1 - q.1)) (y.i - p.2)
      | _, _, _ => le.sums
    s.setCh n { c with le := { le with
      idx := idx, lfsr := if idx % le.chip = 0 then prbsNext le.lfsr else le.lfsr, sums := sums } }

/-- R224: a latched START begins its run at an own boundary, with LE_CFG as it stands there. [DESIGN CHOICE, log 128] -/
def State.leBegin (s : State) (n : Nat) : State :=
  let c := s.ch n
  if c.le.start ∧ c.state = .active ∧ c.disp = .loop then
    let w := s.cr n chLeCfg
    s.setCh n { c with le := {
      run := true, total := 2047 * bitsOf w 7 0 * bitsOf w 15 8, chip := bitsOf w 7 0, fit := c.le.fit } }
  else s

/-- The other channels of the lane with an estimator run, latched ones included (R225). -/
def State.leRuns (s : State) (n : Nat) : Nat :=
  ((tileChans (tileOf n)).filter fun m => let c := s.ch m; decide (m ≠ n) && (c.le.run || c.le.start)).length

/-- A refused START records its reason. -/
def State.leRefuse (s : State) (n why mask : Nat) : State :=
  (s.setCr n chLeSts (setBits (s.cr n chLeSts) 11 8 why)).cflag n chSupFlags mask

/-- R224, R225, R227: START of a run; during a run it begins another in its place. [DEDUCED, log 97] [DESIGN CHOICE, log 141] -/
def State.leStart (s : State) (n : Nat) : State :=
  let c := s.ch n
  let w := s.cr n chLeCfg
  if c.state ≠ .active ∨ c.disp ≠ .loop then s.leRefuse n 3 0x10
  else if c.sup.ramp ∨ c.sup.inCompl then s.leRefuse n 4 0x10
  else if bitsOf w 7 0 = 0 ∨ bitsOf w 15 8 = 0 then s.leRefuse n 5 0x10
  else if s.leRuns n ≥ 2 then s.leRefuse n 8 0x20
  else s.setCh n { c with le := { c.le with start := true } }

/-- R232: STOP of a run. -/
def State.leStop (s : State) (n : Nat) : State := s.leAbort n 1

/-- R227: the last own sample of a run has been taken: the fit begins (R229). -/
def State.leRunEnd (s : State) (n : Nat) : State :=
  let c := s.ch n
  if c.le.run ∧ c.le.idx ≥ c.le.total then
    s.setCh n { c with le := { start := c.le.start, fit := some {
      sums := c.le.sums, vfs := s.vfs n c.rng.v, ifs := s.ifs n c.rng.i, div := s.srDiv n, due := s.tick + 39 } } }
  else s

/-- R229: the exact values of LE_C, LE_R and LE_Q as numerator and denominator; `none` for an LE_R of +Inf. The unit of LE_C is
the farad, of LE_R the ohm; 250 ns is 1/4,000,000 s. -/
def LeFit.exact (f : LeFit) : (Int × Int) × Option (Int × Int) × (Int × Int) :=
  let a := fun i => f.sums.getD i 0
  let det := a 0 * a 2 - a 1 * a 1
  let g := a 3 * a 2 - a 4 * a 1
  let c := a 4 * a 0 - a 3 * a 1
  let v := f32v f.vfs
  let i := f32v f.ifs
  ((c * i * (f.div : Int), det * v * 4000000),
    if g ≤ 0 ∧ 0 < det then none else some (v * det, g * i),
    (a 5 * det - g * a 3 - c * a 4, det * a 5))

/-- An F32 word of the fit: the nearest to the exact value, or one beside it as the estimator's own arithmetic rounds.
[DESIGN CHOICE, log 25] -/
def leWord (q : Int × Int) : Nat :=
  if q.2 ≤ 0 then (Config.leRound q.1 q.2).toNat
  else
    let w := (f32of (q.1 * 2 ^ 149) q.2.toNat).toNat
    if w % 2147483648 = 0 ∨ w % 2147483648 ≥ 0x7F7FFFFF then w else w + (Config.leUlp q.1 q.2).val - 1

/-- R230: the highest breakpoint not above `w`. -/
def State.leBreak (s : State) (n w : Nat) : Option Nat :=
  ((List.range 8).filter fun b => f32le (s.cr n (chLeBrk + 4 * b)) w).getLast?

/-- R229 to R231: the results of a run are ready. [DESIGN CHOICE, log 125] -/
def State.leDone (s : State) (n : Nat) : State :=
  match (s.ch n).le.fit with
  | none => s
  | some f =>
    let (qc, qr, qq) := f.exact
    let lc := leWord qc
    let lq := leWord qq
    let s := s.setCr n chLeC lc
    let s := s.setCr n chLeR (match qr with
      | some q => leWord q
      | none => 0x7F800000)
    let s := s.setCr n chLeQ lq
    let b := s.leBreak n lc
    let ok := b.isSome && f32le lq (s.cr n chLeQmax)
    let set := match b with
      | some b => bitsOf (s.cr n chLeRecmap) (4 * b + 3) (4 * b)
      | none => 0
    let s := s.setCr n chLeSts (setBits (s.cr n chLeSts) 4 0 (set + 16 * b2n ok))
    let s := (s.updCh n fun c => { c with le := { c.le with fit := none } }).cflag n chSupFlags 8
    if ok ∧ bitOf (s.cr n chLeCtl) 2 then (s.setSh (chOff n chBank) (set + 16)).askAgain n (chOff n chBank) else s

/-- R229: a fit is ready within 10 µs of its run's end. -/
def State.leDue (s : State) (n : Nat) : State :=
  match (s.ch n).le.fit with
  | some f => if f.due ≤ s.tick then s.leDone n else s
  | none => s

/-! Autoranging (R262 to R265). -/

/-- R263: the candidate codes. -/
def State.arCands (s : State) (n : Nat) : List Nat :=
  (List.range 12).filter fun c => bitOf (s.cr n chArMask) c && s.iImpl n c

/-- The code of `l` with the smallest (or greatest) full scale. -/
def State.pickFs (s : State) (n : Nat) (small : Bool) : List Nat → Option Nat
  | [] => none
  | c :: r => match s.pickFs n small r with
    | none => some c
    | some d =>
      let a := f32v (s.ifs n c)
      let b := f32v (s.ifs n d)
      some (if small then (if a ≤ b then c else d) else (if a ≥ b then c else d))

/-- R264: the next range up. -/
def State.arUpRange (s : State) (n : Nat) : Option Nat :=
  let now := f32v (s.ifs n (s.ch n).rng.i)
  s.pickFs n true ((s.arCands n).filter fun c => decide (f32v (s.ifs n c) > now))

/-- R264: the next range down, whose full scale is at least the compliance limit. -/
def State.arDnRange (s : State) (n : Nat) : Option Nat :=
  let now := f32v (s.ifs n (s.ch n).rng.i)
  let l : Int := (if (s.ch n).disp = .zeroV then sgn32 (s.cr n chOffLim) else (s.ch n).sup.lim).natAbs
  s.pickFs n false ((s.arCands n).filter fun c =>
    decide (f32v (s.ifs n c) < now) && decide (f32v (s.ifs n c) * 1073741824 ≥ l * now))

/-- R265: the consecutive-sample counts. The channel is in FV by the mode in effect (R54, R262), in an output-off period
too. [DEDUCED, log 98] -/
def State.arStage (s : State) (n : Nat) (y : Samp) : State :=
  let c := s.ch n
  if bitOf (s.cr n chArCfg) 0 ∧ c.state = .active ∧ ¬ s.modeAct n ∧ ¬ c.sup.inCompl ∧ ¬ bitOf (s.cr n chHoFlags) 1 then
    let a : Int := y.i.natAbs
    let up : Int := (bitsOf (s.cr n chArThr) 15 0 * 16384 : Nat)
    let dn : Int := (bitsOf (s.cr n chArThr) 31 16 * 16384 : Nat)
    let low := match s.arDnRange n with
      | none => false
      | some d => decide (a < dn) &&
          decide (a * f32v (s.ifs n c.rng.i) < up * f32v (s.ifs n d))
    s.setCh n { c with sup := { c.sup with arUp := runOn (decide (a ≥ up)) c.sup.arUp, arDn := runOn low c.sup.arDn } }
  else s.setCh n { c with sup := { c.sup with arUp := 0, arDn := 0 } }

/-- R265: the request latched in the tick of the last counted sample. -/
def State.arRequest (s : State) (n : Nat) : State :=
  let c := s.ch n
  let k := bitsOf (s.cr n chArMask) 23 16
  if k = 0 ∨ c.state ≠ .active then s
  else if c.sup.arUp ≥ k then
    let s := s.setCh n { c with sup := { c.sup with arUp := 0 } }
    match s.arUpRange n with
    | some g => s.reqRange n false g
    | none => s
  else if c.sup.arDn ≥ k then
    let s := s.setCh n { c with sup := { c.sup with arDn := 0 } }
    match s.arDnRange n with
    | some g => s.reqRange n false g
    | none => s
  else s

/-! The handover's samples (R248 to R251). -/

/-- A sample of the window or of DUE; a boundary without the lane's evaluation abandons (R251). -/
def State.hoSample (s : State) (n : Nat) (b : BIn) (y : Option Samp) : State :=
  let c := s.ch n
  let h := c.ho
  let y := if c.loopOn && !c.law.made then none else y
  match h.st, y with
  | .window, some y =>
    let j := h.j
    let s := s.setCh n { c with ho := { h with j := j + 1, pre := if j = 0 then some (s.hoForm n) else h.pre } }
    if h.skip ≤ j ∧ j < h.win then
      let yB := s.cond (32 * n + (if h.volt then 28 + h.dst else 16 + h.dst)) b.ib
      let fo := f32v (if h.volt then s.vfs n h.frm else s.ifs n h.frm)
      let fn := f32v (if h.volt then s.vfs n h.dst else s.ifs n h.dst)
      let yA := if h.volt then y.v else y.i
      let s := s.updCh n fun c => { c with ho := { c.ho with sum := c.ho.sum + (yA * fo - yB * fn), cnt := c.ho.cnt + 1 } }
      if yB > 1073741824 ∨ yB < -1073741824 then
        s.updCh n fun c => { c with ho := { c.ho with abandon := some 2 } }
      else s
    else s
  | .window, none => s.setCh n { c with ho := { h with j := h.j + 1, abandon := some 5 } }
  | .due, none => s.setCh n { c with ho := { h with abandon := some 5 } }
  | _, _ => s

/-- R249: the agreement check at the end of the window. -/
def State.hoCheck (s : State) (n : Nat) : State :=
  let c := s.ch n
  let h := c.ho
  if h.st = .window ∧ h.j ≥ h.win ∧ h.abandon = none then
    let fo := f32v (if h.volt then s.vfs n h.frm else s.ifs n h.frm)
    let fn := f32v (if h.volt then s.vfs n h.dst else s.ifs n h.dst)
    let d := rne h.sum (max fo fn * (h.cnt : Int))
    let s := s.setCr n chHoDiff (word32 (sat32 d)).toNat
    if (d.natAbs : Int) ≤ (h.tol * 16384 : Nat) then
      s.setCh n { c with ho := { h with st := .due } }
    else s.setCh n { c with ho := { h with abandon := some 1 } }
  else s

/-- R218: the end of an oscillation window. -/
def State.oscWindow (s : State) (n : Nat) : State :=
  let c := s.ch n
  if c.sup.oscN ≥ bitsOf (s.cr n chOscWin) 15 0 then
    s.setCh n { c with sup := { c.sup with oscN := 0, oscCnt := 0 } } else s

/-- The supervisor on the samples of an own boundary. A boundary without a sample, or without the lane's evaluation, counts in no
window of R218. [DESIGN CHOICE, log 127] -/
def State.supStage (s : State) (n : Nat) (y : Option Samp) : State :=
  match y with
  | none => s
  | some y =>
    let s := s.updCh n fun c => { c with sup := { c.sup with last := some (y.v, y.i), last2 := c.sup.last } }
    let c := s.ch n
    let blank := decide (c.sup.oscBlank > 0)
    let s := if c.state = .active then s.oscPass n else s
    let s := if c.state = .active ∧ c.disp = .loop then
        let s := s.cxStage n y
        if c.law.made then s.oscStage n y blank else s
      else if c.disp = .zeroV ∨ c.disp = .zeroI then s.offLimStage n y
      else s
    if (s.ch n).state = .active then s.arStage n y else s

end Sys2Proof.Machine
end

