-- ==== Sys2Proof/Machine/Rake.lean ====
section
/-! DEFINITION. The Rake: entries and segments as they stand in memory, decisions (R290 to R304, R312 to R314, R341 to R345),
what takes effect at an own boundary, and the Rake's commands. -/

namespace Sys2Proof.Machine

/-- The stop jump (R299). -/
abbrev stopJump : Nat := 0x3FFFFF

/-- The four words of region-relative entry `j` (R270, R271). -/
def State.entry (s : State) (n j : Nat) : List Nat :=
  let a := s.rakeAddr n j
  [s.w32 a, s.w32 (a + 4), s.w32 (a + 8), s.w32 (a + 12)]

/-- Word `i` of an entry. -/
def ew (w : List Nat) (i : Nat) : Nat := w.getD i 0

/-- An uncorrectable error in entry `j`. -/
def State.entryUE (s : State) (n j : Nat) : Bool := s.ue (s.rakeAddr n j) 16

/-- LEN of the region in force. -/
def State.rkLen (s : State) (n : Nat) : Nat := bitsOf (s.cr n chRakeLen) 22 0

/-- RMODE in force: WAVE. -/
def State.wave (s : State) (n : Nat) : Bool := bitOf (s.cr n chRakeCfg) 1

/-- The bits an entry of each type uses (R286). -/
def entryBits (t : Nat) : List Nat :=
  match t with
  | 0 => [0xFFFFFFFF, 0xFFFFFFFF, 0x3FFFFFFF, 0x1FFF]
  | 1 => [0x3FFFF, 0, 0, 3]
  | 2 => [0x3FF, 0xFFFFFF, 0x3FFFFFF, 3]
  | _ => [0x7FFFFFFF, 0xFFFFFFFF, 0, 3]

/-- A reserved bit of an entry is set; the other fields of a LOOP_END are reserved. -/
def entryRsvd (w : List Nat) : Bool :=
  let t := ew w 3 % 4
  ((List.range 4).any fun i => decide (ew w i &&& (entryBits t).getD i 0 ≠ ew w i)) ||
  (decide (t = 1) && bitOf (ew w 0) 17 && decide (ew w 0 % 131072 ≠ 0))

/-- A jump target outside the region and not the stop jump. -/
def badTarget (len tgt : Nat) : Bool := decide (len ≤ tgt) && decide (tgt ≠ stopJump)

/-- R304: the first reason that entry `w` breaks, with `depth` open loops and `nctl` control entries executed; 0 for
none. -/
def State.entryReason (s : State) (n : Nat) (w : List Nat) (depth nctl : Nat) : Nat :=
  let t := ew w 3 % 4
  let len := s.rkLen n
  let w0 := ew w 0
  let rc := bitsOf (ew w 2) 27 24
  let isEnd := decide (t = 1) && bitOf w0 17
  let isBegin := decide (t = 1) && !bitOf w0 17
  let act := bitsOf w0 8 7
  if entryRsvd w then 1
  else if t = 0 ∧ bitsOf (ew w 2) 23 0 = 0 then 2
  else if t = 2 ∧ ¬ bitOf w0 9 ∧ bitsOf (ew w 1) 23 0 = 0 then 2
  else if t = 0 ∧ rc ≠ 15 ∧ ¬ s.iImpl n rc then 3
  else if isBegin ∧ bitsOf w0 15 0 = 0 ∧ ¬ bitOf w0 16 then 4
  else if isBegin ∧ depth ≥ 8 then 5
  else if isEnd ∧ depth = 0 then 6
  else if t = 2 ∧ act = 1 ∧ badTarget len (bitsOf (ew w 2) 21 0) then 7
  else if t = 3 ∧ badTarget len (bitsOf w0 21 0) then 7
  else if t = 2 ∧ act = 1 ∧ bitsOf (ew w 2) 25 22 > depth then 8
  else if t = 3 ∧ bitsOf w0 25 22 > depth then 8
  else if (t = 1 ∨ t = 3) ∧ nctl ≥ 16 then 9
  else if t = 2 ∧ act = 3 then 12
  else if t = 3 ∧ bitsOf w0 28 26 ≥ 4 then 12
  else 0

/-- R296: LOOP_END on the open loops: the next entry and the loops. -/
def loopEnd (idx : Nat) : List Loop → Nat × List Loop
  | [] => (idx + 1, [])
  | l :: r =>
    if l.forever then (l.body, l :: r)
    else if l.left > 1 then (l.body, { l with left := l.left - 1 } :: r)
    else (idx + 1, r)

/-- The innermost `k` open loops dropped so that `depth` remain. The head of the list is the innermost loop. -/
def cutLoops (depth : Nat) (ls : List Loop) : List Loop := ls.drop (ls.length - depth)

/-- R293: the control entries from `idx` on, executed until a POINT or a WAIT, a stop or a fault. `jl` is the jump latch
counted, `cnt` the counter. -/
def State.listWalk (s : State) (n : Nat) : Nat → Nat → List Loop → Nat → Bool → Nat → Decision → Decision
  | 0, idx, loops, _, _, _, d => { d with next := .fault idx 9, loops := loops }
  | fuel + 1, idx, loops, nctl, jl, cnt, d =>
    if idx ≥ s.rkLen n then { d with next := .fault idx 10, loops := loops }
    else if s.entryUE n idx then { d with next := .fault idx 11, loops := loops }
    else
      let d := { d with reads := idx :: d.reads }
      let w := s.entry n idx
      let why := s.entryReason n w loops.length nctl
      if why ≠ 0 then { d with next := .fault idx why, loops := loops }
      else
        let w0 := ew w 0
        match ew w 3 % 4 with
        | 1 =>
          if bitOf w0 17 then
            let (i, ls) := loopEnd idx loops
            s.listWalk n fuel i ls (nctl + 1) jl cnt d
          else
            s.listWalk n fuel (idx + 1)
              ({ left := bitsOf w0 15 0, forever := bitOf w0 16, body := idx + 1 } :: loops) (nctl + 1) jl cnt d
        | 3 =>
          let c := bitsOf w0 28 26
          let hold := if c = 0 then true else if c = 1 then jl else if c = 2 then (s.ch n).sup.inCompl
            else decide (cnt ≥ ew w 1)
          if hold == bitOf w0 29 then s.listWalk n fuel (idx + 1) loops (nctl + 1) jl cnt d
          else
            let d := if c = 1 ∧ jl then { d with clear := true } else d
            let jl := if c = 1 then false else jl
            let d := if bitOf w0 30 then { d with clrCnt := true } else d
            let cnt := if bitOf w0 30 then 0 else cnt
            let tgt := bitsOf w0 21 0
            let ls := cutLoops (bitsOf w0 25 22) loops
            if tgt = stopJump then { d with next := .stop 1, loops := ls }
            else s.listWalk n fuel tgt ls (nctl + 1) jl cnt d
        | _ => { d with next := .entry idx w, loops := loops }

/-- The walk of a decision from entry `idx` on: at most 16 control entries and the entry reached. -/
def State.walk (s : State) (n idx : Nat) (loops : List Loop) (jl : Bool) (cnt : Nat) (d : Decision) : Decision :=
  s.listWalk n 18 idx loops 0 jl cnt d

/-! Segments. -/

/-- Segment descriptor `g` (R308). -/
def State.segDesc (s : State) (n g : Nat) : List Nat := s.entry n (bitsOf (s.cr n chRakeSegtab) 21 0 + g)

/-- R321: STR_EN is in force and the segment starts at RING_START. -/
def State.streamed (s : State) (n g : Nat) : Bool :=
  bitOf (s.cr n chStrCfg) 0 && decide (bitsOf (ew (s.segDesc n g) 0) 21 0 = bitsOf (s.cr n chStrRing) 21 0)

/-- LEN_GR of a segment. -/
def State.segLen (s : State) (n g : Nat) : Nat := bitsOf (ew (s.segDesc n g) 1) 17 0

/-- The 64 samples of the granule at region-relative entry `j` (R307, R314). -/
def State.granAt (s : State) (n j : Nat) : Gran :=
  let a := s.rakeAddr n j
  { smp := (List.range 64).map fun i => sgn32 (s.w32 (a + 4 * i))
    bad := (List.range 16).findSome? fun i => if s.entryUE n (j + i) then some (j + i) else none }

/-- Granule `k` of resident segment `g`. -/
def State.segGran (s : State) (n g k : Nat) : Gran :=
  s.granAt n (bitsOf (ew (s.segDesc n g) 0) 21 0 + 16 * k)

/-- RLEN in force. -/
def State.rlen (s : State) (n : Nat) : Nat := max 1 (bitsOf (s.cr n chStrRlen) 17 0)

/-- Granules moved into the ring and not yet read (R334, R335). -/
def State.ringNew (s : State) (n : Nat) : Nat :=
  (s.cr n chStrRptr + 4294967296 - (s.ch n).str.pos) % 4294967296

/-- The entry of ring slot `q` (R318). -/
def State.slotEntry (s : State) (n q : Nat) : Nat := bitsOf (s.cr n chStrRing) 21 0 + 16 * q

/-- R314, R341: the Rake reads the next streamed granule, if it is in the ring. -/
def State.ringRead (s : State) (n : Nat) : State :=
  let c := s.ch n
  if c.str.buf.isSome ∨ s.ringNew n = 0 then s
  else
    let j := s.slotEntry n (c.str.pos % s.rlen n)
    let g := s.granAt n j
    (s.unitRead (s.rakeAddr n j) 256).setCh n { c with str := { c.str with buf := some g, pos := (c.str.pos + 1) % 4294967296 } }

/-- The first granule of a repetition of segment `g`, as the decision reads it. -/
def State.firstOf (s : State) (n g : Nat) : First :=
  if s.streamed n g then (if (s.ch n).rake.strOk then .ring else .absent) else .own (s.segGran n g 0)

/-- The decision that a repetition of segment `g` begins; its descriptor is read here. -/
def State.repNext (s : State) (n g : Nat) (enter : Bool) (left : Nat) : Next :=
  let j := bitsOf (s.cr n chRakeSegtab) 21 0 + g
  if s.entryUE n j then .fault j 11
  else match s.firstOf n g with
    | .own { bad := some k, .. } => .fault k 11
    | f => .rep g enter left f

/-- REPEAT of segment `g`. -/
def State.segRep (s : State) (n g : Nat) : Nat := bitsOf (ew (s.segDesc n g) 3) 15 0

/-! Decisions (R290). -/

/-- The jump latch counts in a decision of the present tick. -/
def Chan.jump (c : Chan) : Bool := c.rake.jlatch && c.rake.jOld

/-- The read of a streamed first granule in its decision (R314, R345). -/
def State.readFirst (s : State) (n : Nat) (d : Decision) : State :=
  match d.next with
  | .rep _ _ _ .ring => s.ringRead n
  | .resume => s.ringRead n
  | _ => s

/-- What a decision has read of the region (R817, R818). -/
def State.rakeReads (s : State) (n : Nat) (d : Decision) : State :=
  if s.memUE = [] ∧ s.memCE = [] then s
  else
    let read := fun (s : State) (j k : Nat) => s.unitRead (s.rakeAddr n j) (16 * k)
    let s := d.reads.foldl (fun s j => read s j 1) s
    let gran := fun (g k : Nat) => bitsOf (ew (s.segDesc n g) 0) 21 0 + 16 * k
    match d.next with
    | .rep g _ _ f =>
      let s := read s (bitsOf (s.cr n chRakeSegtab) 21 0 + g) 1
      (match f with
      | .own _ => read s (gran g 0) 16
      | _ => s)
    | .gran (.own _) => read s (gran (s.ch n).rake.seg ((s.ch n).rake.gi + 1)) 16
    | .fault j 11 => read s j 1
    | _ => s

/-- Store a decision. -/
def State.setDecision (s : State) (n : Nat) (d : Decision) : State :=
  ((s.rakeReads n d).readFirst n d).updCh n fun c => { c with rake := { c.rake with next := some { d with reads := [] } } }

/-- R291 to R293: a POINT ends at the next own boundary. -/
def State.pointEnd (s : State) (n : Nat) : State :=
  let c := s.ch n
  let r := c.rake
  let cut := r.je && c.jump
  if r.st = .running ∧ ¬ s.wave n ∧ r.next = none ∧ s.own n ∧ (r.left ≤ 1 ∨ cut) then
    let cnt := holdAdd (s.cr n chRakeCnt) (b2n r.cinc)
    let d : Decision := { next := .stop 1, done := true }
    if cut then
      let w := s.cr n chRakeJtgt
      let ls := cutLoops (bitsOf w 25 22) r.loops
      let d := { d with clear := true, loops := ls }
      if bitsOf w 21 0 = stopJump then s.setDecision n d
      else s.setDecision n (s.walk n (bitsOf w 21 0) ls false cnt d)
    else s.setDecision n (s.walk n (r.pos + 1) r.loops c.jump cnt d)
  else s

/-- R302: a firing ends a WAIT. -/
def State.waitEnd (s : State) (n : Nat) : State :=
  let c := s.ch n
  let r := c.rake
  if r.st = .waiting ∧ r.next = none ∧ s.own n ∧ r.wHit then
    s.setDecision n (s.walk n (r.pos + 1) r.loops c.jump (s.cr n chRakeCnt) { next := .stop 1 })
  else s

/-- R303: a WAIT times out. -/
def State.waitTimeout (s : State) (n : Nat) : State :=
  let c := s.ch n
  let r := c.rake
  let w0 := ew r.wait 0
  if r.st = .waiting ∧ r.next = none ∧ s.own n ∧ ¬ r.wHit ∧ ¬ bitOf w0 9 ∧ r.left ≤ 1 then
    let cnt := s.cr n chRakeCnt
    match bitsOf w0 8 7 with
    | 1 =>
      let w2 := ew r.wait 2
      let ls := cutLoops (bitsOf w2 25 22) r.loops
      if bitsOf w2 21 0 = stopJump then s.setDecision n { next := .stop 1, loops := ls }
      else s.setDecision n (s.walk n (bitsOf w2 21 0) ls c.jump cnt { next := .stop 1 })
    | 2 => s.setDecision n { next := .stop 5, loops := r.loops }
    | _ => s.setDecision n (s.walk n (r.pos + 1) r.loops c.jump cnt { next := .stop 1 })
  else s

/-- The last sample of a granule is being played. -/
def State.atGranEnd (s : State) (n : Nat) : Bool :=
  let r := (s.ch n).rake
  decide (r.st = .running) && s.wave n && decide (r.next = none) && s.own n && decide (r.si = 63)

/-- JSEG of the channel. -/
def State.jseg (s : State) (n : Nat) : Nat := bitsOf (s.cr n chRakeSegcfg) 31 24

/-- R312, R313: a repetition ends at the next own boundary. -/
def State.segEnd (s : State) (n : Nat) : State :=
  let c := s.ch n
  let r := c.rake
  if s.atGranEnd n ∧ r.gi + 1 ≥ s.segLen n r.seg then
    let w0 := ew (s.segDesc n r.seg) 0
    if c.jump then
      s.setDecision n { next := s.repNext n (s.jseg n) (decide (s.jseg n ≠ r.seg)) (s.segRep n (s.jseg n)), clear := true, done := true }
    else if bitOf w0 31 then s.setDecision n { next := s.repNext n r.seg false r.repLeft, done := true }
    else if r.repLeft > 1 then s.setDecision n { next := s.repNext n r.seg false (r.repLeft - 1), done := true }
    else if bitOf w0 30 then s.setDecision n { next := .stop 1, done := true }
    else
      let g := bitsOf w0 29 22
      s.setDecision n { next := s.repNext n g (decide (g ≠ r.seg)) (s.segRep n g), done := true }
  else s

/-- R313, R314, R341: a granule inside a repetition ends at the next own boundary. -/
def State.granEnd (s : State) (n : Nat) : State :=
  let c := s.ch n
  let r := c.rake
  if s.atGranEnd n ∧ r.gi + 1 < s.segLen n r.seg then
    if c.jump ∧ bitOf (s.cr n chRakeCfg) 2 then
      s.setDecision n { next := s.repNext n (s.jseg n) (decide (s.jseg n ≠ r.seg)) (s.segRep n (s.jseg n)), clear := true }
    else if s.streamed n r.seg then
      s.setDecision n { next := .gran (if c.str.buf.isSome then .ring else .absent) }
    else
      match r.pre with
      | some { bad := some k, .. } => s.setDecision n { next := .fault k 11 }
      | some g => s.setDecision n { next := .gran (.own g) }
      | none => s.setDecision n { next := .gran (.own (s.segGran n r.seg (r.gi + 1))) }
  else s

/-- R345: a gap ends at the next own boundary when its period ends there and granule p is present. -/
def State.underrunResume (s : State) (n : Nat) : State :=
  let r := (s.ch n).rake
  let d := s.srDiv n
  if r.st = .starved ∧ r.next = none ∧ s.own n ∧ r.strOk ∧ s.tick + d > r.gapB ∧ (s.tick + d - r.gapB) % (64 * d) = 0 then
    s.setDecision n { next := .resume }
  else s

/-- The decision due in the present tick, whichever it is. -/
def State.decideDue (s : State) (n : Nat) : State :=
  let r := (s.ch n).rake
  match r.st with
  | .running => if s.wave n then (s.segEnd n).granEnd n else s.pointEnd n
  | .waiting => (s.waitEnd n).waitTimeout n
  | .starved => s.underrunResume n
  | _ => s

/-- Every decision of the present tick, for the channels listed. -/
def State.decideList (s : State) : List Nat → State
  | [] => s
  | n :: r => (s.decideDue n).decideList r

/-- Every decision of the present tick. They are made in cycle 0 (R290). -/
def State.decideAll (s : State) : State := s.decideList (s.chans.map (·.1))

/-! What takes effect at an own boundary. -/

/-- RkVal's set-point mode field and ranges at the beginning of an entry (R289). -/
def State.refRng (s : State) (n rc : Nat) : Rng :=
  let c := s.ch n
  ⟨if rc = 15 ∨ s.arHolds n then c.rng.i else rc, c.rng.v⟩

/-- The range request of an entry (R236, R242, R262). -/
def State.entryRange (s : State) (n rc : Nat) : State :=
  if rc = 15 ∨ s.arHolds n ∨ rc = (s.ch n).rng.i then s else s.reqRange n false rc

/-- MEAS and TOUT of an entry (R294, R311). -/
def State.entryMarks (s : State) (n : Nat) (meas tout : Bool) (aper : Nat) : State :=
  let s := if tout then s.fireCh 7 n 0 else s
  if meas then s.updCh n fun c => { c with meas := { c.meas with rakeReq := some aper } } else s

/-- The commanded mode that MODE gives (R55): 2 and 3 keep it as it stands. -/
def State.modeOf (s : State) (n m : Nat) : Option Bool := some (if m = 0 then false else if m = 1 then true else s.cmdFi n)

/-- ⌈a / d⌉. -/
def ceilDiv (a d : Nat) : Nat := (a + d - 1) / d

/-- A POINT or WAIT begins at the present boundary (R287, R291, R294, R302). -/
def State.beginEntry (s : State) (n idx : Nat) (w : List Nat) : State :=
  let c := s.ch n
  let d := s.srDiv n
  if ew w 3 % 4 = 2 then
    s.setCh n { c with rake := { c.rake with
      st := .waiting, pos := idx, wait := w, wFrom := s.tick - d, left := ceilDiv (bitsOf (ew w 1) 23 0) d } }
  else
    let rc := bitsOf (ew w 2) 27 24
    let m := bitsOf (ew w 2) 29 28
    let g := s.refRng n rc
    let w3 := ew w 3
    let s := s.setCh n { c with
      spNew := some (bitOf w3 10)
      rake := { c.rake with
        st := .running, pos := idx, wait := [], left := ceilDiv (bitsOf (ew w 2) 23 0) d, je := bitOf w3 11
        cinc := bitOf w3 12, sweep := c.rake.begun, begun := c.rake.begun + 1
        val := some { force := some (sgn32 (ew w 0)), limit := sgn32 (ew w 1), off := decide (m = 3), ref := g, fref := g }
        fi := s.modeOf n m } }
    (s.entryRange n rc).entryMarks n (bitOf w3 8) (bitOf w3 9) (bitsOf w3 7 2)

/-- R283: the channel returns to its register values. -/
def State.backToRegs (s : State) (n : Nat) : State :=
  let c := s.ch n
  if s.hoRuns n then
    let s := s.setCh n { c with spNew := if c.state = .active then some (bitOf (s.cr n chSsCtl) 0) else none }
    let g := s.cfgRng n
    let s := if g.i = c.rng.i ∨ s.arHolds n then s else s.reqRange n false g.i
    if g.v = c.rng.v then s else s.reqRange n true g.v
  else s

/-- R350, R351: a gap ends at the present boundary. -/
def State.gapEnd (s : State) (n : Nat) : State :=
  let c := s.ch n
  let len := s.tick - c.rake.gapB
  let s := s.count64 (chOff n chUnderrunTicks) len
  s.updCh n fun c => { c with
    meas := { c.meas with gapReq := some (c.rake.gapB, len), gapSweep := c.rake.sweep }, rake := { c.rake with st := .running, gapSafe := false } }

/-- R281, R283: the Rake stops at the present boundary. -/
def State.rakeStop (s : State) (n why : Nat) : State :=
  let s := if (s.ch n).rake.st = .starved then s.gapEnd n else s
  let s := s.updCh n fun c => { c with rake := { c.rake with
    st := .stopped, next := none, val := none, fi := none, stopWhy := why, wait := [], cur := [], pre := none
    fresh := false, gapSafe := false, errStop := decide (why = 4) || decide (why = 5) } }
  ((s.cflag n chRakeFlags 1).fireCh 6 n 0).backToRegs n

/-- R304, R305: a stop by an entry fault. -/
def State.entryFault (s : State) (n idx reason : Nat) : State :=
  let s := s.setCr n chRakeErr (idx % 4194304 + 16777216 * reason)
  let s := (s.cflag n chRakeFlags 4).rakeStop n 4
  s.fault (frCh n) (if reason = 11 then fcRakeEcc else fcRakeEntry)

/-- Play of a granule begins at the present boundary. -/
def State.playGran (s : State) (n : Nat) (smp : List Int) (streamed : Bool) : State :=
  let s := if streamed then s.setCr n chStrPlayed (wrapAdd (s.cr n chStrPlayed) 1) else s
  s.updCh n fun c => { c with
    spNew := some false
    rake := { c.rake with st := .running, si := 0, cur := smp, pre := none
                          val := c.rake.val.map fun v => { v with force := some (smp.getD 0 0), fref := v.ref } } }

/-- The granule in the buffer is played. -/
def State.playRing (s : State) (n : Nat) : State :=
  match (s.ch n).str.buf with
  | some { smp := l, bad := none } =>
    (s.updCh n fun c => { c with str := { c.str with buf := none } }).playGran n l true
  | some { bad := some k, .. } => s.entryFault n k 11
  | none => s

/-- R342, R344: an under-run begins at the present boundary. -/
def State.underrun (s : State) (n : Nat) (first : Bool) : State :=
  let act := bitsOf (s.cr n chStrCfg) 2 1
  let s := s.updCh n fun c => { c with rake := { c.rake with
    st := .starved, gapB := s.tick, gapFirst := first, gapSafe := decide (act = 1) } }
  let s := ((s.cflag n chStrFlags 1).fireCh 17 n 0).ccount n chStrGaps
  let s := s.fault (frCh n) fcUnderrun
  if act = 2 ∧ (s.ch n).state ≠ .fenced then s.rakeStop n 6 else s

/-- The sweep index, MEAS and TOUT of a repetition (R311, R347). -/
def State.repMarks (s : State) (n : Nat) : State :=
  let w1 := ew (s.segDesc n (s.ch n).rake.seg) 1
  let s := s.updCh n fun c => { c with rake := { c.rake with sweep := c.rake.begun, begun := c.rake.begun + 1 } }
  s.entryMarks n (bitOf w1 30) (bitOf w1 31) (bitsOf w1 29 24)

/-- The first granule of a streamed repetition is played, with the repetition's marks, or stops the Rake (R311, R314). -/
def State.playFirst (s : State) (n : Nat) : State :=
  match (s.ch n).str.buf with
  | some { bad := none, .. } => (s.repMarks n).playRing n
  | _ => s.playRing n

/-- R311, R347: a repetition begins at the present boundary: its limit, mode and range, then its samples or a gap. -/
def State.beginRep (s : State) (n g : Nat) (enter : Bool) (left : Nat) (first : First) : State :=
  let c := s.ch n
  let w := s.segDesc n g
  let rc := bitsOf (ew w 1) 21 18
  let m := bitsOf (ew w 1) 23 22
  let rf := s.refRng n rc
  let old := c.rake.val.getD {}
  let s := s.setCh n { c with rake := { c.rake with
    st := .running, seg := g, repLeft := left, gi := 0
    val := some { force := old.force, limit := sgn32 (ew w 2), off := decide (m = 3), ref := rf, fref := old.fref }
    fi := s.modeOf n m } }
  let s := if enter then s.entryRange n rc else s
  match first with
  | .own gr => (s.repMarks n).playGran n gr.smp false
  | .ring => if (s.ch n).str.buf.isNone then s.underrun n true else s.playFirst n
  | .absent => s.underrun n true

/-- R345 to R350: play resumes at the present boundary. -/
def State.resumePlay (s : State) (n : Nat) : State :=
  let f := (s.ch n).rake.gapFirst
  let s := s.gapEnd n
  if f then s.playFirst n else (s.updCh n fun c => { c with rake := { c.rake with gi := c.rake.gi + 1 } }).playRing n

/-- A decision takes effect at the present boundary. -/
def State.applyDecision (s : State) (n : Nat) (d : Decision) : State :=
  let r := (s.ch n).rake
  let s := if d.done then
      if s.wave n then s.fireCh 5 n 0
      else (s.fireCh 4 n 0).ccount n chRakeCnt (b2n r.cinc)
    else s
  let s := if d.clrCnt then s.setCr n chRakeCnt 0 else s
  let s := s.updCh n fun c => { c with rake := { c.rake with
    next := none, loops := d.loops, jlatch := c.rake.jlatch && !d.clear } }
  match d.next with
  | .entry idx w => s.beginEntry n idx w
  | .rep g enter left f => s.beginRep n g enter left f
  | .gran f =>
    match f with
    | .own gr =>
      (s.updCh n fun c => { c with rake := { c.rake with gi := c.rake.gi + 1 } }).playGran n gr.smp false
    | .ring => (s.updCh n fun c => { c with rake := { c.rake with gi := c.rake.gi + 1 } }).playRing n
    | .absent => s.underrun n false
  | .resume => s.resumePlay n
  | .stop why =>
    let s := s.rakeStop n why
    if why = 5 then (s.cflag n chRakeFlags 8).fault (frCh n) fcWaitTimeout else s
  | .fault idx why => s.entryFault n idx why

/-- A refused Rake command (R279, R284). -/
def State.rakeRefuse (s : State) (n why : Nat) : State :=
  (s.setCr n chRakeErr (16777216 * why)).cflag n chRakeFlags 2

/-- R279, R280: START takes effect, or is refused. `act` says that the channel was ACTIVE before the boundary. Its decision is
made here, on entries as they stand and on the granule that stood in the ring at the last own boundary (R341). [DEDUCED, log 102] -/
def State.rakeBegin (s : State) (n : Nat) (act : Bool) : State :=
  let c := s.ch n
  if c.rake.st ≠ .stopped then s.rakeRefuse n 33
  else if ¬ act ∨ c.state ≠ .active then s.rakeRefuse n 32
  else if ¬ bitOf (s.cr n chRakeCfg) 0 then s.rakeRefuse n 35
  else if c.rake.checking then s.rakeRefuse n 37
  else if s.wave n ∧ ¬ c.rake.segOk then s.rakeRefuse n 34
  else
    let s := s.setCr n chRakeCnt 0
    let s := s.setCh n { c with rake := { c.rake with
      st := .running, loops := [], jlatch := false, jOld := false, sweep := 0, begun := 0, stopWhy := 0, val := none
      fi := none, fresh := false, next := none, cinc := false } }
    if s.wave n then
      let g := bitsOf (s.cr n chRakeSegcfg) 7 0
      let d : Decision := { next := s.repNext n g true (s.segRep n g) }
      ((s.rakeReads n d).readFirst n d).applyDecision n d
    else
      let d := s.walk n (bitsOf (s.cr n chRakeStartIdx) 21 0) [] false 0 { next := .stop 1 }
      (s.rakeReads n d).applyDecision n d

/-- PAUSE takes effect (R276, R285, R349). -/
def State.rakePause (s : State) (n : Nat) (moved : Bool) : State :=
  let r := (s.ch n).rake
  if r.st = .running ∨ r.st = .waiting then
    s.updCh n fun c => { c with rake := { c.rake with st := .paused, back := r.st, fresh := moved } }
  else s.rakeRefuse n 32

/-- RESUME takes effect (R276). -/
def State.rakeResume (s : State) (n : Nat) : State :=
  if (s.ch n).rake.st = .paused then
    s.updCh n fun c => { c with rake := { c.rake with st := c.rake.back } }
  else s.rakeRefuse n 32

/-- The commands refused because another takes effect at the boundary (R284). -/
def State.rakeCollide (s : State) (n : Nat) : Nat → State
  | 0 => s
  | k + 1 => (s.rakeRefuse n 36).rakeCollide n k

/-- One own sample of an entry or of a granule, where no transition is due at the boundary; answers whether a sample
began. -/
def State.rakeAdvance (s : State) (n : Nat) : State × Bool :=
  let c := s.ch n
  let r := c.rake
  if r.st = .running ∧ s.wave n then
    if r.fresh then (s.setCh n { c with rake := { r with fresh := false } }, false)
    else
      let i := r.si + 1
      (s.setCh n { c with
        spNew := some false
        rake := { r with si := i, val := r.val.map fun v => { v with force := some (r.cur.getD i 0), fref := v.ref } } }, true)
  else (s, false)

/-- The dwell or timeout count of the own sample that begins (R285, R291). -/
def State.rakeCount (s : State) (n : Nat) (moved : Bool) : State :=
  let c := s.ch n
  let r := c.rake
  if moved ∨ ¬ (r.st = .running ∨ r.st = .waiting) then s
  else if r.fresh then s.setCh n { c with rake := { r with fresh := false } }
  else s.setCh n { c with rake := { r with left := r.left - 1 } }

/-- R314, R341: the reads of the present boundary, and what a decision of this tick sees (R290). -/
def State.rakeLook (s : State) (n : Nat) : State :=
  let r := (s.ch n).rake
  let s := if (r.st = .running ∨ r.st = .paused) ∧ s.wave n ∧ r.gi + 1 < s.segLen n r.seg then
      if s.streamed n r.seg then s.ringRead n
      else if r.pre = none then
        s.updCh n fun c => { c with rake := { c.rake with pre := some (s.segGran n r.seg (r.gi + 1)) } }
      else s
    else s
  let ok := (s.ch n).str.buf.isSome || decide (s.ringNew n ≠ 0)
  let hit := match r.wait with
    | [] => false
    | w => match tget (fun _ => none) s.evcLast (bitsOf (ew w 0) 6 0) with
      | some p => decide (50 * r.wFrom ≤ p.cyc)
      | none => false
  s.updCh n fun c => { c with rake := { c.rake with jOld := c.rake.jlatch, strOk := ok, wHit := hit } }

/-- R309: CHECK takes effect, or is refused. -/
def State.rakeCheck (s : State) (n : Nat) : State :=
  let c := s.ch n
  if c.rake.st ≠ .stopped then s.rakeRefuse n 33
  else s.setCh n { c with rake := { c.rake with checking := true } }

/-- The set-point in use is CHn_SP: the Rake is STOPPED, waits right after START (R302), or plays an entry that leaves it (R344). -/
def Rake.ownSp (r : Rake) : Bool := match r.val with
  | some v => v.force.isNone
  | none => true

/-- The Rake at an own boundary (R284; CHECK too collides). `act`: the channel was ACTIVE before the boundary. -/
def State.rakeBoundary (s : State) (n : Nat) (act : Bool) : State :=
  let c := s.ch n
  let cmds := c.rake.cmds.map fun k => if k = 3 ∧ c.rake.st = .paused then 2 else k
  let s := s.setCh n { c with
    spNew := if c.rake.st = .stopped ∨ c.rake.ownSp = true ∨ c.law.modeReq then c.spNew else none, rake := { c.rake with cmds := [] } }
  let first := (List.range 5).find? fun k => cmds.contains k
  let s := s.rakeCollide n (cmds.eraseDups.length - 1)
  let s := if c.rake.st ≠ .stopped ∧ c.state ≠ .active then s.rakeStop n 3 else s
  let st := (s.ch n).rake.st
  let s := if first = some 0 ∧ st ≠ .stopped then s.rakeStop n 2 else s
  let s := if first = some 2 then s.rakeResume n else s
  let due := (s.ch n).rake.next
  let (s, moved) := match due with
    | some d => (s.applyDecision n d, true)
    | none => s.rakeAdvance n
  let s := if first = some 1 then s.rakePause n moved else s
  let s := if first = some 3 then s.rakeBegin n act else s
  let s := if first = some 4 then s.rakeCheck n else s
  s.rakeCount n (moved || decide (first = some 3 ∧ st = .stopped))

/-- The set-point and mode of the next POINT, for the rail targets (R95): the entry decided on, or the one that the
conditions as they stand lead to. `fuel` WAITs are passed. -/
def State.nextForceFrom (s : State) (n : Nat) (fi : Bool) : Nat → Decision → Option Int
  | fuel, d =>
    match d.next with
    | .entry idx w =>
      if ew w 3 % 4 = 2 then
        match fuel with
        | 0 => none
        | k + 1 => s.nextForceFrom n fi k (s.walk n (idx + 1) d.loops (s.ch n).rake.jlatch (s.cr n chRakeCnt) d)
      else
        let m := bitsOf (ew w 2) 29 28
        if m = 0 ∨ (m = 2 ∧ ¬ fi) then some (sgn32 (ew w 0)) else none
    | _ => none

/-- Where the entry in force leads: a POINT that a set jump latch will end to JTGT (R292), any other to the entry after it. -/
def State.leadsTo (s : State) (n : Nat) : Decision :=
  let r := (s.ch n).rake
  let cnt := s.cr n chRakeCnt
  if r.wait = [] ∧ r.je ∧ r.jlatch then
    let w := s.cr n chRakeJtgt
    let ls := cutLoops (bitsOf w 25 22) r.loops
    if bitsOf w 21 0 = stopJump then { next := .stop 1 } else s.walk n (bitsOf w 21 0) ls false cnt { next := .stop 1 }
  else s.walk n (r.pos + 1) r.loops r.jlatch cnt { next := .stop 1 }

/-- The voltage set-point of the next Rake POINT, if it forces voltage (R95): that of the decision due in the present tick where
one is due. -/
def State.nextForce (s : State) (n : Nat) : Option Int :=
  let r := (s.ch n).rake
  if r.st = .stopped ∨ s.wave n then none
  else
    let d := match (((s.rakeLook n).decideDue n).ch n).rake.next with
      | some d => d
      | none => s.leadsTo n
    s.nextForceFrom n (s.cmdFi n) (s.rkLen n) d

/-! Commands. -/

/-- A Rake command latched for the next own boundary (R277, R278). -/
def State.rakeLatch (s : State) (n k : Nat) : State :=
  let c := s.ch n
  if c.state = .fenced then s
  else s.setCh n { c with rake := { c.rake with cmds := c.rake.cmds ++ [k] } }

/-- R301: JUMP sets the jump latch. -/
def State.rakeJump (s : State) (n : Nat) : State :=
  let c := s.ch n
  if c.state = .fenced then s
  else if c.rake.jlatch then s.ccount n chRakeJdrop
  else s.setCh n { c with rake := { c.rake with jlatch := true } }

/-- Two entry ranges have an entry in common. -/
def overlap (a n b m : Nat) : Bool := decide (a < b + m) && decide (b < a + n)

/-- R309, R322: the first failure of segment `g`; 0 for none. -/
def State.segReason (s : State) (n g : Nat) : Nat :=
  let w := s.segDesc n g
  let w0 := ew w 0
  let w1 := ew w 1
  let len := s.rkLen n
  let start := bitsOf w0 21 0
  let gr := bitsOf w1 17 0
  let base := bitsOf (s.cr n chRakeSegtab) 21 0
  let cnt := bitsOf (s.cr n chRakeSegcfg) 16 8
  let str := bitOf (s.cr n chStrCfg) 0
  let ring := bitsOf (s.cr n chStrRing) 21 0
  let rlen := 16 * s.rlen n
  let rc := bitsOf w1 21 18
  if start % 16 ≠ 0 then 17
  else if gr < 4 then 18
  else if start + 16 * gr > len then 19
  else if overlap start (16 * gr) base cnt ∨
      (str ∧ start ≠ ring ∧ (overlap start (16 * gr) ring rlen ∨ (ring ≤ start ∧ start < ring + rlen))) ∨
      (str ∧ overlap base cnt ring rlen) then 20
  else if bitsOf w0 29 22 ≥ cnt ∧ ¬ bitOf w0 30 then 21
  else if (bitsOf (ew w 3) 15 0 = 0 ∧ ¬ bitOf w0 31) ∨ (bitOf w0 30 ∧ bitOf w0 31) then 22
  else if ew w 3 ≥ 65536 ∨ (rc ≠ 15 ∧ ¬ s.iImpl n rc) then 23
  else 0

/-- R309: the end of a CHECK. Without a region no entry is the Rake's to read (R275). [DEDUCED, log 121] -/
def State.checkDone (s : State) (n : Nat) : State :=
  let c := s.ch n
  if ¬ c.rake.checking then s
  else
    let base := bitsOf (s.cr n chRakeSegtab) 21 0
    let cnt := bitsOf (s.cr n chRakeSegcfg) 16 8
    let s := s.setCh n { c with rake := { c.rake with checking := false } }
    let bad : Option (Nat × Nat) :=
      if base + cnt > s.rkLen n ∨ ¬ bitOf (s.cr n chRakeCfg) 0 then some (0, 16)
      else (List.range cnt).findSome? fun g => let r := s.segReason n g; if r ≠ 0 then some (g, r) else none
    let s := if base + cnt > s.rkLen n ∨ ¬ bitOf (s.cr n chRakeCfg) 0 then s else s.unitRead (s.rakeAddr n base) (16 * cnt)
    match bad with
    | some (g, r) => (s.setCr n chRakeErr (g + 16777216 * r)).cflag n chRakeFlags 0x30
    | none =>
      (s.updCh n fun c => { c with rake := { c.rake with segOk := true } }).cflag n chRakeFlags 0x10

/-- R310: SEGTAB_OK clears. -/
def State.segStale (s : State) (n : Nat) : State :=
  s.updCh n fun c => { c with rake := { c.rake with segOk := false } }

/-- R271, R310: channel `n` holds a descriptor table that the bytes `a` to `a + k − 1` touch. -/
def State.tableHit (s : State) (n a k : Nat) : Bool :=
  bitOf (s.cr n chRakeCfg) 0 &&
  overlap a k (s.rakeAddr n (bitsOf (s.cr n chRakeSegtab) 21 0)) (16 * bitsOf (s.cr n chRakeSegcfg) 16 8)

/-- R325: channel `n` has a streaming ring that the bytes touch. -/
def State.ringHit (s : State) (n a k : Nat) : Bool :=
  bitOf (s.cr n chRakeCfg) 0 && bitOf (s.cr n chStrCfg) 0 && overlap a k (s.rakeAddr n (s.slotEntry n 0)) (256 * s.rlen n)

end Sys2Proof.Machine
end

