-- ==== Sys2Proof/Machine/Stream.lean ====
section
/-! DEFINITION. Streaming refill (R326 to R340): the producer pointer, the refill engine, low water, FLUSH and RETRY. -/

namespace Sys2Proof.Machine

/-- A 38-bit DDR5 base of two registers. -/
def State.dbase (s : State) (n lo : Nat) : Nat := s.cr n lo + 4294967296 * bitsOf (s.cr n (lo + 4)) 5 0

/-- DSIZE of the DDR5 ring. -/
def State.strSize (s : State) (n : Nat) : Nat := bitsOf (s.cr n chStrDsize) 24 0

/-- The difference of two wrapping counts. -/
def wrapSub (a b : Nat) : Nat := (a + 4294967296 - b) % 4294967296

/-- The DDR level (R328). -/
def State.strLevel (s : State) (n : Nat) : Nat := wrapSub (s.cr n chStrWptr) (s.cr n chStrRptr)

/-- R340: the level has fallen from `old` on. -/
def State.strLow (s : State) (n old cyc : Nat) : State :=
  let wm := bitsOf (s.cr n chStrLowwm) 24 0
  if wm < old ∧ s.strLevel n ≤ wm then (s.cflag n chStrFlags 2).fireCh 16 n cyc else s

/-- R330: a write of WPTR. -/
def State.strWptr (s : State) (n v : Nat) : State :=
  let o := s.cr n chStrWptr
  if wrapSub v o + wrapSub o (s.cr n chStrRptr) ≤ s.strSize n then s.setCr n chStrWptr v
  else s.cflag n chStrFlags 4

/-- R334: the slot of the granule numbered RPTR holds none of the unplayed ones, numbered from the stream position on; the
numbers wrap at 2^32. -/
def slotFree (pos rptr rlen : Nat) : Bool :=
  if pos ≤ rptr then decide (rptr - pos < rlen)
  else decide (rptr < rlen) && decide (4294967295 - (4294967295 - rptr) % rlen < pos)

/-- R334, R338, R339: the refill engine can move a granule of channel `n`. -/
def State.movable (s : State) (n : Nat) : Bool :=
  let c := s.ch n
  let g := s.cr n chStrRptr
  bitOf (s.cr n chStrCfg) 0 && decide (c.state ≠ .fenced) && !c.str.halted && decide (s.strLevel n ≠ 0) &&
  slotFree c.str.pos g (s.rlen n) && decide (0 < s.strSize n) &&
  s.ddrOk (s.dbase n chStrDbaseLo + 256 * (g % s.strSize n)) 256

/-- Unplayed granules in the ring (RING_FILL). -/
def State.ringFill (s : State) (n : Nat) : Nat := s.ringNew n

/-- R336: the channel the refill engine serves next. -/
def State.refillNext (s : State) : Option Nat :=
  ((List.range 64).filter fun n => s.movable n).foldl (fun (b : Option Nat) n =>
    match b with
    | none => some n
    | some m => if s.ringFill n < s.ringFill m then some n else some m) none

/-- R334, R336, R338: the refill engine moves the next granule of channel `n` in cycle `cyc`. It
raises no source of the memories (R576). -/
def State.refillMove (s : State) (n cyc : Nat) : State :=
  let now := s.at_ cyc
  let free : Bool := match s.refillAt with
    | none => true
    | some a => decide (a + 16 ≤ now)
  if s.refillNext = some n ∧ free = true then
    let g := s.cr n chStrRptr
    let a := ddrBase + s.dbase n chStrDbaseLo + 256 * (g % s.strSize n)
    let s := State.ddrWake { s with refillAt := some now } a
    let bad := s.ue a 256
    let s := s.unitRead a 256
    if bad then
      let s := s.updCh n fun c => { c with str := { c.str with halted := true } }
      (s.cflag n chStrFlags 8).fault (frCh n) fcStrEcc
    else
      let old := s.strLevel n
      let s := s.store (s.rakeAddr n (s.slotEntry n (g % s.rlen n))) (s.bytes a 256)
      (s.setCr n chStrRptr (wrapAdd g 1)).strLow n old cyc
  else s

/-- R332: the ring and the stream position after a FLUSH. -/
def State.strFlush (s : State) (n : Nat) : State :=
  let old := s.strLevel n
  let w := s.cr n chStrWptr
  let s := s.setCr n chStrRptr w
  let s := s.updCh n fun c => { c with str := { c.str with pos := w, buf := none } }
  s.strLow n old s.wcyc

/-- R332: FLUSH. -/
def State.flushCmd (s : State) (n : Nat) : State :=
  if (s.ch n).rake.st = .stopped then s.strFlush n else s.cflag n chStrFlags 0x20

/-- R338: RETRY. -/
def State.retryCmd (s : State) (n : Nat) : State :=
  s.updCh n fun c => { c with str := { c.str with halted := false } }

end Sys2Proof.Machine
end

