-- ==== Sys2Proof/Machine/Measure.lean ====
section
/-! DEFINITION. Apertures (R370 to R386), result records and the Pans rings (R387 to R405), the Brine stream (R406 to R412)
and the line meter (R384). -/

namespace Sys2Proof.Machine

/-- Fabric time of the boundary of base tick `k`, in ns (R30, R31). -/
def State.timeOf (_ : State) (k : Nat) : Int := 250 * (k : Int)

/-- The register `rel` of descriptor `a` of channel `n`. -/
def State.apd (s : State) (n a rel : Nat) : Nat := s.cr n (rel + 16 * a)

/-- P and whether it is LINE_NOM (R385). -/
def State.linePer (s : State) (t : Nat) : Nat × Bool :=
  let w := s.rg (tileOff t tileLinePer)
  if bitOf w 31 then (bitsOf w 22 0, false) else (bitsOf (s.rg (tileOff t tileLineNom)) 22 0, true)

/-- A mean of `k` samples, 0 for none (R376). -/
def meanOf (sum : Int) (k : Nat) : Int := if k = 0 then 0 else rne sum (k : Int)

/-- A value of one range in codes of another (R377). -/
def rescaleSum (v fsOld fsNew : Int) : Int := if fsOld ≤ 0 ∨ fsNew ≤ 0 then v else rne (v * fsOld) fsNew

/-- AUX of a record (R388): the extremes in codes of the recorded ranges. -/
def State.auxOf (s : State) (n : Nat) (a : Aper) : Int :=
  let volt := fun x r => if r = a.rng.v then x else rescaleSum x (f32v (s.vfs n r)) (f32v (s.vfs n a.rng.v))
  let amp := fun x r => if r = a.rng.i then x else rescaleSum x (f32v (s.ifs n r)) (f32v (s.ifs n a.rng.i))
  match bitsOf a.cfg 14 12 with
  | 1 => volt a.minV a.minVr
  | 2 => volt a.maxV a.maxVr
  | 3 => amp a.minI a.minIr
  | 4 => amp a.maxI a.maxIr
  | 5 => a.nCompl
  | 6 => if bitOf a.dly 24 then a.lineP else 0
  | 7 => a.nr
  | _ => 0

/-- The record of the running aperture (R387, R388), whose E is its last integrated sample; without one MODE is that of the abort's
boundary. [DESIGN CHOICE, log 26] -/
def State.apRecord (s : State) (n : Nat) (aborted : Bool) : Rec :=
  let a := (s.ch n).meas.ap
  let ir := if a.time.isSome then a.rng.i else (Config.noSampleIrng n a.s s.tick).toNat
  let vr := if a.time.isSome then a.rng.v else (Config.noSampleVrng n a.s s.tick).toNat
  { time := a.time.getD (Config.noSampleTime n a.s s.tick).toInt
    sweep := a.sweep
    flags := 16 * a.desc + 1024 * ir + 16384 * vr + 65536 * b2n (if a.done = 0 then s.modeAct n else a.fi) + 131072 * b2n (decide (0 < a.nCompl))
      + 262144 * b2n a.rchg + 524288 * b2n a.gap + 1048576 * b2n aborted + 2097152 * b2n (bitOf a.dly 24)
      + 4194304 * b2n a.lineNom + 8388608 * b2n a.ovr + 16777216 * b2n (a.miss || decide (a.nr = 0))
    v := meanOf a.sv a.nr, i := meanOf a.si a.nr, aux := s.auxOf n a }

/-- The aperture goes to WRITE with its record, due by cycle 20 of the tick after E or of the abort's (R378). -/
def State.apWrite (s : State) (n : Nat) (aborted : Bool) : State :=
  let r := { s.apRecord n aborted with due := s.at_ (if aborted then 20 else 70) }
  s.updCh n fun c => { c with meas := { c.meas with
    recs := c.meas.recs ++ [r], ap := { c.meas.ap with st := .write } } }

/-- R377: the sums in the ranges of the present sample. -/
def State.apRange (s : State) (n : Nat) (a : Aper) (g : Rng) : Aper :=
  if a.time.isNone ∨ a.rng = g then { a with rng := g }
  else
    let fv := fun x => rescaleSum x (f32v (s.vfs n a.rng.v)) (f32v (s.vfs n g.v))
    let fi := fun x => rescaleSum x (f32v (s.ifs n a.rng.i)) (f32v (s.ifs n g.i))
    let a := if a.rng.v = g.v then a else { a with sv := fv a.sv }
    let a := if a.rng.i = g.i then a else { a with si := fi a.si }
    { a with rng := g, rchg := true }

/-- R388: the extreme of one held in range `r` and a value of range `g`, in what they stand for, before any rescaling; `big` for the
greatest. -/
def extreme (fs : Nat → Int) (big : Bool) (held : Int) (r : Nat) (v : Int) (g : Nat) : Int × Nat :=
  let beats := if r = g ∨ fs r ≤ 0 ∨ fs g ≤ 0 then (if big then decide (held < v) else decide (v < held))
    else if big then decide (held * fs r < v * fs g) else decide (v * fs g < held * fs r)
  if beats then (v, g) else (held, r)

/-- R375, R376, R388: one own sample integrated. -/
def State.apSample (s : State) (n : Nat) : State :=
  let c := s.ch n
  let m := c.meas.cur
  let a := s.apRange n c.meas.ap m.rng
  let a := { a with st := .integ, done := a.done + 1, fi := s.modeAct n, time := some (a.time.getD (s.timeOf s.tick)) }
  let a := if m.miss then { a with miss := true }
    else
      let ext := fun fs big held r v g => if a.nr = 0 then (v, g) else extreme fs big held r v g
      let fv := fun r => f32v (s.vfs n r)
      let fi := fun r => f32v (s.ifs n r)
      let lv := ext fv false a.minV a.minVr m.v m.rng.v
      let gv := ext fv true a.maxV a.maxVr m.v m.rng.v
      let li := ext fi false a.minI a.minIr m.i m.rng.i
      let gi := ext fi true a.maxI a.maxIr m.i m.rng.i
      { a with
        nr := a.nr + 1, sv := a.sv + m.v, si := a.si + m.i
        minV := lv.1, minVr := lv.2, maxV := gv.1, maxVr := gv.2
        minI := li.1, minIr := li.2, maxI := gi.1, maxIr := gi.2
        nCompl := a.nCompl + b2n m.compl, ovr := a.ovr || m.ovr }
  s.setCh n { c with meas := { c.meas with ap := a } }

/-- The delay has passed, and with LSTART a crossing in a tick before `tick` (R378, R386). -/
def Aper.due (a : Aper) (tick : Nat) : Bool :=
  decide (a.st = .delay) && decide (bitsOf a.dly 23 0 ≤ a.k) && (!bitOf a.dly 25 || match a.crossed with
    | some t => decide (t < tick)
    | none => false)

/-- R378: DELAY to INTEGRATE with the sample of the present boundary. -/
def State.apDelayEnd (s : State) (n : Nat) : State :=
  if (s.ch n).meas.ap.due s.tick ∧ s.own n then s.apSample n else s

/-- R378: INTEGRATE to WRITE after the samples of E. -/
def State.apEnd (s : State) (n : Nat) : State :=
  let a := (s.ch n).meas.ap
  if a.st = .integ ∧ a.n ≤ a.done then s.apWrite n false else s

/-- R372: an aperture runs at the present boundary. -/
def Chan.apRunning (c : Chan) : Bool := decide (c.meas.ap.st = .delay) || decide (c.meas.ap.st = .integ)

/-- R374, R375, R385: an aperture starts at the present boundary. -/
def State.apBegin (s : State) (n desc : Nat) (rake : Bool) : State :=
  let c := s.ch n
  let dly := s.apd n desc chApdDly
  let cfg := s.apd n desc chApdCfg
  let (p, nom) := s.linePer (tileOf n)
  let ls := bitOf dly 24
  let cnt := if ls then max 1 (rne ((bitsOf cfg 11 0 * p : Nat) : Int) ((50 * s.srDiv n : Nat) : Int)).toNat
    else s.apd n desc chApdLen + 1
  let sw := if rake ∨ c.rake.st ≠ .stopped then c.rake.sweep else 0
  s.setCh n { c with meas := { c.meas with ap := {
    st := .delay, desc := desc, dly := dly, cfg := cfg, s := s.tick, n := cnt, sweep := sw
    lineP := if ls then p else 0, lineNom := ls && nom } } }

/-- One start request at the present boundary (R372, R373). [DEDUCED, log 52] -/
def State.apStart (s : State) (n desc : Nat) (rake : Bool) : State :=
  let c := s.ch n
  if c.state ≠ .armed ∧ c.state ≠ .active then (s.cflag n chMeasFlags 2).ccount n chMeasDrop
  else if c.apRunning then (s.cflag n chMeasFlags 1).ccount n chMeasDrop
  else s.apBegin n desc rake

/-- R371: the start requests of the present boundary. -/
def State.apStarts (s : State) (n : Nat) : State :=
  let m := (s.ch n).meas
  let rq := (match m.rakeReq with
      | some d => [(d, true)]
      | none => []) ++
    (if m.evReq then [(bitsOf (s.cr n chMeasCfg) 5 0, false)] else []) ++
    (match m.goReq with
      | some d => [(d, false)]
      | none => [])
  let s := s.updCh n fun c => { c with meas := { c.meas with rakeReq := none, evReq := false, goReq := none } }
  match rq with
  | [] => s
  | (d, k) :: r => (s.apStart n d k).ccount n chMeasDrop r.length

/-! The Brine stream. -/

/-- DSIZE of the Brine ring. -/
def State.brnSize (s : State) (n : Nat) : Nat := bitsOf (s.cr n chBrnDsize) 26 0

/-- The window offset of the next Brine line. -/
def State.brnAt (s : State) (n : Nat) : Nat :=
  s.dbase n chBrnDbaseLo + 64 * (s.cr n chBrnWptr % max 1 (s.brnSize n))

/-- R412: a line has a place. -/
def State.brnSpace (s : State) (n : Nat) : Bool :=
  decide (wrapSub (s.cr n chBrnWptr) (s.cr n chBrnRptr) < s.brnSize n) && s.ddrOk (s.brnAt n) 64

/-- R407, R412: words lost. The own samples among them count; a lost LOST marker leaves its own to be told again. -/
def State.brnLose (s : State) (n : Nat) (l : List BWord) : State :=
  let own := (l.filter (·.smp)).length
  let s := if own = 0 then s else (s.ccount n chBrnLost own).cflag n chMeasFlags 0x20
  s.updCh n fun c =>
    let b := l.foldl (fun (b : Brine) w =>
      if w.told = 0 then b
      else { b with lost := b.lost + w.told, lostAt := if b.lost = 0 then w.tick else min w.tick b.lostAt }) c.meas.brine
    { c with meas := { c.meas with brine := b } }

/-- R412: a word can join the stream: the line in hand has room, or a line has a place, and the ring's DDR5 channel takes it: it
is not fenced, and it is ready (R821). -/
def State.brnTakes (s : State) (n : Nat) : Bool :=
  if (s.ch n).meas.brine.line = [] then s.brnSpace n else s.ddrOk (s.brnAt n) 64

/-- A line written to DDR5, or lost (R412). A burst that cannot be written keeps its content (R869). [DESIGN CHOICE, log 145] -/
def State.brnFlush (s : State) (n : Nat) : State :=
  let b := (s.ch n).meas.brine
  let s := s.updCh n fun c => { c with meas := { c.meas with brine := { c.meas.brine with line := [] } } }
  if s.brnSpace n then
    let a := ddrBase + s.brnAt n
    let s := ((s.ddrWake a).put a (b.line.flatMap fun w => leBytes 8 w.w)).1
    s.setCr n chBrnWptr (wrapAdd (s.cr n chBrnWptr) 1)
  else s.brnLose n b.line

/-- One word of the stream, or its loss. -/
def State.brnWord (s : State) (n : Nat) (w : BWord) : State :=
  let b := (s.ch n).meas.brine
  if ¬ s.brnTakes n then s.brnLose n [w]
  else
    let first := if b.line = [] then s.tick else b.first
    let s := s.updCh n fun c => { c with meas := { c.meas with brine := { c.meas.brine with
      line := c.meas.brine.line ++ [w], first := first } } }
    if (s.ch n).meas.brine.line.length ≥ 8 then s.brnFlush n else s

/-- Words in order. -/
def State.brnWords (s : State) (n : Nat) : List BWord → State
  | [] => s
  | w :: r => (s.brnWord n w).brnWords n r

/-- Word A of a marker (R407). -/
def markA (kind payload : Nat) : Nat := 9223372036854775808 + kind * 72057594037927936 + payload % 72057594037927936

/-- Word B of a marker is any 64-bit value. -/
def mark (kind payload b : Nat) : List BWord := [{ w := markA kind payload }, { w := b % 18446744073709551616 }]

/-- The LOST marker of `k` own samples, the first of tick `t` (R407). -/
def lostMark (k t : Nat) : List BWord := [{ w := markA 4 k, told := k, tick := t }, { w := t % 18446744073709551616 }]

/-- A PAD word (R407). -/
def padWord : BWord := { w := 18446744073709551615 }

/-- R411: the partial line is completed with PAD words and written. -/
def State.brnPad (s : State) (n : Nat) : State :=
  let b := (s.ch n).meas.brine
  if b.line = [] then s
  else
    (s.updCh n fun c => { c with meas := { c.meas with brine := { c.meas.brine with
      line := c.meas.brine.line ++ List.replicate (8 - c.meas.brine.line.length) padWord } } }).brnFlush n

/-- R411: a line 1,024 base ticks old. -/
def State.brnTimeout (s : State) (n : Nat) : State :=
  let b := (s.ch n).meas.brine
  if b.line ≠ [] ∧ b.first + 1024 ≤ s.tick then s.brnPad n else s

/-- The GAP marker of a gap that ends at the present boundary (R350, R351). -/
def Chan.brnGap (c : Chan) : List BWord :=
  match c.meas.gapReq with
  | some (g, len) => mark 3 len g
  | none => []

/-- R406 to R409: the words of an own boundary. -/
def State.brnSample (s : State) (n : Nat) (v ia ib : BitVec 20) (miss : Bool) : State :=
  let c := s.ch n
  let b := c.meas.brine
  let idx := b.idx.getD 0
  let pins := (c.rngP, c.rngS, c.vrngP)
  let ibv := decide (c.ho.st ≠ .idle)
  let word := if miss then 2305843009213693952 + b2n ibv * 1152921504606846976
    else v.toNat + ia.toNat * 1048576 + (if ibv then ib.toNat * 1099511627776 + 1152921504606846976 else 0)
  let lost := decide (0 < b.lost) && s.brnTakes n
  let rangeW := if b.idx = none ∨ b.pins ≠ some pins then mark 2 (pins.1 + 16 * pins.2.1 + 256 * pins.2.2) s.tick else []
  let lostW := if lost then lostMark b.lost b.lostAt else []
  let syncW := if lost ∨ b.sync = true ∨ idx % 2 ^ bitsOf (s.cr n chBrnCfg) 4 0 = 0 then mark 1 0 s.tick else []
  let s := s.updCh n fun c => { c with meas := { c.meas with brine := { c.meas.brine with
    idx := some (idx + 1), pins := some pins, lost := if lost then 0 else c.meas.brine.lost, sync := false } } }
  s.brnWords n (rangeW ++ c.brnGap ++ lostW ++ syncW ++ [{ w := word, smp := true, told := 1, tick := s.tick }])

/-- The GAP marker at a boundary without a sample word, and the LOST marker that it is the first word after (R351, R407, R408). -/
def State.brnGapOnly (s : State) (n : Nat) : State :=
  let c := s.ch n
  let b := c.meas.brine
  if ¬ bitOf (s.cr n chMeasCfg) 8 ∨ c.meas.gapReq = none then s
  else
    let lost := decide (0 < b.lost) && s.brnTakes n
    let s := s.updCh n fun c => { c with meas := { c.meas with brine := { c.meas.brine with
      lost := if lost then 0 else b.lost, sync := b.sync || lost } } }
    s.brnWords n (c.brnGap ++ if lost then lostMark b.lost b.lostAt else [])

/-- R411: BRN_EN = 0 is applied: the partial line is written, and the stream ends. -/
def State.brnEnd (s : State) (n : Nat) : State :=
  let b := (s.ch n).meas.brine
  if b.idx.isSome ∨ b.line ≠ [] then
    (s.brnPad n).updCh n fun c => { c with meas := { c.meas with brine := { c.meas.brine with idx := none, pins := none } } }
  else s

/-- The Brine stream at a boundary: its end (R411), or its words on an own boundary while the converters run (R365); a stop
that leaves ARMED and ACTIVE still writes the GAP marker of R351. -/
def State.brnStage (s : State) (n : Nat) (own : Bool) (v ia ib : BitVec 20) (miss : Bool) : State :=
  let c := s.ch n
  if ¬ bitOf (s.cr n chMeasCfg) 8 then
    s.brnEnd n
  else if own ∧ (c.state = .armed ∨ c.state = .active ∨ c.state = .service) then s.brnSample n v ia ib miss
  else if own then s.brnGapOnly n
  else s

/-! The boundary. -/

/-- R389: the GAP record of a gap that ends at the present boundary. -/
def State.gapRecord (s : State) (n : Nat) : State :=
  let c := s.ch n
  match c.meas.gapReq with
  | none => s
  | some (b, len) =>
    s.setCh n { c with meas := { c.meas with
      recs := c.meas.recs ++ [{ time := s.timeOf b, sweep := c.meas.gapSweep, flags := 1, v := (len % 4294967296 : Nat)
                                i := (len / 4294967296 : Nat), aux := 0, due := s.at_ 0 }]
      ap := if c.apRunning ∧ c.meas.ap.s < b + len then { c.meas.ap with gap := true } else c.meas.ap } }

/-- The aperture at an own boundary: aborts (R380), starts, and the sample of a running integration. -/
def State.apBoundary (s : State) (n : Nat) : State :=
  let c := s.ch n
  let off := decide (c.state ≠ .armed ∧ c.state ≠ .active)
  let s := if c.apRunning ∧ (off ∨ c.meas.abort) then s.apWrite n true else s
  let s := s.updCh n fun c => { c with meas := { c.meas with
    abort := false, ap := { c.meas.ap with k := c.meas.ap.k + 1 } } }
  let was := decide ((s.ch n).meas.ap.st = .integ)
  let s := s.apStarts n
  let a := (s.ch n).meas.ap
  if was then s.apSample n
  else if a.st = .delay ∧ bitsOf a.dly 23 0 = 0 ∧ ¬ bitOf a.dly 25 ∧ a.k = 0 then s.apSample n
  else s

/-! The Pans rings (R392 to R405). -/

/-- The bytes of a record (R387). -/
def recBytes (r : Rec) : List Byte :=
  let b := leBytes 8 (BitVec.ofInt 64 r.time).toNat ++ leBytes 4 r.sweep ++ leBytes 4 r.flags
    ++ leBytes 4 (word32 r.v).toNat ++ leBytes 4 (word32 r.i).toNat ++ leBytes 4 (word32 r.aux).toNat
  b ++ leBytes 4 (crc32c b).toNat

/-- SPILL_EN of a channel. -/
def State.spill (s : State) (n : Nat) : Bool := bitOf (s.cr n chMeasCfg) 7

/-- SIZE of the Pans ring, DSIZE of the spill ring. -/
def State.pansSize (s : State) (n : Nat) : Nat := bitsOf (s.cr n chPansSize) 19 0
def State.spillSize (s : State) (n : Nat) : Nat := bitsOf (s.cr n chSpillDsize) 27 0

/-- The level of the ring (R397, R398). -/
def State.pansLevel (s : State) (n : Nat) : Nat :=
  wrapSub (s.cr n (if s.spill n then chPansSptr else chPansWptr)) (s.cr n chPansRptr)

/-- A record has a place in the ring (R397, R398). -/
def State.pansSpace (s : State) (n : Nat) : Bool :=
  decide (wrapSub (s.cr n chPansWptr) (s.cr n (if s.spill n then chPansSptr else chPansRptr)) < s.pansSize n)

/-- The address of Pans record `g` of channel `n` (R392, R396). -/
def State.pansAddr (s : State) (n g : Nat) : Nat :=
  0x4000000 + 32 * (bitsOf (s.cr n chPansBase) 18 0 + g % max 1 (s.pansSize n))

/-- A record stored at WPTR. -/
def State.pansPut (s : State) (n : Nat) (r : Rec) : State :=
  let w := s.cr n chPansWptr
  ((s.store (s.pansAddr n w) (recBytes r)).setCr n chPansWptr (wrapAdd w 1)).updCh n fun c => { c with meas := { c.meas with stored := true } }

/-- R404: the level has risen from `old`. -/
def State.pansWm (s : State) (n old cyc : Nat) : State :=
  let wm := bitsOf (s.cr n chPansWm) 27 0
  if old < wm ∧ wm ≤ s.pansLevel n then (s.cflag n chMeasFlags 8).fireCh 15 n cyc else s

/-- A record dropped for want of space (R402). -/
def State.pansDrop (s : State) (n : Nat) (r : Rec) : State :=
  let s := (s.cflag n chMeasFlags 4).ccount n chPansLost
  s.updCh n fun c => { c with meas := { c.meas with
    dropped := c.meas.dropped + 1, dropTime := if c.meas.dropped = 0 then r.time else c.meas.dropTime } }

/-- R390, R402: the LOST record of a run of drops. -/
def State.pansLostRec (s : State) (n : Nat) : State :=
  let m := (s.ch n).meas
  if m.dropped = 0 then s
  else
    let s := s.pansPut n { time := m.dropTime, sweep := 0, flags := 2, v := m.dropped, i := 0, aux := 0 }
    s.updCh n fun c => { c with meas := { c.meas with dropped := 0 } }

/-- R378, R379, R397, R402, R403: the oldest waiting record is written or dropped in cycle `cyc`, or before it where it or one
behind it is due before (R863). The aperture that waits in WRITE is that of the newest. -/
def State.recWrite (s : State) (n cyc : Nat) : State :=
  let c := s.ch n
  match c.meas.recs with
  | [] => s
  | r :: rest =>
    let cyc := (r :: rest).foldl (fun k x => min k (x.due - s.at_ 0)) cyc
    let last := decide (r.flags % 16 = 0) && !(rest.any fun x => decide (x.flags % 16 = 0))
    let ap := if c.meas.ap.st = .write ∧ last then { c.meas.ap with st := .idle } else c.meas.ap
    let s := s.setCh n { c with meas := { c.meas with recs := rest, ap := ap } }
    if ¬ bitOf (s.cr n chMeasCfg) 6 then s.ccount n chPansLost
    else if ¬ s.pansSpace n then s.pansDrop n r
    else
      let old := s.pansLevel n
      let s := s.pansLostRec n
      if ¬ s.pansSpace n then (s.pansDrop n r).pansWm n old cyc
      else
        let s := s.pansPut n r
        if s.spill n then s
        else
          let s := if r.flags % 16 = 0 then s.fireCh 14 n cyc else s
          s.pansWm n old cyc

/-- Waiting records written in cycle `cyc`, one for each of the list. -/
def State.recsWrite (s : State) (n : Nat) (l : List Rec) (cyc : Nat) : State :=
  match l with
  | [] => s
  | _ :: r => (s.recWrite n cyc).recsWrite n r cyc

/-- R379, R863: the records of channel `n` that are due before absolute cycle `z` are written, those before them first. -/
def State.recsSettle (s : State) (n z : Nat) : List Rec → State
  | [] => s
  | _ :: r => if (s.ch n).meas.recs.any fun x => decide (x.due < z) then (s.recWrite n 49).recsSettle n z r else s

/-- A gap whose end the boundary's measurement path has not met, since a fence came before it (R350, R389). -/
def State.gapLate (s : State) (n : Nat) : State :=
  if (s.ch n).meas.gapReq = none then s
  else
    let s := s.gapRecord n
    let s := (s.recsWrite n (s.ch n).meas.recs 0).brnGapOnly n
    s.updCh n fun c => { c with meas := { c.meas with gapReq := none } }

/-- The measurement path at an own boundary. -/
def State.measStage (s : State) (n : Nat) (v ia ib : BitVec 20) (y : Option Samp) : State :=
  let c := s.ch n
  let cur : MSamp := match y with
    | some y => { v := y.v, i := y.i, miss := false, ovr := overrange v || overrange ia, compl := c.sup.inCompl, rng := c.rng }
    | none => { rng := c.rng }
  let s := s.setCh n { c with meas := { c.meas with cur := cur } }
  let s := s.gapRecord n
  let s := if c.meas.gapReq.isSome then s.recsWrite n (s.ch n).meas.recs 0 else s
  let s := s.apBoundary n
  let s := s.brnStage n true v ia ib y.isNone
  s.updCh n fun c => { c with meas := { c.meas with gapReq := none } }

/-- R379, R398, R399, R405: a record moves to the spill ring, in the present cycle. One that cannot be read, or a burst that cannot be
written, leaves the ring's bytes as they are (R819, R869). [DESIGN CHOICE, log 145] -/
def State.spillMove (s : State) (n : Nat) : State :=
  let p := s.cr n chPansSptr
  let o := s.dbase n chSpillDbaseLo + 32 * (p % max 1 (s.spillSize n))
  if s.spill n ∧ bitOf (s.cr n chMeasCfg) 6 ∧ p ≠ s.cr n chPansWptr ∧ wrapSub p (s.cr n chPansRptr) < s.spillSize n ∧
      s.ddrOk o 32 then
    let old := s.pansLevel n
    let b := s.bytes (s.pansAddr n p) 32
    let bad := s.ue (s.pansAddr n p) 32
    let s := (s.ddrWake (ddrBase + o)).unitRead (s.pansAddr n p) 32
    let s := (if bad then s else (s.put (ddrBase + o) b).1).setCr n chPansSptr (wrapAdd p 1)
    let s := if ¬ bad ∧ (leNat ((b.drop 12).take 1)) % 16 = 0 then s.fireCh 14 n s.wcyc else s
    s.pansWm n old s.wcyc
  else s

/-- R400: a write of a consumer pointer bounded by `top`. -/
def State.rptrWrite (s : State) (n rel top v : Nat) : State :=
  let o := s.cr n rel
  if wrapSub v o ≤ wrapSub top o then s.setCr n rel v else s.cflag n chMeasFlags 0x10

/-- R400: PANS RPTR. -/
def State.pansRptr (s : State) (n v : Nat) : State :=
  s.rptrWrite n chPansRptr (s.cr n (if s.spill n then chPansSptr else chPansWptr)) v

/-- R410: Brine RPTR. -/
def State.brnRptr (s : State) (n v : Nat) : State := s.rptrWrite n chBrnRptr (s.cr n chBrnWptr) v

/-! Commands. -/

/-- R370: GO with a descriptor. -/
def State.measGo (s : State) (n desc : Nat) : State :=
  s.updCh n fun c => { c with meas := { c.meas with goReq := some desc } }

/-- R380: ABORT. -/
def State.measAbort (s : State) (n : Nat) : State :=
  s.updCh n fun c => { c with meas := { c.meas with abort := true } }

/-- The apertures of a tile that wait for a crossing (R386). -/
def State.crossAll (s : State) : List Nat → State
  | [] => s
  | n :: r =>
    let a := (s.ch n).meas.ap
    let s := if a.st = .delay ∧ bitOf a.dly 25 ∧ bitsOf a.dly 23 0 ≤ a.k ∧ a.crossed = none then
      s.updCh n fun c => { c with meas := { c.meas with ap := { c.meas.ap with crossed := some s.tick } } } else s
    s.crossAll r

/-- R384: a write of TILEt_LINE_CFG. A meter that stops, starts or changes its input begins its intervals anew, and LINE_OK
reads 0 until it has eight. [DEDUCED, log 103] -/
def State.lineCfg (s : State) (t new : Nat) : State :=
  let o := tileOff t tileLineCfg
  let old := s.rg o
  let s := s.setRg o new
  if new % 16 = old % 16 then s
  else
    let p := tileOff t tileLinePer
    (State.setRg { s with lines := tput (fun _ => []) s.lines t [], lineOn := s.lineOn.filter (· ≠ t) } p (s.rg p % 2147483648))

/-- R384, R386: a rising crossing of tile `t`'s line input, `dt` CLK_CONV cycles after the one before it; the first one ends no
interval. -/
def State.lineCross (s : State) (t dt : Nat) : State :=
  if ¬ bitOf (s.rg (tileOff t tileLineCfg)) 3 ∨ s.isFenced (unTile t) then s
  else if ¬ s.lineOn.contains t then State.crossAll { s with lineOn := t :: s.lineOn } (tileChans t)
  else
    let l := (dt :: tget (fun _ => []) s.lines t).take 8
    let s := { s with lines := tput (fun _ => []) s.lines t l }
    let s := if l.length < 8 then s
      else
        let p := (rne (l.foldl (· + ·) 0 : Nat) 8).toNat
        let ok := l.all fun x => decide (2857143 ≤ x) && decide (x ≤ 5000000)
        s.setRg (tileOff t tileLinePer) (p % 8388608 + 2147483648 * b2n ok)
    s.crossAll (tileChans t)

end Sys2Proof.Machine
end

