-- ==== Sys2Proof/Machine/Access.lean ====
section
/-! DEFINITION. Access to register space: requesters, views and bus errors (R609 to R624), membership of the secure Bramble
set (R875) and the covered sets (R633). -/

namespace Sys2Proof.Machine

/-- The outcome of a command. -/
abbrev Res := Host.Outcome State Fault Refusal

/-- R658: the requester's code in SYS_BUSERR_INFO. -/
def reqCode : Req → Nat
  | .core x => x.val
  | .host => 8
  | .fabric => 9

/-- C0 and C1 (R610). -/
def privCore : Req → Bool
  | .core x => decide (x.val < 2)
  | _ => true

/-- The base of a view (R609). -/
def viewBase : View → Nat
  | .priv => 0x10000000
  | .unpriv => 0x18000000

/-- R575, R618: a bus error: record and BUS_ERR, and BUS_FAULT of the core whose access it is, with the access fault of its load. `w` is the width code, `c` the cause.
[DESIGN CHOICE, log 17] -/
def State.busErr (s : State) (r : Req) (wr : Bool) (w addr c : Nat) : State :=
  let s := s.setRg sysBuserrAddrLo (addr % 4294967296)
  let s := s.setRg sysBuserrAddrHi (addr / 4294967296 % 128)
  let s := s.setRg sysBuserrInfo (reqCode r + 16 * b2n wr + 32 * w + 256 * c)
  let s := s.fault frSys fsBusErr
  match r with
  | .core x =>
    let s := s.fault (frCore x.val) fxBusFault
    if wr then s else { s with out := s.out ++ [.accessFault x.val false] }
  | _ => s

/-- R629: a discarded pair. -/
def State.guardErr (s : State) (o : Nat) : State := (s.setRg sysGuarderrAddr o).fault frSys fsGuardErr

/-- R629: a pending first write of requester `r` to the guarded register at `o` is discarded, as by a second one. -/
def State.pairDrop (s : State) (r : Req) (o : Nat) : State :=
  let mine := fun (h : Held) => decide (h.req = r) && decide (h.off = o)
  if s.guards.any mine then State.guardErr { s with guards := s.guards.filter fun h => !mine h } o else s

/-! The secure Bramble set (R561, R562, R875). -/

/-- SECURE in force and in the working copy. -/
def State.secIn (s : State) (c : Nat) : Bool := bitOf (s.rg (evcOff c evcCfg)) 4
def State.secWk (s : State) (c : Nat) : Bool := bitOf (s.sh (evcOff c evcCfg)) 4

/-- Event channel `c` belongs to the set for access and locking. -/
def State.secEvc (s : State) (c : Nat) : Bool := s.secIn c || s.secWk c

/-- The view offset of BRM_SUBi. -/
def subOff (i : Nat) : Nat := 0xB0000 + brmSub + 4 * i

/-- The event channel that a subscription word names. -/
def subEvc (w : Nat) : Option Nat := if bitOf w 7 then some (w % 128) else none

/-- BRM_SUBi belongs to the set for access and locking. -/
def State.secSub (s : State) (i : Nat) : Bool :=
  [s.rg (subOff i), s.sh (subOff i)].any fun w => match subEvc w with
    | some c => s.secEvc c
    | none => false

/-- Covered set `k` is committed (R636). -/
def State.committed (s : State) (k : Nat) : Bool := decide (64 ≤ k) != s.crc.flipped.contains k

/-- The covered set of the register at a place (R633); Bramble registers where they belong to the set (R875). -/
def State.setOfReg (s : State) (l : Loc) : Option Nat :=
  match rowAt l with
  | none => none
  | some (r, i) =>
    if ¬ r.cov then none
    else match l.grp with
      | .ch => some l.inst
      | .cmp => some l.inst
      | .fab => some 64
      | .flt => some 66
      | .evc => if s.secEvc l.inst then some 65 else none
      | .brm => if s.secSub i then some 65 else none
      | _ => none

/-- R38, R603, R619, R624, R867, R870: the unit that holds a register is fenced or held in reset. The fault frame of a fenced unit
stays accessible, that of a tile held in reset does not. -/
def State.regHeld (s : State) (l : Loc) : Bool :=
  match l.grp with
  | .ch => decide ((s.ch l.inst).state = .fenced) && decide (l.rel ≠ chRst) && decide (l.rel ≠ chRst + 4)
      && decide (l.rel ≠ chUnfence) && decide (l.rel ≠ chUnfence + 4)
  | .cmp => decide ((s.ch l.inst).state = .fenced) || s.isFenced (unTile (l.inst / 16)) || bitOf s.held.toNat (l.inst / 16)
  | .cap => s.isFenced (unTile (l.inst / 32)) || bitOf s.held.toNat (l.inst / 32)
  | .psc => s.isFenced (unTile (l.inst / 4)) || bitOf s.held.toNat (l.inst / 4)
  | .tile => s.isFenced (unTile l.inst) || bitOf s.held.toNat l.inst
  | .core => s.isFenced (unCore l.inst)
  | .fab => (List.range 4).any fun p => s.isFenced (unPort p) &&
      [fabDelay, fabAsym, fabRetry, fabCrcerr, fabDrop].contains (l.rel - 4 * p) && decide (4 * p ≤ l.rel)
  | .memc => decide (l.rel < 64) && s.isFenced (unDdr (l.rel / 32))
  | .flt =>
    let t := l.inst - 10
    decide (10 ≤ l.inst ∧ l.inst < 14) && bitOf s.held.toNat t && !s.isFenced (unTile t)
  | _ => false

/-- R625: what a write of `v` makes of a CTL register that holds `old`, of which the bits `wm` can change. -/
def ctlNew (old v wm : Nat) : Nat :=
  let m := v / 65536 &&& wm
  (old &&& (4294967295 - m)) ||| (v % 65536 &&& m)

/-- An unprivileged access that R561 forbids: `v` is the written value. -/
def State.secureBad (s : State) (l : Loc) (row : RegRow × Nat) (wr : Bool) (v : Nat) : Bool :=
  match l.grp with
  | .evc =>
    let prog := decide (row.1.off = evcCfg) || decide (row.1.off = evcProd)
    prog && (s.secEvc l.inst || (wr && decide (row.1.off = evcCfg) && bitOf v 20))
  | .brm =>
    if row.1.off = brmSub then
      wr && (s.secSub row.2 || (match subEvc (ctlNew (s.sh (subOff row.2)) v 0xFF) with
        | some c => s.secEvc c
        | none => false))
    else if row.1.off = brmFire then
      wr && bitOf v 10 && bitOf v 26 && s.secSub (ctlNew (s.rg (0xB0000 + brmFire)) v 0x3FF)
    else false
  | _ => false

/-- The cause of a bus error of an access to the register at view offset `o`, if there is one (R610, R611, R616, R619).
[DEDUCED, log 77] -/
def State.regCause (s : State) (a : Acc) (o : Nat) (wr : Bool) (v : Nat) : Option Nat :=
  match locate o with
  | none => some 3
  | some l => match rowAt l with
    | none => some 3
    | some row =>
      let unp := decide (a.view = .unpriv)
      let bram := decide (l.grp = .evc) || decide (l.grp = .brm)
      let marked := decide (l.grp = .brm) && (s.setOfReg l).isSome
      if a.view = .priv ∧ ¬ privCore a.req then some 4
      else if unp ∧ s.secureBad l row wr v then some 9
      else if unp ∧ (row.1.priv ∨ row.1.cls = .grd ∨ (row.1.cov ∧ (¬ bram ∨ marked))) then some 4
      else if s.regHeld l then some 6
      else none

/-- A register write that has a row of its own: a bus error, or its effect. -/
def State.viaReg (s : State) (a : Acc) (o v : Nat) (eff : State → State) : Res :=
  match s.regCause a o true v with
  | some c => .next (s.busErr a.req true 2 (viewBase a.view + o) c)
  | none => .next (eff s)

/-- The pair of writes of a guarded register that has a row of its own (R629, R630): both in turn. -/
def State.viaGrd (s : State) (a : Acc) (o v : Nat) (eff : State → State) : Res :=
  s.viaReg a o v fun s => eff (s.pairDrop a.req o)

end Sys2Proof.Machine
end

