-- ==== Sys2Proof/Machine/Validate.lean ====
section
/-! DEFINITION. Validation of a configuration: admission (R136 to R142), the field rules of every buffered register, regions,
rings and areas (R272 to R274, R317 to R320, R393, R394, R413), sets (R54, R69, R143, R144, R169, R222) and the reject record
(R652 to R654). -/

namespace Sys2Proof.Machine

/-- A failing field: its view offset, the reason of R653 and the resource of R654. -/
structure Fail where
  off    : Nat
  reason : Nat
  res    : Nat := 0
deriving DecidableEq, Repr

/-- One check. -/
def chk (b : Bool) (off reason : Nat) (res : Nat := 0) : List Fail := if b then [⟨off, reason, res⟩] else []

/-- R652: the first failing field, and within it the lowest reason. -/
def firstFail : List Fail → Option Fail
  | [] => none
  | f :: r => match firstFail r with
    | none => some f
    | some g => if f.off < g.off ∨ (f.off = g.off ∧ f.reason ≤ g.reason) then some f else some g

/-- SYS_UPDg_REJ of a failure (R652, R658). -/
def rejWord (f : Fail) : Nat :=
  let o := f.off
  let b := if o < 0x80000 then (1, 0, o)
    else if o < 0xA0000 then (3, (if 0x81000 ≤ o then (o - 0x81000) / 4 else 0), o - 0x80000)
    else if o < 0xB0000 then (4, (o - 0xA0000) / 0x4000, o % 0x4000)
    else if o < 0xC0000 then (5, 0, o - 0xB0000)
    else (10, (o - 0x100000) / 0x1000, o % 0x1000)
  f.reason + 16 * b.1 + 256 * b.2.1 + 65536 * b.2.2

/-! Admission. -/

/-- R131: the phase costs of order `n`. -/
def costP1 (n : Nat) : Nat := n * n + n + 1
def costP2 (n : Nat) : Nat := 3 * n + 3

/-- R136, R139: the loads of lane `t`, `res` giving each counting channel's reserved order and divider. -/
def State.laneLoad (s : State) (t : Nat) (res : Nat → Nat × Nat) (also : Nat → Bool) : Nat × Nat :=
  (tileChans t).foldl (fun (a : Nat × Nat) n =>
    if (s.ch n).slot || also n then
      let (o, d) := res n
      (a.1 + ceilDiv (costP1 o) (max 1 d), a.2 + ceilDiv (costP2 o) (max 1 d))
    else a) (0, 0)

/-- The reservation of channel `n` as accepted. -/
def State.resOf (s : State) (n : Nat) : Nat × Nat := let c := s.ch n; (c.resOrd, c.resDiv)

/-- R139: a lane load that is admitted. -/
def admits (p : Nat × Nat) : Bool := decide (p.1 + 80 ≤ 1216) && decide (p.2 ≤ 384)

/-- R148: ENG_LOADt as the reservations stand. -/
def State.laneWord (s : State) (t : Nat) : Nat :=
  let p := s.laneLoad t s.resOf fun _ => false
  (p.1 + 80) % 65536 + 65536 * p.2

/-! Sets. -/

/-- The order of a set named at `off` (R143, R144). [DEDUCED, log 114] -/
def State.namedOrd (s : State) (n off k ord ordOff : Nat) : List Fail :=
  let o := s.setOrder n k
  chk (decide (o < 2) || decide (8 < o)) off 1 ++ chk (decide (ord < o) && decide (o ≤ 8)) ordOff 8

/-- A set named at `off`; where `full`, its mode, which must be `fi`, and its valid bit as well (R54, R69, R169, R222). -/
def State.namedSet (s : State) (n off k : Nat) (fi : Bool) (ord ordOff : Nat) (full : Bool) : List Fail :=
  s.namedOrd n off k ord ordOff
    ++ (if full then chk (s.setFi n k != fi) off 5 ++ chk (!s.setValid n k) off 7 else [])

/-! Readers. -/

/-- Values over those in force. -/
def State.over (s : State) (vals : List (Nat × Word)) (o : Nat) : Nat :=
  match vals.find? fun p => p.1 = o with
  | some p => p.2.toNat
  | none => s.rg o

/-- The strobes pending. -/
def State.pendings (s : State) : List Strobe := s.strobes.filterMap (·.2)

/-- The values accepted so far: those in force and those of the pending strobes (R142). [DEDUCED, log 55] -/
def State.accepted (s : State) (o : Nat) : Nat := s.over (s.pendings.flatMap (·.vals)) o

/-- Whether a range is implemented, by a reader. -/
def implI (rd : Nat → Nat) (n c : Nat) : Bool := decide (c < 12) && f32pos (rd (chOff n (chIfs + 4 * c)))
def implV (rd : Nat → Nat) (n v : Nat) : Bool := f32pos (rd (chOff n (chVfs + 4 * (v % 4))))

/-! Areas. -/

/-- The Rake region of channel `m`: first entry and length (R271). -/
def rakeArea (rd : Nat → Nat) (m : Nat) : Option (Nat × Nat) :=
  if bitOf (rd (chOff m chRakeCfg)) 0 then
    some (bitsOf (rd (chOff m chRakeBase)) 21 0, bitsOf (rd (chOff m chRakeLen)) 22 0)
  else none

/-- The Pans ring of channel `m` (R392). -/
def pansArea (rd : Nat → Nat) (m : Nat) : Option (Nat × Nat) :=
  if bitOf (rd (chOff m chMeasCfg)) 6 then
    some (bitsOf (rd (chOff m chPansBase)) 18 0, bitsOf (rd (chOff m chPansSize)) 19 0)
  else none

/-- A 38-bit base by a reader. -/
def baseOf (rd : Nat → Nat) (m lo : Nat) : Nat := rd (chOff m lo) + 4294967296 * bitsOf (rd (chOff m (lo + 4))) 5 0

/-- The DDR5 area `k` of channel `m`: 0 streaming, 1 Brine, 2 spill. -/
def ddrArea (rd : Nat → Nat) (m k : Nat) : Option (Nat × Nat) :=
  match k with
  | 0 => if bitOf (rd (chOff m chStrCfg)) 0 then
      some (baseOf rd m chStrDbaseLo, 256 * bitsOf (rd (chOff m chStrDsize)) 24 0) else none
  | 1 => if bitOf (rd (chOff m chMeasCfg)) 8 then
      some (baseOf rd m chBrnDbaseLo, 64 * bitsOf (rd (chOff m chBrnDsize)) 26 0) else none
  | _ => if bitOf (rd (chOff m chMeasCfg)) 7 then
      some (baseOf rd m chSpillDbaseLo, 32 * bitsOf (rd (chOff m chSpillDsize)) 27 0) else none

/-- Two areas meet. -/
def meets (a b : Option (Nat × Nat)) : Bool :=
  match a, b with
  | some a, some b => decide (0 < a.2) && decide (0 < b.2) && overlap a.1 a.2 b.1 b.2
  | _, _ => false

/-- What a validation works on: the reader of the values after the strobe, the channels of the group, and the readers by
which other channels' claims count, in force and accepted (R142, R273). `chg`: the values are those of a strobe, whose changes
are judged too; an ARM judges a configuration as it stands (R72). -/
structure View1 where
  rd     : Nat → Nat
  mine   : List Nat
  others : List (Nat → Nat)
  chg    : Bool := true

/-- The first other channel whose area meets `a`. -/
def View1.clash (v : View1) (n : Nat) (a : Option (Nat × Nat)) (area : (Nat → Nat) → Nat → Option (Nat × Nat)) :
    Option Nat :=
  (List.range 64).find? fun m => decide (m ≠ n) &&
    (if v.mine.contains m then meets a (area v.rd m) else v.others.any fun rd => meets a (area rd m))

/-- The first DDR5 area that meets `a`, area `k` of channel `n`: channel and kind. -/
def View1.ddrClash (v : View1) (n k : Nat) (a : Option (Nat × Nat)) : Option (Nat × Nat) :=
  (List.range 64).findSome? fun m => (List.range 3).findSome? fun j =>
    if m = n ∧ j = k then none
    else if (if v.mine.contains m then meets a (ddrArea v.rd m j) else v.others.any fun rd => meets a (ddrArea rd m j))
      then some (m, j) else none

/-- An area claim as a check: resource kind `kind` of R654. -/
def claim (off kind : Nat) : Option Nat → List Fail
  | none => []
  | some m => [⟨off, 3, kind + 16 * m⟩]

/-- A DDR5 area claim as a check. -/
def claimDdr (off : Nat) : Option (Nat × Nat) → List Fail
  | none => []
  | some (m, j) => [⟨off, 3, 7 + 16 * m + 65536 * j⟩]

/-! A channel's checks. -/

/-- A value differs from the one in force. -/
def State.changed (s : State) (rd : Nat → Nat) (o : Nat) : Bool := rd o != s.rg o

/-- One of several registers of channel `n` changes. -/
def State.changedAny (s : State) (rd : Nat → Nat) (n : Nat) (rs : List Nat) : Bool :=
  rs.any fun r => s.changed rd (chOff n r)

/-- A field of a register of channel `n` changes. -/
def State.changedBits (s : State) (rd : Nat → Nat) (n r hi lo : Nat) : Bool :=
  bitsOf (rd (chOff n r)) hi lo != bitsOf (s.cr n r) hi lo

/-- The ranges that a configuration selects (R63, R64). -/
def rangeFails (rd : Nat → Nat) (n : Nat) (live : Bool) : List Fail :=
  let o := chOff n
  let cfg := rd (o chCfg)
  let i := bitsOf cfg 6 3
  let v := bitsOf cfg 8 7
  chk ((decide (12 ≤ i) && decide (i ≤ 14)) || (decide (i < 12) && !implI rd n i) || (decide (i = 15) && live)) (o chCfg) 6
    ++ chk (!implV rd n v) (o chCfg) 6

/-- The control registers (R104, R107, R147, R866). A RAIL_FS that is not a number is
none that a headroom lies within. [DESIGN CHOICE, log 101] -/
def State.ctlFails (s : State) (view : View1) (n : Nat) (live : Bool) : List Fail :=
  let rd := view.rd
  let o := chOff n
  let cfg := rd (o chCfg)
  let d := bitsOf (rd (o chSrdiv)) 12 0
  let ord := bitsOf (rd (engOff (engOrd + 4 * n))) 3 0
  let pw := rd (o chPwmCtl)
  let was := s.cr n chPwmCtl
  let track := bitOf pw 1
  let fs := s.cr n chRailFs
  let per := bitsOf (rd (o chPwmPer)) 9 0
  let gt := rd (o chGtCfg)
  let duty := rd (o chGtDuty)
  let slewBad := fun w => !(f32le 0 w) || decide (w = 0x7F800000)
  chk (decide (bitsOf cfg 2 1 = 3)) (o chCfg) 1
    ++ rangeFails rd n live
    ++ chk (decide (d = 0) || decide (4096 < d)) (o chSrdiv) 1
    ++ chk (decide (ord < 2) || decide (8 < ord)) (engOff (engOrd + 4 * n)) 1
    ++ chk (decide (per < 100) || decide (800 < per)) (o chPwmPer) 1
    ++ chk (track && decide (fs % 2147483648 = 0)) (o chPwmCtl) 1
    ++ chk (track && !(f32le 0 (rd (o chHeadH)) && f32le (rd (o chHeadH)) fs)) (o chHeadH) 1
    ++ chk (track && !(f32le 0 (rd (o chHeadL)) && f32le (rd (o chHeadL)) fs)) (o chHeadL) 1
    ++ chk ((bitOf pw 0 && track) || (view.chg && ((bitOf pw 0 && bitOf was 1 && !bitOf was 0) ||
        (!bitOf pw 0 && bitOf was 0 && track)))) (o chPwmCtl) 3 (3 + 16 * n)
    ++ chk (decide (bitsOf gt 1 0 = 3) || decide (bitsOf gt 3 2 = 3)) (o chGtCfg) 1
    ++ chk (decide (per < bitsOf duty 9 0) || decide (per < bitsOf duty 25 16)) (o chGtDuty) 1
    ++ chk (slewBad (rd (o chSsSlewV))) (o chSsSlewV) 1
    ++ chk (slewBad (rd (o chSsSlewI))) (o chSsSlewI) 1

/-- Supervision and handover (R220, R235, R260, R263, R266). -/
def supFails (rd : Nat → Nat) (n : Nat) : List Fail :=
  let o := chOff n
  let w := rd (o chOscWin)
  let h := rd (o chHoCfg)
  let a := rd (o chArMask)
  let t := rd (o chArThr)
  let ev := bitsOf h 19 16
  let cands := (List.range 12).filter fun c => bitOf a c && implI rd n c
  let fs := fun c => f32v (rd (o (chIfs + 4 * c)))
  chk (decide (bitsOf (rd (o chOscCfg)) 2 1 = 3)) (o chOscCfg) 1
    ++ chk (decide (bitsOf w 15 0 < 16) || decide (bitsOf w 23 16 < 2)) (o chOscWin) 1
    ++ chk (decide (bitsOf (rd (o chOscTh)) 15 0 = 0)) (o chOscTh) 1
    ++ chk (decide (bitsOf h 6 0 < 2) || decide (64 < bitsOf h 6 0) || decide (bitsOf h 6 0 ≤ bitsOf h 13 8) ||
        (decide (12 ≤ ev) && decide (ev ≤ 14))) (o chHoCfg) 1
    ++ chk (decide (bitsOf (rd (o chHoTol)) 15 0 = 0)) (o chHoTol) 1
    ++ chk (decide (bitsOf a 23 16 = 0) || cands.any fun c => cands.any fun e => decide (c < e) && decide (fs c = fs e))
      (o chArMask) 1
    ++ chk (decide (bitsOf t 15 0 ≤ bitsOf t 31 16)) (o chArThr) 1

/-- The Rake (R272 to R274, R316). With REG_EN = 0 a LEN of 0, the reset value, is no length that an index is held to.
[DEDUCED, log 133] -/
def State.rakeFails (s : State) (v : View1) (n : Nat) : List Fail :=
  let rd := v.rd
  let o := chOff n
  let en := bitOf (rd (o chRakeCfg)) 0
  let base := bitsOf (rd (o chRakeBase)) 21 0
  let len := bitsOf (rd (o chRakeLen)) 22 0
  let sg := rd (o chRakeSegcfg)
  let cnt := bitsOf sg 16 8
  let jt := rd (o chRakeJtgt)
  let busy := v.chg && decide ((s.ch n).rake.st ≠ .stopped)
  let lenBad := decide (len = 0) || decide (4194304 < len) || decide (4194304 < base + len)
  chk (busy && s.changedBits rd n chRakeCfg 1 0) (o chRakeCfg) 10
    ++ chk (busy && s.changed rd (o chRakeBase)) (o chRakeBase) 10
    ++ chk (busy && s.changed rd (o chRakeLen)) (o chRakeLen) 10
    ++ chk (busy && s.changed rd (o chRakeSegtab)) (o chRakeSegtab) 10
    ++ chk (busy && s.changedBits rd n chRakeSegcfg 16 0) (o chRakeSegcfg) 10
    ++ chk (decide (cnt = 0) || decide (256 < cnt) || decide (cnt ≤ bitsOf sg 7 0) || decide (cnt ≤ bitsOf sg 31 24))
      (o chRakeSegcfg) 1
    ++ chk (decide (8 < bitsOf jt 25 22)) (o chRakeJtgt) 1
    ++ chk (en && lenBad) (o chRakeLen) 2
    ++ chk ((en || decide (len ≠ 0)) && decide (len ≤ bitsOf (rd (o chRakeStartIdx)) 21 0)) (o chRakeStartIdx) 1
    ++ chk ((en || decide (len ≠ 0)) && badTarget len (bitsOf jt 21 0)) (o chRakeJtgt) 1
    ++ (if en && !lenBad then claim (o chRakeCfg) 4 (v.clash n (some (base, len)) rakeArea) else [])

/-- Streaming and oscillator (R317, R319, R320, R353, R362). -/
def State.strFails (s : State) (v : View1) (n : Nat) : List Fail :=
  let rd := v.rd
  let o := chOff n
  let cfg := rd (o chStrCfg)
  let en := bitOf cfg 0
  let ring := bitsOf (rd (o chStrRing)) 21 0
  let rlen := bitsOf (rd (o chStrRlen)) 17 0
  let len := bitsOf (rd (o chRakeLen)) 22 0
  let ds := bitsOf (rd (o chStrDsize)) 24 0
  let busy := v.chg && decide ((s.ch n).rake.st ≠ .stopped)
  let ftw := rd (o chNcoFtwLo) + 4294967296 * bitsOf (rd (o chNcoFtwHi)) 15 0
  chk (decide (bitsOf cfg 2 1 = 3)) (o chStrCfg) 1
    ++ chk (en && !bitOf (rd (o chRakeCfg)) 1) (o chStrCfg) 1
    ++ chk (busy && s.changedBits rd n chStrCfg 0 0) (o chStrCfg) 10
    ++ ([chStrDbaseLo, chStrDbaseHi, chStrDsize, chStrRing, chStrRlen].flatMap fun r =>
        chk (busy && s.changed rd (o r)) (o r) 10)
    ++ chk (decide (rd (o chStrDbaseLo) % 256 ≠ 0)) (o chStrDbaseLo) 1
    ++ chk (en && decide (ring % 16 ≠ 0)) (o chStrRing) 1
    ++ chk (en && (decide (rlen < 4) || decide (262143 < rlen) || decide (len < ring + 16 * rlen))) (o chStrRlen) 2
    ++ chk (en && (decide (ds = 0) || decide (16777216 < ds) || !s.ddrIn (baseOf rd n chStrDbaseLo) (256 * ds)))
      (o chStrDsize) 2
    ++ (if en then claimDdr (o chStrCfg) (v.ddrClash n 0 (ddrArea rd n 0)) else [])
    ++ chk (en && decide (ds ≤ bitsOf (rd (o chStrLowwm)) 24 0)) (o chStrLowwm) 1
    ++ chk (decide (140737488355328 < ftw)) (o chNcoFtwHi) 1
    ++ chk (decide (2147483648 ≤ rd (o chNcoAmp))) (o chNcoAmp) 1

/-- Measurement (R393, R394, R413, R415). -/
def State.measFails (s : State) (v : View1) (n : Nat) : List Fail :=
  let rd := v.rd
  let o := chOff n
  let cfg := rd (o chMeasCfg)
  let pans := bitOf cfg 6
  let spill := bitOf cfg 7
  let brn := bitOf cfg 8
  let base := bitsOf (rd (o chPansBase)) 18 0
  let size := bitsOf (rd (o chPansSize)) 19 0
  let sd := bitsOf (rd (o chSpillDsize)) 27 0
  let wm := bitsOf (rd (o chPansWm)) 27 0
  let bd := bitsOf (rd (o chBrnDsize)) 26 0
  let sy := bitsOf (rd (o chBrnCfg)) 4 0
  let sizeBad := decide (size = 0) || decide (524288 < base + size)
  let brnOn := v.chg && bitOf (s.cr n chMeasCfg) 8
  let live := v.chg && (decide ((s.ch n).state = .armed) || decide ((s.ch n).state = .active))
  chk (live && s.changedBits rd n chMeasCfg 7 6) (o chMeasCfg) 10
    ++ ([chPansBase, chPansSize, chSpillDbaseLo, chSpillDbaseHi, chSpillDsize].flatMap fun r =>
        chk (live && s.changed rd (o r)) (o r) 10)
    ++ ([chBrnDbaseLo, chBrnDbaseHi, chBrnDsize].flatMap fun r => chk (brnOn && s.changed rd (o r)) (o r) 10)
    ++ chk (pans && sizeBad) (o chPansSize) 2
    ++ (if pans && !sizeBad then claim (o chMeasCfg) 5 (v.clash n (some (base, size)) pansArea) else [])
    ++ chk (decide (wm = 0) || (if spill then decide (sd < wm) else (pans || decide (size ≠ 0)) && decide (size < wm))) (o chPansWm) 1
    ++ chk (decide (rd (o chSpillDbaseLo) % 64 ≠ 0)) (o chSpillDbaseLo) 1
    ++ chk (decide (rd (o chBrnDbaseLo) % 64 ≠ 0)) (o chBrnDbaseLo) 1
    ++ chk (spill && (decide (sd = 0) || decide (134217728 < sd) || !s.ddrIn (baseOf rd n chSpillDbaseLo) (32 * sd)))
      (o chSpillDsize) 2
    ++ (if spill then claimDdr (o chMeasCfg) (v.ddrClash n 2 (ddrArea rd n 2)) else [])
    ++ chk (brn && (decide (bd = 0) || decide (67108864 < bd) || !s.ddrIn (baseOf rd n chBrnDbaseLo) (64 * bd)))
      (o chBrnDsize) 2
    ++ (if brn then claimDdr (o chMeasCfg) (v.ddrClash n 1 (ddrArea rd n 1)) else [])
    ++ chk (decide (sy < 8) || decide (24 < sy)) (o chBrnCfg) 1
    ++ ((List.range 64).flatMap fun a =>
        chk (bitOf (rd (o (chApdDly + 16 * a))) 24 && decide (bitsOf (rd (o (chApdCfg + 16 * a))) 11 0 = 0))
          (o (chApdCfg + 16 * a)) 1)
    ++ (let p := bitsOf (rd (cmpOff n cmpSmp)) 16 0
        chk (decide (p = 0) || decide (100000 < p)) (cmpOff n cmpSmp) 1)

/-- The sets that the values name (R54, R69, R143, R144, R169, R222, R872): their orders, and mode and validity for a SWAP and
where the channel is `live`. FB_FV and FB_FI are both named exactly while OSC_EN = 1 with OSC_REACT = 1, or FALLBACK = 1, in
whatever mode (R872). An order above an ORD_RES that the strobe lowers is recorded at ENG_ORDn, else at the field that names
the set (R144). [DEDUCED, log 56] [DEDUCED, log 114] -/
def State.setFails (s : State) (rd : Nat → Nat) (n : Nat) (live : Bool) : List Fail :=
  let o := chOff n
  let c := s.ch n
  let ordO := engOff (engOrd + 4 * n)
  let ord := bitsOf (rd ordO) 3 0
  let at_ := fun off => if ord < bitsOf (s.rg ordO) 3 0 then ordO else off
  let bank := rd (o chBank)
  let shd := bitsOf bank 3 0
  let fi := c.rake.fi.getD (bitOf (rd (o chCfg)) 0)
  let named := fun off k fi full => s.namedSet n off k fi ord (at_ off) full
  let off := bitsOf (rd (o chCfg)) 2 1
  let oc := rd (o chOffCfg)
  let osc := rd (o chOscCfg)
  named (o chBank) shd fi (bitOf bank 4)
  ++ (if off = 1 then named (o chOffCfg) (bitsOf oc 3 0) false live
      else if off = 2 then named (o chOffCfg) (bitsOf oc 7 4) true live else [])
  ++ (if (bitOf osc 0 ∧ bitsOf osc 2 1 = 1) ∨ c.sup.fallback then
      named (o chOscCfg) (bitsOf osc 7 4) false live ++ named (o chOscCfg) (bitsOf osc 11 8) true live else [])
  ++ ((List.range 12).flatMap fun i =>
      if implI rd n i then
        let so := o (chSmap + 4 * (i / 2))
        let w := rd so
        named so (bitsOf w (8 * (i % 2) + 3) (8 * (i % 2))) false live
          ++ named so (bitsOf w (8 * (i % 2) + 7) (8 * (i % 2) + 4)) true live
      else [])

/-- Every check of channel `n` but admission and fences. `live`: ARMED, ACTIVE, or to be armed. [DEDUCED, log 57] [DEDUCED, log 114] -/
def State.chanFails (s : State) (v : View1) (n : Nat) (live : Bool) : List Fail :=
  s.ctlFails v n live ++ supFails v.rd n ++ s.rakeFails v n ++ s.strFails v n ++ s.measFails v n
    ++ s.setFails v.rd n live

/-! The other units' checks. -/

/-- A converter (R419, R450, R452, R461). -/
def State.pscFails (s : State) (rd : Nat → Nat) (m : Nat) : List Fail :=
  let o := fun r => tileOff (m / 4) (0x1000 + 0x400 * (m % 4) + r)
  let cfg := rd (o pscCfg)
  let src := bitsOf (rd (o pscTrig)) 1 0
  chk (bitOf cfg 0 && decide ((s.psc m).own = 2)) (o pscCfg) 3 (6 + 16 * m)
    ++ chk (decide (bitsOf cfg 7 2 = 0) || decide (32 < bitsOf cfg 7 2) || decide (4 < bitsOf cfg 10 8)) (o pscCfg) 2
    ++ chk (decide (src % 2 = 1) && decide (rd (o pscTmr) = 0)) (o pscTmr) 1
    ++ ((List.range 36).flatMap fun e =>
        let w := rd (o (pscEntCfg + 16 * e))
        let k := bitsOf w 8 6
        let a := bitsOf w 19 9
        chk (decide (51 ≤ bitsOf w 5 0) || decide (k = 0) || decide (5 < k) || decide (a = 0) || decide (1024 < a) ||
            (bitOf w 20 && decide (32 ≤ e)) || decide (bitsOf w 22 21 = 3)) (o (pscEntCfg + 16 * e)) 1
          ++ chk (decide (bitsOf (rd (o (pscEntDec + 16 * e))) 19 0 < 16)) (o (pscEntDec + 16 * e)) 1
          ++ chk (bitOf w 20 && decide (sgn32 (rd (o (pscEntLo + 16 * e))) > sgn32 (rd (o (pscEntHi + 16 * e)))))
            (o (pscEntLo + 16 * e)) 1)

/-- The Pip of a tile (R461). -/
def pipFails (rd : Nat → Nat) (t : Nat) : List Fail :=
  let w := rd (tileOff t tilePipCtl)
  chk (decide (bitsOf w 1 0 = 3) || decide (bitsOf w 3 2 = 3) || (decide (bitsOf w 3 2 = 2) && decide (8 ≤ bitsOf w 7 4)))
      (tileOff t tilePipCtl) 1
    ++ chk (decide (bitsOf (rd (tileOff t tilePipCode)) 15 0 = 0x8000)) (tileOff t tilePipCode) 1

/-- Capture unit `i` (R477, R478), against the owner accepted before (R142). -/
def State.capFails (s : State) (rd : Nat → Nat) (i : Nat) : List Fail :=
  let o := tileOff (i / 32) (0x800 + 16 * (i % 32) + capCfg)
  let w := rd o
  let own := bitsOf w 1 0
  let was := bitsOf (s.accepted o) 1 0
  chk (decide (own = 3) || (decide (own = 1) && decide (bitsOf w 9 8 = 0))) o 1
    ++ chk (decide (was ≠ 0) && decide (own ≠ 0) && decide (own ≠ was)) o 3 (2 + 16 * i)

/-- TRIG pin `p` (R565), against the owner accepted before (R142). -/
def State.trigFails (s : State) (rd : Nat → Nat) (p : Nat) : List Fail :=
  let o := 0xB0000 + brmTrigCfg + 4 * p
  let w := rd o
  let own := bitsOf w 1 0
  let was := bitsOf (s.accepted o) 1 0
  chk (decide (own = 3) || decide (bitsOf w 5 4 = 3) || (decide (own = 1) && decide (bitsOf w 3 2 = 0))) o 1
    ++ chk (decide (was ≠ 0) && decide (own ≠ 0) && decide (own ≠ was)) o 3 (1 + 16 * p)
    ++ chk (decide (bitsOf (rd (0xB0000 + brmTrigPulse + 4 * p)) 15 0 = 0)) (0xB0000 + brmTrigPulse + 4 * p) 1

end Sys2Proof.Machine
end

