-- ==== Sys2Proof/Machine/Channel.lean ====
section
/-! DEFINITION. The channel's commands and states (R71 to R82), dispositions (R68 to R70, R189, R876), pins (R91), tracking
supplies and the general timer (R95 to R105, R720, R865), and the coefficient-set commands (R161 to R166, R192). -/

namespace Sys2Proof.Machine

/-! Commands. -/

/-- Tile `t` is ON (R714). -/
def State.tileOn (s : State) (t : Nat) : Bool := decide (bitsOf (s.rg (tileOff t tilePwrSts)) 1 0 = 0)

/-- The device's power state (R711): 0 RUN, 1 TO_STANDBY, 2 STANDBY, 3 TO_RUN. -/
def State.pwrSt (s : State) : Nat := bitsOf (s.rg sysPwrSts) 1 0

/-- R715: ARM and SERVICE_ENTER find their tile ON, released, and the device in neither TO_STANDBY nor STANDBY. -/
def State.awake (s : State) (n : Nat) : Bool :=
  s.tileOn (tileOf n) && !bitOf s.held.toNat (tileOf n) && decide (s.pwrSt ≠ 1) && decide (s.pwrSt ≠ 2)

/-- RAILS_OK (R101). -/
def State.railsOk (s : State) (n : Nat) : Bool := !bitOf (s.cr n chPwmCtl) 1 || (s.ch n).rail.ok

/-- R80: the channel reports IDLE. -/
def State.chIdle (s : State) (n : Nat) : Bool :=
  let c := s.ch n
  (decide (c.state = .off) || decide (c.state = .fenced)) && decide (c.rake.st = .stopped) && !s.movable n &&
    decide (c.ho.st = .idle) && !s.calOn n

/-- R64: the ranges that an ARM needs, by a reader of values. -/
def armRanges (rd : Nat → Nat) (n : Nat) : Bool :=
  let w := rd (chOff n chCfg)
  implI rd n (bitsOf w 6 3) && implV rd n (bitsOf w 8 7)

/-- R72: the configuration of a channel passes validation as that of an ARMED channel. -/
def State.armConfig (s : State) (n : Nat) : Bool :=
  (s.chanFails { rd := s.accepted, mine := [], others := [s.accepted], chg := false } n true).isEmpty

/-- R139: the lane admits channel `n` as well. -/
def State.armAdmits (s : State) (n : Nat) : Bool := admits (s.laneLoad (tileOf n) s.resOf fun m => decide (m = n))

/-- R72, R74, R90, R715: the reason for which command `code` is refused; 0 for none. -/
def State.cmdReason (s : State) (n code : Nat) : Nat :=
  let c := s.ch n
  if 7 ≤ code then 7
  else if code = 1 ∨ code = 5 then
    if c.state ≠ .off ∨ ¬ s.awake n then 1
    else if ¬ s.committed n then 4
    else if code = 5 then 0
    else if ¬ armRanges s.accepted n then 5
    else if ¬ s.armAdmits n then 3
    else if ¬ s.armConfig n then 5
    else 0
  else if code = 2 then (if c.state ≠ .armed then 1 else if ¬ s.railsOk n then 2 else 0)
  else if code = 3 then (if c.state ≠ .active then 1 else 0)
  else if code = 4 then (if c.state ≠ .armed ∧ c.state ≠ .active then 1 else 0)
  else if c.state ≠ .service then 1 else if s.calOn n then 6 else 0

/-- R74: a command refused with reason `why`. -/
def State.cmdRefuse (s : State) (n code why : Nat) : State := (s.setCr n chRefuse (code + 16 * why)).cflag n chFlags 1

/-- A command latched for the channel's next own boundary, or refused (R72 to R74, R77, R137). Of several commands latched CMD
shows the last. [DESIGN CHOICE, log 99] [DEDUCED, log 137] -/
def State.chanCmd (s : State) (n code : Nat) : State :=
  if code = 0 then s
  else
    let why := s.cmdReason n code
    if why ≠ 0 then s.cmdRefuse n code why
    else
      let s := s.setCr n chCtl (setBits (s.cr n chCtl) 3 0 code)
      s.updCh n fun c => { c with cmds := c.cmds ++ [code], slot := c.slot || decide (code = 1) }

/-- The lane slot is released. -/
def State.freeSlot (s : State) (n : Nat) : State := s.updCh n fun c => { c with slot := false }

/-- What the supervisor keeps when the channel leaves ACTIVE: the last samples and the safety runs. -/
def Sup.idle (p : Sup) : Sup := { last := p.last, last2 := p.last2, safeV := p.safeV, safeI := p.safeI, sink := p.sink }

/-! Edges of the PWM outputs (R444, R446, R545): output 0 is PWM_H, output 1 PWM_L. -/

/-- The level of output `k`, and the cycle of its fall. -/
def Rail.hi (r : Rail) (k : Nat) : Bool := if k = 0 then r.hiH else r.hiL
def Rail.fall (r : Rail) (k : Nat) : Option Nat := if k = 0 then r.fallH else r.fallL

/-- Set them. -/
def Rail.setOut (r : Rail) (k : Nat) (hi : Bool) (fall : Option Nat) : Rail :=
  if k = 0 then { r with hiH := hi, fallH := fall } else { r with hiL := hi, fallL := fall }

/-- Converters `l` see edge `k` of the PWM outputs of their tile in absolute cycle `cyc` (R446). -/
def State.pscSee (s : State) (k cyc : Nat) : List Nat → State
  | [] => s
  | m :: r =>
    let p := s.psc m
    (s.setPsc m { p with edges := insertAt (·.1) (cyc, k) p.edges }).pscSee k cyc r

/-- Output `k` of channel `n` rises or falls in absolute cycle `c`: its producer fires, and the converters of its tile can start
on it. -/
def State.pwmEdge (s : State) (n k : Nat) (up : Bool) (c : Nat) : State :=
  let e := 2 * k + b2n (!up)
  let s := s.updCh n fun x => { x with rail := x.rail.setOut k up none }
  (s.fireChAt (18 + e) n c).pscSee (4 * (n % 16) + e) c ((List.range 4).map (4 * (n / 16) + ·))

/-- Output `k` is driven to level `up` from absolute cycle `c` on. -/
def State.pwmTo (s : State) (n k : Nat) (up : Bool) (c : Nat) : State :=
  if (s.ch n).rail.hi k = up then s.updCh n fun x => { x with rail := x.rail.setOut k up none } else s.pwmEdge n k up c

/-- A period of `per` cycles with `on` cycles high begins in absolute cycle `c`. It begins high where it is high at all. -/
def State.pwmOut (s : State) (n k on per c : Nat) : State :=
  let s := s.pwmTo n k (decide (0 < on)) c
  s.updCh n fun x => { x with rail := x.rail.setOut k (x.rail.hi k) (if 0 < on ∧ on < per then some (c + on) else none) }

/-- The fall of output `k` of channel `n`, where it comes by absolute cycle `z`. -/
def State.pwmFall (s : State) (z n k : Nat) : State :=
  match (s.ch n).rail.fall k with
  | some c => if c ≤ z then s.pwmEdge n k false c else s
  | none => s

/-- The falls by absolute cycle `z`. -/
def State.pwmFalls (s : State) (z : Nat) : List Nat → State
  | [] => s
  | n :: r => ((s.pwmFall z n 0).pwmFall z n 1).pwmFalls z r

/-- The outputs go low at the present boundary. -/
def State.pwmLow (s : State) (n : Nat) : State := (s.pwmTo n 0 false (s.at_ 0)).pwmTo n 1 false (s.at_ 0)

/-- The channel leaves ARMED, ACTIVE or SERVICE for OFF at the present boundary (R71, R191, R192, R261). -/
def State.toOff (s : State) (n : Nat) : State :=
  let s := ((s.leAbort n 3).endCompl n).pwmLow n
  let s := if (s.ch n).ho.st ≠ .idle then s.hoAbandon n 3 else s
  if (s.ch n).state = .fenced then s
  else
    let s := if (s.ch n).law.snap.isSome then s.setCr n chLawSnap 0 else s
    let s := s.updCh n fun c => { c.drop with state := .off, ho := c.ho.rest, rng := ⟨15, c.rng.v⟩ }
    (s.safeEnd n).freeSlot n

/-- The swap requests of the boundary that a swap into an output-off disposition beats, the handover's apart, which stays due (R175). -/
def State.beatable (s : State) (n : Nat) : Nat :=
  ((s.hwReqs n).filter fun q => match q with
    | .disp _ | .handover => false
    | _ => true).length

/-- ACTIVE to ARMED at the present boundary (R71, R196, R223, R352). -/
def State.toArmed (s : State) (n : Nat) : State :=
  let k := s.beatable n
  let s := (s.leAbort n 3).endCompl n
  s.updCh n fun c => { c with state := .armed, sup := { c.sup.idle with beaten := k }, spNew := none, accNext := 0 }

/-- R79: DISABLE or DISARM of an ACTIVE channel with OFF_RAMP = 1 begins its ramp (R204). [DEDUCED, log 44] -/
def State.offRamp (s : State) (n code : Nat) : State :=
  s.updCh n fun c => { c with sup := { c.sup with
    offCmd := some (max code (c.sup.offCmd.getD 0)), offNew := c.sup.offCmd.isNone, ramp := true, rampNew := false
    rampVal := if c.sup.ramp then c.sup.rampVal else c.sup.rF } }

/-- The objects of the ranges that channel `n` implements (R519, R528). -/
def State.calUsed (s : State) (n : Nat) : List Nat :=
  ((List.range 12).filter fun c => s.iImpl n c).flatMap (fun c => [32 * n + c, 32 * n + 16 + c])
    ++ ((List.range 4).filter fun v => s.vImpl n v).flatMap fun v => [32 * n + 12 + v, 32 * n + 28 + v]

/-- R528: the copies in use are checked at ARM. -/
def State.armCal (s : State) (n : Nat) : State :=
  let js := s.calUsed n
  let bad := js.filter fun j => !s.copyOk (s.objUse j) 512
  let swap := bad.filter fun j => s.copyOk (s.objOther j) 512
  let lost := bad.filter fun j => !swap.contains j
  if bad = [] ∧ ¬ (s.calBad.any fun j => js.contains j) then s
  else
    let s := s.calHolds (js.filter fun j => bad.contains j || s.calBad.contains j)
    let s := { s with
      calSel := (s.calSel.filter fun j => !swap.contains j) ++ swap.filter fun j => !s.calSel.contains j
      calBad := (s.calBad.filter fun j => !js.contains j) ++ lost }
    let r := (if swap = [] then [] else [(ftCalCrc, clsCal)]) ++ (if lost = [] then [] else [(ftNoCal, clsCal)])
    if r = [] then s else s.report (frTile (tileOf n)) r

/-- A latched command takes effect at the present boundary, in a state that accepts it. `ramp`: an OFF_RAMP applies. An ARM whose
ranges, accepted with a strobe still pending, are not in force there is refused (R64). -/
def State.cmdApply (s : State) (n code : Nat) (ramp : Bool) : State :=
  let c := s.ch n
  match code, c.state with
  | 1, .off =>
    if ¬ armRanges s.rg n then s.cmdRefuse n 1 5
    else (s.setCh n { c with state := .armed, rng := s.cfgRng n, fi := bitOf (s.cr n chCfg) 0, sup := c.sup.idle }).armCal n
  | 2, .armed => s.setCh n { c with state := .active, sup := { c.sup.idle with rampNew := true } }
  | 3, .active => if ramp && decide (c.disp = .loop) then s.offRamp n 3 else s.toArmed n
  | 4, .active => if ramp && decide (c.disp = .loop) then s.offRamp n 4 else s.toOff n
  | 4, .armed => s.toOff n
  | 5, .off => s.setCh n { c with state := .service }
  | 6, .service => s.toOff n
  | _, _ => s

/-- R75: the commands in the order in which one is chosen. -/
def cmdOrder : List Nat := [4, 3, 6, 5, 2, 1]

/-- The commands of an own boundary (R73, R75, R77): those latched since the last own boundary count as of one tick, and CMD
clears here also where the command then ramps. -/
def State.cmdsApply (s : State) (n : Nat) : State :=
  let l := (s.ch n).cmds
  match cmdOrder.find? fun k => l.contains k with
  | none => s
  | some k =>
    let s := s.ccount n chCmdDrop (l.length - 1)
    let ctl := s.cr n chCtl
    let s := s.setCr n chCtl (setBits ctl 3 0 0)
    let s := (s.updCh n fun c => { c with cmds := [] }).cmdApply n k (bitOf ctl 4)
    let st := (s.ch n).state
    if st ≠ .armed ∧ st ≠ .active ∧ (s.ch n).slot = true then s.freeSlot n else s

/-- R79: the set-point has reached zero and the command takes effect at the boundary that ends the tick; a handover that is
complete there ends first (R247). -/
def State.offRampDone (s : State) (n : Nat) : State :=
  let c := s.ch n
  match c.sup.offCmd with
  | some k => if c.sup.offZero ∧ (s.tick + 1) % s.srDiv n = 0 then
      { (({ s with tick := s.tick + 1 } : State).hoFinish n).cmdApply n k false with tick := s.tick } else s
  | none => s

/-- R22, R41: at its own boundary a channel whose unfence has been accepted leaves FENCED, for OFF with OUT_EN low. -/
def State.unfenceStep (s : State) (n : Nat) : State :=
  let c := s.ch n
  if c.state = .fenced ∧ c.unf = true then
    s.setCh n { c with state := .off, unf := false, outEn := false, rngP := 15, rngS := 15 }
  else s

/-! Block reset. -/

/-- R81, R82, R333: a channel reset, of an idle or fenced channel. Latched commands go with it, uncounted, and so does the lane
slot of a latched ARM. -/
def State.chanReset (s : State) (n : Nat) : State :=
  if (s.ch n).state = .fenced ∨ s.chIdle n then
    let s := s.updCh n fun c => { c with cmds := [], slot := false }
    let s := (s.chanRegReset n).strFlush n
    let s := (s.setCr n chStrWptr 0).setCr n chStrRptr 0
    s.updCh n fun c => { c with str := { c.str with pos := 0, buf := none } }
  else s.cflag n chFlags 0x40

/-! Dispositions. -/

/-- The disposition that the state, the Rake's entry and GO_SAFE call for (R68, R287, R344). -/
def State.wantDisp (s : State) (n : Nat) : Disp :=
  let c := s.ch n
  match c.state with
  | .active =>
    if (match c.rake.val with
        | some v => v.off
        | none => false) || c.rake.gapSafe then s.offDisp n else .loop
  | .armed => s.offDisp n
  | _ => .highz

/-- The set that a disposition uses when its loop goes on from an evaluated one (R70). -/
def State.dispTarget (s : State) (n : Nat) (d : Disp) : Nat :=
  if d = .loop then s.smap n (s.ch n).rng.i (s.ch n).fi else s.zeroSet n d

/-- R876: an output-off period begins in ACTIVE. -/
def State.offBegin (s : State) (n : Nat) : State :=
  let k := s.beatable n
  let s := (s.leAbort n 3).endCompl n
  s.updCh n fun c => { c with sup := { c.sup with
    beaten := k, ramp := false, rampNew := false, offNew := false, offZero := c.sup.offCmd.isSome
    oscSign := 0, oscCnt := 0, oscN := 0, cxReq := none, hbReq := false, fbReq := false } }

/-- The disposition takes effect at the present boundary: without a loop the law rests, a loop that was evaluated swaps, and
one that was not begins with a cold evaluation (R70, R189). The requests that the swap beats are lost (R176). -/
def State.dispStep (s : State) (n : Nat) : State :=
  let d := s.wantDisp n
  let old := (s.ch n).disp
  if d = old then s
  else
    let s := if old = .loop ∧ (s.ch n).state = .active then s.offBegin n else s
    let swaps := decide (d ≠ .highz) && decide (old ≠ .highz) && !(s.ch n).law.cold && (s.ch n).law.run
    let s := s.ccount n chSwapLost (if swaps then (s.ch n).sup.beaten else 0)
    let c := s.ch n
    let l := c.law
    let l := if d = .highz then
        { act := l.act, shd := l.shd, snap := l.snap, swapReq := l.swapReq, swapMode := l.swapMode, shdReq := l.shdReq }
      else if swaps then { l with dispReq := some (s.dispTarget n d), modeReq := false }
      else { l with cold := true, dispReq := none, modeReq := false }
    s.setCh n { c with disp := d, law := l, fi := s.cmdFi n, sup := { c.sup with beaten := 0 } }

/-- The commanded mode at the present boundary (R55): where the loop is evaluated in ACTIVE a change is a swap, and the mode in
force changes with it; the SWAP of the strobe that brings the change serves for both (R178). -/
def State.modeStep (s : State) (n : Nat) : State :=
  let c := s.ch n
  let fi := s.cmdFi n
  let eval := decide (c.state = .active) && decide (c.disp = .loop) && c.law.run && !c.law.cold
  let served := c.law.swapReq && c.law.swapMode && c.rake.fi.isNone
  if fi ≠ c.fi ∧ eval ∧ ¬ served then s.setCh n { c with law := { c.law with modeReq := true } }
  else s.setCh n { c with fi := fi, law := { c.law with modeReq := false } }

/-- In ARMED with HIGHZ the ranges are the recorded ones (R67, R68); a handover there is abandoned (R261). -/
def State.rngStep (s : State) (n : Nat) : State :=
  let c := s.ch n
  if c.state = .armed ∧ c.disp = .highz then
    let s := if c.ho.st ≠ .idle then s.hoAbandon n 3 else s
    s.updCh n fun c => { c with rng := s.cfgRng n, ho := c.ho.rest }
  else s

/-! Pins. -/

/-- The pins at the present boundary (R71, R91, R243, R259). -/
def State.pinStep (s : State) (n : Nat) : State :=
  let c := s.ch n
  match c.state with
  | .fenced => s
  | .service => if s.calDrives n then s
      else s.setCh n { c with outEn := false, rngP := 15, rngS := 15, vrngP := (s.cfgRng n).v }
  | .off => s.setCh n { c with outEn := false, rngP := 15, rngS := 15, vrngP := (s.cfgRng n).v }
  | _ =>
    let h := decide (c.ho.st ≠ .idle)
    s.setCh n { c with
      outEn := decide (c.disp ≠ .highz), rngP := c.rng.i
      rngS := if h then (if c.ho.volt then c.rng.i else c.ho.dst) else 15
      vrngP := if h && c.ho.volt then c.ho.dst else c.rng.v }

/-- CLAMP_N is driven by the clamp comparators (R92). -/
def Chan.clampLive (c : Chan) : Bool :=
  (decide (c.state = .active) || decide (c.state = .armed)) && decide (c.disp ≠ .highz)

/-! Rails. Voltages are in units of 2^-179 V, which every code of every full scale is exactly. -/

/-- V_hi and V_lo (R95, R96), by the commanded mode; where its swap is deferred the set-point is the one commanded. The next
POINT is the one that the control entries between lead to as conditions stand. In an output-off period with ZERO_I the limit
that R96 names is the compliance limit. [DESIGN CHOICE, log 100] [DESIGN CHOICE, log 139] -/
def State.railV (s : State) (n : Nat) (y : Option Samp) : Int × Int :=
  let c := s.ch n
  let fs := f32v (s.vfs n c.rng.v)
  let fi := s.cmdFi n
  if fi ∧ bitOf (s.cr n chPwmCtl) 2 then
    let l : Int := (s.baseLim n true).natAbs * fs
    (l, -l)
  else
    let v := match y with
      | some y => y.v
      | none => match c.sup.last with
        | some l => l.1
        | none => 0
    let more := if fi then []
      else (if c.law.modeReq then (s.clipSp n false (s.sumSp n false)).1 else c.sup.rF) :: (match s.nextForce n with
        | some f => [f]
        | none => [])
    ((v :: more).foldl max 0 * fs, (v :: more).foldl min 0 * fs)

/-- One target (R97, R98): `old` the target in use, `hi` RAIL_FS and `fall` what it can fall, none for an infinite one. With
RAIL_MIN above RAIL_FS, RAIL_MIN holds. [DESIGN CHOICE, log 101] -/
def railTarget (v head lo : Int) (hi : Option Int) (old : Int) (fall : Option Int) : Int :=
  let t := max lo (match hi with
    | some h => min h (v + head)
    | none => v + head)
  if t ≥ old then t
  else match fall with
    | some d => max t (old - d)
    | none => t

/-- The rails at an own boundary of an ARMED or ACTIVE channel (R95 to R101). A rise is one of the target in use; RAIL_FALL is
taken as it stands, and targets not formed while TRACK_EN = 0 stay as they were. -/
def State.railStep (s : State) (n : Nat) (y : Option Samp) : State :=
  let c := s.ch n
  let w := s.cr n chPwmCtl
  if (c.state = .armed ∨ c.state = .active) ∧ bitOf w 1 then
    let k := fun r => f32v (s.cr n r) * 1073741824
    let (hi, lo) := s.railV n y
    let fall := if s.cr n chRailFall = 0x7F800000 then none else some (k chRailFall * ((match c.rail.formed with
      | some t => s.tick - t
      | none => 0 : Nat) : Int))
    let fs := if s.cr n chRailFs = 0x7F800000 then none else some (k chRailFs)
    let th := railTarget hi (k chHeadH) (k chRailMin) fs c.rail.th fall
    let tl := railTarget (-lo) (k chHeadL) (k chRailMin) fs c.rail.tl fall
    let rise := decide (th > c.rail.th) || decide (tl > c.rail.tl)
    s.setCh n { c with rail := { c.rail with
      th := th, tl := tl, ok := c.rail.ok && !rise, rise := if rise then s.tick else c.rail.rise
      formed := some s.tick, fs := s.cr n chRailFs } }
  else s

/-- R101: RAIL_SETTLE ticks have passed at the boundary that ends the present tick. -/
def State.railSettle (s : State) (n : Nat) : State :=
  let c := s.ch n
  if ¬ c.rail.ok ∧ c.rail.rise + bitsOf (s.cr n chRailSettle) 15 0 ≤ s.tick + 1 then
    s.setCh n { c with rail := { c.rail with ok := true } }
  else s

/-- One output of the general timer (R720): the on-time in cycles. -/
def gtOn (mode duty per : Nat) : Nat := if mode = 1 then per else if mode = 2 then duty else 0

/-- R100: the on-time of a period and the remainder carried: `t / fs` of `per` cycles, as the floor of the duty with what the
periods before left over, from 0 on. [DESIGN CHOICE, log 49] -/
def pwmOn (t fs dit : Int) (per : Nat) : Nat × Int :=
  if fs ≤ 0 then (0, 0)
  else
    let a := t * (per : Int) + dit
    (min per (a / fs).toNat, a % fs)

/-- A duty times 65,536, saturated (R107). [DEDUCED, log 48] -/
def dutyOf (a b : Int) : Nat := if b ≤ 0 then 0 else min 65535 (rne (a * 65536) b).toNat

/-- R99, R100, R720: a PWM period of channel `n` begins with its new duty. -/
def State.pwmPeriod (s : State) (n : Nat) : State :=
  let c := s.ch n
  let w := s.cr n chPwmCtl
  let per := bitsOf (s.cr n chPwmPer) 9 0
  if c.state ≠ .armed ∧ c.state ≠ .active then s
  else if bitOf w 0 then
    let g := s.cr n chGtCfg
    let d := s.cr n chGtDuty
    let a := gtOn (bitsOf g 1 0) (bitsOf d 9 0) per
    let b := gtOn (bitsOf g 3 2) (bitsOf d 25 16) per
    s.setCh n { c with rail := { c.rail with onH := a, onL := b, dutyH := dutyOf a per, dutyL := dutyOf b per } }
  else if bitOf w 1 then
    let fs := f32v c.rail.fs * 1073741824
    let (a, da) := pwmOn c.rail.th fs c.rail.ditH per
    let (b, db) := pwmOn c.rail.tl fs c.rail.ditL per
    s.setCh n { c with rail := { c.rail with
      onH := a, onL := b, ditH := da, ditL := db, dutyH := dutyOf c.rail.th fs, dutyL := dutyOf c.rail.tl fs } }
  else s.setCh n { c with rail := { c.rail with onH := 0, onL := 0, ditH := 0, ditL := 0, dutyH := 0, dutyL := 0 } }

/-- A PWM period of channel `n` begins in cycle `cyc`, with its edges. -/
def State.pwmBegin (s : State) (n cyc : Nat) : State :=
  let c := s.ch n
  if c.state ≠ .armed ∧ c.state ≠ .active then s
  else
    let s := ((s.pwmFall (s.at_ cyc - 1) n 0).pwmFall (s.at_ cyc - 1) n 1).pwmPeriod n
    let per := bitsOf (s.cr n chPwmPer) 9 0
    let s := s.pwmOut n 0 (s.ch n).rail.onH per (s.at_ cyc)
    s.pwmOut n 1 (s.ch n).rail.onL per (s.at_ cyc)

/-- Output `k` of the general timer in mode `m` takes its level at the next boundary; a duty waits for the next period. -/
def State.gtOut (s : State) (n k m : Nat) : State := if m < 2 then s.pwmTo n k (decide (m = 1)) (s.at_ 50) else s

/-- R720: levels of the general timer apply at the boundary at which a strobe applies them. -/
def State.gtLevel (s : State) (n : Nat) : State :=
  let c := s.ch n
  let g := s.cr n chGtCfg
  let per := bitsOf (s.cr n chPwmPer) 9 0
  if bitOf (s.cr n chPwmCtl) 0 ∧ (c.state = .armed ∨ c.state = .active) then
    let lv := fun (m on : Nat) => if m = 0 then 0 else if m = 1 then per else on
    let a := lv (bitsOf g 1 0) c.rail.onH
    let b := lv (bitsOf g 3 2) c.rail.onL
    let s := s.setCh n { c with rail := { c.rail with onH := a, onL := b, dutyH := dutyOf a per, dutyL := dutyOf b per } }
    (s.gtOut n 0 (bitsOf g 1 0)).gtOut n 1 (bitsOf g 3 2)
  else s

/-- R865: RAIL_FS, RAIL_MIN or RAIL_SETTLE takes the value `v`. -/
def State.railTakes (s : State) (n rel v : Nat) : Bool :=
  if rel = chRailSettle then decide (v % 65536 ≠ 0)
  else !bitOf (s.cr n chPwmCtl) 1 ||
    (if rel = chRailFs then f32pos v && f32le (s.cr n chRailMin) v else f32le 0 v && f32le v (s.cr n chRailFs))

/-- R865: a write of RAIL_FS, RAIL_MIN or RAIL_SETTLE. Where the validation of a strobe asks for the value in force (R866), the one
written counts at once. -/
def State.railWrite (s : State) (n rel v : Nat) : State :=
  if ¬ s.railTakes n rel v then s else s.setCr n rel (if rel = chRailSettle then v % 65536 else v)

/-! Coefficient sets. -/

/-- R165: set `k` of channel `n` is protected. -/
def State.setProt (s : State) (n k : Nat) : Bool :=
  let c := s.ch n
  let osc := s.cr n chOscCfg
  let oc := s.cr n chOffCfg
  let d := s.offDisp n
  (decide (c.state = .armed) || decide (c.state = .active)) &&
    (decide (c.law.act = k)
      || ((List.range 12).any fun i => s.iImpl n i && (decide (s.smap n i false = k) || decide (s.smap n i true = k)))
      || (((bitOf osc 0 && decide (bitsOf osc 2 1 = 1)) || c.sup.fallback) &&
          (decide (bitsOf osc 7 4 = k) || decide (bitsOf osc 11 8 = k)))
      || (decide (d = .zeroV) && decide (bitsOf oc 3 0 = k))
      || (decide (d = .zeroI) && decide (bitsOf oc 7 4 = k)))

/-- Clear the valid bit of set `k`; a verification of that set finds WRITTEN (R161, R164). -/
def State.setStale (s : State) (n k : Nat) (written : Bool) : State :=
  s.updCh n fun c => { c with
    valid := c.valid &&& ~~~(BitVec.ofNat 16 (2 ^ k))
    vfy := match c.vfy with
      | some v => if v.set = k ∧ written = true then some { v with written := true } else some v
      | none => none }

/-- R163: VERIFY. -/
def State.verify (s : State) (n k : Nat) : State :=
  let c := s.ch n
  if c.vfy.isSome then s.cflag n chSetSts 8
  else
    let s := s.setCh n { c with vfy := some { set := k, written := false } }
    s.setCr n chSetCmd (k + 16)

/-- R163 to R165: INVALIDATE. -/
def State.invalidate (s : State) (n k : Nat) : State :=
  if (s.ch n).vfy.isSome then s.cflag n chSetSts 8
  else
    let s := s.setCr n chSetCmd (setBits (s.cr n chSetCmd) 3 0 k)
    if s.setProt n k then s.cflag n chSetSts 4 else s.setStale n k false

/-- The offsets of the coefficient words that the engine reads in a set of order `o` (R157, R159). -/
def coefOffs (o : Nat) : List Nat :=
  let r := List.range o
  [0x30, 0x38, 0x40] ++ r.map (0x80 + 8 * ·) ++ r.map (0xC0 + 8 * ·) ++ r.flatMap (fun i => [0x100 + 16 * i, 0x108 + 16 * i])
    ++ r.flatMap fun i => r.map fun j => 0x180 + 64 * i + 8 * j

/-- The failures of R161 in a set, by ascending reason, CRC to LIMITS. -/
def State.vfyReason (s : State) (n k : Nat) : Nat :=
  let a := setAddr n k
  let h := s.w32 a
  let o := bitsOf h 3 0
  let st := fun i => bitsOf h (17 + 2 * i) (16 + 2 * i)
  let typed := (List.range 8).filter fun i => decide (st i ≠ 0)
  let umax := sgn32 (s.w32 (a + 4))
  let umin := sgn32 (s.w32 (a + 8))
  if s.w32 (a + 0x3FC) ≠ (crc32c (s.bytes a 0x3FC)).toNat then 1
  else if o < 2 ∨ 8 < o then 2
  else if bitsOf h 15 10 ≠ 0 ∨ bitsOf h 6 5 = 3 then 3
  else if ((List.range 8).any fun i => decide (st i = 3)) ∨ (typed.any fun i => decide (o ≤ i + 1)) ∨ 4 < typed.length then 4
  else if (coefOffs o).any fun p => decide (bitsOf (s.w64 (a + p)) 63 38 ≠ 0) then 5
  else if umin ≥ umax ∨ umin = -2147483648 ∨ umax = -2147483648 then 6
  else 0

/-- R161, R162, R164: the verification in progress ends. -/
def State.verifyDone (s : State) (n : Nat) : State :=
  match (s.ch n).vfy with
  | none => s
  | some v =>
    let ue := s.ue (setAddr n v.set) 1024
    let why := if ue then 8 else if v.written then 7 else s.vfyReason n v.set
    let s := (s.unitRead (setAddr n v.set) 1024).updCh n fun c => { c with vfy := none }
    let s := s.setCr n chSetCmd (setBits (s.cr n chSetCmd) 4 4 0)
    if why = 0 then
      let s := s.updCh n fun c => { c with valid := c.valid ||| BitVec.ofNat 16 (2 ^ v.set) }
      s.cflag n chSetSts 1
    else
      let s := if ue then s.setStale n v.set false else s
      (s.setCr n chSetFail (v.set + 16 * why)).cflag n chSetSts 3

/-- R192: SNAP. -/
def State.snapCmd (s : State) (n : Nat) : State :=
  let c := s.ch n
  match c.law.snap with
  | some _ => s
  | none =>
    (s.setCr n chLawSnap 1).updCh n fun c => { c with law := { c.law with snap := some (s.tick + 1) } }

/-! The commands of the table. -/

def execEnable (a : Acc) (n : ChanId) (s : State) : Res := s.viaReg a (chOff n.val chCtl) 0xF0002 (·.chanCmd n.val 2)
def execDisable (a : Acc) (n : ChanId) (s : State) : Res := s.viaReg a (chOff n.val chCtl) 0xF0003 (·.chanCmd n.val 3)
def execDisarm (a : Acc) (n : ChanId) (s : State) : Res := s.viaReg a (chOff n.val chCtl) 0xF0004 (·.chanCmd n.val 4)
def execServiceEnter (a : Acc) (n : ChanId) (s : State) : Res := s.viaReg a (chOff n.val chCtl) 0xF0005 (·.chanCmd n.val 5)
def execServiceLeave (a : Acc) (n : ChanId) (s : State) : Res := s.viaReg a (chOff n.val chCtl) 0xF0006 (·.chanCmd n.val 6)

/-- A reserved code, 7 to 15; the codes below are those of the commands. -/
def execChnCmdReserved (a : Acc) (n : ChanId) (code : BitVec 4) (s : State) : Res :=
  s.viaReg a (chOff n.val chCtl) (0xF0000 + code.toNat) (·.chanCmd n.val code.toNat)

def execChannelReset (a : Acc) (n : ChanId) (s : State) : Res := s.viaGrd a (chOff n.val chRst) 1 (·.chanReset n.val)

/-- The offset of a rail register. -/
def railRel : RailReg → Nat
  | .fs => chRailFs
  | .min => chRailMin
  | .settle => chRailSettle

def execRailWrite (a : Acc) (n : ChanId) (r : RailReg) (v : Word) (s : State) : Res :=
  s.viaReg a (chOff n.val (railRel r)) v.toNat fun s =>
    let t := s.railWrite n.val (railRel r) v.toNat
    if r ≠ .settle ∧ s.railTakes n.val (railRel r) v.toNat then t.voteWrite (chOff n.val (railRel r)) else t
def execVerify (a : Acc) (n : ChanId) (k : SetId) (s : State) : Res :=
  s.viaReg a (chOff n.val chSetCmd) (0x3F0010 + k.val) (·.verify n.val k.val)
def execInvalidate (a : Acc) (n : ChanId) (k : SetId) (s : State) : Res :=
  s.viaReg a (chOff n.val chSetCmd) (0x3F0020 + k.val) (·.invalidate n.val k.val)
def execSnap (a : Acc) (n : ChanId) (s : State) : Res := s.viaReg a (chOff n.val chLawSnap) 0x10001 (·.snapCmd n.val)

def execVerifyDone (n : ChanId) (s : State) : Res := .next (s.verifyDone n.val)
def execRailSettleEnd (n : ChanId) (s : State) : Res := .next (s.railSettle n.val)
def execPwmPeriod (n : ChanId) (cyc : Cycle) (s : State) : Res := .next ((s.pwmBegin n.val cyc.val).passed cyc.val)
def execOffRampComplete (n : ChanId) (s : State) : Res := .next (s.offRampDone n.val)

end Sys2Proof.Machine
end

