-- ==== Sys2Proof/Machine/Update.lean ====
section
/-! DEFINITION. A boundary up to its bank swap, and the update groups: capture, validation, boundary A and application
(R646 to R653, R171, R177, R197, R236, R238, R310, R320, R359, R451, R567). -/

namespace Sys2Proof.Machine

/-! The first part of an own boundary. -/

/-- A stage of a channel's boundary: a fence or a reset in between ends the channel's boundary. -/
def State.stage (s : State) (n : Nat) (f : State → State) : State :=
  if (s.ch n).state = .fenced ∨ ¬ s.running then s else f s

/-- R306: an error stop of the present boundary with ERR_ACT applies DISABLE, which ramps with OFF_RAMP (R79). -/
def State.errAct (s : State) (n : Nat) : State :=
  let err := (s.ch n).rake.errStop
  let s := s.updCh n fun c => { c with rake := { c.rake with errStop := false } }
  if err = true ∧ bitOf (s.cr n chRakeCfg) 3 = true then s.cmdApply n 3 (bitOf (s.cr n chCtl) 4) else s

/-- The end of a handover, commands, Rake, mode, disposition and ranges of an own boundary, in this order, before its swaps. -/
def State.bdHead (s : State) (n : Nat) : State :=
  let act := decide ((s.ch n).state = .active)
  let s := s.stage n (·.hoFinish n)
  let s := s.stage n (·.cmdsApply n)
  let s := s.stage n (·.rakeBoundary n act)
  let s := s.stage n (·.errAct n)
  let s := s.stage n (·.modeStep n)
  let s := s.stage n (·.dispStep n)
  let s := s.stage n (·.rngStep n)
  s.stage n (·.hoEnd n)

/-! Groups. -/

/-- CHn_GRP. -/
def State.chGrp (s : State) (n : Nat) : Nat := bitsOf (s.cr n Sys2Proof.Machine.chGrp) 2 0

/-- The update group of the buffered register at `o` (R646). -/
def State.groupAt (s : State) (o : Nat) : Option Nat :=
  match locate o with
  | none => none
  | some l => match rowAt l with
    | none => none
    | some (r, i) =>
      if ¬ r.buf then none
      else match l.grp with
        | .ch => some (s.chGrp l.inst)
        | .cmp => some (s.chGrp l.inst)
        | .eng => some (s.chGrp i)
        | .cap => some (bitsOf (s.rg (tileOff (l.inst / 32) tileCapGrp)) 2 0)
        | .psc => some (bitsOf (s.rg (tileOff (l.inst / 4) (0x1000 + 0x400 * (l.inst % 4) + pscGrp))) 2 0)
        | .tile => some (bitsOf (s.rg (tileOff l.inst tilePipGrp)) 2 0)
        | .brm => some (bitsOf (s.rg (0xB0000 + brmTrigGrp)) 2 0)
        | _ => none

/-- The channels of group `g`. -/
def State.groupChans (s : State) (g : Nat) : List Nat := (List.range 64).filter fun n => s.chGrp n = g

/-- R648: every captured shadow of group `g` that does not hold its reset value, or whose register does not, and every BANK
register, whose SHD is applied whether or not it was written (R171). -/
def State.capture (s : State) (g : Nat) : List (Nat × Word) :=
  let ks := (s.shadow.map (·.1) ++ s.regs.map (·.1)).eraseDups.filter fun o => decide (s.groupAt o = some g)
  let banks := ((s.groupChans g).map fun n => chOff n chBank).filter fun o => !ks.contains o
  (ks ++ banks).map fun o => (o, BitVec.ofNat 32 (s.sh o))

/-- The channel is ARMED or ACTIVE, or an ARM for it is latched. -/
def State.liveCh (s : State) (n : Nat) : Bool :=
  let c := s.ch n
  decide (c.state = .armed) || decide (c.state = .active) || (decide (c.state = .off) && c.slot)

/-! Fenced targets (R43). -/

/-- The first shadow of each tile unit in group `g`: capture units, converters, PIP. -/
def State.groupUnits (s : State) (g : Nat) : List Nat :=
  ((List.range 4).flatMap fun t =>
    tileOff t (0x800 + capCfg) :: tileOff t tilePipCtl :: (List.range 4).map fun m => tileOff t (0x1000 + 0x400 * m + pscCfg)).filter
    fun o => s.groupAt o = some g

/-- The shadows of fenced units among the channels `mine` and the units `units` of a group. -/
def State.fencedFails (s : State) (mine units : List Nat) : List Fail :=
  (mine.flatMap fun n => chk (decide ((s.ch n).state = .fenced)) (engOff (engOrd + 4 * n)) 11) ++
  (units.flatMap fun o => chk (match locate o with
    | some l => s.isFenced (unTile (if l.grp = .cap then l.inst / 32 else if l.grp = .psc then l.inst / 4 else l.inst))
    | none => false) o 11)

/-! Admission (R140). -/

/-- ORD_RES and SR_DIV of channel `n` by a reader. -/
def resBy (rd : Nat → Nat) (n : Nat) : Nat × Nat :=
  (bitsOf (rd (engOff (engOrd + 4 * n))) 3 0, max 1 (bitsOf (rd (chOff n chSrdiv)) 12 0))

/-- Of two reservations the first loads a lane more in a phase (R136). -/
def loadsMore (a b : Nat × Nat) : Bool :=
  decide (ceilDiv (costP1 b.1) (max 1 b.2) < ceilDiv (costP1 a.1) (max 1 a.2)) ||
  decide (ceilDiv (costP2 b.1) (max 1 b.2) < ceilDiv (costP2 a.1) (max 1 a.2))

/-- R140: the admission failures of a group: the fields that raise the load of a failing lane, each with the other field of its
channel as before or as it becomes. -/
def State.admFails (s : State) (rd : Nat → Nat) (mine : List Nat) : List Fail :=
  let up := mine.flatMap fun n =>
    if ¬ (s.ch n).slot then []
    else
      let (o, d) := resBy rd n
      let (o0, d0) := s.resOf n
      (if loadsMore (o, d) (o0, d) ∨ loadsMore (o, d0) (o0, d0) then [(tileOf n, engOff (engOrd + 4 * n))] else [])
        ++ (if loadsMore (o, d) (o, d0) ∨ loadsMore (o0, d) (o0, d0) then [(tileOf n, chOff n chSrdiv)] else [])
  let bad := fun t => !admits (s.laneLoad t (fun n => if mine.contains n then resBy rd n else s.resOf n) fun _ => false)
  (up.filter fun p => bad p.1).map fun p => ⟨p.2, 4, 0⟩

/-! Latching. -/

/-- Every failure of a strobe of group `g` with captured values `vals`: they are validated as a whole, changed or not (R648). A unit
of which none is captured holds its reset values, which pass. [DEDUCED, log 56] [DEDUCED, log 114] -/
def State.strobeFails (s : State) (g : Nat) (vals : List (Nat × Word)) : List Fail :=
  let mine := s.groupChans g
  let v : View1 := { rd := s.over vals, mine := mine, others := [s.rg, s.accepted] }
  let any := fun lo hi => (vals.any fun p => decide (lo ≤ p.1) && decide (p.1 < hi))
  s.fencedFails mine (s.groupUnits g)
    ++ (mine.flatMap fun n => s.chanFails v n (s.liveCh n))
    ++ s.admFails v.rd mine
    ++ ((List.range 16).flatMap fun m =>
        let b := tileOff (m / 4) (0x1000 + 0x400 * (m % 4))
        if any b (b + 0x400) then s.pscFails v.rd m else [])
    ++ ((List.range 4).flatMap fun t =>
        if any (tileOff t tilePipCtl) (tileOff t tilePipRsrc) then pipFails v.rd t else [])
    ++ ((List.range 128).flatMap fun i =>
        let b := tileOff (i / 32) (0x800 + 16 * (i % 32))
        if any b (b + 16) then s.capFails v.rd i else [])
    ++ (if any 0xB0000 0xB0090 then (List.range 16).flatMap fun p => s.trigFails v.rd p else [])

/-- SWAP and PRESET clear when a strobe is applied or rejected (R194, R363), but for those in `again`, written since its capture
(R645). -/
def State.selfClear (s : State) (again : List Nat) : List Nat → State
  | [] => s
  | n :: r =>
    let b := chOff n chBank
    let p := chOff n chNcoCtl
    let s := if bitOf (s.sh b) 4 ∧ ¬ again.contains b then s.setSh b (s.sh b - 16) else s
    let s := if bitOf (s.sh p) 1 ∧ ¬ again.contains p then s.setSh p (s.sh p - 2) else s
    s.selfClear again r

/-- The view offset of register `rel` of update group `g`. -/
def updOff (g rel : Nat) : Nat := 0x150 + 16 * g + rel

/-- R651, R652: a strobe is rejected. -/
def State.strobeReject (s : State) (g rej res : Nat) (mine again : List Nat) : State :=
  let s := s.setRg (updOff g updRej) rej
  let s := if rej % 16 = 3 then s.setRg (updOff g updRes) res else s
  (s.flag (updOff g updSts) 2).selfClear again mine

/-- The pending strobe of group `g`. -/
def State.strobe (s : State) (g : Nat) : Option Strobe := tget (fun _ => none) s.strobes g

/-- Replace it. -/
def State.setStrobe (s : State) (g : Nat) (v : Option Strobe) : State :=
  { s with strobes := tput (fun _ => none) s.strobes g v }

/-- R142, R148: reservations taken or given back. -/
def State.reserve (s : State) : List (Nat × Nat × Nat) → State
  | [] => s
  | (n, o, d) :: r => (s.updCh n fun c => { c with resOrd := o, resDiv := d }).reserve r

/-- R649: boundary A of a strobe of channels `mine`. -/
def State.boundaryA (s : State) (mine : List Nat) : Nat :=
  let span := mine.foldl (fun a n => Nat.lcm a (s.srDiv n)) 1
  (s.tick / span + 1) * span

/-- R647, R648, R651: a strobe of group `g` is latched. -/
def State.strobeLatch (s : State) (g : Nat) : State :=
  if (s.strobe g).isSome then s.strobeReject g 12 0 (s.groupChans g) []
  else
    let vals := s.capture g
    match firstFail (s.strobeFails g vals) with
    | some f => s.strobeReject g (rejWord f) f.res (s.groupChans g) []
    | none =>
      let mine := s.groupChans g
      let chg := mine.filter fun n => resBy (s.over vals) n != s.resOf n
      let undo := chg.map fun n => (n, (s.resOf n).1, (s.resOf n).2)
      let s' := s.setStrobe g (some { vals := vals, at_ := s.boundaryA mine, undo := undo, mine := mine, units := s.groupUnits g,
                                       pins := decide (s.groupAt (0xB0000 + brmTrigCfg) = some g) })
      s'.reserve (chg.map fun n => (n, resBy (s.over vals) n))

/-- Strobes of the groups listed, latched in absolute cycle `c`. One of a group whose strobe was latched in that very cycle makes
one strobe with it (R647). -/
def State.strobeLatches (s : State) (c : Nat) : List Nat → State
  | [] => s
  | g :: r =>
    (if tget (fun _ => none) s.updAt g = some c then s.count sysUpdMerges
     else State.strobeLatch { s with updAt := tput (fun _ => none) s.updAt g (some c) } g).strobeLatches c r

/-! Application. -/

/-- Captured values come into force; SWAP and PRESET are requests and are not stored. -/
def State.applyVals (s : State) : List (Nat × Word) → State
  | [] => s
  | (o, v) :: r =>
    let w := v.toNat
    let w := match locate o with
      | some ⟨.ch, _, rel⟩ => if rel = chBank then w % 16 else if rel = chNcoCtl then w % 2 else w
      | _ => w
    (s.setRg o w).applyVals r

/-- The captured value at `o`. -/
def capAt (vals : List (Nat × Word)) (o : Nat) : Option Nat := (vals.find? fun p => p.1 = o).map (·.2.toNat)

/-- The bank request of a strobe for channel `n` (R171, R178); `o` is the state before. -/
def State.strobeBank (s o : State) (n : Nat) (vals : List (Nat × Word)) : State :=
  match capAt vals (chOff n chBank) with
  | none => s
  | some w =>
    let mode := bitOf (s.cr n chCfg) 0 != bitOf (o.cr n chCfg) 0
    s.updCh n fun c => { c with law := (if bitOf w 4 then { c.law with shd := w % 16, swapReq := true, swapMode := mode }
      else { c.law with shdReq := some (w % 16) }) }

/-- Channel `n` is ACTIVE once the commands of the coming boundary have taken effect. -/
def State.activeNext (s : State) (n : Nat) : Bool :=
  let c := s.ch n
  match cmdOrder.find? fun k => c.cmds.contains k with
  | some 2 => decide (c.state = .armed) || decide (c.state = .active)
  | some 3 => decide (c.state = .active) && bitOf (s.cr n chCtl) 4 && decide (c.disp = .loop)
  | _ => decide (c.state = .active)

/-- The range requests of a strobe for channel `n`, against the ranges in use from boundary A on (R236, R238, R240, R262). While the
Rake runs it makes none (R60). [DEDUCED, log 134] -/
def State.strobeRng (s : State) (n : Nat) : State :=
  let c := s.ch n
  let g := s.cfgRng n
  if c.rake.st ≠ .stopped then s
  else
    let s := if g.i ≠ 15 ∧ g.i ≠ c.rngB.i ∧ ¬ (bitOf (s.cr n chArCfg) 0 ∧ s.activeNext n = true) then s.reqRange n false g.i else s
    if g.v ≠ c.rngB.v then s.reqRange n true g.v else s

/-- The registers a change of which clears SEGTAB_OK (R310, R320). -/
def segRegs : List Nat :=
  [chRakeBase, chRakeLen, chRakeSegtab, chStrDbaseLo, chStrDbaseHi, chStrDsize, chStrRing, chStrRlen]

/-- The strobe changed the segment table's place or the stream's (by comparison with the state before, `o`). -/
def State.segChanged (s o : State) (n : Nat) : Bool :=
  (segRegs.any fun r => s.cr n r != o.cr n r) || bitOf (s.cr n chRakeCfg) 0 != bitOf (o.cr n chRakeCfg) 0 ||
  bitsOf (s.cr n chRakeSegcfg) 16 8 != bitsOf (o.cr n chRakeSegcfg) 16 8 || bitOf (s.cr n chStrCfg) 0 != bitOf (o.cr n chStrCfg) 0

/-- SMP_PER of channel `n` by reader `rd`, where a comparator is sampled (R470). -/
def smpOf (rd : Nat → Nat) (n : Nat) : Option Nat :=
  let w := rd (cmpOff n cmpCfg)
  if bitsOf w 3 0 &&& bitsOf w 7 4 ≠ 0 then some (bitsOf (rd (cmpOff n cmpSmp)) 16 0) else none

/-- R470: the first window begins at the first CLK_AUX edge at or after the boundary at which its configuration is applied. An edge
falls on every boundary whose tick is a multiple of 4 (R697). [DEDUCED, log 107] -/
def State.strobeSmp (s o : State) (n : Nat) : State :=
  let c := smpOf s.rg n
  if c = smpOf o.rg n then s
  else
    let b := s.at_ 50 + 7
    let e := b - b % 8
    s.updCh n fun h => { h with comp := { h.comp with smpAt := c.map fun _ => e } }

/-- What a strobe does to channel `n` beside its registers; `o` is the state before. -/
def State.strobeChan (s o : State) (n : Nat) (vals : List (Nat × Word)) : State :=
  let s := s.strobeBank o n vals
  let s := if s.cr n chSp ≠ o.cr n chSp ∧ (s.ch n).rake.ownSp = true then
    s.updCh n fun c => { c with spNew := some (bitOf (s.cr n chSsCtl) 0) } else s
  let s := match capAt vals (chOff n chNcoCtl) with
    | some w => if bitOf w 1 then s.updCh n fun c => { c with preset := true } else s
    | none => s
  let s := if bitOf (o.cr n chCxCfg) 0 && !bitOf (s.cr n chCxCfg) 0 && (s.ch n).sup.inCompl then
    s.updCh n fun c => { c with sup := { c.sup with hbForce := true } } else s
  let s := if s.segChanged o n then s.segStale n else s
  let s := if bitOf (o.cr n chMeasCfg) 8 && !bitOf (s.cr n chMeasCfg) 8 then s.brnEnd n else s
  ((s.strobeRng n).strobeSmp o n).gtLevel n

/-- The channels of a strobe. -/
def State.strobeChans (s o : State) (vals : List (Nat × Word)) : List Nat → State
  | [] => s
  | n :: r => (s.strobeChan o n vals).strobeChans o vals r

/-- R443: the timer of converter `m` under configuration reader `rd`: its period in cycles, where it runs. -/
def timerOf (rd : Nat → Nat) (m : Nat) : Option (Nat × Nat) :=
  let b := tileOff (m / 4) (0x1000 + 0x400 * (m % 4))
  let src := bitsOf (rd (b + pscTrig)) 1 0
  if bitOf (rd (b + pscCfg)) 0 ∧ src % 2 = 1 then some (src, rd (b + pscTmr)) else none

/-- R443, R444: a timer whose configuration the strobe changes starts anew; the gate is that of SRC = 3 alone. -/
def State.strobeTimer (s o : State) (m : Nat) : State :=
  let c := timerOf s.rg m
  if c = timerOf o.rg m then s
  else
    let p := s.psc m
    s.setPsc m { p with gate := false, tmr := c.map fun x => s.modEdge (s.at_ 50) + 32 * x.2 }

/-- R439, R451: SEQ_EN of converter `m` as applied; SEQ_EN = 0 takes effect at the modulator edge after the boundary. -/
def State.strobePsc (s o : State) : List Nat → State
  | [] => s
  | m :: r =>
    let at_ := tileOff (m / 4) (0x1000 + 0x400 * (m % 4) + pscCfg)
    let now := bitOf (s.rg at_) 0
    let was := bitOf (o.rg at_) 0
    let p := s.psc m
    let s := if now && !was then s.setPsc m { own := 1, edges := p.edges }
      else if was && !now then s.setPsc m { p with off := true, q := p.q ++ [(s.at_ 50, .off)] } else s
    (s.strobeTimer o m).strobePsc o r

/-- The pin `p` of TRIG. -/
def State.pin (s : State) (p : Nat) : Trig := tget (fun _ => {}) s.trig p

/-- Replace it. -/
def State.setPin (s : State) (p : Nat) (v : Trig) : State := { s with trig := tput (fun _ => {}) s.trig p v }

/-- The configuration of pin `p` in force. -/
def State.pinCfg (s : State) (p : Nat) : Nat := s.rg (0xB0000 + brmTrigCfg + 4 * p)

/-- R567: a pin is driven to IDLE from the boundary at which its configuration is applied. -/
def State.strobePins (s o : State) : List Nat → State
  | [] => s
  | p :: r =>
    let w := s.pinCfg p
    let v := s.pin p
    let s := if w = o.pinCfg p then s
      else s.setPin p { v with out := decide (bitsOf w 1 0 = 2) && bitOf w 6, till := none }
    s.strobePins o r

/-- The state with the values of a strobe of channels `mine` in force. -/
def State.strobeVals (s : State) (mine : List Nat) (vals : List (Nat × Word)) : State :=
  let s1 := s.applyVals vals
  let s1 := s1.strobeChans s vals mine
  let s1 := s1.strobePsc s (List.range 16)
  s1.strobePins s (List.range 16)

/-- R177: a SWAP of the strobe meets a hardware swap at boundary A, found by the boundary's stages on the strobe's values. -/
def State.bankBusy (s : State) (mine : List Nat) (vals : List (Nat × Word)) : List Fail :=
  let s1 := s.strobeVals mine vals
  let s1 := { s1 with tick := s1.tick + 1 }
  mine.flatMap fun n =>
    match capAt vals (chOff n chBank) with
    | some w => chk (bitOf w 4 && !((s1.bdHead n).hwReqs n).isEmpty) (chOff n chBank) 9
    | none => []

/-- The register at `o` is one whose shadow strobe `b` captured. -/
def Strobe.holds (b : Strobe) (o : Nat) : Bool :=
  match locate o with
  | none => false
  | some l => match rowAt l with
    | none => false
    | some (r, i) =>
      r.buf && (match l.grp with
        | .ch => b.mine.contains l.inst
        | .cmp => b.mine.contains l.inst
        | .eng => b.mine.contains i
        | .cap => b.units.contains (tileOff (l.inst / 32) (0x800 + capCfg))
        | .psc => b.units.contains (tileOff (l.inst / 4) (0x1000 + 0x400 * (l.inst % 4) + pscCfg))
        | .tile => b.units.contains (tileOff l.inst tilePipCtl)
        | .brm => b.pins
        | _ => false)

/-- Every value that strobe `b` captured and that may differ from the one in force. -/
def State.captured (s : State) (b : Strobe) : List (Nat × Word) :=
  b.vals ++ ((s.regs.map (·.1)).filter fun o => !(b.vals.any fun p => p.1 = o) && b.holds o).map fun o => (o, regReset o)

/-- R650: the pending strobe of group `g` at its boundary A, which ends the present tick. -/
def State.strobeApply (s : State) (g : Nat) : State :=
  match s.strobe g with
  | none => s
  | some b =>
    if s.tick + 1 < b.at_ then s
    else
      let s := s.setStrobe g none
      match firstFail (s.fencedFails b.mine b.units ++ s.bankBusy b.mine b.vals) with
      | some f => (s.reserve b.undo).strobeReject g (rejWord f) f.res b.mine b.again
      | none =>
        let s := (s.strobeVals b.mine (s.captured b)).selfClear b.again b.mine
        (s.flag (updOff g updSts) 1).countWrap (updOff g updApplied)

/-- Every strobe due. -/
def State.strobesDue (s : State) : List Nat → State
  | [] => s
  | g :: r => (s.strobeApply g).strobesDue r

/-- R182, R194: CHn_BANK_STS. PEND foretells the channel's next own boundary on the requests as they stand, the Rake's decision for
it and the check of a handover's window among them, and SHD names the target of a hardware swap that is to be made there.
[DEDUCED, log 104] -/
def State.bankStatus (s : State) (n : Nat) : Nat :=
  let l := (s.ch n).law
  let d := s.srDiv n
  let b := (s.tick / d + 1) * d
  let s0 := (s.hoCheck n).decideDue n
  let s1 := (({ s0 with tick := b - 1 } : State).offRampDone n).strobesDue (List.range 8)
  let s1 := ({ s1 with tick := b } : State).bdHead n
  let hw := !(s1.hwReqs n).isEmpty
  let s2 := s1.arbitrate n
  let pend := s2.cr n chSwaps != s1.cr n chSwaps || s2.cr n chSwapTick != s1.cr n chSwapTick
  l.act + 16 * (if pend && hw then (s2.ch n).law.act else l.shd) + 256 * b2n pend

end Sys2Proof.Machine
end

