-- ==== Sys2Proof/Machine/Compare.lean ====
section
/-! DEFINITION. The window comparators, the capture units, the wake requests they raise and the fast clamp (R462 to R491,
R716). -/

namespace Sys2Proof.Machine

/-- Comparator `k` of channel `n` is a clamp comparator (R484). -/
def State.isClamp (s : State) (n k : Nat) : Bool := bitOf (s.rg (cmpOff n cmpClamp)) k

/-- EN of comparator `k`. -/
def State.cmpEn (s : State) (n k : Nat) : Bool := bitOf (s.rg (cmpOff n cmpCfg)) k

/-- R468, R484: comparator `k` of channel `n` runs. -/
def State.cmpRuns (s : State) (n k : Nat) : Bool :=
  s.running && decide ((s.ch n).state ≠ .fenced) && !bitOf s.held.toNat (tileOf n) && (s.cmpEn n k || s.isClamp n k)

/-- R470, R484: comparator `k` is sampled. -/
def State.cmpSampled (s : State) (n k : Nat) : Bool := bitOf (s.rg (cmpOff n cmpCfg)) (4 + k) && !s.isClamp n k

/-- A bitmap with bit `k` set to `b`. -/
def putBit (w k : Nat) (b : Bool) : Nat := if bitOf w k = b then w else if b then w + 2 ^ k else w - 2 ^ k

/-- An edge selected by EDGE: 1 rising, 2 falling, 3 both (R472). -/
def edgeSel (sel : Nat) (rise : Bool) : Bool := bitOf sel (if rise then 0 else 1)

/-! Captures. -/

/-- The view offset of register `rel` of capture unit `i`. -/
def capOff (i rel : Nat) : Nat := tileOff (i / 32) (0x800 + 16 * (i % 32) + rel)

/-- Fabric time of absolute cycle `cyc` in ns (R30). -/
def State.timeAt (_ : State) (cyc : Nat) : Int := 5 * (cyc : Int)

/-- The 64-bit pattern of a time. -/
def timeBits (t : Int) : Nat := (BitVec.ofInt 64 t).toNat

/-- R479, R480: unit `i` captures time `t`. -/
def State.capTake (s : State) (i : Nat) (t : Int) : State :=
  let full := bitOf (s.rg (capOff i capSts)) 0
  let s := s.flag (capOff i capSts) (if full then 2 else 1)
  if full && !bitOf (s.rg (capOff i capCfg)) 10 then s
  else (s.setRg (capOff i capTs) (timeBits t % 4294967296)).setRg (capOff i (capTs + 4)) (timeBits t / 4294967296)

/-- The units that watch comparator `k` of channel `n` (R476). -/
def State.capWatch (s : State) (n k : Nat) (rise : Bool) : List Nat :=
  ((List.range 32).map (32 * tileOf n + ·)).filter fun i =>
    let w := s.rg (capOff i capCfg)
    decide (bitsOf w 1 0 = 1) && decide (bitsOf w 5 2 = n % 16) && decide (bitsOf w 7 6 = k) && edgeSel (bitsOf w 9 8) rise

/-- Captures of several units. [DEDUCED, log 58] -/
def State.capTakes (s : State) (t : Int) : List Nat → State
  | [] => s
  | i :: r => (s.capTake i t).capTakes t r

/-! Wake requests. -/

/-- R711: the device leaves STANDBY for TO_RUN. -/
def State.toRun (s : State) : State := s.setRg sysPwrSts 3

/-- R716: a channel's wake request; one that arrives during TO_STANDBY waits for its end (R712). [DEDUCED, log 116] -/
def State.wakeChan (s : State) (n : Nat) : State :=
  if s.pwrSt = 1 then
    { s with clk := { s.clk with wakeChans := if s.clk.wakeChans.contains n then s.clk.wakeChans else s.clk.wakeChans ++ [n] } }
  else
    let t := tileOf n
    let s := s.flag (tileOff t tileWake) (2 ^ (n % 16))
    let s := if bitsOf (s.rg (tileOff t tilePwrSts)) 1 0 = 1 then s.setRg (tileOff t tilePwrSts) 2 else s
    if bitOf (s.rg sysPwrCtl) 2 ∧ s.pwrSt = 2 then s.toRun.flag sysPwrFlags 4 else s

/-- R474: the wake requests that an edge of comparator `k` raises. -/
def State.wake (s : State) (n k : Nat) : State :=
  let w := s.rg (cmpOff n cmpWake)
  if bitOf w (9 + k) then
    let s := s.wakeCores ((List.range 8).filter fun x => bitOf w x)
    if bitOf w 8 then s.wakeChan n else s
  else s

/-! The clamp. -/

/-- R487: the clamp trips. -/
def State.trip (s : State) (n : Nat) : State :=
  let s := s.updCh n fun c => { c with comp := { c.comp with trip := true, zero := 0, met := false } }
  let s := (s.flag (cmpOff n cmpSts) 0x10).count (cmpOff n cmpTrips)
  s.fault (frCh n) fcClampTrip

/-- R487, R491: a clamp comparator's output of 1. -/
def State.clampHit (s : State) (n k : Nat) : State :=
  let s := s.updCh n fun c => { c with comp := { c.comp with raw := putBit c.comp.raw k true } }
  let c := (s.ch n).comp
  if c.driven && !c.trip then s.trip n else s

/-- The clamp comparators of channel `n`, as a bitmap. -/
def State.clampMask (s : State) (n : Nat) : Nat := bitsOf (s.rg (cmpOff n cmpClamp)) 3 0

/-- Every clamp comparator reads 0. -/
def State.clampClear (s : State) (n : Nat) : Bool := decide ((s.ch n).comp.raw &&& s.clampMask n = 0)

/-- LATCH of a channel's clamp. -/
def State.clampLatch (s : State) (n : Nat) : Bool := bitOf (s.rg (cmpOff n cmpClamp)) 4

/-- HOLD of a channel's clamp. -/
def State.clampHold (s : State) (n : Nat) : Nat := bitsOf (s.rg (cmpOff n cmpClhold)) 15 0

/-- R489, R490: the release due at the boundary that ends the present tick, where the readings of its cycle 0 are those of
now. With LATCH = 0 a release condition once met waits for the first own boundary. -/
def State.clampRelease (s : State) (n : Nat) : State :=
  let c := (s.ch n).comp
  if c.trip && decide ((s.tick + 1) % s.srDiv n = 0) &&
      (if s.clampLatch n then s.clampClear n && c.relKey
       else c.met || (s.clampClear n && decide (s.clampHold n ≤ c.zero + 1))) then
    s.updCh n fun c => { c with comp := { c.comp with trip := false, met := false, relKey := false } }
  else s

/-- R490: a completed release key. -/
def State.clampKey (s : State) (n : Nat) : State :=
  if (s.ch n).comp.trip && s.clampLatch n then s.updCh n fun c => { c with comp := { c.comp with relKey := true } } else s

/-- The clamp at a base tick: zero readings (R489), a refused key (R490), and a driven clamp that meets an output of 1, on entry
(R488) or because the comparator has just become one of the clamp's (R487). -/
def State.clampStep (s : State) (n : Nat) (own : Bool) : State :=
  let c := s.ch n
  let z := s.clampClear n
  let refuse := own && c.comp.relKey && c.comp.trip
  let live := if own then c.clampLive else c.comp.driven
  let zero := if z && c.comp.trip then c.comp.zero + 1 else 0
  let met := c.comp.trip && !s.clampLatch n && (c.comp.met || (z && decide (s.clampHold n ≤ zero)))
  let comp := { c.comp with zero := zero, met := met, driven := live, relKey := c.comp.relKey && !own }
  let s := if comp = c.comp then s else s.setCh n { c with comp := comp }
  let s := if refuse then s.flag (cmpOff n cmpSts) 0x20 else s
  if live && !c.comp.trip && !z then s.trip n else s

/-! Thresholds. Inputs at the pin are in microvolts. -/

/-- A CMP step runs on channel `n`, with its point: the search of TRIM, then the two of the gain check (R531). -/
def State.cmpCal (s : State) (n : Nat) : Option Nat :=
  let c := (s.tile (tileOf n)).cal
  if s.calOn n = true ∧ calKind c = 6 then some c.pt else none

/-- R463, R484: the threshold of comparator `k`: that of the clamp or of the monitor, or the CODE that a CMP step applies (R531),
with its trim tap as it stands. -/
def State.cmpThr (s : State) (n k : Nat) : Int :=
  let rel := if s.isClamp n k then (if k < 2 then cmpClthrv else cmpClthri) else if k < 2 then cmpVthr else cmpIthr
  let w := s.rg (cmpOff n rel)
  let code : Nat := match s.cmpCal n with
    | some p => if p = 1 then 1024 else if p = 2 then 3072 else 2048
    | none => if k % 2 = 0 then bitsOf w 11 0 else bitsOf w 27 16
  ((code : Int) - 2048) * 2000 + (s.ch n).trim.cmp.getD k 0 * 125

/-- R465: H of comparator `k`; none while a CMP step runs on the channel (R531). -/
def State.cmpHyst (s : State) (n k : Nat) : Int :=
  let w := s.rg (cmpOff n cmpCfg)
  if (s.cmpCal n).isSome then 0
  else match (if k < 2 then bitsOf w 9 8 else bitsOf w 11 10) with
  | 0 => 0
  | 1 => 4000
  | 2 => 8000
  | _ => 16000

/-- R462, R465: the output of comparator `k` for input `v`, where it was `old`. -/
def State.cmpJudge (s : State) (n k : Nat) (old : Bool) (v : Int) : Bool :=
  let t := s.cmpThr n k
  let h := s.cmpHyst n k
  if k % 2 = 1 then decide (t < v) || (old && decide (t - h ≤ v)) else decide (v < t) || (old && decide (v ≤ t + h))

/-- R487: a clamp comparator whose input is `v` trips the clamp before its edge is registered. -/
def State.clampTrip (s : State) (n k : Nat) (v : Int) : State :=
  if s.cmpRuns n k && s.isClamp n k && s.cmpJudge n k (bitOf (s.ch n).comp.raw k) v then s.clampHit n k else s

/-! Edges. -/

/-- An output of comparator `k` registered in cycle `cyc` of the present tick (R472, R475, R476, R484, R487). -/
def State.cmpOutput (s : State) (n k : Nat) (out : Bool) (cyc : Nat) : State :=
  let c := s.ch n
  if ¬ s.cmpRuns n k ∨ bitOf c.comp.out k = out then s
  else
    let s := s.setCh n { c with comp := { c.comp with out := putBit c.comp.out k out, raw := putBit c.comp.raw k out } }
    let s :=
      if s.cmpEn n k && edgeSel (bitsOf (s.rg (cmpOff n cmpEdge)) (2 * k + 1) (2 * k)) out then
        ((s.flag (cmpOff n cmpSts) (2 ^ k)).fireCh (10 + k) n cyc).wake n k
      else s
    let s := s.capTakes (s.timeAt (s.at_ cyc) - 40) (s.capWatch n k out)
    if s.isClamp n k && out then s.clampHit n k else s

/-- The output that comparator `k` takes for input `v`, its present one being the registered one (R465, R470). -/
def State.cmpNext (s : State) (n k : Nat) (v : Int) : Bool := s.cmpJudge n k (bitOf (s.ch n).comp.out k) v

/-- The cycle of the present tick that registers the end of the sampling window of channel `n`: the first after the 60 cycles
from its begin (R470, R472). -/
def State.smpEnd (s : State) (n : Nat) : Option Nat :=
  match (s.ch n).comp.smpAt with
  | some c => if s.at_ 0 ≤ c + 61 ∧ c + 61 ≤ s.at_ 49 then some (c + 61 - s.at_ 0) else none
  | none => none

/-- R470, R471: the window of a sampled comparator that ends in cycle `cyc` of the present tick ends on input `v`; in another cycle
no window ends. -/
def State.cmpWindow (s : State) (n k : Nat) (v : Int) (cyc : Nat) : State :=
  if s.smpEnd n = some cyc ∧ s.cmpSampled n k = true ∧ s.cmpEn n k = true then s.cmpOutput n k (s.cmpNext n k v) cyc else s

/-- R470: the window of the present tick is over, and the next begins one period after it began. -/
def State.smpStep (s : State) (n : Nat) : State :=
  let c := s.ch n
  match c.comp.smpAt with
  | some b =>
    if b + 61 ≤ s.at_ 49 then
      s.setCh n { c with comp := { c.comp with smpAt := some (b + 2000 * max 1 (bitsOf (s.rg (cmpOff n cmpSmp)) 16 0)) } }
    else s
  | none => s

/-- R469: the input of a continuous comparator has come to `v`. -/
def State.cmpContinuous (s : State) (n k : Nat) (v : Int) (cyc : Nat) : State :=
  if s.cmpSampled n k then s else s.cmpOutput n k (s.cmpNext n k v) cyc

/-- R468: comparators that a strobe or a commit switches off read 0. -/
def State.cmpGate (s : State) (n : Nat) : State :=
  let c := s.ch n
  let m := ((List.range 4).filter fun k => s.cmpRuns n k).foldl (fun a k => a + 2 ^ k) 0
  let o := c.comp.out &&& m
  let r := c.comp.raw &&& m
  if o = c.comp.out ∧ r = c.comp.raw then s else s.setCh n { c with comp := { c.comp with out := o, raw := r } }

/-- R473: TILEt_CMP_IRQ. -/
def State.cmpIrq (s : State) (t : Nat) : Nat :=
  (List.range 16).foldl (fun a i =>
    let n := 16 * t + i
    if bitsOf (s.rg (cmpOff n cmpSts)) 3 0 &&& bitsOf (s.rg (cmpOff n cmpEdge)) 11 8 ≠ 0 then a + 2 ^ i else a) 0

/-! Commands. -/

def execComparatorEdge (n : ChanId) (k : Fin 4) (v : Word) (cyc : Cycle) (s : State) : Res :=
  .next ((s.cmpContinuous n.val k.val v.toInt cyc.val).passed cyc.val)
def execCmpSampleWindow (n : ChanId) (k : Fin 4) (v : Word) (cyc : Cycle) (s : State) : Res :=
  .next (s.cmpWindow n.val k.val v.toInt cyc.val)
def execClampTrip (n : ChanId) (k : Fin 4) (v : Word) (s : State) : Res := .next (s.clampTrip n.val k.val v.toInt)
def execClampRelease (n : ChanId) (s : State) : Res := .next (s.clampRelease n.val)
def execClampReleaseKey (a : Acc) (n : ChanId) (s : State) : Res := s.viaGrd a (cmpOff n.val cmpClrel) 1 (·.clampKey n.val)

end Sys2Proof.Machine
end

