-- ==== Sys2Proof/Machine/Psc.lean ====
section
/-! DEFINITION. The precision scan converters: triggers, sequences, preemption, results and limits (R417 to R455). -/

namespace Sys2Proof.Machine

/-- The view offset of register `rel` of converter `m`. -/
def pscOff (m rel : Nat) : Nat := tileOff (m / 4) (0x1000 + 0x400 * (m % 4) + rel)

/-- A register of converter `m`. -/
def State.pr (s : State) (m rel : Nat) : Nat := s.rg (pscOff m rel)

/-- The tile of converter `m` works: neither fenced nor held in reset. -/
def State.tileUp (s : State) (t : Nat) : Bool := !s.isFenced (unTile t) && !bitOf s.held.toNat t && s.running

/-- Converter `m` is released and powered (R714). -/
def State.pscUp (s : State) (m : Nat) : Bool := s.tileUp (m / 4) && s.tileOn (m / 4)

/-- SEQ_EN = 1 is in force. -/
def Psc.seq (p : Psc) : Bool := decide (p.own = 1) && !p.off

/-- INJ_LEN in force. -/
def State.injLen (s : State) (m : Nat) : Nat := bitsOf (s.pr m pscCfg) 10 8

/-! Triggers (R433, R436). They are latched in a cycle and take effect at the first modulator edge after it. -/

/-- `e` is latched in absolute cycle `cyc`; what meets SEQ_EN = 0 or CALIBRATION is ignored. -/
def State.pscLatchAt (s : State) (m cyc : Nat) (e : PscEv) : State :=
  let p := s.psc m
  if p.seq ∧ s.pscUp m then s.setPsc m { p with q := insertAt (·.1) (cyc, e) p.q } else s

/-- R442: a regular trigger. -/
def State.pscLatch (s : State) (m cyc : Nat) : State := s.pscLatchAt m cyc .reg

/-- R430, R442: an injected trigger. -/
def State.pscInj (s : State) (m cyc : Nat) : State := if 0 < s.injLen m then s.pscLatchAt m cyc .inj else s

/-- R438: STOP. -/
def State.pscStopCmd (s : State) (m cyc : Nat) : State := s.pscLatchAt m cyc .stop

/-- Dropped triggers (R436). -/
def State.pscLost (s : State) (m k : Nat) : State :=
  if k = 0 then s else (s.flag (pscOff m pscFlags) 0x10).count (pscOff m pscTrigLost) k

/-- R443, R444: the timer expires at modulator edge `c`. -/
def State.pscExpire (s : State) (m c : Nat) : State :=
  let p := s.psc m
  let src := bitsOf (s.pr m pscTrig) 1 0
  let s := s.setPsc m { p with tmr := some (c + 32 * max 1 (s.pr m pscTmr)) }
  if ¬ (p.seq ∧ s.pscUp m) then s
  else if src = 1 then s.pscLatch m c
  else if src = 3 then (if p.gate then s.pscLost m 1 else s.setPsc m { s.psc m with gate := true })
  else s

/-- An edge with code `k` is the one that TRIG selects (R444). Only edges that an output has made are there to be heard (R446). -/
def State.pscHears (s : State) (m k : Nat) : Bool :=
  let w := s.pr m pscTrig
  decide (k = 4 * bitsOf w 5 2 + 2 * b2n (bitOf w 6) + b2n (bitOf w 7))

/-- R437: in absolute cycle `c` a pass runs or a trigger is pending, be it latched for the next modulator edge. -/
def Psc.busy (p : Psc) (c : Nat) : Bool :=
  decide (p.st = .regular) || p.ret.isSome || p.pend || p.q.any fun e => decide (e.2 = .reg) && decide (e.1 ≤ c)

/-- R437, R444, R445: a PWM edge in cycle `c`: it becomes a trigger DELAY cycles later, or is none. -/
def State.pscPwm (s : State) (m c k : Nat) : State :=
  let p := s.psc m
  let w := s.pr m pscTrig
  let src := bitsOf w 1 0
  let hit := (decide (src = 2) && !p.busy c) || (decide (src = 3) && p.gate)
  if p.seq ∧ s.pscUp m ∧ hit ∧ s.pscHears m k then
    s.setPsc m { p with gate := p.gate && decide (src ≠ 3), dly := insertAt id (c + bitsOf w 31 16) p.dly }
  else s

/-! Entries. -/

/-- R428: the cycles from one result to the next where the filter is not restarted. -/
def againCycles (ent : List Nat) : Nat := 32 * (bitsOf (ent.getD 0 0) 19 9 * bitsOf (ent.getD 1 0) 19 0)

/-- R427: the cycles of an entry after its SETTLE. -/
def entryCycles (ent : List Nat) : Nat :=
  32 * ((bitsOf (ent.getD 0 0) 8 6 + bitsOf (ent.getD 0 0) 19 9 - 1) * bitsOf (ent.getD 1 0) 19 0)

/-- R425, R427, R432: the entry of row `e` starts at modulator edge `c`. -/
def State.pscEntry (s : State) (m e c : Nat) (st : PscSt) : State :=
  let r := fun o => s.pr m (o + 16 * e)
  let p := s.psc m
  let ent := [r pscEntCfg, r pscEntDec, r pscEntLo, r pscEntHi]
  let set := bitsOf (s.pr m pscSettle) 7 0
  s.setPsc m { p with st := st, row := e, ent := ent, settled := decide (set = 0), flt := []
                      from_ := c, setAt := c + 32 * set, due := c + 32 * set + entryCycles ent }

/-- R431, R432: a regular pass starts at modulator edge `c`. -/
def State.pscPassBegin (s : State) (m c : Nat) : State :=
  let w := s.pr m pscCfg
  let p := s.psc m
  let s := s.setPsc m { p with pend := false, ret := none, startAt := none, cont := bitOf w 1, regLen := bitsOf w 7 2 }
  s.pscEntry m 0 c .regular

/-- The injected sequence starts at modulator edge `c`, with INJ_LEN as it stands there. -/
def State.pscInjStart (s : State) (m c : Nat) : State :=
  let p := s.psc m
  let s := s.setPsc m { p with injLen := s.injLen m }
  s.pscEntry m 32 c .injected

/-- The converter idles. -/
def State.pscIdle (s : State) (m : Nat) : State :=
  let p := s.psc m
  s.setPsc m { p with st := .idle, row := 0, settled := false, ret := none, startAt := none, cont := false, ent := [], flt := [] }

/-- What follows the running work when it ends at edge `c` (R436, R440): a pending trigger's pass starts at the edge after it, and
reads there what it reads at its start (R432). [DEDUCED, log 60] -/
def State.pscNext (s : State) (m c : Nat) : State :=
  let p := s.psc m
  if p.pend then s.setPsc m { p with st := .regular, row := 0, settled := false, ent := [], flt := [], startAt := some (s.modEdge c) }
  else s.pscIdle m

/-- A conversion runs. -/
def Psc.runs (p : Psc) : Bool := decide (p.st = .regular) || decide (p.st = .injected)

/-! A modulator edge. -/

/-- R439: SEQ_EN = 0 takes effect. -/
def State.pscOffEdge (s : State) (m : Nat) : State :=
  let p := s.psc m
  if p.off then s.setPsc m { edges := p.edges } else s

/-- R438: STOP takes effect. -/
def State.pscStopEdge (s : State) (m : Nat) : State :=
  let p := s.psc m
  let s := s.setPsc m { p with pend := false, ret := none }
  if p.st = .regular then s.pscIdle m else s

/-- R434, R436: `k` injected triggers take effect at modulator edge `c`; an entry that starts at that very edge has discarded
nothing, and a pass still to start stays pending. With INJ_LEN = 0 they are ignored (R430). -/
def State.pscInjEdge (s : State) (m c k : Nat) : State :=
  let p := s.psc m
  if k = 0 ∨ s.injLen m = 0 then s
  else if p.startAt.isSome then ((s.pscLost m (k - 1)).setPsc m { (s.pscLost m (k - 1)).psc m with startAt := none }).pscInjStart m c
  else if p.st = .injected then s.pscLost m k
  else
    let s := s.pscLost m (k - 1)
    let s := if p.st = .regular ∧ p.from_ < c then (s.flag (pscOff m pscFlags) 0x20).count (pscOff m pscPreempts) else s
    let s := s.setPsc m { s.psc m with ret := if p.st = .regular then some p.row else none }
    s.pscInjStart m c

/-- A CONT pass runs or stands interrupted (R431). -/
def Psc.contRuns (p : Psc) : Bool := p.cont && (decide (p.st = .regular) || p.ret.isSome)

/-- One regular trigger takes effect at modulator edge `c` (R436). -/
def State.pscRegOne (s : State) (m c : Nat) : State :=
  let p := s.psc m
  if p.contRuns then s
  else if p.pend then s.pscLost m 1
  else if p.st = .idle then s.pscPassBegin m c
  else s.setPsc m { p with pend := true }

/-- Several. -/
def State.pscRegEdge (s : State) (m c : Nat) : Nat → State
  | 0 => s
  | k + 1 => (s.pscRegOne m c).pscRegEdge m c k

/-- What was latched for modulator edge `c`, in order, with `i` injected and `g` regular triggers before it: at one edge the
injected ones come first (R436). -/
def State.pscEffects (s : State) (m c i g : Nat) : List PscEv → State
  | [] => (s.pscInjEdge m c i).pscRegEdge m c g
  | .inj :: r => s.pscEffects m c (i + 1) g r
  | .reg :: r => s.pscEffects m c i (g + 1) r
  | .stop :: r => (((s.pscInjEdge m c i).pscRegEdge m c g).pscStopEdge m).pscEffects m c 0 0 r
  | .off :: r => (((s.pscInjEdge m c i).pscRegEdge m c g).pscOffEdge m).pscEffects m c 0 0 r

/-- R433: modulator edge `c`. A tile that has gone to sleep meanwhile takes no trigger (R714), and one that meets SEQ_EN = 0 in force
is ignored (R436). -/
def State.pscEdge (s : State) (m c : Nat) : State :=
  let s := if (s.psc m).startAt = some c then (if s.pscUp m then s.pscPassBegin m c else s.pscIdle m) else s
  let p := s.psc m
  let now := fun (e : Nat × PscEv) => decide (e.1 < c)
  let l := (p.q.filter now).map (·.2)
  (s.setPsc m { p with q := p.q.filter fun e => !now e }).pscEffects m c 0 0 (if s.pscUp m ∧ p.off = false then l else l.filter fun e => e = .off)

/-! Results. -/

/-- The sums of `d` neighbours of a list. -/
def movSum (d : Nat) (l : List Int) : List Int :=
  let ps := l.foldl (fun (a : List Int × Int) x => ((a.2 + x) :: a.1, a.2 + x)) ([0], 0)
  let p := ps.1.reverse
  (p.drop d).zipWith (fun a b => a - b) p

/-- `f` applied `k` times. -/
def iter {α : Type} (f : α → α) : Nat → α → α
  | 0, x => x
  | k + 1, x => iter f k (f x)

/-- R423, R425, R426: the mean of the `a` valid outputs of a sinc filter of order `k` and decimation `d` on the modulator's samples:
the `k`-th output is the first valid one, each is the `k`-fold moving sum over `d` samples by `d ^ k`, and the mean is rounded half
to even. -/
def sincMean (k d a : Nat) (l : List Int) : Int :=
  let w := iter (movSum d) k l
  rne ((List.range a).map fun j => w.getD (j * d + (k - 1)) 0).sum (a * d ^ k)

/-- The input class of a code (R419, R519). -/
def inpClass (c : Nat) : Nat :=
  if c < 16 then 0 else if c < 32 then 1 else if c < 40 then 2 else if c < 44 then 3 else if c < 48 then 4 else 2

/-- R421, R422: a filter value as a result; `ovr` tells an overload and whether it is upward. -/
def State.pscValue (s : State) (m inp : Nat) (x : Int) (ovr : Option Bool) : Int :=
  match ovr with
  | some up => if up then max32 else -max32
  | none => sat32 (correct (s.calOf (2048 + 8 * m + inpClass inp)) (sat32 x))

/-- R449: the limit check of a regular entry. -/
def State.pscLimit (s : State) (m e : Nat) (v : Int) (ent : List Nat) (cyc : Nat) : State :=
  let w := ent.getD 0 0
  let lim := s.pr m pscLimsts
  if ¬ bitOf w 20 then s
  else if v < sgn32 (ent.getD 2 0) ∨ v > sgn32 (ent.getD 3 0) then
    let s := (s.setRg (pscOff m pscLimsts) (putBit lim e true)).flag (pscOff m pscFlags) 4
    let s := s.fireAt 23 m cyc none
    let cls := bitsOf w 22 21
    s.report (frTile (m / 4)) [(ftPscLimit (m % 4), if cls = 0 then clsSupply else if cls = 1 then clsAnalog else clsThermal)]
  else s.setRg (pscOff m pscLimsts) (putBit lim e false)

/-- R448: a pass or an injected sequence ends with the result written in cycle `cyc`. -/
def State.pscDone (s : State) (m mask cnt cyc : Nat) : State :=
  let s := (s.flag (pscOff m pscFlags) mask).countWrap (pscOff m cnt)
  let t := timeBits (s.timeAt cyc)
  let s := (s.setRg (pscOff m pscTime) (t % 4294967296)).setRg (pscOff m (pscTime + 4)) (t / 4294967296)
  s.fireAt 22 m (cyc + 1) none

/-- R428: the next pass of a CONT sequence of one entry goes on without a restart: its filter keeps `flt`. -/
def State.pscGoOn (s : State) (m c : Nat) (flt : List Int) : State :=
  let p := s.psc m
  s.setPsc m { p with settled := true, from_ := c, setAt := c, due := c + againCycles p.ent, flt := flt }

/-- Two entries ask for the same input, sinc order, averaging and decimation. -/
def sameFilter (a b : List Nat) : Bool :=
  decide (bitsOf (a.getD 0 0) 19 0 = bitsOf (b.getD 0 0) 19 0) && decide (a.getD 1 0 = b.getD 1 0)

/-- R428, R430, R431, R434, R440: what a converter does after the result of its entry, written at edge `c`; `flt`: the samples that
its filter holds. -/
def State.pscAdvance (s : State) (m c : Nat) (flt : List Int) : State :=
  let p := s.psc m
  if p.st = .injected then
    if p.row + 1 < 32 + p.injLen then s.pscEntry m (p.row + 1) c .injected
    else
      let s := s.pscDone m 2 pscInjPass c
      match p.ret with
      | some e => (s.setPsc m { p with ret := none }).pscEntry m e c .regular
      | none => s.pscNext m c
  else if p.row + 1 < p.regLen then s.pscEntry m (p.row + 1) c .regular
  else
    let s := s.pscDone m 1 pscPass c
    if p.cont then
      let s := s.pscPassBegin m c
      let q := s.psc m
      if p.regLen = 1 ∧ q.regLen = 1 ∧ q.cont = true ∧ sameFilter p.ent q.ent = true then s.pscGoOn m c flt else s
    else s.pscNext m c

/-- What the command tells of a result: the modulator's samples since the last one, and an overload. -/
abbrev PscData := List Int × Option Bool

/-- The value of the running entry and what its filter holds after it. Where no command has told its samples, the value is free.
[DESIGN CHOICE, log 105] -/
def State.pscOutput (s : State) (m : Nat) (x : Option PscData) : Int × List Int × Option Bool :=
  let p := s.psc m
  let w := p.ent.getD 0 0
  let k := bitsOf w 8 6
  let a := bitsOf w 19 9
  let d := bitsOf (p.ent.getD 1 0) 19 0
  let free := (Config.pscSample m p.due).toInt
  match x with
  | some (l, ovr) =>
    let l := p.flt ++ l
    if l.length = (k + a - 1) * d then (sincMean k d a l, l.drop (a * d), ovr) else (free, [], ovr)
  | none => (free, [], none)

/-- R448: the result of the running entry. -/
def State.pscResult (s : State) (m : Nat) (x : Option PscData) : State :=
  let p := s.psc m
  if ¬ (s.pscUp m ∧ p.runs) then s
  else
    let (y, flt, ovr) := s.pscOutput m x
    let v := s.pscValue m (bitsOf (p.ent.getD 0 0) 5 0) y ovr
    let s := s.setRg (pscOff m (pscRes + 4 * p.row)) (word32 v).toNat
    let s := if ovr.isSome then s.flag (pscOff m pscFlags) 8 else s
    let s := if p.st = .regular then s.pscLimit m p.row v p.ent p.due else s
    if s.pscUp m then s.pscAdvance m p.due flt else s

/-! The course of a converter. What happens next: the running entry's result, the end of its SETTLE, the start of a pending pass and
what was latched for a modulator edge, a PWM edge, the end of a DELAY, the expiry of the timer, in this order where they fall on one cycle. -/

/-- The cycle of the next happening of each kind. -/
def State.pscWhen (s : State) (m kind : Nat) : Option Nat :=
  let p := s.psc m
  match kind with
  | 0 => if p.runs && p.startAt.isNone && s.pscUp m then some p.due else none
  | 1 => if p.runs && p.startAt.isNone && !p.settled then some p.setAt else none
  | 2 => match p.startAt, p.q.head? with
    | some t, some e => some (min t (s.modEdge e.1))
    | some t, none => some t
    | none, q => q.map fun e => s.modEdge e.1
  | 3 => p.edges.head?.map (·.1)
  | 4 => p.dly.head?
  | 5 => p.tmr
  | _ => none

/-- The earliest happening before the one of `kind` in cycle `c`. -/
def State.pscFirst (s : State) (m c kind : Nat) : Option (Nat × Nat) :=
  (List.range 6).foldl (fun b i => match s.pscWhen m i with
    | none => b
    | some t =>
      if ¬ (t < c ∨ (t = c ∧ i < kind)) then b
      else match b with
        | some (u, _) => if t < u then some (t, i) else b
        | none => some (t, i)) none

/-- The happening of `kind`, in cycle `c`; `x`: what a command tells of a result. -/
def State.pscDo (s : State) (m c kind : Nat) (x : Option PscData) : State :=
  let p := s.psc m
  match kind with
  | 0 => s.pscResult m x
  | 1 => s.setPsc m { p with settled := true }
  | 2 => s.pscEdge m c
  | 3 => (s.setPsc m { p with edges := p.edges.tail }).pscPwm m c ((p.edges.head?.map (·.2)).getD 0)
  | 4 => (s.setPsc m { p with dly := p.dly.tail }).pscLatch m c
  | _ => s.pscExpire m c

/-- All that happens before the happening of `kind` in cycle `c`; the first argument bounds its number. -/
def State.pscRun : Nat → State → Nat → Nat → Nat → State
  | 0, s, _, _, _ => s
  | f + 1, s, m, c, kind =>
    match s.pscFirst m c kind with
    | none => s
    | some (t, i) => State.pscRun f (s.pscDo m t i none) m c kind

/-- The happenings of one tick that a converter can have. -/
abbrev pscFuel : Nat := 4096

/-- Converters up to the end of absolute cycle `c`. -/
def State.pscsRun (s : State) (c : Nat) : List Nat → State
  | [] => s
  | m :: r => (State.pscRun pscFuel s m (c + 1) 0).pscsRun c r

/-- The happening of `kind` in cycle `c`, where the present tick reaches it and there is one, after those before it. -/
def State.pscHappenAt (s : State) (m kind c : Nat) (x : Option PscData) : State :=
  if s.at_ 49 < c then s
  else
    let s := State.pscRun pscFuel s m c kind
    if s.pscWhen m kind = some c then s.pscDo m c kind x else s

/-- The next happening of `kind`. -/
def State.pscHappen (s : State) (m kind : Nat) (x : Option PscData) : State :=
  match s.pscWhen m kind with
  | none => s
  | some c => s.pscHappenAt m kind c x

/-! Commands. -/

def execPscTimer (m : PscId) (s : State) : Res := .next (s.pscHappen m.val 5 none)
def execPscPwmEdge (m : PscId) (s : State) : Res :=
  .next ((s.pwmFalls (s.at_ 49) ((List.range 16).map (16 * (m.val / 4) + ·))).pscHappen m.val 3 none)
def execPscEdgeDelayEnd (m : PscId) (s : State) : Res := .next (s.pscHappen m.val 4 none)
def execPscSettleEnd (m : PscId) (s : State) : Res := .next (s.pscHappen m.val 1 none)
def execPscEntryResult (m : PscId) (l : List (BitVec 32)) (ovr : Option Bool) (cyc : Cycle) (s : State) : Res :=
  .next (s.pscHappenAt m.val 0 (s.at_ cyc.val) (some (l.map (·.toInt), ovr)))

end Sys2Proof.Machine
end

