-- ==== Sys2Proof/Machine/Calibrate.lean ====
section
/-! DEFINITION. Calibration and trim: the step engines, the fit and its checks, the commit, SELECT, and the coefficients of
each millisecond (R494 to R533, R864). -/

namespace Sys2Proof.Machine

/-! A step's parts. -/

/-- The range code, standard resistor and voltage range of a step. -/
def calRange (c : CalStep) : Nat := bitsOf c.step 11 8
def calVr (c : CalStep) : Nat := bitsOf c.step 17 16

/-- The register that holds the standard resistor of a step. -/
def State.calOhm (s : State) (c : CalStep) : Nat := s.rg (caldOff (calStdOhm + 4 * bitsOf c.step 15 14))

/-- The step uses a converter (R501). -/
def calUsesPsc (k : Nat) : Bool := decide (k ≠ 6) && decide (k ≠ 7)

/-- The first bus configuration of a kind (R497, R500). -/
def calBusOf (k : Nat) : Nat := if k = 0 ∨ k = 8 then 1 else if k = 2 then 3 else if k = 3 then 4 else 0

/-- The points of a step (R504, R530): VSTD measures the standard, the short, the buried reference and the Pip (R500), CMP searches
TRIM and checks the gain at two codes (R531), and each level of TAPS measures the voltage tap, the current tap and input 48. -/
def calNpts (c : CalStep) : Nat :=
  let k := calKind c
  if k = 0 then 4 else if k = 2 ∨ k = 3 then (if bitOf c.cfg 27 then 5 else 3) else if k = 5 then 72
  else if k = 6 then 3 else if k = 7 ∨ k = 8 then 1
  else if k = 1 then 3 * max 1 (Config.calPoints k) else max 1 (Config.calPoints k)

/-- The objects that a step of tile `t` calibrates, trim records as 2,560 + n (R500, R519). -/
def calObjs (t : Nat) (c : CalStep) : List Nat :=
  let n := calCh t c
  let b := 2048 + 8 * calPsc t c
  match calKind c with
  | 0 => [b + 2]
  | 1 => [b, b + 1]
  | 2 => [32 * n + 12 + calRange c % 4]
  | 3 => [32 * n + calRange c]
  | 4 => (List.range 16).map (32 * n + 16 + ·)
  | 5 => [2560 + n]
  | 6 => [2560 + n]
  | 7 => [2560 + n]
  | _ => []

/-- A step of its tile runs on object `j`. -/
def State.calRuns (s : State) (j : Nat) : Bool :=
  let t := objTile j
  let c := (s.tile t).cal
  decide (c.st ≠ .idle) && (calObjs t c).contains j

/-! GO. -/

/-- R454: converter `m` belongs to user sequences, or a strobe accepted claims it. -/
def State.pscTaken (s : State) (m : Nat) : Bool := decide ((s.psc m).own = 1) || bitOf (s.accepted (pscOff m pscCfg)) 0

/-- A value of CAL_CFG or CAL_TIME that is rejected (R535). -/
def calBadCfg (c : CalStep) : Bool :=
  decide (bitsOf c.cfg 19 0 < 16) || decide (bitsOf c.cfg 22 20 = 0) || decide (5 < bitsOf c.cfg 22 20) ||
    decide (bitsOf c.cfg 26 23 < 2) || decide (bitsOf c.time 15 0 = 0) || decide (bitsOf c.time 31 16 = 0)

/-- R62, R502: the step names a range that is not implemented. -/
def State.calBadRange (s : State) (t : Nat) (c : CalStep) : Bool :=
  let n := calCh t c
  if calKind c = 2 then !s.vImpl n (calRange c % 4)
  else if calKind c = 3 then !s.iImpl n (calRange c) || !s.vImpl n (calVr c) else false

/-- R495, R502: a standard that the step needs is not valid. -/
def State.calBadRef (s : State) (t : Nat) (c : CalStep) : Bool :=
  let k := calKind c
  if k = 0 ∨ k = 8 then
    let v := s.rg (caldOff calStdV)
    !(f32le 0x3F800000 v && f32le v 0x4083126F)
  else if k = 3 then
    let r := s.calOhm c
    !(f32le 0x3F800000 r && f32le r 0x4B189680) ||
      decide (9 * f32v (s.ifs (calCh t c) (calRange c)) * f32v r < 2 ^ 298)
  else false

/-- R500: the condition of the channel or the tile. -/
def State.calBadState (s : State) (t : Nat) (c : CalStep) : Bool :=
  let k := calKind c
  (decide (1 ≤ k) && decide (k ≤ 7) && decide ((s.ch (calCh t c)).state ≠ .service)) ||
    (decide (k = 8) && (tileChans t).any fun n => decide ((s.ch n).state ≠ .off) && decide ((s.ch n).state ≠ .service))

/-- R502: the reason for which a GO is refused; 0 for none. `both`: GO and ABORT in one write. -/
def State.calRefusal (s : State) (t : Nat) (c : CalStep) (both : Bool) : Nat :=
  let k := calKind c
  if calUsesPsc k ∧ k ≤ 8 ∧ s.pscTaken (calPsc t c) then 32
  else if s.calBadState t c then 33
  else if (s.tile t).cal.st ≠ .idle then 34
  else if both ∨ 9 ≤ k ∨ calBadCfg c ∨ s.calBadRange t c then 35
  else if s.calBadRef t c then 36
  else 0

/-- The registers of the standards that a step uses (R495). -/
def calStds (c : CalStep) : List Nat :=
  if calKind c = 0 ∨ calKind c = 8 then [caldOff calStdV]
  else if calKind c = 3 then [caldOff (calStdOhm + 4 * bitsOf c.step 15 14)] else []

/-- Replace the step of tile `t`. -/
def State.setCal (s : State) (t : Nat) (c : CalStep) : State := s.setTile t { s.tile t with cal := c }

/-- R496: a bus configuration is asked for. -/
def State.calAskBus (s : State) (t cfg : Nat) : State :=
  let s := s.setCal t { (s.tile t).cal with st := .bus, bus := cfg, from_ := s.tick }
  s.fireAt 24 t (s.at_ s.wcyc) none

/-- R504: the drive of point `i` in codes of the voltage range. -/
def State.calDrive (s : State) (t : Nat) (c : CalStep) : Int :=
  let n := calCh t c
  let k : Int := if bitOf c.cfg 27 then (c.pt : Int) - 2 else 2 * ((c.pt : Int) - 1)
  let unit : Int := 2 ^ 149
  if calKind c = 2 then
    let fs := f32v (s.vfs n (calRange c % 4))
    rne (k * min (9 * fs) (40 * unit) * 1073741824) (20 * fs)
  else
    let p := min (9 * f32v (s.ifs n (calRange c)) * f32v (s.calOhm c)) (40 * unit * unit)
    rne (k * p * 1073741824) (20 * f32v (s.vfs n (calVr c)) * unit)

/-- R499, R503: calibration drives the stage of a VRANGE or IRANGE step for its present point. -/
def State.calPins (s : State) (t : Nat) : State :=
  let c := (s.tile t).cal
  let k := calKind c
  if k ≠ 2 ∧ k ≠ 3 then s
  else
    let u := s.calDrive t c
    let r0 := (Config.calOpen 2 0 [] % 13).toNat
    let rp := if k = 3 then calRange c else if r0 = 12 then 15 else r0
    let rv := if k = 3 then calVr c else calRange c % 4
    s.updCh (calCh t c) fun h => { h with outEn := true, rngP := rp, vrngP := rv, law := { h.law with code := fdacCode u 0 } }

/-- R456, R500, R531: the Pip output of tile `t` in units of 125 µV: CODE in force, or what the running step drives: for CMP 0 V, −2.048 V
and +2.048 V in turn, for TAPS and IBPATH levels that the spec does not give. [DESIGN CHOICE, log 27] -/
def State.pipOut (s : State) (t : Nat) : Int :=
  let c := (s.tile t).cal
  let k := calKind c
  if c.st = .measure ∧ k = 6 then (if c.pt = 0 then 0 else if c.pt = 1 then -16384 else 16384)
  else if c.st = .measure ∧ (k = 1 ∨ k = 4) then max (-32767) (min 32767 (Config.calOpen k 200 [List.replicate c.pt (0, 0)]))
  else
    let w := bitsOf (s.rg (tileOff t tilePipCode)) 15 0
    if w < 32768 then (w : Int) else (w : Int) - 65536

/-- R503: MEASURE begins, or goes on with its present point. -/
def State.calMeasure (s : State) (t : Nat) : State :=
  (s.setCal t { (s.tile t).cal with st := .measure, settled := false, rd := [], flt := [], from_ := s.tick }).calPins t

/-- R500 to R503: GO. -/
def State.calGoCmd (s : State) (t : Nat) (both : Bool) : State :=
  let c : CalStep := { step := s.rg (calOff t calStep), cfg := s.rg (calOff t calCfg), time := s.rg (calOff t calTime) }
  let why := s.calRefusal t c both
  let k := calKind c
  let begun :=
    if why ≠ 0 then (s.calWhy t why).flag (calOff t calFlags) 8
    else
      let s := if calUsesPsc k then s.setPsc (calPsc t c) { st := .cal, own := 2 } else s
      let s := s.setCal t c
      if calBusOf k = 0 then s.calMeasure t else s.calAskBus t (calBusOf k)
  begun.votes (if why ≠ 0 ∧ why ≠ 36 then [] else calStds c)

/-- R503: BUS_ACK. -/
def State.calAck (s : State) (t : Nat) : State := if (s.tile t).cal.st = .bus then s.calMeasure t else s

/-- R508: ABORT. -/
def State.calAbortCmd (s : State) (t : Nat) : State := (s.calAbandon t none).settleFaults

/-- A step ends rejected, and its fault reports. -/
def State.calFail (s : State) (t why : Nat) : State := (s.calReject t why).settleFaults

/-- R498: BUS_TO ms have passed since BUS_REQ. -/
def State.calTimeout (s : State) (t : Nat) : State :=
  let c := (s.tile t).cal
  if c.st = .bus ∧ c.from_ + 4000 * bitsOf c.time 31 16 ≤ s.tick then s.calFail t 7 else s

/-- The sinc order and decimation of a step's readings (R505). -/
def calK (c : CalStep) : Nat := bitsOf c.cfg 22 20
def calD (c : CalStep) : Nat := bitsOf c.cfg 19 0

/-- R505: SETTLE ms of the point have passed: the converter converts, its first reading after K times D modulator cycles. -/
def State.calSettled (s : State) (t : Nat) : State :=
  let c := (s.tile t).cal
  if c.st = .measure ∧ c.settled = false ∧ c.from_ + 4000 * bitsOf c.time 15 0 ≤ s.tick then
    s.setCal t { c with settled := true, due := s.modEdge (s.at_ 0) + (if calUsesPsc (calKind c) then 32 * (calK c * calD c) else 0) }
  else s

/-- The waits of a step that end by the end of the present tick (R498, R505). -/
def State.calWaits (s : State) (t : Nat) : State := (s.calTimeout t).calSettled t

/-! The fit. -/

/-- The integer square root of `n`, by Newton's method from above. -/
def isqrtFrom (n : Nat) : Nat → Nat → Nat
  | 0, x => x
  | k + 1, x => let y := (x + n / x) / 2; if x ≤ y then x else isqrtFrom n k y

/-- ⌊√n⌋. -/
def isqrt (n : Nat) : Nat := if n = 0 then 0 else isqrtFrom n (Nat.log2 n + 8) (2 ^ (Nat.log2 n / 2 + 1))

/-- A determinant of order 3 by columns. -/
def det3 (a b c d e f g h i : Int) : Int := a * (e * i - f * h) - b * (d * i - f * g) + c * (d * h - e * g)

/-- The least-squares quadratic through integer points (X, Y) (R506): the determinant and the numerators of its constant,
linear and quadratic coefficient. -/
def lsq (ps : List (Int × Int)) : Int × Int × Int × Int :=
  let sm := fun (f : Int × Int → Int) => (ps.map f).foldl (· + ·) 0
  let s0 := sm fun _ => 1
  let s1 := sm (·.1)
  let s2 := sm fun p => p.1 ^ 2
  let s3 := sm fun p => p.1 ^ 3
  let s4 := sm fun p => p.1 ^ 4
  let t0 := sm (·.2)
  let t1 := sm fun p => p.1 * p.2
  let t2 := sm fun p => p.1 ^ 2 * p.2
  (det3 s0 s1 s2 s1 s2 s3 s2 s3 s4, det3 t0 s1 s2 t1 s2 s3 t2 s3 s4, det3 s0 t0 s2 s1 t1 s3 s2 t2 s4,
    det3 s0 s1 t0 s1 s2 t1 s2 s3 t2)

/-- R506: G, O and Q of points (X / N, Y), or none where the quadratic has no root or the points determine none. At a double root
the slope is 0; a quadratic that is 0 everywhere has its root nearest zero at 0. -/
def quadFit (n : Nat) (ps : List (Int × Int)) : Option (Int × Int × Int) :=
  let (d0, a0, b0, c0) := lsq ps
  let sg : Int := if d0 < 0 then -1 else 1
  let (d, a, b, c) := (sg * d0, sg * a0, sg * b0, sg * c0)
  let disc := b * b - 4 * a * c
  let q := rne (c * (n : Int) * (n : Int) * 1152921504606846976) d
  if d = 0 ∨ disc < 0 ∨ (b = 0 ∧ c = 0 ∧ a ≠ 0) then none
  else if disc = 0 then
    some (0, if c = 0 then 0 else if 0 < c then rne (-b) (2 * c * (n : Int)) else rne b (-2 * c * (n : Int)), q)
  else
    let k : Int := 2 ^ 64
    let r : Int := (isqrt (disc * k * k).toNat : Int)
    let sb : Int := if b < 0 then -1 else 1
    let den := b * k + sb * r
    let o := if den < 0 then rne (2 * a * k) ((n : Int) * -den) else rne (-2 * a * k) ((n : Int) * den)
    let g := rne (1073741824 * (n : Int) * sb * r) (d * k)
    some (g, o, q)

/-- Sums of the readings of a point. -/
def sumPsc (rd : List (Int × Int)) : Int := (rd.map (·.1)).foldl (· + ·) 0
def sumFast (rd : List (Int × Int)) : Int := (rd.map (·.2)).foldl (· + ·) 0

/-- The factor that turns a converter result of a VRANGE or IRANGE step into a code of the range, as a fraction (R65, R505):
±2^31 are ±4.096 V. -/
def State.calTrace (s : State) (t : Nat) (c : CalStep) : Int × Int :=
  let n := calCh t c
  let unit : Int := 2 ^ 149
  if calKind c = 3 then (256 * unit * unit, 125 * f32v (s.calOhm c) * f32v (s.ifs n (calRange c)))
  else if calKind c = 2 then (256 * unit, 125 * f32v (s.vfs n (calRange c % 4)))
  else (1, 1)

/-- R506: the sum of squared deviations of the single readings from their point means, times NREP² of each point, in units of
a converter code, and the number of readings. -/
def devSum (pts : List (List (Int × Int))) : Int × Nat :=
  pts.foldl (fun (a : Int × Nat) rd =>
    let k : Int := (rd.length : Int)
    let m := sumPsc rd
    ((rd.map fun p => (k * p.1 - m) ^ 2).foldl (· + ·) a.1, a.2 + rd.length)) (0, 0)

/-- What a step finds of one object: its coefficients, the greatest change, and the squared noise as a fraction, in codes of
2^30 (R506, R517). -/
structure Fit where
  obj  : Nat
  g    : Int
  o    : Int
  q    : Int
  chg  : Int
  nnum : Int
  nden : Int
deriving DecidableEq, Repr

/-- R517: the greatest change of the corrected value over −2^30, 0 and +2^30. -/
def changeOf (a b : CalCoef) : Int :=
  [-1073741824, 0, 1073741824].foldl (fun m x => max m (((correct a x - correct b x).natAbs : Int))) 0

/-- VSTD (R495, R500, R509): the correction that reads 0 V on the short and CAL_STD_V on the standard, ±2^31 being ±4.096 V. Two points
leave Q open. -/
def State.stdFit (s : State) (nrep : Nat) (pts : List (List (Int × Int))) (q : Int) : Option (Int × Int × Int) :=
  let short := sumPsc (pts.getD 1 [])
  let d := sumPsc (pts.getD 0 []) - short
  let k : Int := (nrep : Int)
  let sg : Int := if d < 0 then -1 else 1
  let y := f32v (s.rg (caldOff calStdV)) * 524288000
  let unit : Int := 2 ^ 149
  if d = 0 ∨ nrep = 0 then none
  else some (rne (sg * (y * 1152921504606846976 * k * k - q * d * d * unit)) (sg * d * k * 1073741824 * unit), rne short k, q)

/-- The points of a fit (R506): x, the sum of its raw readings, and y, the mean of what the readings trace. TAPS fits the result of each
tap to that of input 48, and IBPATH the fast converter's average to it. [DESIGN CHOICE, log 27] -/
def State.fitPts (s : State) (t : Nat) (c : CalStep) (i : Nat) : List (Int × Int) :=
  let nrep : Int := (bitsOf c.cfg 26 23 : Nat)
  let (num, den) := s.calTrace t c
  if calKind c = 1 then (List.range (c.pts.length / 3)).map fun j =>
    (sumPsc (c.pts.getD (3 * j + i) []), rne (sumPsc (c.pts.getD (3 * j + 2) [])) nrep)
  else c.pts.map fun rd => (sumFast rd, rne (sumPsc rd * num) (nrep * den))

/-- The fit of a step's points for its object `j`, the `i`-th of the step. -/
def State.calFit (s : State) (t : Nat) (c : CalStep) (i j : Nat) : Fit :=
  let k := calKind c
  let nrep := bitsOf c.cfg 26 23
  let (num, den) := s.calTrace t c
  let opn : Int × Int × Int := (Config.calOpen k (3 * i) c.pts, Config.calOpen k (3 * i + 1) c.pts, Config.calOpen k (3 * i + 2) c.pts)
  let (g, o, q) := ((if k = 0 then s.stdFit nrep c.pts opn.2.2 else quadFit nrep (s.fitPts t c i))).getD opn
  let old := interp (s.tempNow t) (s.calPts (s.objUse j))
  let (dev, cnt) := devSum (if k = 0 then c.pts.take 2 else c.pts)
  { obj := j, g := g, o := o, q := q, chg := changeOf { g := g, o := o, q := q } old
    nnum := dev * num * num, nden := ((cnt * nrep * nrep : Nat) : Int) * den * den }

/-- R517: the first check that a fit fails; 0 for none. -/
def State.fitReason (s : State) (f : Fit) (ecc : Bool) : Nat :=
  let lim := s.rg (caldOff calLimits)
  let nl : Int := (bitsOf lim 31 16 : Nat)
  if 5368709 < (f.g - 1073741824).natAbs then 1
  else if 1073742 < f.o.natAbs then 2
  else if 536871 < f.q.natAbs then 3
  else if ecc ∨ s.ue (s.objUse f.obj) 512 then 11
  else if f.chg * 1000000 > (bitsOf lim 15 0 : Int) * 1073741824 then 4
  else if f.nnum * 100000000000000 > nl * nl * 1152921504606846976 * f.nden then 5
  else 0

/-- CHG in ppm as F32. -/
def chgWord (f : Fit) : Word := f32of (f.chg * 1000000 * 2 ^ 149) 1073741824

/-- NOISE in ppm as F32. -/
def noiseWord (f : Fit) : Word :=
  if f.nden ≤ 0 then 0
  else f32of ((isqrt (f.nnum * 1000000000000 * 2 ^ 598 / (f.nden * 1152921504606846976)).toNat : Int)) (2 ^ 150)

/-- The results of the last fit (R518). -/
def State.fitRegs (s : State) (t : Nat) (f : Fit) : State :=
  let s := s.setRg (calOff t calGain) (word32 (sat32 f.g)).toNat
  let s := s.setRg (calOff t calOffs) (word32 (sat32 f.o)).toNat
  let s := s.setRg (calOff t calSec) (word32 (sat32 f.q)).toNat
  (s.setRg (calOff t calChg) (chgWord f).toNat).setRg (calOff t calNoise) (noiseWord f).toNat

/-! The new copy (R516, R520, R522). -/

/-- The index of the point nearest to `t`. -/
def nearest (t : Int) : List CalPt → Nat → Nat → Nat → Nat
  | [], _, best, _ => best
  | p :: r, i, best, d =>
    let e := (p.temp - t).natAbs
    if i = 0 ∨ e < d then nearest t r (i + 1) i e else nearest t r (i + 1) best d

/-- A point among others in ascending order of temperature, with its index. -/
def insertPt (p : CalPt) : List CalPt → List CalPt × Nat
  | [] => ([p], 0)
  | q :: r => if p.temp < q.temp then (p :: q :: r, 0) else let (l, i) := insertPt p r; (q :: l, i + 1)

/-- R516: a new point merged into the points held, and its index. -/
def mergePt (p : CalPt) (ps : List CalPt) : List CalPt × Nat :=
  let i := nearest p.temp ps 0 0 0
  let near : Bool := match ps[i]? with
    | some q => decide ((q.temp - p.temp).natAbs ≤ 163840)
    | none => false
  if near ∨ 8 ≤ ps.length then insertPt p (ps.eraseIdx i) else insertPt p ps

/-- The least multiple of 4,000 before whose 100th tick a commit is registered (R522). -/
def State.commitTick (s : State) : Nat := ((s.tick + 101 + 3999) / 4000) * 4000

/-- The bytes of a point. -/
def ptBytes (t g o q : Int) (noise : Word) (time : Int) : List Byte :=
  leBytes 4 (word32 t).toNat ++ leBytes 4 (word32 g).toNat ++ leBytes 4 (word32 o).toNat ++ leBytes 4 (word32 q).toNat
    ++ leBytes 4 noise.toNat ++ leBytes 8 (timeBits time) ++ leBytes 4 0

/-- A copy of an object: header, points, zeros, CRC (R520). -/
def copyBytes (cnt : Nat) (time : Int) (ps : List CalPt) : List Byte :=
  let h := leBytes 4 ps.length ++ leBytes 4 cnt ++ leBytes 8 (timeBits time) ++ leBytes 16 0
  let b := h ++ ps.flatMap (·.raw)
  let b := b ++ List.replicate (508 - b.length) 0
  b ++ leBytes 4 (crc32c b).toNat

/-- R522: the new copy of an object, and the index of its point. -/
def State.writeCopy (s : State) (t : Nat) (f : Fit) (m : Nat) : State × Nat :=
  let use := s.objUse f.obj
  let temp := s.tempNow t
  let time := s.timeOf m
  let p : CalPt := { temp := temp, g := f.g, o := f.o, q := f.q, raw := ptBytes temp f.g f.o f.q (noiseWord f) time }
  let (ps, i) := mergePt p (s.calPts use)
  (s.store (s.objOther f.obj) (copyBytes ((s.w32 (use + 4) + 1) % 4294967296) time ps), i)

/-- The copies of all objects of a step; the index is that of the last. -/
def State.writeCopies (s : State) (t m : Nat) : List Fit → Nat → State × Nat
  | [], i => (s, i)
  | f :: r, _ => let (s, i) := s.writeCopy t f m; s.writeCopies t m r i

/-! Trims. -/

/-- R530: the cells in the order that keeps the running sum of deviations closest to zero; `ds` pairs cells and deviations. -/
def orderCells : Nat → Int → List (Nat × Int) → List Nat
  | 0, _, _ => []
  | _ + 1, _, [] => []
  | k + 1, acc, d :: ds =>
    let best := ds.foldl (fun b x => if (acc + x.2).natAbs < (acc + b.2).natAbs then x else b) d
    best.1 :: orderCells k (acc + best.2) ((d :: ds).filter (fun x => x.1 ≠ best.1))

/-- The cell whose deviation is greatest, dropped. -/
def dropCells : Nat → List (Nat × Int) → List (Nat × Int)
  | 0, l => l
  | _ + 1, [] => []
  | k + 1, d :: ds =>
    let worst := ds.foldl (fun b x => if b.2.natAbs < x.2.natAbs then x else b) d
    dropCells k ((d :: ds).filter fun x => x.1 ≠ worst.1)

/-- The 72 cells with 72 × deviation of their weight sums from the mean, and the sum of all. [DEDUCED, log 62] -/
def cellDevs (pts : List (List (Int × Int))) : List (Nat × Int) × Int :=
  let w := pts.map sumPsc
  let tot := w.foldl (· + ·) 0
  (w.zipIdx.map fun p => (p.2, 72 * p.1 - tot), tot)

/-- R517: more than 9 cells lie outside ±2 % of their mean. -/
def cellsBad (d : List (Nat × Int) × Int) : Bool :=
  decide (9 < (d.1.filter fun p => 50 * p.2.natAbs > d.2.natAbs).length)

/-- A trim record with bytes of it replaced and its CRC formed anew (R521); a word that cannot be written keeps its
content (R869). -/
def State.trimPut (s : State) (n off : Nat) (bs : List Byte) : State :=
  let s := (s.put (trimAddr n + off) bs).1
  (s.put (trimAddr n + 0xFC) (leBytes 4 (crc32c (s.bytes (trimAddr n) 0xFC)).toNat)).1

/-- R531: the tap of comparator `k` at which its output changes: the first point of CMP holds the four outputs for TRIM = −32 to +31
in turn. [DESIGN CHOICE, log 27] -/
def cmpFind (k : Nat) (pts : List (List (Int × Int))) : Option Int :=
  let out := fun i => bitOf (((pts.getD 0 []).getD i (0, 0)).1.toNat) k
  ((List.range 63).find? fun i => out i != out (i + 1)).map fun i => (i : Int) + 1 - 32

/-- R531: a gain error of the threshold DAC beyond ±0.5 %: the points at CODE 1,024 and 3,072 hold the comparators' errors in ppm. -/
def cmpGainBad (pts : List (List (Int × Int))) : Bool := (pts.drop 1).any fun rd => rd.any fun p => decide (5000 < p.1.natAbs)

/-- R532: the delay taps that bring the sampling instants to that of the latest converter, and the instants in ps that they give.
DELAY reads the three instants on the ramp at the taps `now`. [DESIGN CHOICE, log 27] -/
def delayFind (now : List Nat) (pts : List (List (Int × Int))) : List (Int × Int) :=
  let at0 : List Int := (pts.getD 0 []).zipIdx.map fun p => p.1.1 - 125 * (now.getD p.2 0 : Int)
  let top := at0.foldl max (at0.headD 0)
  at0.map fun x => let d := max 0 (min 63 (rne (top - x) 125)); (d, x + 125 * d - top)

/-- R532: the instants agree within ±1 ns. -/
def delayOk (l : List (Int × Int)) : Bool := decide (l.length = 3) && l.all fun p => decide (p.2.natAbs ≤ 1000)

/-- R533: the tap at which the buried reference reads 4.096 V within one tap of 10 µV, where there is one: a raw reading of CAL_V
against it is 2^31 times CAL_V by the reference. -/
def State.retrimTap (s : State) (t : Nat) (c : CalStep) : Option Int :=
  let rd := c.pts.getD 0 []
  let r := sumPsc rd
  if r ≤ 0 then none
  else
    let unit : Int := 2 ^ 149
    let y := f32v (s.rg (caldOff calStdV)) * 214748364800000 * (rd.length : Int)
    let tap := (s.tile t).refTap + rne (409600 * r * unit - y) (r * unit)
    if -127 ≤ tap ∧ tap ≤ 127 then some tap else none

/-- The reason for which a step of trims fails; 0 for none (R517, R531 to R533). -/
def State.trimReason (s : State) (t : Nat) (c : CalStep) (ecc : Bool) : Nat :=
  let k := calKind c
  let why :=
    if k = 5 then (if cellsBad (cellDevs c.pts) then 9 else 0)
    else if k = 8 then (if (s.retrimTap t c).isNone then 10 else 0)
    else if k = 6 then
      (if cmpGainBad c.pts then 1 else if (List.range 4).any fun i => (cmpFind i c.pts).isNone then 10 else 0)
    else if delayOk (delayFind (s.ch (calCh t c)).trim.dly c.pts) then 0 else 10
  if why = 0 ∧ (ecc ∨ (k ≤ 7 ∧ s.ue (trimAddr (calCh t c)) 256)) then 11 else why

/-- The taps that CHECK finds (R531 to R533). -/
def State.calTaps (s : State) (t : Nat) (c : CalStep) : List Int :=
  match calKind c with
  | 6 => (List.range 4).map fun i => (cmpFind i c.pts).getD 0
  | 7 => (delayFind (s.ch (calCh t c)).trim.dly c.pts).map (·.1)
  | 8 => (s.retrimTap t c).toList
  | _ => []

/-- The record of accepted trims (R521, R530 to R532). -/
def State.trimWrite (s : State) (t : Nat) (c : CalStep) : State :=
  let n := calCh t c
  match calKind c with
  | 5 =>
    let cells := orderCells 63 0 (dropCells 9 (cellDevs c.pts).1)
    s.trimPut n 0 (cells.map (BitVec.ofNat 8))
  | 6 => s.trimPut n 0x44 (c.taps.map (BitVec.ofInt 8))
  | 7 => s.trimPut n 0x40 (c.taps.map (BitVec.ofInt 8))
  | _ => s

/-- R533: CAL_CHGt of a RETRIM: the change of the reference, as F32 ppm of 4.096 V. -/
def State.retrimChg (s : State) (t : Nat) (c : CalStep) : State :=
  match s.retrimTap t c with
  | some x => if calKind c = 8 then
      s.setRg (calOff t calChg) (f32of (((x - (s.tile t).refTap).natAbs : Int) * 625 * 2 ^ 149) 256).toNat else s
  | none => s

/-- The four comparator taps of a trim record as CMP_TRIMn holds them. -/
def State.trimCmpWord (s : State) (n : Nat) : Nat :=
  (List.range 4).foldl (fun a k => a + (s.byte (trimAddr n + 0x44 + k)).toNat % 64 * 256 ^ k) 0

/-- R523, R527: channel `n` takes the trims that `which` names from its record: 5 cells, 6 comparator taps, 7 delay taps.
[DEDUCED, log 63] -/
def State.trimLoad (s : State) (n : Nat) (which : List Nat) : State :=
  let s := if which.contains 6 then s.setRg (cmpOff n cmpTrim) (s.trimCmpWord n) else s
  let cells := (s.bytes (trimAddr n) 63).map (·.toNat)
  let d := (s.bytes (trimAddr n + 0x40) 3).map fun b => b.toNat % 64
  s.updCh n fun c => { c with trim := { c.trim with
    cells := if which.contains 5 then cells else c.trim.cells, dlyTo := if which.contains 7 then d else c.trim.dlyTo } }

/-- The tap of comparator `k` that CMP_TRIMn holds (R463, R493). -/
def cmpTap (w k : Nat) : Int :=
  let v := bitsOf w (8 * k + 5) (8 * k)
  if v < 32 then (v : Int) else (v : Int) - 64

/-- R864: at the first release of a tile its channels' comparators stand at the taps loaded. [DEDUCED, log 14] -/
def State.cmpSettle (s : State) (n : Nat) : State :=
  let w := s.rg (cmpOff n cmpTrim)
  s.updCh n fun c => { c with trim := { c.trim with cmp := (List.range 4).map (cmpTap w) } }

/-! The end of a step. -/

/-- R503: the checks passed: the commit is registered. -/
def State.calRegister (s : State) (t : Nat) (c : CalStep) (m slot : Nat) : State :=
  s.setCal t { c with st := .commit, m := m, slot := slot }

/-- CHECK (R503, R517). -/
def State.calCheck (s : State) (t : Nat) (ecc : Bool) : State :=
  let c := (s.tile t).cal
  let m := s.commitTick
  let s := if calKind c ≤ 4 then (calObjs t c).foldl (fun s j => s.unitRead (s.objUse j) 512) s
    else if calKind c ≤ 7 then s.unitRead (trimAddr (calCh t c)) 256 else s
  if 5 ≤ calKind c then
    let s := s.retrimChg t c
    let why := s.trimReason t c ecc
    if why ≠ 0 then s.calFail t why
    else s.calRegister t { c with taps := s.calTaps t c } m 0
  else
    let fits := (calObjs t c).zipIdx.map fun p => s.calFit t c p.2 p.1
    let s := match fits.getLast? with
      | some f => s.fitRegs t f
      | none => s
    match fits.find? fun f => s.fitReason f ecc ≠ 0 with
    | some f => (s.fitRegs t f).calFail t (s.fitReason f ecc)
    | none => let (s, i) := s.writeCopies t m fits 0; s.calRegister t c m i

/-- The points of a step go on: VSTD asks for the short after its standard (R500, R503). -/
def State.calNextPoint (s : State) (t : Nat) (ecc : Bool) : State :=
  let c := (s.tile t).cal
  (if c.pt < calNpts c then (if calKind c = 0 ∧ c.pt = 1 then s.calAskBus t 2 else s.calMeasure t)
  else s.calCheck t ecc).votes (calStds c)

/-- The class object that corrects the readings of VRANGE, IRANGE and IBPATH and those of input 48 in TAPS: the converter's aux class.
[DEDUCED, log 61] -/
def State.calReading (s : State) (t : Nat) (c : CalStep) (x : Int) : Int :=
  if (2 ≤ calKind c ∧ calKind c ≤ 4) ∨ (calKind c = 1 ∧ c.pt % 3 = 2) then sat32 (correct (s.calOf (2048 + 8 * calPsc t c + 2)) x) else x

/-- The mean of the fast converter's raw samples over a filter window, in codes of 2^12 a step, rounded half to even (R505).
[DEDUCED, log 61] -/
def fastMean (l : List Int) : Int := if l = [] then 0 else rne (4096 * l.sum) l.length

/-- R505: as many raw samples, one in each base tick, as the filter's window has; a step of VRANGE, IRANGE or IBPATH uses them.
[DEDUCED, log 61] -/
def fastFits (c : CalStep) (l : List Int) : Bool :=
  let k := calKind c
  !(decide (2 ≤ k) && decide (k ≤ 4)) || decide ((50 * (l.length : Int) - ((32 * (calK c * calD c) : Nat) : Int)).natAbs < 50)

/-- The readings of the present point with a new one. CMP and DELAY, which use no converter of the scan, have one for each point, which
holds what the step looks at there. -/
def State.calRds (s : State) (t : Nat) (c : CalStep) (psc fast : List Int) : List (Int × Int) :=
  if calUsesPsc (calKind c) then
    c.rd ++ [(s.calReading t c (sat32 (sincMean (calK c) (calD c) 1 (c.flt ++ psc))), fastMean fast)]
  else psc.map fun x => (x, 0)

/-- The present point has its readings (R505). -/
def calFull (c : CalStep) (rd : List (Int × Int)) : Bool := !calUsesPsc (calKind c) || decide (bitsOf c.cfg 26 23 ≤ rd.length)

/-- R505, R507: a reading of the present point: `psc` the modulator's samples since the reading before, `fast` the raw samples of the
channel's fast converter over the filter's window. It comes no earlier than its filter output. -/
def State.calRead (s : State) (t : Nat) (psc fast : List Int) (ovr ecc : Bool) : State :=
  let c := (s.tile t).cal
  let l := c.flt ++ psc
  let uses := calUsesPsc (calKind c)
  if c.st ≠ .measure ∨ c.settled = false ∨ s.at_ 49 < c.due ∨ (uses ∧ l.length ≠ calK c * calD c) ∨ fastFits c fast = false then s
  else if ovr ∨ 100 * (fastMean fast).natAbs > 99 * 2147483648 then s.calFail t 6
  else
    let rd := s.calRds t c psc fast
    if calFull c rd = false then s.setCal t { c with rd := rd, flt := l.drop (calD c), due := c.due + 32 * calD c }
    else (s.setCal t { c with rd := [], settled := false, pts := c.pts ++ [rd], pt := c.pt + 1 }).calNextPoint t ecc

/-! Commits. -/

/-- The coefficients of object `j` cannot be formed: their tile's forming has failed, or the copy at `a` has an uncorrectable error
(R529). -/
def State.calStuck (s : State) (j a : Nat) : Bool := s.calKeep.contains (objTile j) || s.ue a 512

/-- The select bit of object `j` flips; a copy that comes into use is no longer the nominal correction. Coefficients that cannot be
formed stay as they are (R529). -/
def State.selFlip (s : State) (j : Nat) : State :=
  let s := if s.calStuck j (s.objOther j) then s.calHolds [j] else s
  { s with calSel := if s.calSel.contains j then s.calSel.filter (· ≠ j) else j :: s.calSel
           calBad := s.calBad.filter (· ≠ j) }

/-- Select bits that flip at once. -/
def State.selFlips (s : State) : List Nat → State
  | [] => s
  | j :: r => (if j < 2560 then s.selFlip j else s.trimLoad (j - 2560) [5, 6, 7]).selFlips r

/-- R500: an accepted VSTD records what the buried reference and the Pip read. -/
def State.stdRecord (s : State) (t : Nat) (c : CalStep) : State :=
  let q := bitsOf c.step 13 12
  let f := s.calFit t c 0 (2048 + 8 * calPsc t c + 2)
  let rd := fun i => correct { g := f.g, o := f.o, q := f.q } (rne (sumPsc (c.pts.getD i [])) (max 1 (bitsOf c.cfg 26 23) : Nat))
  let v := s.tile t
  s.setTile t { v with refRd := v.refRd.set q (rd 2), pipRd := v.pipRd.set q (rd 3) }

/-- R522, R523, R525: the commit of tile `t`'s step at the boundary that ends the present tick. -/
def State.calCommitStep (s : State) (t : Nat) : State :=
  let c := (s.tile t).cal
  if c.st ≠ .commit ∨ s.tick + 1 < c.m then s
  else
    let k := calKind c
    let s := if k ≤ 4 then s.selFlips (calObjs t c) else if k = 8 then
        s.setTile t { s.tile t with refTo := c.taps.headD (s.tile t).refTo }
      else (s.trimWrite t c).trimLoad (calCh t c) [k]
    let s := if k = 0 then s.stdRecord t c else s
    let s := s.count (caldOff calAccepts)
    let s := (s.setRg (calOff t calResult) (256 * (c.slot % 8))).flag (calOff t calFlags) 3
    let time := timeBits (s.timeOf (s.tick + 1))
    let s := (s.setRg (caldOff calLastTime) (time % 4294967296)).setRg (caldOff (calLastTime + 4)) (time / 4294967296)
    (s.fireAt 25 t (s.at_ 50) none).calFree t (s.at_ 50)

/-- The flips that SELECT has registered for objects of tile `t` (R527). -/
def State.calCommitSel (s : State) (t : Nat) : State :=
  let due := fun (p : Nat × Nat) => decide (objTile p.1 = t) && decide (p.2 ≤ s.tick + 1)
  let js := (s.calFlip.filter due).map (·.1)
  if js = [] then s else State.selFlips { s with calFlip := s.calFlip.filter fun p => !due p } js

/-- The commit boundary of tile `t`. -/
def State.calCommit (s : State) (t : Nat) : State := (s.calCommitStep t).calCommitSel t

/-- Those of several tiles. -/
def State.calCommits (s : State) : List Nat → State
  | [] => s
  | t :: r => (s.calCommit t).calCommits r

/-- Object `j` exists (R519). -/
def objExists (j : Nat) : Bool :=
  decide (j < 2048) || (decide (j < 2560) && decide (j % 8 ≤ 4) && decide ((j - 2048) / 8 < 16)) ||
    (decide (2560 ≤ j) && decide (j < 2624))

/-- A flip of object `j` is registered: by SELECT, or by a step whose checks passed (R522, R535). -/
def State.flipWaits (s : State) (j : Nat) : Bool :=
  (s.calFlip.any fun p => p.1 = j) || (s.calRuns j && decide ((s.tile (objTile j)).cal.st = .commit))

/-- The copy of object `j` that SELECT names is sound. -/
def State.selOk (s : State) (j : Nat) : Bool := if j < 2560 then s.copyOk (s.objOther j) 512 else s.copyOk (objAddr j) 256

/-- R527: SELECT of object `j`. -/
def State.selectObj (s : State) (j : Nat) : State :=
  let s := s.setRg (caldOff calObjCmd) j
  let s := if objExists j then (if j < 2560 then s.unitRead (s.objOther j) 512 else s.unitRead (objAddr j) 256) else s
  if ¬ objExists j ∨ s.calRuns j ∨ ¬ s.selOk j then s.flag (caldOff calObjSts) 0x100
  else if s.calFlip.any fun p => p.1 = j then s
  else { s with calFlip := s.calFlip ++ [(j, s.commitTick)] }

/-- R513: the temperature of tile `t`, the mean of its four sensors, of which `l` lists those of tile 0 first, each in °C × 2^16. It
rounds half to even. [DEDUCED, log 119] -/
def tileMean (l : List (BitVec 32)) (t : Nat) : Word :=
  word32 (rne ((List.range 4).map fun i => (l.getD (4 * t + i) 0).toInt).sum 4)

/-- R513, R515, R529: what the tiles' monitors form in a millisecond from the sensors `l`; `ecc`: the tiles in which an uncorrectable
error met the forming. [DEDUCED, log 119] -/
def State.coefUpdate (s : State) (l : List (BitVec 32)) (ecc : Nat) : List Nat → State
  | [] => s
  | t :: r =>
    let s := if ¬ s.tileUp t then s
      else if bitOf ecc t then State.fault { s with calKeep := t :: s.calKeep.filter (· ≠ t) } (frTile t) ftCalEcc
      else { s with tileT := tput (fun _ => (0 : Word)) s.tileT t (tileMean l t) }
    s.coefUpdate l ecc r

/-- The object whose copy holds the codeword at `a`, and whether it is copy B. -/
def objOfAddr (a : Nat) : Option (Nat × Bool) :=
  if 0x5100000 ≤ a ∧ a < 0x5320000 then
    some ((if a < 0x5300000 then (a - 0x5100000) / 0x400 else 2048 + (a - 0x5300000) / 0x400), decide (0x200 ≤ a % 0x400))
  else none

/-- The objects whose copy in use has an uncorrectable error. -/
def State.calErrs (s : State) : List Nat :=
  (s.memUE.filterMap fun a => match objOfAddr a with
    | some (j, b) => if s.calSel.contains j = b then some j else none
    | none => none).eraseDups

/-- The copies in use are read (R817, R818). -/
def State.calReads (s : State) : State :=
  let use := fun w => match objOfAddr w with
    | some (j, b) => s.tileUp (objTile j) && decide (s.calSel.contains j = b)
    | none => false
  let bad := s.memUE.filter use
  let s := { s with memCE := s.memCE.filter fun w => !use w }
  if bad = [] then s else s.ueAt (bad.foldl max 0)

/-- R529: the CAL_ECC of the tiles that meet an uncorrectable error in a copy in use. -/
def State.calEccs (s : State) (js : List Nat) : List Nat → State
  | [] => s
  | t :: r => (if s.tileUp t ∧ js.any (fun j => objTile j = t) then s.fault (frTile t) ftCalEcc else s).calEccs js r

/-- The temperatures of several tiles come into use. -/
def State.tempTake (s : State) : List Nat → State
  | [] => s
  | t :: r =>
    (if s.calKeep.contains t then s
     else { s with tileTUse := tput (fun _ => (0 : Word)) s.tileTUse t (tget (fun _ => (0 : Word)) s.tileT t) }).tempTake r

/-- R515, R529: at a boundary whose tick is a multiple of 4,000 the coefficients formed take effect; those that could not be formed
stay as they are. -/
def State.calForm (s : State) : State :=
  if s.tick % 4000 ≠ 0 then s
  else
    let errs := s.calErrs
    let s := s.calReads
    let keep := ((s.calHold.map (·.1)).filter fun j => s.calStuck j (s.objUse j)) ++ errs
    let s1 := s.calHolds keep
    let s1 := { s1 with calHold := s1.calHold.filter fun p => keep.contains p.1 }
    (State.calEccs { s1.tempTake [0, 1, 2, 3] with calKeep := [] } errs [0, 1, 2, 3])

/-! Commands. -/

def execBusAck (a : Acc) (t : TileId) (s : State) : Res := s.viaReg a (calOff t.val calCtl) 0x40004 (·.calAck t.val)
def execCalAbort (a : Acc) (t : TileId) (s : State) : Res := s.viaReg a (calOff t.val calCtl) 0x20002 (·.calAbortCmd t.val)
def execCalBusTimeout (t : TileId) (s : State) : Res := .next (s.calTimeout t.val)
def execCalPointSettleEnd (t : TileId) (s : State) : Res := .next (s.calSettled t.val)
def execCalReadingDone (t : TileId) (psc : List (BitVec 32)) (fast : List (BitVec 20)) (ovr ecc : Bool) (s : State) : Res :=
  .next (s.calRead t.val (psc.map (·.toInt)) (fast.map (·.toInt)) ovr ecc)
def execCalCommit (t : TileId) (s : State) : Res := .next (s.calCommit t.val)
def execSelect (a : Acc) (obj : BitVec 12) (s : State) : Res :=
  s.viaReg a (caldOff calObjCmd) (obj.toNat + 0x1000) (·.selectObj obj.toNat)
def execCalCoefUpdate (temps : List (BitVec 32)) (ecc : BitVec 4) (s : State) : Res :=
  .next (s.coefUpdate temps ecc.toNat [0, 1, 2, 3])

end Sys2Proof.Machine
end

