-- ==== Sys2Proof/Machine/Bramble.lean ====
section
/-! DEFINITION. The Bramble: tasks, event channels, tags, ownership and configuration, software fires and TRIG pins (R536 to
R568, R875). -/

namespace Sys2Proof.Machine

/-- The view offset of BRM register `rel`. -/
abbrev brmOff (rel : Nat) : Nat := 0xB0000 + rel

/-- Flags of BRM_STS. -/
def State.brmFlag (s : State) (mask : Nat) : State := s.flag (brmOff brmSts) mask

/-! Tasks (R547). -/

/-- R567, R568: TRIG_OUT of pin `p` fires in absolute cycle `cyc`. -/
def State.trigOut (s : State) (p cyc : Nat) : State :=
  let w := s.pinCfg p
  let v := s.pin p
  if bitsOf w 1 0 ≠ 2 then s.brmFlag 8
  else if bitsOf w 5 4 = 2 then s.setPin p { v with out := !v.out }
  else s.setPin p { v with out := decide (bitsOf w 5 4 = 0), till := some (cyc + 1 + bitsOf (s.rg (brmOff (brmTrigPulse + 4 * p))) 15 0) }

/-- R479 to R481: CAPTURE of unit `i` fires in absolute cycle `cyc`. -/
def State.capTask (s : State) (i cyc : Nat) : State :=
  if bitsOf (s.rg (capOff i capCfg)) 1 0 ≠ 2 then s.flag (capOff i capSts) 4 else s.capTake i (s.timeAt cyc)

/-- R236, R237: RANGE_REQ of channel `n`. -/
def State.rangeReq (s : State) (n : Nat) : State :=
  let g := bitsOf (s.cr n chHoCfg) 19 16
  if s.hoRuns n ∧ g ≠ 15 ∧ s.iImpl n g then s.reqRange n false g else s

/-- The unit of task `i`: a channel, a tile, a core, or none (R563). -/
def State.taskDead (s : State) (i : Nat) : Bool :=
  if i < 448 then decide ((s.ch (i % 64)).state = .fenced)
  else if i < 480 then !s.tileUp ((i - 448) % 16 / 4)
  else if i < 608 then !s.tileUp ((i - 480) / 32)
  else if i < 632 then false
  else s.isFenced (unCore ((i - 632) / 8))

/-- The action of task `i` in absolute cycle `cyc` (R544, R547); the strobes of a cycle wait for the others of it (R142). -/
def State.taskAct (s : State) (i cyc : Nat) : State :=
  if i < 64 then s.rakeLatch i 3
  else if i < 128 then s.rakeJump (i - 64)
  else if i < 192 then s.rakeLatch (i - 128) 1
  else if i < 256 then s.updCh (i - 192) fun c => { c with meas := { c.meas with evReq := true } }
  else if i < 320 then s.chanCmd (i - 256) 2
  else if i < 384 then s.chanCmd (i - 320) 3
  else if i < 448 then s.rangeReq (i - 384)
  else if i < 464 then s.pscLatch (i - 448) cyc
  else if i < 480 then s.pscInj (i - 464) cyc
  else if i < 608 then s.capTask (i - 480) cyc
  else if i < 616 then { s with updDue := s.updDue ++ [i - 608] }
  else if i < 632 then s.trigOut (i - 616) cyc
  else s.flag (coreOff ((i - 632) / 8) coreBirq) (2 ^ ((i - 632) % 8))

/-- R552, R553: the tag of a task of a channel, kept while events can inherit it. -/
def State.tagTask (s : State) (n task cyc : Nat) (tag : Option Nat) : State :=
  s.updCh n fun c => { c with tags := (c.tags.filter fun t => decide (cyc ≤ t.2.1 + 32) && !(decide (t.1 = task) && decide (t.2.1 = cyc)))
    ++ [(task, cyc, tag.getD noTag)] }

/-- The firings of task `i` that are remembered with one of `kind` in cycle `cyc`. -/
def firedWith (l : List (Nat × Nat)) (cyc kind : Nat) : List (Nat × Nat) :=
  (cyc, kind) :: l.filter fun p => decide (p.1 ≠ cyc) && decide (cyc ≤ p.1 + 100)

/-- Task `i` fires in absolute cycle `cyc`, by an event where it carries a tag, else directly: at most once in a cycle, in which an
event and a direct fire merge (R539, R544, R549, R552, R563). -/
def State.fireTask (s : State) (i cyc : Nat) (tag : Option Nat) : State :=
  if s.taskDead i then s
  else
    let l := tget (fun _ => []) s.fired i
    let kind := if tag.isSome then 1 else 2
    match l.find? fun p => p.1 = cyc with
    | some p =>
      let s := if i < 128 ∧ tag.isSome then s.tagTask (i % 64) i cyc tag else s
      if p.2 + kind = 3 then
        let s := { s with fired := tput (fun _ => []) s.fired i (firedWith l cyc 3) }
        let s := s.count (brmOff (brmMerge + 4 * i))
        if 608 ≤ i ∧ i < 616 then s.count sysUpdMerges else s
      else s
    | none =>
      let s := { s with fired := tput (fun _ => []) s.fired i (firedWith l cyc kind) }
      let s := if i < 128 then s.tagTask (i % 64) i cyc tag else s
      s.taskAct i cyc

/-- Several tasks in ascending order. -/
def State.fireTasks (s : State) (cyc : Nat) (tag : Option Nat) : List Nat → State
  | [] => s
  | i :: r => (s.fireTask i cyc tag).fireTasks cyc tag r

/-! Event channels. -/

/-- The listeners of channel `c` (R541). -/
def State.listeners (s : State) (c : Nat) : List Nat :=
  (List.range 696).filter fun i => let w := s.rg (subOff i); bitOf w 7 && decide (w % 128 = c)

/-- R554, R555: a contribution that carries the channel's own tag is a re-entry: it passes within LOOP_MAX, or drops. -/
def State.loopDrop (s : State) (c tick : Nat) (tag : Option Nat) : State × Bool :=
  if tag ≠ some c then (s, false)
  else
    let w := s.rg (evcOff c evcCfg)
    let (t, k) := tget (fun _ => (0, 0)) s.loopCnt c
    let k := if t = tick then k else 0
    if bitOf w 5 ∧ k < bitsOf w 13 6 then ({ s with loopCnt := tput (fun _ => (0, 0)) s.loopCnt c (tick, k + 1) }, false)
    else ((s.flag (evcOff c evcSts) 1).count (evcOff c evcLoops), true)

/-- The contributions of one cycle: those that survive. -/
def State.survive (s : State) (c tick : Nat) : List Contrib → State × List Contrib
  | [] => (s, [])
  | x :: r =>
    let (s, drop) := s.loopDrop c tick x.tag
    let (s, l) := s.survive c tick r
    (s, if drop then l else x :: l)

/-- The earliest cycle in which a contribution waits at channel `c`. -/
def State.evcCyc (s : State) (c : Nat) : Option Nat :=
  s.contribs.foldl (fun (b : Option Nat) x =>
    if x.evc ≠ c then b else match b with
      | some y => some (min y x.cyc)
      | none => some x.cyc) none

/-- A contribution placed before those of higher slots. -/
def insertSlot (x : Contrib) : List Contrib → List Contrib
  | [] => [x]
  | y :: r => if x.slot ≤ y.slot then x :: y :: r else y :: insertSlot x r

/-- Contributions in the order of their slots. -/
def sortSlots : List Contrib → List Contrib
  | [] => []
  | x :: r => insertSlot x (sortSlots r)

/-- R538, R539, R550 to R556: channel `c` passes the event of its earliest cycle, whose listeners fire in the cycle after it. What
comes late to a cycle whose event has passed coincides with it. -/
def State.evcPass (s : State) (c : Nat) : State :=
  match s.evcCyc c with
  | none => s
  | some k =>
    if s.tick < (k + 1) / 50 then s
    else
      let mine := fun (x : Contrib) => decide (x.evc = c) && decide (x.cyc = k)
      let l := sortSlots (s.contribs.filter mine)
      let s := { s with contribs := s.contribs.filter fun x => !mine x }
      let (s, l) := s.survive c (k / 50) l
      match l with
      | [] => s
      | x :: r =>
        match (tget (fun _ => none) s.evcLast c).filter fun p => p.cyc = k + 1 with
        | some p =>
          if p.twice then s
          else State.count { s with evcLast := tput (fun _ => none) s.evcLast c (some { p with twice := true }) } (evcOff c evcCoincide)
        | none =>
          let s := s.countWrap (evcOff c evcEvcnt)
          let s := if r = [] then s else s.count (evcOff c evcCoincide)
          let tag := x.tag.getD c
          let s := { s with evcLast := tput (fun _ => none) s.evcLast c (some ⟨k + 1, !r.isEmpty⟩) }
          s.fireTasks (k + 1) (some tag) (s.listeners c)

/-- Direct fires wait as contributions of the channels from `directEvc` on. -/
abbrev directEvc : Nat := 1000

/-- A mark behind the events of a cycle: while it waits, the strobes of the next cycle wait for others of theirs. -/
abbrev holdEvc : Nat := 4000

/-- R142: the strobes whose tasks fired in absolute cycle `c` are latched, in ascending group number. -/
def State.updFlush (s : State) (c : Nat) : State :=
  let l := s.updDue
  if l = [] then s else ({ s with updDue := [] } : State).strobeLatches c ((List.range 8).filter l.contains)

/-- R627: `f` acts in absolute cycle `k`: a status register whose SEQ another event of that cycle has advanced keeps it. -/
def State.inCycle (s : State) (k : Nat) (f : State → State) : State :=
  if s.seqRun.isSome then f s
  else
    let l := match s.seqAt with
      | some (j, l) => if j = k then l else []
      | none => []
    let t := f { s with seqRun := some l }
    { t with seqRun := none, seqAt := some (k, t.seqRun.getD []) }

/-- What waits at `c` for its earliest cycle `k` acts: the event of a channel, or a direct fire (R548). -/
def State.evcAct (s : State) (c k : Nat) : State :=
  if c < directEvc then s.evcPass c
  else
    let out := fun (x : Contrib) => !(decide (x.evc = c) && decide (x.cyc = k))
    State.fireTask { s with contribs := s.contribs.filter out } (c - directEvc) (k + 1) none

/-- Channel `c` passes its event; the strobes of its cycle follow once nothing else of that cycle waits. -/
def State.evcStep (s : State) (c : Nat) : State :=
  match s.evcCyc c with
  | none => s
  | some k =>
    if c = holdEvc then { s with contribs := s.contribs.filter fun x => x.evc ≠ holdEvc }
    else
    s.inCycle (k + 1) fun s =>
      let s := s.evcAct c k
      if s.contribs.any fun x => decide (x.cyc = k) then s else s.updFlush (k + 1)

/-! The order of a tick's events. -/

/-- The channel, or the direct fire, that acts first of what waits for cycles up to `z` and acts by the end of the tick, with its
cycle. -/
def State.evcNext (s : State) (z : Nat) : Option (Nat × Nat) :=
  (s.contribs.foldl (fun (b : Option Contrib) x =>
    if z < x.cyc ∨ s.tick < (x.cyc + 1) / 50 then b
    else match b with
      | none => some x
      | some y => if x.cyc < y.cyc ∨ (x.cyc = y.cyc ∧ x.evc < y.evc) then some x else b) none).map fun x => (x.evc, x.cyc)

/-- PWM outputs and converters up to the end of absolute cycle `z`. -/
def State.upTo (s : State) (z : Nat) : State := (s.pwmFalls z (s.chans.map (·.1))).pscsRun z (List.range 16)

/-- Everything that the Bramble, the PWM outputs and the converters do up to absolute cycle `z`, in the order of the cycles; the
first argument bounds the number of steps. -/
def State.runTo : Nat → State → Nat → State
  | 0, s, _ => s
  | f + 1, s, z =>
    let c := ((s.evcNext z).map (·.2)).getD z
    let t := s.upTo c
    match t.evcNext c with
    | some (e, _) => State.runTo f (t.evcStep e) z
    | none => if c = z then t else State.runTo f t z

/-- The steps of a tick. -/
abbrev runFuel : Nat := 16384

/-- An event, a fall of a PWM output or a happening of a converter waits for a cycle before absolute cycle `z`. -/
def State.waits (s : State) (z : Nat) : Bool :=
  (s.contribs.any fun x => decide (x.cyc < z)) ||
    (s.chans.any fun p => (p.2.rail.fallH.toList ++ p.2.rail.fallL.toList).any fun c => decide (c < z)) ||
    (List.range 16).any fun m => (List.range 6).any fun k => match s.pscWhen m k with
      | some t => decide (t < z)
      | none => false

/-- What the channels' sequencers decide in cycle 0 (R290) and the records due before absolute cycle `z`. -/
def State.headTo (s : State) (z : Nat) : State :=
  if z ≤ s.at_ 0 then s
  else s.decideAll.each (fun s n => s.recsSettle n z (s.ch n).meas.recs) (s.chans.map (·.1))

/-- What comes before absolute cycle `z`. -/
def State.catchTo (s : State) (z : Nat) : State :=
  let s := s.headTo z
  if s.waits z then State.runTo runFuel s (z - 1) else s

/-- What comes before the events of absolute cycle `k`. -/
def State.toCycle (s : State) (k : Nat) : State := (s.catchTo k).upTo k

/-- What comes before absolute cycle `z`, the strobes that tasks of cycle `z` latch still waiting in `updDue` (R142). -/
def State.catchHold (s : State) (z : Nat) : State :=
  let s := s.catchTo (z - 1)
  if s.waits z then
    State.runTo runFuel { s with contribs := s.contribs ++ [{ evc := holdEvc, cyc := z - 1, slot := 0, tag := none }] } (z - 1)
  else s

/-- The strobes of the groups in `mask` are latched in absolute cycle `c`, with those that tasks of that cycle latch, in ascending
order; one of both is one strobe (R142, R647). -/
def State.goLatch (s : State) (c mask : Nat) : State :=
  let l := s.updDue
  let both := ((List.range 8).filter fun g => bitOf mask g && l.contains g).length
  let t : State := { s with updDue := [] }
  (if both = 0 then t else t.count sysUpdMerges both).strobeLatches c ((List.range 8).filter fun g => bitOf mask g || l.contains g)

/-- What was told for cycles up to that of the write given now comes before it (R537, R542). -/
def State.catchUp (s : State) : State := s.catchTo (s.at_ s.wcyc + 1)

/-- A request that a write latches in the cycle in which it completes, after the tasks that fire by then: `eff` is given the cycle. -/
def State.latchNow (s : State) (eff : State → Nat → State) : State :=
  let s := s.catchTo (s.at_ s.wcyc)
  (eff s (s.at_ s.wcyc)).passed s.wcyc

/-- R645: what a write of `v` to the status register at `o` meets: what was told for cycles up to its own has come about, and SEQ has gone on
where a flag that it would clear is set again in its own cycle. -/
def State.stsMeets (s : State) (o v : Nat) : State :=
  let z := s.at_ s.wcyc
  let u := s.catchTo (z - 1)
  let t := u.catchTo z
  let w := u.rg o
  let hit := (State.catchTo (u.setRg o (w - w % 16777216)) z).rg o
  if t.rg o / 16777216 = w / 16777216 ∧ (hit &&& v &&& w) % 16777216 ≠ 0 then
    t.setRg o ((w / 16777216 + 1) % 256 * 16777216 + t.rg o % 16777216)
  else t

/-- R645: what a write of a counter meets: what counts in its own cycle counts on from the value written. -/
def State.cntMeets (s : State) : State := s.catchTo (s.at_ s.wcyc - 1)

/-- R645: what a write of a shadow meets: a strobe of its own cycle has captured before. -/
def State.shMeets (s : State) : State := s.catchTo (s.at_ s.wcyc)

/-- R72, R142: ARM is judged after the strobes of earlier cycles and before those of its own. -/
def State.armCmd (s : State) (n : Nat) : State := (s.catchTo (s.at_ s.wcyc - 1)).chanCmd n 1

/-- R647: GO bits of SYS_UPD_CTL. -/
def State.updGo (s : State) (mask : Nat) : State :=
  ((s.catchHold (s.at_ s.wcyc)).goLatch (s.at_ s.wcyc) mask).passed s.wcyc

/-- R538: channel `c` passes the event of its earliest cycle, after what comes before it. -/
def State.dispatchEvc (s : State) (c : Nat) : State :=
  match s.evcCyc c with
  | none => s
  | some k => (s.toCycle k).evcStep c

/-- R454: GO of a calibration step is judged after the strobes that the cycles up to its own have latched. -/
def State.calGoNow (s : State) (t : Nat) (both : Bool) : State := s.latchNow fun s _ => s.calGoCmd t both

/-- GO, INJ_GO and STOP of a precision scan converter (R436, R442). -/
def State.pscGoCmd (s : State) (m : Nat) : State := s.latchNow (·.pscLatch m ·)
def State.pscInjCmd (s : State) (m : Nat) : State := s.latchNow (·.pscInj m ·)
def State.pscStopNow (s : State) (m : Nat) : State := s.latchNow (·.pscStopCmd m ·)

/-- At a boundary: what was told for the last cycle of the tick before acts in its cycle 0. -/
def State.carried (s : State) : State :=
  if s.contribs.any fun x => decide (x.cyc < s.at_ 0) then State.runTo runFuel s (s.at_ 0 - 1) else s

/-! Software fires. -/

/-- R548: BRM_FIRE, after what waits for cycles up to its own. A fire of the last cycle of a tick acts in cycle 0 of the next. -/
def State.brmFireCmd (s : State) (task cyc : Nat) : State :=
  let q := { s with contribs := s.contribs ++ [{ evc := directEvc + task, cyc := s.at_ cyc, slot := 8, tag := none }] }
  if 696 ≤ task then s.brmFlag 1
  else if cyc = 49 then q
  else if s.waits (s.at_ cyc + 1) then State.runTo runFuel q (s.at_ cyc)
  else s.inCycle (s.at_ (cyc + 1)) fun s => (s.fireTask task (s.at_ (cyc + 1)) none).updFlush (s.at_ (cyc + 1))

/-- R537, R538: SWFIRE of an armed channel, in the cycle after the write. -/
def State.swFireCmd (s : State) (c cyc : Nat) : State :=
  if s.armed c then { s with contribs := s.contribs ++ [{ evc := c, cyc := s.at_ (cyc + 1), slot := 8, tag := none }] } else s

/-! Arming and configuration. -/

/-- OWNER of channel `c`. -/
def State.evcOwner (s : State) (c : Nat) : Nat := bitsOf (s.rg (evcOff c evcCfg)) 3 0

/-- Set the armed bit of channel `c`. -/
def State.setArmed (s : State) (c : Nat) (b : Bool) : State :=
  let o := brmOff (brmArmed + 4 * (c / 32))
  s.setRg o (putBit (s.rg o) (c % 32) b)

/-- R559, R562: ARM. -/
def State.evcArmCmd (s : State) (c : Nat) (r : Req) : State :=
  let s := s.catchUp
  if s.evcOwner c ≠ reqCode r then s.brmFlag 4
  else if s.secEvc c ∧ ¬ s.committed 65 then s.brmFlag 2
  else s.setArmed c true

/-- R559: DISARM. -/
def State.evcDisarmCmd (s : State) (c : Nat) (a : Acc) : State :=
  let s := s.catchUp
  if s.evcOwner c = reqCode a.req ∨ a.view = .priv then s.setArmed c false else s.brmFlag 4

/-- R637: a write into set `k`: the pass over the set that SEL names starts anew. -/
def State.crcTouch (s : State) (k : Nat) : State :=
  if bitsOf (s.rg sysCfgcrcSel) 6 0 = k then { s with crc := { s.crc with pass := true } } else s

/-- R639: set `k` takes writes: it is uncommitted and no commit of it runs. -/
def State.setOpen (s : State) (k : Nat) : Bool :=
  !s.committed k && !(match s.crc.run with
    | some (j, _) => decide (j = k)
    | none => false)

/-- R558, R570: a CFG value that is ignored. -/
def cfgBad (w : Nat) : Bool := decide (10 ≤ bitsOf w 3 0) || decide (bitsOf w 13 6 = 0)

/-- R545: the greatest INST of a KIND; none for a reserved KIND. -/
def instMax (kind : Nat) : Option Nat :=
  if kind ≤ 2 then some 0 else if kind = 3 then some 15 else if kind ≤ 21 then some 63 else if kind ≤ 23 then some 15
  else if kind ≤ 25 then some 3 else none

/-- R545: a PROD value that is ignored. -/
def prodBad (w : Nat) : Bool := match instMax (bitsOf w 7 0) with
  | some m => decide (m < bitsOf w 14 8)
  | none => true

/-- A Bramble register takes value `w`: within the secure set its working copy while the set is open, else both copies (R562,
R635, R875). -/
def State.brmPut (s : State) (o w : Nat) (inSet : Bool) : State :=
  if ¬ inSet then s.setBoth o w
  else if s.setOpen 65 then (s.setSh o w).crcTouch 65
  else s.brmFlag 2

/-- R560, R562, R635: a new value of register CFG (`slot` = 8) or PROD`slot` of channel `c`. -/
def State.evcPut (s : State) (c slot w : Nat) : State :=
  let s := s.catchUp
  let o := if slot = 8 then evcOff c evcCfg else evcOff c (evcProd + 4 * slot)
  let inSet := s.secEvc c || (decide (slot = 8) && bitOf w 4)
  if s.armed c ∨ (inSet = true ∧ s.setOpen 65 = false) then s.brmFlag 2
  else if (if slot = 8 then cfgBad w else prodBad w) then s.brmFlag 1
  else s.brmPut o w inSet

/-- The view offset of slot `slot` of channel `c`: PROD0 to PROD7, then CFG. -/
def slotOff (c slot : Nat) : Nat := if slot = 8 then evcOff c evcCfg else evcOff c (evcProd + 4 * slot)

/-- A write of `v` to a slot's register; one whose mask is zero changes nothing (R625). -/
def State.evcWrite (s : State) (c slot v : Nat) : State :=
  let o := slotOff c slot
  if v / 65536 = 0 then s else s.evcPut c slot (ctlNew (s.sh o) v (if slot = 8 then 0x3FFF else 0xFFFF))

/-- R542, R562: a new value of BRM_SUBi. -/
def State.subPut (s : State) (i w : Nat) : State :=
  let s := s.catchUp
  let named := match subEvc w with
    | some c => s.secEvc c
    | none => false
  s.brmPut (subOff i) w (s.secSub i || named)

/-- A write of `v` to BRM_SUBi; one whose mask is zero changes nothing (R625). -/
def State.subWrite (s : State) (i v : Nat) : State := if v / 65536 = 0 then s else s.subPut i (ctlNew (s.sh (subOff i)) v 0xFF)

/-! TRIG pins. -/

/-- R564, R566: the level outside pin `p` changes, registered in cycle `cyc`. -/
def State.trigEdge (s : State) (p : Nat) (level : Bool) (cyc : Nat) : State :=
  let w := s.pinCfg p
  let v := s.pin p
  if v.level = level then s
  else
    let s := s.setPin p { v with level := level }
    if bitsOf w 1 0 = 1 ∧ edgeSel (bitsOf w 3 2) level then s.fireAt 3 p (s.at_ cyc) none else s

/-- R567: the pulse of pin `p` ends in the present tick. -/
def State.trigEnd (s : State) (p : Nat) : State :=
  let v := s.pin p
  match v.till with
  | some k => if k ≤ s.at_ 49 then s.setPin p { v with out := bitOf (s.pinCfg p) 6, till := none } else s
  | none => s

/-- The pulses that end in the present tick. -/
def State.trigEnds (s : State) : List Nat → State
  | [] => s
  | p :: r => (s.trigEnd p).trigEnds r

/-- R570: BRM_TRIG_LVL: the level at each pin. -/
def State.trigLvl (s : State) : Nat :=
  (List.range 16).foldl (fun a p =>
    let v := s.pin p
    if (if bitsOf (s.pinCfg p) 1 0 = 2 then v.out else v.level) then a + 2 ^ p else a) 0

/-! Commands. -/

def execArm (a : Acc) (n : ChanId) (s : State) : Res := s.viaReg a (chOff n.val chCtl) 0xF0001 (·.armCmd n.val)
def execUpdGo (a : Acc) (mask : BitVec 8) (s : State) : Res :=
  s.viaReg a sysUpdCtl (mask.toNat * 65537) (·.updGo mask.toNat)
def execPscGo (a : Acc) (m : PscId) (s : State) : Res := s.viaReg a (pscOff m.val pscCtl) 0x10001 (·.pscGoCmd m.val)
def execPscInjGo (a : Acc) (m : PscId) (s : State) : Res := s.viaReg a (pscOff m.val pscCtl) 0x20002 (·.pscInjCmd m.val)
def execPscStop (a : Acc) (m : PscId) (s : State) : Res := s.viaReg a (pscOff m.val pscCtl) 0x40004 (·.pscStopNow m.val)

def execEventDispatch (c : EvcId) (s : State) : Res := .next (s.dispatchEvc c.val)
def execCalGo (a : Acc) (t : TileId) (s : State) : Res := s.viaReg a (calOff t.val calCtl) 0x10001 (·.calGoNow t.val false)
def execBrmFire (a : Acc) (task : BitVec 10) (cyc : Cycle) (s : State) : Res :=
  s.viaReg a (brmOff brmFire) (0x07FF0400 + task.toNat) fun s => ((s.setRg (brmOff brmFire) task.toNat).brmFireCmd task.toNat cyc.val).passed cyc.val
def execSwfire (a : Acc) (c : EvcId) (cyc : Cycle) (s : State) : Res :=
  s.viaReg a (evcOff c.val evcCtl) 0x40004 fun s => (s.swFireCmd c.val cyc.val).passed cyc.val
def execEvcArm (a : Acc) (c : EvcId) (s : State) : Res := s.viaReg a (evcOff c.val evcCtl) 0x10001 (·.evcArmCmd c.val a.req)
def execEvcDisarm (a : Acc) (c : EvcId) (s : State) : Res := s.viaReg a (evcOff c.val evcCtl) 0x20002 (·.evcDisarmCmd c.val a)
def execEvcConfigWrite (a : Acc) (c : EvcId) (slot : Fin 9) (v : Word) (s : State) : Res :=
  s.viaReg a (slotOff c.val slot.val) v.toNat (·.evcWrite c.val slot.val v.toNat)
def execSubscriptionWrite (a : Acc) (i : Fin 696) (v : Word) (s : State) : Res :=
  s.viaReg a (subOff i.val) v.toNat (·.subWrite i.val v.toNat)
def execTrigIn (p : PinId) (level : Bool) (cyc : Cycle) (s : State) : Res := .next ((s.trigEdge p.val level cyc.val).passed cyc.val)
def execTrigPulseEnd (p : PinId) (s : State) : Res := .next (s.trigEnd p.val)

end Sys2Proof.Machine
end

