-- ==== Sys2Proof/Machine/CfgCrc.lean ====
section
/-! DEFINITION. The covered sets and the configuration CRC: passes, uncommit, commit and scans (R633 to R641, R88, R89, R486,
R742, R875). -/

namespace Sys2Proof.Machine

/-! Contents. -/

/-- The fault frames in ascending order of their bases (R571). -/
def frameOrder : List Nat := (List.range 8).map (1 + ·) ++ [0] ++ (List.range 74).map (9 + ·)

/-- The view offsets of the registers of set 0 to 63 (R633). -/
def safeOffs (n : Nat) : List Nat :=
  [chSafeVpos, chSafeVneg, chSafeIpos, chSafeIneg, chSafeCtl].map (chOff n)
    ++ [cmpClamp, cmpClthrv, cmpClthri, cmpClhold].map (cmpOff n)

/-- Those of set 64 (R742). -/
def routeOffs : List Nat :=
  (List.range 4096).map (fun a => fabOff (fabRt + 4 * a)) ++ [fabOff fabBcast] ++ (List.range 8).map fun k => fabOff (fabTrust + 4 * k)

/-- Those of set 66. -/
def reactOffs : List Nat := frameOrder.flatMap fun f => [fltOff f fltSev0, fltOff f fltSev1, fltOff f fltReact]

/-- CFG and PROD0 to PROD7 of channel `c`. -/
def evcOffs (c : Nat) : List Nat := evcOff c evcCfg :: (List.range 8).map fun j => evcOff c (evcProd + 4 * j)

/-- Those of set 65 by its working copies (`wk`) or by the copies in force (R875). -/
def State.secOffs (s : State) (wk : Bool) : List Nat :=
  let sec := fun c => if wk then s.secWk c else s.secIn c
  let val := fun i => if wk then s.sh (subOff i) else s.rg (subOff i)
  ((List.range 128).filter sec).flatMap evcOffs ++
    ((List.range 696).filter fun i => match subEvc (val i) with
      | some c => sec c
      | none => false).map subOff

/-- The registers of set `k`. -/
def State.setOffs (s : State) (k : Nat) (wk : Bool) : List Nat :=
  if k < 64 then safeOffs k else if k = 64 then routeOffs else if k = 65 then s.secOffs wk else reactOffs

/-- R634: the CRC of registers as a reader gives them. -/
def crcOf (rd : Nat → Nat) (os : List Nat) : Nat := (crc32c (os.flatMap fun o => leBytes 4 (rd o))).toNat

/-- The CRC of set `k`'s working copy, and of its copy in force. -/
def State.crcWork (s : State) (k : Nat) : Nat := crcOf s.sh (s.setOffs k true)
def State.crcForce (s : State) (k : Nat) : Nat := crcOf s.rg (s.setOffs k false)

/-- R636: the reference of set `k` in force. -/
def State.refOf (s : State) (k : Nat) : Nat :=
  match tget (fun _ => none) s.crc.refs k with
  | some v => v
  | none => if k < 64 then 0 else crcOf (fun o => (regReset o).toNat) (if k = 64 then routeOffs else if k = 65 then [] else reactOffs)

/-- SYS_CFGCRC_REF reads the reference last written or committed. -/
def State.refRead (s : State) (k : Nat) : Nat :=
  match tget (fun _ => none) s.crc.wrote k with
  | some v => v
  | none => s.refOf k

/-- SEL. -/
def State.crcSel (s : State) : Nat := bitsOf (s.rg sysCfgcrcSel) 6 0

/-- A write of SYS_CFGCRC_REF. -/
def State.refWrite (s : State) (v : Nat) : State :=
  { s with crc := { s.crc with wrote := tput (fun _ => none) s.crc.wrote s.crcSel (some v) } }

/-! Passes and commits. -/

/-- R637: SEL. -/
def State.crcSelect (s : State) (k : Nat) : State :=
  let s := s.setRg sysCfgcrcSel k
  { s with crc := { s.crc with pass := true } }

/-- R637: the pass over the set that SEL names completes; the registers that it reads are voted (R632). -/
def State.crcPassEnd (s : State) : State :=
  let k := s.crcSel
  if s.crc.pass ∧ k < 67 then
    let s := s.votes (s.setOffs k true)
    let s := (s.setRg sysCfgcrcNow (s.crcWork k)).setRg sysCfgcrcStat 2
    { s with crc := { s.crc with pass := false } }
  else s

/-- R658: SYS_CFGCRC_STAT. -/
def State.crcStat (s : State) : Nat :=
  b2n (decide (s.crcSel < 67) && s.committed s.crcSel) + (if s.crc.pass then 0 else s.rg sysCfgcrcStat)

/-- The commit state of set `k` changes. -/
def State.crcFlip (s : State) (k : Nat) : State :=
  { s with crc := { s.crc with flipped := if s.crc.flipped.contains k then s.crc.flipped.filter (· ≠ k) else k :: s.crc.flipped } }

/-- R638: UNCOMMIT. -/
def State.uncommitCmd (s : State) : State :=
  let k := s.crcSel
  if k < 67 ∧ s.committed k then s.crcFlip k else s

/-- R639: COMMIT. -/
def State.commitCmd (s : State) : State :=
  match s.crc.run with
  | some _ => s
  | none => { s with crc := { s.crc with run := some (s.crcSel, s.refRead s.crcSel) } }

/-- A word that stands for a number greater than zero, for one less than zero. -/
def wordPos (w : Nat) : Bool := match f32 w with
  | .fin v => decide (0 < v)
  | .inf neg => !neg
  | .nan => false
def wordNeg (w : Nat) : Bool := match f32 w with
  | .fin v => decide (v < 0)
  | .inf neg => neg
  | .nan => false

/-- R88, R486, R640: the lowest failure among the checks of set 0 to 63 after the reference; 0 for none. -/
def State.safeReason (s : State) (n : Nat) : Nat :=
  let w := fun r => s.sh (chOff n r)
  let c := fun r => s.sh (cmpOff n r)
  let order := fun r => decide (bitsOf (c r) 27 16 ≤ bitsOf (c r) 11 0)
  let m := c cmpClamp
  if ¬ (wordPos (w chSafeVpos) ∧ wordPos (w chSafeIpos) ∧ wordNeg (w chSafeVneg) ∧ wordNeg (w chSafeIneg)) then 2
  else if bitsOf (w chSafeCtl) 7 0 = 0 then 3
  else if (bitsOf m 1 0 ≠ 0 ∧ order cmpClthrv) ∨ (bitsOf m 3 2 ≠ 0 ∧ order cmpClthri) then 4
  else if bitsOf (c cmpClhold) 15 0 = 0 then 5
  else 0

/-- R640: the reason for which a commit of set `k` with reference `ref` fails; 0 for none. -/
def State.commitReason (s : State) (k ref : Nat) : Nat :=
  if 67 ≤ k then 6
  else if s.committed k then 7
  else if ref ≠ s.crcWork k then 1
  else if k < 64 then s.safeReason k
  else 0

/-- Working copies come into force. -/
def State.bringIn (s : State) : List Nat → State
  | [] => s
  | o :: r => (s.setRg o (s.sh o)).bringIn r

/-- The source that a mismatch of set `k` raises (R633). -/
def crcSource (k : Nat) : Nat × Nat :=
  if k < 64 then (frCh k, fcCfgCrc) else if k = 64 then (frFab, ffRouteCrc) else if k = 65 then (frBrm, fbSecCrc) else (frSys, fsRtCrc)

/-- Those of set 65 that either copy puts into it (R875): what a commit brings in. -/
def State.secAll (s : State) : List Nat :=
  ((List.range 128).filter s.secEvc).flatMap evcOffs ++ ((List.range 696).filter s.secSub).map subOff

/-- R639: the running commit ends, for set 65 after the events of the cycles before it; the registers that it uses are voted (R632). -/
def State.commitEnd (s : State) : State :=
  match s.crc.run with
  | none => s
  | some (k, ref) =>
    let s := if k = 65 then s.catchUp else s
    let s := s.votes (s.setOffs k true)
    let why := s.commitReason k ref
    let offs := if k = 65 then s.secAll else s.setOffs k true
    let s := { s with crc := { s.crc with run := none } }
    if why ≠ 0 then (s.setRg sysCfgcrcFail (k + 256 * why)).flag sysCfgcrcFlags 2
    else
      let s := s.crcFlip k
      let s := { s with crc := { s.crc with
        refs := tput (fun _ => none) s.crc.refs k (some ref), wrote := tput (fun _ => none) s.crc.wrote k none
        late := if k < 64 then k :: s.crc.late.filter (· ≠ k) else s.crc.late
        lateVal := if k < 64 then offs.map (fun o => (o, s.sh o)) ++ s.crc.lateVal.filter (fun p : Nat × Nat => !offs.contains p.1) else s.crc.lateVal } }
      let s := if k < 64 then s else s.bringIn offs
      let s := s.uncause (crcSource k).1 (crcSource k).2
      s.flag sysCfgcrcFlags 1

/-- Committed contents come into force. -/
def State.bringVals (s : State) : List (Nat × Nat) → State
  | [] => s
  | p :: r => (s.setRg p.1 p.2).bringVals r

/-- R89, R485: the commit of channel `n`'s set takes effect at the channel's boundary. -/
def State.commitLate (s : State) (n : Nat) : State :=
  let mine := fun p : Nat × Nat => (safeOffs n).contains p.1
  let s := s.bringVals (s.crc.lateVal.filter mine)
  { s with crc := { s.crc with late := s.crc.late.filter (· ≠ n), lateVal := s.crc.lateVal.filter fun p : Nat × Nat => !mine p } }

/-- Those due at the present boundary. -/
def State.commitsLate (s : State) : List Nat → State
  | [] => s
  | n :: r => (if s.own n then s.commitLate n else s).commitsLate r

/-! Scans. -/

/-- R641, R605: the scan of one set. -/
def State.scanSet (s : State) (k : Nat) : State :=
  if ¬ s.committed k ∨ s.crc.late.contains k then s
  else
    let (f, i) := crcSource k
    let inj := s.injHit f 6 none
    let bad := inj || decide (s.crcForce k ≠ s.refOf k)
    let s := s.injGen f 6 none
    if bad then s.cause f i else s.uncause f i

/-- The scan of every set. -/
def State.scanSets (s : State) : List Nat → State
  | [] => s
  | k :: r => (s.scanSet k).scanSets r

/-! Commands. -/

def execCfgcrcSelWrite (a : Acc) (k : BitVec 7) (s : State) : Res :=
  s.viaReg a sysCfgcrcSel (0x7F0000 + k.toNat) (·.crcSelect k.toNat)
def execCrcPassDone (s : State) : Res := .next s.crcPassEnd
def execUncommit (a : Acc) (s : State) : Res := s.viaReg a sysCfgcrcCmd 0x10001 (·.uncommitCmd)
def execCommit (a : Acc) (s : State) : Res := s.viaReg a sysCfgcrcCmd 0x20002 (·.commitCmd)
def execCommitDone (s : State) : Res := .next s.commitEnd
def execCfgCrcScan (s : State) : Res := .next (s.scanSets (List.range 67))

end Sys2Proof.Machine
end

