-- ==== Sys2Proof/Machine/FaultCmd.lean ====
section
/-! DEFINITION. Software on faults: clears, unfences, error injection (R598 to R606), the voting of voted registers (R632, R579)
and the ALIVE pin (R595 to R597). -/

namespace Sys2Proof.Machine

/-- The fault frame of a block (R571). -/
def blockFrame : Block → Nat
  | .sys => frSys
  | .core x => frCore x.val
  | .eng => frEng
  | .tile t => frTile t.val
  | .brm => frBrm
  | .fab => frFab
  | .ode => frOde
  | .memc => frMemc
  | .host => frHost
  | .chan n => frCh n.val

/-! Clears of STS registers (R627). -/

/-- Set or clear bit `i` of the register at `o`. -/
def State.putRg (s : State) (o i : Nat) (b : Bool) : State := s.setRg o (putBit (s.rg o) i b)

/-- Bit `i` of the register at `o`. -/
def State.rgBit (s : State) (o i : Nat) : Bool := bitOf (s.rg o) i

/-- Clear the flags of `m` in the STS register at `o`. -/
def State.stsDrop (s : State) (o m : Nat) : State :=
  let w := s.rg o
  s.setRg o (w - (w % 16777216 &&& m))

/-! Routed lines (R814, R815). -/

/-- The level of routed line `i`. [DESIGN CHOICE, log 80] -/
def State.line (s : State) (i : Nat) : Bool :=
  if i = 0 then s.irq frSys else if i = 1 then s.irq frEng else if i = 2 then s.irq frBrm else if i = 3 then s.irq frFab
  else if i = 4 then s.irq frOde else if i = 5 then s.irq frMemc else if i = 6 then s.irq frHost
  else if i < 11 then s.irq (frTile (i - 7))
  else if i < 19 then s.irq (frCore (i - 11))
  else if i < 23 then (tileChans (i - 19)).any fun n => s.irq (frCh n)
  else if i < 27 then decide (s.cmpIrq (i - 23) ≠ 0)
  else if i = 27 then decide (s.fr fabCqWptr ≠ s.fr fabCqRptr)
  else if i = 28 then decide (s.rg (0xE0000 + odeFwqWptr) ≠ s.rg (0xE0000 + odeFwqRptr))
  else if i < 37 then s.hostp.dmaIrq.contains (i - 29)
  else if i = 37 then decide (s.hostp.rx ≠ [])
  else if i = 38 then s.hostp.xspiIrq
  else false

/-- MEIP of core `x` (R813). -/
def State.meip (s : State) (x : Nat) : Bool :=
  (List.range 39).any fun i =>
    let w := s.rg (sysCoreIrqrt + 4 * i)
    bitOf w 3 && decide (bitsOf w 2 0 = x) && s.line i

/-- An MSI-X message of vector `v`: sent, or pending while the vector is masked (R830). -/
def State.msix (s : State) (v : Nat) : State :=
  if ¬ s.hostp.linkUp then s
  else if s.rgBit (0xF8000 + hostHostMsixTab + 16 * v + 12) 0 then s.putRg (0xF8000 + hostHostMsixPba + 4 * (v / 32)) (v % 32) true
  else { s with out := s.out ++ [.msix v] }

/-- R814: lines that have risen send the message of their vector: at the latest when a line may fall, and at a boundary.
[DESIGN CHOICE, log 80] -/
def State.linesRise (s : State) : State :=
  let now := (List.range 39).filter s.line
  if now = s.hostp.lines then s
  else
    let new := now.filter fun i => !s.hostp.lines.contains i && s.rgBit (sysCoreIrqrt + 4 * i) 10
    let s := { s with hostp := { s.hostp with lines := now } }
    new.foldl (fun s i => s.msix (bitsOf (s.rg (sysCoreIrqrt + 4 * i)) 9 4)) s

/-- R599, R600: flags of `m` clear in FLT_STS of frame `f`; those of kind-L sources whose cause is present set again. -/
def State.fltDrop (s : State) (f m : Nat) : State :=
  let s := s.linesRise
  let o := fltOff f fltSts
  let w := s.rg o
  let c := w % 16777216 &&& m
  let src := (List.range 20).filter fun i => bitOf c i
  let again := src.filter fun i => ((srcsOf f).getD i ⟨15, false, 0⟩).lvl && s.causes.contains (f * 32 + i)
  let gone := src.filter fun i => !again.contains i
  let seq := if again = [] then w / 16777216 else (w / 16777216 + 1) % 256
  let keep := again.foldl (fun a i => a + 2 ^ i) 0
  let lost := gone.foldl (fun a i => a + 2 ^ i) 0
  let s := s.setRg o (w % 16777216 - c + keep + 16777216 * seq)
  let s := s.setRg (fltOff f fltPers) ((s.rg (fltOff f fltPers) ||| keep) &&& (1048575 - lost))
  let s := s.setRg (fltOff f fltEsc) (s.rg (fltOff f fltEsc) &&& (1048575 - lost))
  let t := { s with fltReg := s.fltReg.filter fun p => !(decide (p.1 / 32 = f) && gone.contains (p.1 % 32)) }
  if s.aliveStop ∧ ¬ t.aliveStop then { t with alive := { t.alive with left := 400 } } else t

/-- R598, R627: a write of `v` to FLT_STS of frame `f`. -/
def State.fltClear (s : State) (f v : Nat) : State :=
  if v / 16777216 = s.rg (fltOff f fltSts) / 16777216 then s.fltDrop f (v % 16777216) else s.flag (fltOff f fltSts) 0x800000

/-! Unfences (R601, R602). -/

/-- The code of a unit. -/
def unitCode : FenceUnit → Nat
  | .chan n => 64 + n.val
  | .tile t => unTile t.val
  | .core x => unCore x.val
  | .port p => unPort p.val
  | .ddr x => unDdr x.val

/-- The unfence register of a unit, its key and its fault frame. -/
def unfenceReg : FenceUnit → Nat × Nat × Nat
  | .chan n => (chOff n.val chUnfence, 1, frCh n.val)
  | .tile t => (fltOff (frTile t.val) fltUnfence, 1, frTile t.val)
  | .core x => (fltOff (frCore x.val) fltUnfence, 1, frCore x.val)
  | .port p => (fltOff frFab fltUnfence, 1 + p.val, frFab)
  | .ddr x => (fltOff frMemc fltUnfence, 1 + x.val, frMemc)

/-- A source flag is set whose registered fault included FENCE on unit `u`. -/
def State.fenceFlag (s : State) (u : Nat) : Bool :=
  s.fltReg.any fun p => bitOf p.2 2 && decide (fenceTarget (p.1 / 32) (p.1 % 32) = some u)

/-- Unit `u` is fenced. -/
def State.unitFenced (s : State) (u : Nat) : Bool := if 64 ≤ u then decide ((s.ch (u - 64)).state = .fenced) else s.isFenced u

/-- The clock of core `x` is stopped: by its bit of SYS_CORE_GATE, or of C2 to C7 in STANDBY and until it has ended (R711, R717). -/
def State.clockOff (s : State) (x : Nat) : Bool :=
  let p := bitsOf (s.rg sysPwrSts) 1 0
  (decide (0 < x) && bitOf (s.rg sysCoreGate) x) || (decide (2 ≤ x) && (decide (p = 2) || decide (p = 3)))

/-- Core `x` leaves a fence HALTED, behind its gate where its clock is stopped. -/
def State.coreLeaves (s : State) (x : Nat) : State :=
  if s.clockOff x then { (s.setCoreSt x 4) with cpu := { s.cpu with back := tput (fun _ => 1) s.cpu.back x 3 } }
  else s.setCoreSt x 3

/-- R41: a unit leaves its fence in its reset state, a channel at its own boundary (R22). -/
def State.unfenceUnit (s : State) (u : Nat) : State :=
  if 64 ≤ u then
    s.updCh (u - 64) fun c => { c with unf := true }
  else
    let s := { s with fenced := s.fenced.filter (· ≠ u) }
    if 48 ≤ u then s.setRg (ddrOff (u - 48) memcDdrSts) 0
    else if 32 ≤ u then (s.setPortSt (u - 32) 1).linkLevel (u - 32)
    else if 16 ≤ u then s.coreLeaves (u - 16)
    else s

/-- R601: an unfence of unit `u`, whose frame is `f`. -/
def State.unfenceCmd (s : State) (u f : Nat) : State :=
  if s.fenceFlag u ∨ (64 ≤ u ∧ s.isFenced (unTile (tileOf (u - 64)))) then s.flag (fltOff f fltSts) 0x400000
  else if s.unitFenced u then s.unfenceUnit u
  else s

/-! Injection (R604 to R606). -/

/-- R605: the frame's block holds checker `chk`. -/
def injHolds (f chk : Nat) : Bool :=
  if chk = 1 ∨ chk = 2 then decide (f = frMemc)
  else if chk = 3 then decide (10 ≤ f ∧ f < 14)
  else if chk = 4 then decide (f = frFab)
  else if chk = 5 then true
  else if chk = 6 then decide (f = frSys) || decide (f = frBrm) || decide (f = frFab) || decide (19 ≤ f)
  else false

/-- R604, R606: a value completes the pair of FLT_INJ. [DEDUCED, log 65] -/
def State.injectCmd (s : State) (f v : Nat) : State :=
  let chk := bitsOf v 3 0
  let mode := bitsOf v 5 4
  if mode ≠ 3 ∧ (injHolds f chk ∨ (mode = 0 ∧ chk = 0)) then s.setRg (fltOff f fltInj) (v % 512)
  else s.flag (fltOff f fltSts) 0x200000

/-! Voting (R632, R579). -/

/-- R632: the scrub finds the registers of `upsets` with one copy changed, besides those already so. -/
def State.scrub (s : State) (upsets : List Nat) : State :=
  s.voteFixes ((s.voteErr ++ upsets.filter isVoted).eraseDups)

/-! ALIVE (R595 to R597): half its period of 200 µs is 400 base ticks. -/

/-- ALIVE makes the transition that is due; the next one follows 100 µs later. -/
def Alive.turn (a : Alive) : Alive := { a with level := !a.level, held := false, left := 400 }

/-- R595: the next transition of a running ALIVE, in the tick in which it is due; within 1 µs of the registration of an ALIVE_STOP it
may still make one. [DESIGN CHOICE, log 125] -/
def State.aliveToggle (s : State) : State :=
  if s.alive.on ∧ s.alive.left = 0 ∧ ¬ s.alive.held ∧ ¬ s.aliveStop then { s with alive := s.alive.turn }
  else if s.alive.on ∧ s.alive.left = 0 ∧ s.alive.held ∧ s.aliveStop ∧ 0 < s.alive.soon ∧ Config.aliveRuns s.tick then
    { s with alive := { s.alive.turn with held := true } }
  else s

/-- R596: the transition 100 µs after the last ALIVE_STOP ended. -/
def State.aliveResume (s : State) : State :=
  if s.alive.on ∧ s.alive.left = 0 ∧ s.alive.held ∧ ¬ s.aliveStop then { s with alive := s.alive.turn } else s

/-- R597: at a boundary ALIVE begins to run, and a tick of the wait for its next transition is over. [DESIGN CHOICE, log 108] -/
def State.aliveTick (s : State) : State :=
  { s with alive := { s.alive with on := true, left := if s.alive.on then s.alive.left - 1 else 400, soon := s.alive.soon - 1 } }

/-! Commands. -/

def execFaultClear (a : Acc) (b : Block) (v : Word) (s : State) : Res :=
  s.viaReg a (fltOff (blockFrame b) fltSts) v.toNat fun s =>
    (s.stsMeets (fltOff (blockFrame b) fltSts) v.toNat).fltClear (blockFrame b) v.toNat
def execUnfence (a : Acc) (u : FenceUnit) (s : State) : Res :=
  s.viaGrd a (unfenceReg u).1 (unfenceReg u).2.1 (·.unfenceCmd (unitCode u) (unfenceReg u).2.2)
def execFaultInject (a : Acc) (b : Block) (v : Word) (s : State) : Res :=
  s.viaGrd a (fltOff (blockFrame b) fltInj) v.toNat (·.injectCmd (blockFrame b) v.toNat)
def execVoteScrub (upsets : List Nat) (s : State) : Res := .next (s.scrub upsets)
def execAliveToggle (s : State) : Res := .next s.aliveToggle
def execAliveResume (s : State) : Res := .next s.aliveResume

end Sys2Proof.Machine
end

