-- ==== Sys2Proof/Machine/Power.lean ====
section
/-! DEFINITION. The reference and the root PLL (R695 to R701), throttling (R702 to R706), the monitors (R709) and the power
states of the device and the tiles (R711 to R717). -/

namespace Sys2Proof.Machine

/-- Several kind-L causes of frame `f` begin in one cycle. -/
def State.causesOn (s : State) (f : Nat) (is : List Nat) : State :=
  let new := is.filter fun i => !s.causes.contains (f * 32 + i)
  if new = [] then s
  else State.report { s with causes := new.map (f * 32 + ·) ++ s.causes } f (new.map fun i => (i, srcCls f i))

/-- A kind-L cause is present or not. -/
def State.causeIs (s : State) (f i : Nat) (present : Bool) : State := if present then s.cause f i else s.uncause f i

/-! The reference (R699, R700). -/

/-- BAD_CFG of SYS_PWR_FLAGS (R722). -/
def State.badCfg (s : State) : State := s.flag sysPwrFlags 2

/-- R699: a requested move to the clock recovered on UP_PORT is made once that port's SYNC source is clear, from REFCLK or from
the clock of another port. [DEDUCED, log 68] -/
def State.refMove (s : State) : State :=
  if s.clk.move ∧ ¬ bitOf (s.rg (fltOff frFab fltSts)) (ffSync s.upPort) then
    let on := s.rgBit sysClkSts 1 && decide (s.clk.refPort = s.upPort)
    let s := { s with clk := { s.clk with move := false, refPort := s.upPort } }
    if on then s else (s.putRg sysClkSts 1 true).putRg sysClkSts 3 true
  else s

/-- R699: REF_SRC written 1. -/
def State.refRecovered (s : State) : State :=
  if s.isMember then State.refMove { (s.putRg sysClkCfg 0 true) with clk := { s.clk with move := true } } else s.badCfg

/-- REF_SRC written 0: the reference returns to REFCLK. -/
def State.refLocal (s : State) : State :=
  let s := { (s.putRg sysClkCfg 0 false) with clk := { s.clk with move := false } }
  if s.rgBit sysClkSts 1 then (s.putRg sysClkSts 1 false).putRg sysClkSts 3 true else s

/-- R699, R700: a slew ends. -/
def State.slewEnd (s : State) : State := s.putRg sysClkSts 3 false

/-- R700: the selected reference is lost, whether or not the PLL is locked; during the device's own drive of RESET_N nothing is
measured. -/
def State.refLost (s : State) : State :=
  if s.boot.phase = 2 then
    let s := if s.rgBit sysClkSts 2 then s else { s with clk := { s.clk with hold := 0 } }
    (s.putRg sysClkSts 2 true).cause frSys fsRefclkLost
  else s

/-- R700: the selected reference is back. -/
def State.refBack (s : State) : State := (s.putRg sysClkSts 2 false).uncause frSys fsRefclkLost

/-- R700: HOLD_TO in holdover with REF_SRC = 1. -/
def State.holdTimeout (s : State) : State :=
  if s.rgBit sysClkCfg 0 ∧ s.rgBit sysClkSts 1 ∧ s.rgBit sysClkSts 2 ∧
      s.canHaveLasted s.clk.hold (200000 * bitsOf (s.rg sysClkHoldto) 15 0) then
    ((s.refBack).putRg sysClkSts 1 false).putRg sysClkSts 3 true
  else s

/-- PLL_LOCKED in both registers that show it. -/
def State.pllLocked (s : State) (b : Bool) : State := (s.putRg sysClkSts 0 b).putRg sysRstSts 22 b

/-- R701: the lock detector reports loss of lock. -/
def State.pllLost (s : State) : State :=
  if s.rgBit sysClkSts 0 then (s.pllLocked false).cause frSys fsPllUnlock else s

/-! Throttling (R704, R705). -/

/-- R704, R705: the sensors that read below DROOP_TH are those of `below`. [DEDUCED, log 66] -/
def State.droopNow (s : State) (below : Nat) : State :=
  let old := bitsOf (s.rg sysDroopSts) 15 0
  let s := s.setRg sysDroopSts (setBits (s.rg sysDroopSts) 15 0 below)
  let s := if below = 0 then s else { s with clk := { s.clk with quiet := 0 } }
  if below = 0 ∨ old ≠ 0 then s
  else
    let held := s.clk.throttle
    let s := { s with clk := { s.clk with throttle := held || s.rgBit sysDroopCfg 4, ending := false } }
    (if held then s else s.count sysDroopCnt).fault frSys fsDroop

/-- R704: every sensor has read above the threshold for HOLD cycles of CLK_PER. -/
def State.throttleOver (s : State) : State :=
  if ¬ s.canHaveLasted s.clk.quiet (2 * bitsOf (s.rg sysDroopCfg) 23 8) then s
  else
    let s := s.setRg sysDroopSts (setBits (s.rg sysDroopSts) 15 0 0)
    if s.clk.throttle then { s with clk := { s.clk with ending := true } } else s

/-- The boundary at which a throttle ends. -/
def State.throttleEnd (s : State) : State :=
  if s.clk.ending then { s with clk := { s.clk with throttle := false, ending := false } } else s

/-- R706: CLK_ENG's level in force. -/
def State.engNow (s : State) : Nat :=
  max (bitsOf (s.rg sysThrForce) 1 0) (if s.clk.throttle then bitsOf (s.rg sysDroopCfg) 6 5 else 0)

/-- R706, R711: CLK_CORE's level in force. -/
def State.coreNow (s : State) : Nat :=
  if s.pwrSt = 2 then 1
  else max (bitsOf (s.rg sysThrForce) 2 2) (if s.clk.throttle then bitsOf (s.rg sysDroopCfg) 7 7 else 0)

/-- SYS_DROOP_STS as it reads. -/
def State.droopSts (s : State) : Nat := bitsOf (s.rg sysDroopSts) 15 0 + 65536 * s.engNow + 262144 * s.coreNow

/-! The monitors (R709). -/

/-- A temperature `t` in °C × 2^8 judged against the thresholds `th` for the sources `hi` and `crit` of frame `f`. -/
def State.tempJudge (s : State) (f hi crit th : Nat) (t : Int) : State :=
  let lim := fun i => if i = hi then (bitsOf th 7 0 : Int) else (bitsOf th 15 8 : Int)
  let s := [hi, crit].foldl (fun s i => if t < (lim i - 5) * 256 then s.uncause f i else s) s
  s.causesOn f ([hi, crit].filter fun i => decide (lim i * 256 ≤ t))

/-- Tile `t` has been released. -/
def State.released (s : State) (t : Nat) : Bool := s.running && !bitOf s.held.toNat t

/-- The core die's domains are released as far as CLK_CORE (R679). -/
def State.clocked (s : State) : Bool := s.rgBit sysRstSts 5

/-- R709: a temperature measurement of a tile. -/
def State.tempTile (s : State) (t : Nat) (hot : BitVec 16) : State :=
  if s.released t then
    (s.setRg (tileOff t tileTemp) hot.toNat).tempJudge (frTile t) ftTempHi ftTempCrit (s.rg (tileOff t tileThermTh)) hot.toInt
  else s

/-- R709: a temperature measurement of the core die. -/
def State.tempCore (s : State) (hot : BitVec 16) : State :=
  if s.clocked then (s.setRg sysTemp hot.toNat).tempJudge frSys fsTempHi fsTempCrit (s.rg sysThermTh) hot.toInt else s

/-- R709: a tile's supplies leave or regain their window. -/
def State.tileSupply (s : State) (t : Nat) (out : Bool) : State :=
  if s.released t then s.causeIs (frTile t) ftSupply out else s

/-- R709: the core rail leaves or regains its window. -/
def State.coreSupply (s : State) (out : Bool) : State := if s.clocked then s.causeIs frSys fsCoreSupply out else s

/-- R709: a tile's clock or its recovery leaves or regains its window. -/
def State.tileClock (s : State) (t : Nat) (lost : Bool) : State := s.causeIs (frTile t) ftClkQual lost

/-- R710: the values that THERM_TH takes. -/
def thermOk (v : Nat) : Bool :=
  let hi := bitsOf v 7 0
  let crit := bitsOf v 15 8
  decide (60 ≤ hi) && decide (hi ≤ 125) && decide (60 ≤ crit) && decide (crit ≤ 125) && decide (hi + 5 ≤ crit)

/-! Power states (R711 to R717). -/

/-- KEEP_ON of tile `t`. -/
def State.keepOn (s : State) (t : Nat) : Bool := s.rgBit (tileOff t tilePwrCtl) 2

/-- R712 on one tile: its channels are OFF or FENCED and no calibration step runs on it. -/
def State.tileQuiet (s : State) (t : Nat) : Bool :=
  (tileChans t).all (fun n => decide ((s.ch n).state = .off) || decide ((s.ch n).state = .fenced)) &&
    decide ((s.tile t).cal.st = .idle)

/-- R712: the tile's precision scan converters are IDLE. -/
def State.pscsIdle (s : State) (t : Nat) : Bool := (List.range 4).all fun c => decide ((s.psc (4 * t + c)).st = .idle)

/-- R712: STANDBY is acceptable. -/
def State.mayStandby (s : State) : Bool :=
  decide (s.pwrSt = 0) && (List.range 4).all fun t => s.tileQuiet t && (s.keepOn t || s.pscsIdle t)

/-- R711, R712: STANDBY written. [DEDUCED, log 69] -/
def State.standbyCmd (s : State) : State :=
  if s.mayStandby then ((s.setRg sysPwrSts 1).ddrMove 2 3 0).ddrMove 2 3 1 else s.flag sysPwrFlags 1

/-- R717: the clock of core `x` is stopped. -/
def State.gate (s : State) (x : Nat) : State :=
  let st := s.coreSt x
  if 1 ≤ st ∧ st ≤ 3 then { (s.setCoreSt x 4) with cpu := { s.cpu with back := tput (fun _ => 1) s.cpu.back x st } } else s

/-- The clock of core `x` runs again. -/
def State.ungate (s : State) (x : Nat) : State :=
  if s.coreSt x = 4 then
    { (s.setCoreSt x (tget (fun _ => 1) s.cpu.back x)) with cpu := { s.cpu with back := tput (fun _ => 1) s.cpu.back x 1 } }
  else s

/-- R714: tile `t` is put to sleep if its conditions hold. -/
def State.tileSleep (s : State) (t : Nat) : State :=
  if s.tileOn t ∧ ¬ s.keepOn t ∧ s.tileQuiet t ∧ s.pscsIdle t then s.setRg (tileOff t tilePwrSts) 1 else s

/-- R714: SLEEP written. -/
def State.sleepCmd (s : State) (t : Nat) : State :=
  if ¬ s.keepOn t ∧ s.tileQuiet t ∧ s.pscsIdle t then s.tileSleep t else s.flag sysPwrFlags 1

/-- R714: WAKE written. -/
def State.wakeCmd (s : State) (t : Nat) : State :=
  if bitsOf (s.rg (tileOff t tilePwrSts)) 1 0 = 1 then s.setRg (tileOff t tilePwrSts) 2 else s

/-- R714: WAKING completes. -/
def State.wakingEnd (s : State) (t : Nat) : State :=
  if bitsOf (s.rg (tileOff t tilePwrSts)) 1 0 = 2 then s.setRg (tileOff t tilePwrSts) 0 else s

/-- R711, R712: TO_STANDBY completes; the wake requests that waited take effect. -/
def State.standbyEnd (s : State) : State :=
  if s.pwrSt ≠ 1 then s
  else
    let s := s.setRg sysPwrSts 2
    let s := [2, 3, 4, 5, 6, 7].foldl State.gate s
    let s := [0, 1, 2, 3].foldl State.tileSleep s
    let cs := s.clk.wakeCores
    let ns := s.clk.wakeChans
    let s := { s with clk := { s.clk with wakeChans := [], wakeCores := [] } }
    ns.foldl State.wakeChan (s.wakeCores cs)

/-- R711: RUN written. -/
def State.runCmd (s : State) : State := if s.pwrSt = 2 then s.toRun else s

/-- R711, R717: SYS_CORE_GATE in force for the cores `xs`. -/
def State.applyGate (s : State) (xs : List Nat) : State :=
  xs.foldl (fun s x => if s.rgBit sysCoreGate x then s.gate x else s.ungate x) s

/-- R711: TO_RUN completes. -/
def State.runEnd (s : State) : State :=
  if s.pwrSt ≠ 3 then s
  else (((s.setRg sysPwrSts 0).ddrMove 3 2 0).ddrMove 3 2 1).applyGate [2, 3, 4, 5, 6, 7]

/-- R713: a DDR5 channel without access for 10 µs in STANDBY. -/
def State.ddrRest (s : State) (x : Nat) : State :=
  if s.pwrSt = 2 ∧ s.canHaveLasted (s.ddrAge x) 2000 then s.ddrMove 2 3 x else s

/-! Commands. -/

def execRefSrc (a : Acc) (s : State) : Res := s.viaReg a sysClkCfg 0x10001 (·.refRecovered)
def execRefclkLost (s : State) : Res := .next s.refLost
def execRefclkReturn (s : State) : Res := .next s.refBack
def execSlewingEnd (s : State) : Res := .next s.slewEnd
def execHoldoverTimeout (s : State) : Res := .next s.holdTimeout
def execPllUnlock (s : State) : Res := .next s.pllLost
def execDroop (below : BitVec 16) (s : State) : Res :=
  .next (if s.clocked then (s.votes [sysDroopCfg]).droopNow below.toNat else s)
def execThrottleEnd (s : State) : Res := .next (s.votes [sysDroopCfg]).throttleOver
def execTempMonitor (site : TempSite) (hottest : BitVec 16) (s : State) : Res :=
  match site with
  | .tile t => .next ((s.votes [tileOff t.val tileThermTh]).tempTile t.val hottest)
  | .coreDie => .next ((s.votes [sysThermTh]).tempCore hottest)
def execSupplyExcursion (site : SupplySite) (outside : Bool) (s : State) : Res :=
  match site with
  | .tile t => .next (s.tileSupply t.val outside)
  | .core => .next (s.coreSupply outside)
def execClkQual (t : TileId) (lost : Bool) (s : State) : Res := .next (s.tileClock t.val lost)
def execStandby (a : Acc) (s : State) : Res := s.viaReg a sysPwrCtl 0x10001 (·.standbyCmd)
def execRun (a : Acc) (s : State) : Res := s.viaReg a sysPwrCtl 0x20002 (·.runCmd)
def execStandbyReached (s : State) : Res := .next s.standbyEnd
def execRunReached (s : State) : Res := .next s.runEnd
def execSleep (a : Acc) (t : TileId) (s : State) : Res := s.viaReg a (tileOff t.val tilePwrCtl) 0x10001 (·.sleepCmd t.val)
def execWake (a : Acc) (t : TileId) (s : State) : Res := s.viaReg a (tileOff t.val tilePwrCtl) 0x20002 (·.wakeCmd t.val)
def execTileOn (t : TileId) (s : State) : Res := .next (s.wakingEnd t.val)
def execDdrSelfRefresh (x : DdrId) (s : State) : Res := .next (s.ddrRest x.val)

end Sys2Proof.Machine
end

