-- ==== Sys2Proof/Machine/Startup.lean ====
section
/-! DEFINITION. Reset, straps, the trim load, the release of the domains, boot and the block resets (R659 to R692, R864, R870). -/

namespace Sys2Proof.Machine

/-- STAGE of SYS_RST_STS: 0 reset, 1 strap, 2 trim, 3 PLL, 4 release, 5 boot, 6 image running, 7 boot wait. -/
def State.stageNo (s : State) : Nat := bitsOf (s.rg sysRstSts) 3 0

/-- Set it. [DEDUCED, log 70] -/
def State.setStage (s : State) (v : Nat) : State := s.setRg sysRstSts (setBits (s.rg sysRstSts) 3 0 v)

/-- REL and CLK_WAIT of domain `d`: 0 SerDes, 1 memory, 2 cores, 3 + t tile t. -/
def State.rel (s : State) (d : Nat) : Bool := s.rgBit sysRstSts (4 + d)
def State.setRel (s : State) (d : Nat) (b : Bool) : State := s.putRg sysRstSts (4 + d) b
def State.clkWait (s : State) (d : Nat) : Bool := s.rgBit sysRstSts (11 + d)
def State.setWait (s : State) (d : Nat) (b : Bool) : State := s.putRg sysRstSts (11 + d) b

/-- A source of either kind is raised. -/
def State.raise (s : State) (f i : Nat) : State := (s.onset0 f i).settleFaults

/-! Reset (R659 to R666). -/

/-- R660, R663: an accepted low pulse of RESET_N; during the device's own drive, or before the pin has read high for 5 µs, it is
part of the same reset. -/
def State.pinReset (s : State) : State := if s.boot.phase = 2 then s.chipReset 1 else s

/-- R661: the device's own drive ends. -/
def State.driveEnd (s : State) : State :=
  if s.boot.phase = 0 then { s with boot := { s.boot with phase := 1 } } else s

/-- R663: the sequence starts. -/
def State.seqStart (s : State) : State :=
  if s.boot.phase = 1 then State.setStage { s with boot := { phase := 2 } } 1 else s

/-- R666: a software chip reset. -/
def State.swReset (s : State) : State := (s.setRg (fltOff frSys fltSysFltRstsrc) 0).chipReset 2

/-! The strap (R669 to R674). -/

/-- R670: the band that a reading falls in; none for a reading in no band. -/
def strapBand (n : Nat) : Option Nat :=
  if n ≤ 13 then some 0
  else if 242 ≤ n then some 15
  else if 2 ≤ n % 16 ∧ n % 16 ≤ 13 then some (n / 16) else none

/-- SYS_STRAP of a reading (R670, R672, R694). -/
def strapWord (n : Nat) : Nat :=
  match strapBand n with
  | none => n + 256 * (Config.strapAmbig n).toNat + 8192 + 16384
  | some c => n + 256 * c + 4096 * b2n (decide (8 ≤ c) && decide (c ≤ 13)) + 16384 * b2n (decide (8 ≤ c) && decide (c ≤ 14))

/-- R677: a load attempt of die `d` begins. -/
def State.trimStart (s : State) (d : Nat) : State :=
  let s := s.count (sysTrimLoads + 4 * d)
  let s := s.setRg sysTrimSts (setBits (s.rg sysTrimSts) (2 * d + 1) (2 * d) 0)
  { s with boot := { s.boot with tries := tput (fun _ => 0) s.boot.tries d (tget (fun _ => 0) s.boot.tries d + 1) } }

/-- R669, R673: the measurement ends: the mean of 64 conversions, rounded down and saturated. -/
def State.strapSet (s : State) (sum : Nat) : State :=
  if s.boot.phase = 2 ∧ s.stageNo = 1 then
    let s := s.setRg sysStrap (strapWord (min 255 (sum / 64)))
    let c := s.strapCode
    let free := !s.svcHold
    let pcie := free && (c == 0 || c == 1 || c == 4 || c == 5 || c == 15)
    let ports := if free && decide (2 ≤ c) && decide (c ≤ 5) then 15 else if free && c == 7 then 3 else 0
    let s := { s with boot := { s.boot with pcie := pcie, ports := ports } }
    [0, 1, 2, 3, 4].foldl State.trimStart (s.setStage 2)
  else s

/-! The trim load (R675 to R677, R526). -/

/-- RESULT of die `d`: 0 loading, 1 passed, 2 failed. -/
def State.trimResult (s : State) (d : Nat) : Nat := bitsOf (s.rg sysTrimSts) (2 * d + 1) (2 * d)

/-- Set it. -/
def State.setTrimResult (s : State) (d v : Nat) : State :=
  s.setRg sysTrimSts (setBits (s.rg sysTrimSts) (2 * d + 1) (2 * d) v)

/-- The address lies in copy A of an object or in a trim record of tile `t` (R519, R520). -/
def factoryArea (t a : Nat) : Bool :=
  if 0x5100000 ≤ a ∧ a < 0x5300000 then decide ((a - 0x5100000) / 0x8000 / 16 = t) && decide (a % 0x400 < 0x200)
  else if 0x5300000 ≤ a ∧ a < 0x5320000 then decide ((a - 0x5300000) / 0x2000 / 4 = t) && decide (a % 0x400 < 0x200)
  else if 0x5320000 ≤ a ∧ a < 0x5324000 then decide ((a - 0x5320000) / 0x1000 = t)
  else false

/-- The address lies in either copy of an object or in a trim record of tile `t`. -/
def objArea (t a : Nat) : Bool :=
  if 0x5100000 ≤ a ∧ a < 0x5300000 then decide ((a - 0x5100000) / 0x8000 / 16 = t)
  else if 0x5300000 ≤ a ∧ a < 0x5320000 then decide ((a - 0x5300000) / 0x2000 / 4 = t)
  else if 0x5320000 ≤ a ∧ a < 0x5324000 then decide ((a - 0x5320000) / 0x1000 = t)
  else false

/-- R526: the objects and trim records of tile `t` are zero. -/
def State.objClear (s : State) (t : Nat) : State :=
  let out := fun a => !objArea t a
  { s with mem := s.mem.filter fun p => out p.1, memUE := s.memUE.filter out, memCE := s.memCE.filter out }

/-- Bytes stored at their addresses. -/
def State.storeCells (s : State) : List (Nat × Byte) → State
  | [] => s
  | (a, b) :: r => State.storeCells (s.storeRaw a [b]) r

/-- A load of tile `t` that passed: R_PIP, and at start-up the factory calibration, with copies B zero (R526). A block reset keeps
the calibration area (R690). -/
def State.trimTake (s : State) (t : Nat) (img : TrimImage) : State :=
  let s := s.setTile t { s.tile t with rsrc := img.rsrc.toNat }
  let s := s.setRg (tileOff t tilePipRsrc) img.rsrc.toNat
  if s.boot.filled.contains t then s
  else
    let s := (s.objClear t).storeCells (img.area.filter fun p => factoryArea t p.1)
    { s with boot := { s.boot with filled := t :: s.boot.filled, fresh := t :: s.boot.fresh } }

/-- R667: step 2 ends when every die has a result and the core die's is a pass. -/
def State.trimSettle (s : State) : State :=
  if s.stageNo = 2 ∧ s.trimResult 0 = 1 ∧ ([1, 2, 3, 4].all fun d => decide (s.trimResult d ≠ 0)) then s.setStage 3 else s

/-- R580, R676: a load attempt of die `d` ends. A pass ends the cause of TRIM_CRC. -/
def State.trimDone (s : State) (d : Nat) (pass : Bool) (img : TrimImage) : State :=
  let t := d - 1
  let again := decide (1 ≤ d) && s.boot.reload.contains t
  if s.boot.phase ≠ 2 ∨ s.trimResult d ≠ 0 ∨ ¬ (s.stageNo = 2 ∨ again) then s
  else
    let done_ := fun (s : State) => { s with boot := { s.boot with reload := s.boot.reload.filter (· ≠ t) } }
    if pass then
      let s := s.setTrimResult d 1
      let s := if d = 0 then s
        else ((done_ (s.trimTake t img)).uncause (frTile t) ftTrimCrc).setWait (3 + t) again
      s.trimSettle
    else if tget (fun _ => 0) s.boot.tries d < 3 then s.trimStart d
    else if d = 0 then (s.setTrimResult 0 2).putRg sysRstSts 23 true
    else
      let s := ((done_ s).setTrimResult d 2).putRg sysRstSts (18 + t) true
      State.trimSettle (s.raise (frTile t) ftTrimCrc)

/-! Release of the domains (R678 to R681). -/

/-- R678, R701: the root PLL locks; the turn of the SerDes domain begins at start-up. -/
def State.pllGot (s : State) : State :=
  if s.boot.phase ≠ 2 ∨ s.stageNo < 3 then s
  else
    let s := (s.pllLocked true).uncause frSys fsPllUnlock
    if s.stageNo = 3 then (s.setStage 4).setWait 0 true else s

/-- Step 4 ends: the boot goes on (R682), or waits where every copy has failed (R687). -/
def State.step4End (s : State) : State :=
  if s.stageNo = 4 then
    (if s.rgBit sysBootSts 3 ∧ ¬ s.boot.busy ∧ ¬ s.boot.ok ∧ ¬ s.svcHold then s.setStage 7 else s.setStage 5)
  else s

/-- A tile leaves reset (R680, R681, R864). -/
def State.tileRelease (s : State) (t : Nat) : State :=
  let s := { s with held := s.held &&& BitVec.ofNat 4 (15 - 2 ^ t) }
  let s := (s.setRel (3 + t) true).setWait (3 + t) false
  if s.boot.fresh.contains t then
    let s := { s with boot := { s.boot with fresh := s.boot.fresh.filter (· ≠ t) } }
    (tileChans t).foldl (fun s n => ((s.trimLoad n [6]).cmpSettle n).trimReload n) s
  else s

/-- Tile `t` waits for its release. -/
def State.tileReady (s : State) (t : Nat) : Bool :=
  bitOf s.held.toNat t && decide (s.trimResult (1 + t) = 1) && !s.rgBit sysRstSts (18 + t)

/-- Every tile is held by R676 or R679. -/
def State.allHeld (s : State) : Bool := decide (bitsOf (s.rg sysRstSts) 21 18 = 15)

/-- Base ticks begin: cycle 0 of base tick 0 (R31, R680). -/
def State.beginTicks (s : State) : State :=
  if s.running then s else State.step4End (State.tickFires { s.mtimeShow with running := true, tick := 0 })

/-- Ports that the strap enables leave reset (R673, R727). -/
def State.portsRelease (s : State) : State :=
  [0, 1, 2, 3].foldl (fun s p => if bitOf s.boot.ports p ∧ s.portSt p = 0 then s.setPortSt p 1 else s) s

/-- R682: the core domain is released: C0 runs the boot ROM, which fetches an image from the flash where the strap says so. -/
def State.coresRelease (s : State) : State :=
  let s := [1, 2, 3, 4, 5, 6, 7].foldl (fun s x => s.setCoreSt x 3) (s.setCoreSt 0 1)
  let c := s.strapCode
  if s.svcHold then { s with boot := { s.boot with loader := { on := true } } }
  else if c = 1 ∨ c = 5 then s.setRg sysBootSts 1
  else if c = 2 ∨ c = 7 then s.setRg sysBootSts 2
  else { s with boot := { s.boot with busy := true, src := 0 } }

/-- R679: a domain is released, each after the one before it; of the tiles those that `q` names. -/
def State.domainRelease (s : State) (d : Domain) : State :=
  if s.boot.phase ≠ 2 ∨ s.stageNo < 4 then s
  else match d with
    | .serdes => if s.rel 0 then s else (((s.setRel 0 true).setWait 0 false).setWait 1 true).portsRelease
    | .memory => if s.rel 1 ∨ ¬ s.rel 0 then s else ((s.setRel 1 true).setWait 1 false).setWait 2 true
    | .cores =>
      if s.rel 2 ∨ ¬ s.rel 1 then s
      else
        let s := ((s.setRel 2 true).setWait 2 false).coresRelease
        let s := [0, 1, 2, 3].foldl (fun s t => s.setWait (3 + t) (s.tileReady t)) s
        if s.allHeld then s.beginTicks else s
    | .tiles q =>
      if ¬ s.rel 2 then s
      else
        let ts := [0, 1, 2, 3].filter fun t => bitOf q.toNat t && s.tileReady t
        if ts = [] then s else (ts.foldl State.tileRelease s).beginTicks

/-- R679: a unit has not qualified 2 ms after its turn. -/
def State.qualTimeout (s : State) (u : QualUnit) : State :=
  match u with
  | .port p => if bitOf s.boot.ports p ∧ s.clkWait 0 then (s.fence (unPort p.val)).fault frFab (ffLink p.val) else s
  | .pcie =>
    if s.boot.pcie ∧ s.clkWait 0 then State.cause { s with boot := { s.boot with phyHeld := true } } frHost fhLinkDown else s
  | .ddr x => if s.clkWait 1 then (s.fence (unDdr x.val)).raise frMemc (fmDdrLink x.val) else s
  | .tile t =>
    if s.clkWait (3 + t.val) then
      let s := ((s.setWait (3 + t.val) false).putRg sysRstSts (18 + t.val) true).cause (frTile t.val) ftClkQual
      if s.allHeld then s.beginTicks else s
    else s

/-! Boot (R682 to R687). -/

/-- The start of core memory, where every image is staged (R684). -/
abbrev bootStage : Nat := 0x5400000

/-- The fields of the image header at `a` against R684, for an image of at most `lim` bytes: 0 good, 1 MAGIC, 2 HEADER. -/
def State.headerWhy (s : State) (a lim : Nat) : Nat :=
  let len := s.w32 (a + 8)
  let entry := s.w32 (a + 12)
  let zero := fun o n => (s.bytes (a + o) n).all (· == 0)
  if s.w32 a ≠ 0x4E4D4D45 then 1
  else if s.w32 (a + 4) = 1 ∧ len % 4 = 0 ∧ 4 ≤ len ∧ len + 256 ≤ lim ∧ 256 ≤ entry ∧ entry < 256 + len ∧
      s.w32 (a + 20) < 4 ∧ zero 0x18 8 = true ∧ zero 0xA0 0x60 = true then 0
  else 2

/-- REASON of SYS_BOOT_STS for a verdict on the image at `a` whose header the device judges itself. [DEDUCED, log 71] -/
def State.imageWhy (s : State) (a lim : Nat) (v : ImageVerdict) : Nat :=
  if v = .read ∨ s.ue a 256 then 6
  else
    let h := s.headerWhy a lim
    if h ≠ 0 then h
    else match v with
      | .pass => 0
      | .magic => 1
      | .header => 2
      | .key => 3
      | .sig => 4
      | .rollback => 5
      | .read => 6

/-- SYS_BOOT_STS at the begin of a verification: SRC and the copy. -/
def State.bootSrc (s : State) (src : Nat) (backup : Bool) : State :=
  s.setRg sysBootSts ((s.rg sysBootSts) / 8 * 8 + src + 4 * b2n backup)

/-- R687: boot wait, once step 4 has ended. -/
def State.bootWait (s : State) : State :=
  let s := { s with boot := { s.boot with busy := false, loader := { on := true } } }
  if s.stageNo = 5 ∧ ¬ s.svcHold then s.setStage 7 else s

/-- R685 to R687, R836: a verification ends. From the flash, `flash` is what the ROM has staged. -/
def State.bootVerdict (s : State) (v : ImageVerdict) (flash : List Byte) : State :=
  if ¬ s.boot.busy then s
  else
    let src := s.boot.src
    let s := if src = 0 then s.corePut 0 bootStage flash else s
    let why := s.imageWhy bootStage 0x800000 v
    if why = 0 then
      let s := if src = 3 then { s with out := s.out ++ [.uart 0x06] } else s
      { s with boot := { s.boot with busy := false, ok := true, loader := {} } }
    else
      let s := s.setRg sysBootSts (setBits (s.rg sysBootSts ||| 8) 7 4 why)
      if src = 0 ∧ ¬ s.rgBit sysBootSts 2 then s.bootSrc 0 true
      else
        let s := if src = 3 then { s with out := s.out ++ [.uart 0x15, .uart (BitVec.ofNat 8 why)] } else s
        s.bootWait

/-- R682, R686: C0 jumps to the verified image. -/
def State.bootGo (s : State) : State :=
  if s.boot.ok ∧ s.stageNo = 5 then
    let s := { (s.setStage 6) with boot := { s.boot with ok := false } }
    s.coreStart 0 (bootStage + s.w32 (bootStage + 12))
  else s

/-- R683, R687: the doorbell, in stages 5 and 7, from a requester whose path the strap enables. -/
def State.bootDoor (s : State) (r : Req) (v : Nat) : State :=
  let src := match r with
    | .host => if s.boot.pcie then some 1 else none
    | .fabric => if s.boot.ports ≠ 0 then some 2 else none
    | .core _ => if s.boot.pcie then some 1 else if s.boot.ports ≠ 0 then some 2 else none
  match src with
  | none => s
  | some src =>
    if v = 1 ∧ (s.stageNo = 5 ∨ s.stageNo = 7) ∧ ¬ s.boot.busy ∧ ¬ s.boot.ok then
      State.setStage { (s.bootSrc src false) with boot := { s.boot with busy := true, src := src, loader := {} } } 5
    else s

/-! Block resets (R689 to R692). -/

/-- R690: the unit of a key is idle, or held in reset. -/
def State.unitIdle (s : State) (kind i : Nat) : Bool :=
  match kind with
  | 1 => bitOf s.held.toNat i ||
      ((tileChans i).all s.chIdle && s.pscsIdle i && decide ((s.tile i).cal.st = .idle))
  | 2 => decide (s.coreSt i = 3)
  | 3 => decide (s.portSt i < 2) && decide ((s.port i).sent = [])
  | _ => (List.range 64).all fun n => (List.range 3).all fun k => !meets (ddrArea s.rg n k) (some (137438953472 * i, 137438953472))

/-- The unit's code in `State.fenced`. -/
def blockUnit (kind i : Nat) : Nat := if kind = 1 then unTile i else if kind = 2 then unCore i else if kind = 3 then unPort i else unDdr i

/-- Units of a kind. -/
def blockCount (kind : Nat) : Nat := if kind = 1 ∨ kind = 3 then 4 else if kind = 2 then 8 else if kind = 4 then 2 else 0

/-- R18, R688: the pins of a channel whose tile is in reset. -/
def State.pinsReset (s : State) (n : Nat) : State :=
  (s.pwmLow n).updCh n fun c => { c.drop with outEn := false, rngP := 15, rngS := 15, vrngP := 0 }

/-- R690, R870: a tile block reset. The tile is held while its trim load is rerun, which ends a TRIM_CRC of the load before it. -/
def State.tileBlockReset (s : State) (t : Nat) : State :=
  let s := (tileChans t).foldl (fun s n => (s.chanReset n).pinsReset n) s
  let s := (s.tileReset t).uncause (frTile t) ftTrimCrc
  let s := { s with held := s.held ||| BitVec.ofNat 4 (2 ^ t) }
  let s := ((s.setRel (3 + t) false).setWait (3 + t) false).putRg sysRstSts (18 + t) false
  let s := { s with boot := { s.boot with tries := tput (fun _ => 0) s.boot.tries (1 + t) 0
                                          reload := t :: s.boot.reload.filter (· ≠ t) } }
  s.trimStart (1 + t)

/-- R690: a core restarts halted; a fenced one stays fenced. -/
def State.coreBlockReset (s : State) (x : Nat) : State :=
  let s := s.coreReset x
  if s.isFenced (unCore x) then s else s.setCoreSt x 3

/-- R690: port logic reset; the link retrains. -/
def State.portBlockReset (s : State) (p : Nat) : State :=
  let s := s.portReset p
  (if s.isFenced (unPort p) ∨ s.portSt p = 0 then s else s.setPortSt p 1).linkLevel p

/-- R690: a DDR5 channel's block reset. [DEDUCED, log 72] -/
def State.ddrBlockReset (s : State) (x : Nat) : State :=
  (s.ddrReset x).setRg (ddrOff x memcDdrSts) (if s.isFenced (unDdr x) then 5 else 0)

/-- R689, R691, R692: a completed pair of SYS_BLKRST; in the cycle of a fence of the unit the fence's reset stands in for it. -/
def State.blockResetCmd (s : State) (key : Nat) : State :=
  let kind := bitsOf key 3 0
  let i := bitsOf key 9 4
  if blockCount kind ≤ i then s.flag sysBlkrstSts 4
  else
    let s := s.setRg sysBlkrstLast (key % 1024)
    if s.isFenced (blockUnit kind i) ∨ s.unitIdle kind i then
      let s := if s.fencedNow (blockUnit kind i) then s else match kind with
        | 1 => s.tileBlockReset i
        | 2 => s.coreBlockReset i
        | 3 => s.portBlockReset i
        | _ => s.ddrBlockReset i
      s.flag sysBlkrstSts 1
    else s.flag sysBlkrstSts 2

/-! Commands. -/

def execPowerOnReset (s : State) : Res := .next (s.chipReset 0)
def execResetPin (s : State) : Res := .next s.pinReset
def execResetDriveEnd (s : State) : Res := .next s.driveEnd
def execSequenceStart (s : State) : Res := .next s.seqStart
def execStrapMeasured (sum : Nat) (s : State) : Res := .next (s.strapSet sum)
def execTrimLoadDone (d : DieId) (pass : Bool) (img : TrimImage) (s : State) : Res := .next (s.trimDone d.val pass img)
def execPllLock (s : State) : Res := .next s.pllGot
/-- R678: the device stays at step 3; only the lock restarts. -/
def execPllLockRetry (s : State) : Res := .next s
def execDomainRelease (d : Domain) (s : State) : Res := .next (s.domainRelease d)
def execQualifierTimeout (u : QualUnit) (s : State) : Res := .next (s.qualTimeout u)
def execImageVerified (v : ImageVerdict) (flash : List Byte) (s : State) : Res := .next (s.bootVerdict v flash)
def execBootJump (s : State) : Res := .next s.bootGo
def execSysBootDoor (a : Acc) (v : Word) (s : State) : Res := s.viaReg a sysBootDoor v.toNat (·.bootDoor a.req v.toNat)
def execSysChiprst (a : Acc) (s : State) : Res := s.viaGrd a sysChiprst 1 (·.swReset)
def execBlockReset (a : Acc) (key : Word) (s : State) : Res := s.viaGrd a sysBlkrst key.toNat (·.blockResetCmd key.toNat)

end Sys2Proof.Machine
end

