-- ==== Sys2Proof/Machine/Cores.lean ====
section
/-! DEFINITION. The cores as far as commands reach them (R808 to R815), firmware updates (R824 to R826), and the patrols and
training of the memories (R816 to R823). -/

namespace Sys2Proof.Machine

/-! Halt, run and restart (R809, R810). -/

/-- What the programs of cores have done in the tick that ends: a core that runs leaves registers, and stands in wait-for-interrupt or
runs. [DESIGN CHOICE, log 142] -/
def State.coresRun (s : State) (l : List CoreIn) : State :=
  l.foldl (fun s c =>
    let x := c.core.val
    if s.coreSt x = 1 ∨ s.coreSt x = 2 then (s.setCoreRegs x c.regs).setCoreSt x (if c.wfi then 2 else 1) else s) s

/-- HALT written. -/
def State.haltCmd (s : State) (x : Nat) : State :=
  let st := s.coreSt x
  if (st = 1 ∨ st = 2 ∨ st = 4) ∧ ¬ s.cpu.halting.contains x then { s with cpu := { s.cpu with halting := s.cpu.halting ++ [x] } }
  else s

/-- A halting core reaches its instruction boundary with no access outstanding. -/
def State.haltEnd (s : State) (x : Nat) : State :=
  let st := s.coreSt x
  if s.cpu.halting.contains x ∧ (st = 1 ∨ st = 2) then
    { (s.setCoreSt x 3) with cpu := { s.cpu with halting := s.cpu.halting.filter (· ≠ x) } }
  else s

/-- RUN written. -/
def State.resumeCmd (s : State) (x : Nat) : State := if s.coreSt x = 3 then s.setCoreSt x 1 else s

/-- RESTART written: the core starts at CORE_VECx with its registers at their reset values; a gated one when its clock runs.
[DEDUCED, log 73] -/
def State.restartCmd (s : State) (x : Nat) : State :=
  let st := s.coreSt x
  if st = 0 ∨ 5 ≤ st then s
  else
    let s := State.coreStart { s with cpu := { s.cpu with halting := s.cpu.halting.filter (· ≠ x) } } x (s.rg (coreOff x coreVec))
    if st = 4 then { s with cpu := { s.cpu with back := tput (fun _ => 1) s.cpu.back x 1 } } else s.setCoreSt x 1

/-- A write of CORE_CTLx by core Cx itself is ignored. -/
def coreSelf (r : Req) (x : Nat) : Bool :=
  match r with
  | .core y => decide (y.val = x)
  | _ => false

/-- A command in CORE_CTLx. -/
def State.coreCmd (s : State) (r : Req) (x : Nat) (eff : State → State) : State := if coreSelf r x then s else eff s

/-! Watchdogs and timers (R808, R812, R813). -/

/-- The watchdog of core `x` reloads; it counts base ticks of 250 ns. -/
def State.wdogLoad (s : State) (x : Nat) : State :=
  { s with cpu := { s.cpu with wdog := tput (fun _ => 0) s.cpu.wdog x (4000 * bitsOf (s.rg (coreOff x coreWdog)) 15 0) } }

/-- The watchdog of core `x` counts. -/
def State.wdogRuns (s : State) (x : Nat) : Bool :=
  decide (bitsOf (s.rg (coreOff x coreWdog)) 15 0 ≠ 0) && (decide (s.coreSt x = 1) || decide (s.coreSt x = 2))

/-- R812: the watchdog of core `x` has reached zero. -/
def State.wdogZero (s : State) (x : Nat) : State :=
  if s.wdogRuns x ∧ tget (fun _ => 0) s.cpu.wdog x = 0 then (s.wdogLoad x).fault (frCore x) fxWdog else s

/-- R812: a write to CORE_KICKx. -/
def State.kick (s : State) (x v : Nat) : State := if v = 0x5A then s.wdogLoad x else s

/-- The watchdogs over one base tick. -/
def State.wdogTick (s : State) : State :=
  if s.cpu.wdog = [] then s
  else (List.range 8).foldl (fun s x =>
    if s.wdogRuns x then
      { s with cpu := { s.cpu with wdog := tput (fun _ => 0) s.cpu.wdog x (tget (fun _ => 0) s.cpu.wdog x - 1) } }
    else s) s

/-- R813: core `x` has mtimecmp `cmp`: MTIP is the comparison. -/
def State.timerCmp (s : State) (x cmp : Nat) : State :=
  let s := s.mtimeShow
  { s with cpu := { s.cpu with
      mtimecmp := tput (fun _ => 18446744073709551615) s.cpu.mtimecmp x cmp
      mtip := (if cmp ≤ s.mtime then x :: s.cpu.mtip.filter (· ≠ x) else s.cpu.mtip.filter (· ≠ x)) } }

/-- MTIP of every core as mtime stands. -/
def State.mtips (s : State) : State :=
  let l := (List.range 8).filter fun x => decide (tget (fun _ => 18446744073709551615) s.cpu.mtimecmp x ≤ s.mtime)
  if l = s.cpu.mtip then s else { s with cpu := { s.cpu with mtip := l } }

/-! Firmware updates (R824 to R826). -/

/-- GO in CORE_UPD_CTL. [DEDUCED, log 74] [DESIGN CHOICE, log 147] -/
def State.updGoCmd (s : State) : State :=
  let x := bitsOf (s.rg sysCoreUpdCtl) 3 1
  let src := s.rg sysCoreUpdSrc
  let len := s.w32 (src + 8)
  if s.cpu.upd.isSome then s.updFlag 4 9
  else if s.coreSt x ≠ 3 ∧ s.coreSt x ≠ 5 then s.updFlag 4 8
  else if src % 256 ≠ 0 ∨ src < 0x5800000 ∨ 0x5C00000 < src + 256 ∨ 0x80000 < len + 0x100 ∨ 0x5C00000 < src + 256 + len then
    s.updFlag 4 7
  else { s with cpu := { s.cpu with upd := some ⟨x, src⟩ } }

/-- R825, R826: the running update ends. A word of the core's memory that cannot be written fails it as READ. [DESIGN CHOICE, log 145] -/
def State.updEnd (s : State) (v : ImageVerdict) : State :=
  match s.cpu.upd with
  | none => s
  | some u =>
    let s := { s with cpu := { s.cpu with upd := none } }
    let n := 256 + s.w32 (u.src + 8)
    let why := if s.ue u.src n then 6 else s.imageWhy u.src 0x80000 v
    let s := s.unitRead u.src n
    if why ≠ 0 then s.updFlag 4 why
    else
      let tcm := 0x5400000 + 0x80000 * u.slot
      let p := s.put tcm (s.bytes u.src n)
      if p.2 ≠ [] then (p.1.fault (frCore u.slot) fxTcmUe).updFlag 4 6
      else (p.1.setRg (coreOff u.slot coreVec) (tcm + s.w32 (u.src + 12))).updFlag 2 0

/-! Patrols (R817, R818, R823). -/

/-- An error in the word at `a` of on-chip SRAM is found; an uncorrectable one in a coefficient set clears its valid bit (R164). -/
def State.sramFound (s : State) (a : Nat) (ue : Bool) : State :=
  let w := codeword a
  if ue then
    let s := { s with memUE := if s.memUE.contains w then s.memUE else s.memUE ++ [w] }
    let s := (s.ueAt w).fault frMemc fmSramUe
    if 0x5000000 ≤ w ∧ w < 0x5100000 then
      let j := (w - 0x5000000) / 0x400
      s.setStale (j / 16) (j % 16) false
    else s
  else State.fault { s with memCE := s.memCE.filter (· ≠ w) } frMemc fmSramCe

/-- An error in the burst at `a` of DDR5 channel `x` is found. -/
def State.ddrFound (s : State) (x a : Nat) (ue : Bool) : State :=
  let w := codeword a
  if ue then
    let s := { s with memUE := if s.memUE.contains w then s.memUE else s.memUE ++ [w] }
    (s.ueAt w).fault frMemc (fmDdrUe x)
  else State.fault { s with memCE := s.memCE.filter (· ≠ w) } frMemc (fmDdrCe x)

/-- The words a patrol over the addresses of `inside` finds: those that stand in error and those that `found` adds. -/
def State.patrolled (s : State) (inside : Nat → Bool) (found : List EccFinding) : List (Nat × Bool) :=
  let f := fun b => (found.filter fun e => e.correctable != b && inside e.addr).map (codeword ·.addr)
  let ue := (s.memUE.filter inside ++ f true).eraseDups
  let ce := ((s.memCE.filter inside ++ f false).eraseDups).filter fun w => !ue.contains w
  ue.map (·, true) ++ ce.map (·, false)

/-- R817: a patrol of on-chip SRAM. -/
def State.sramScrub (s : State) (found : List EccFinding) : State :=
  (s.patrolled (fun a => decide (a < 0x6000000)) found).foldl (fun s p => s.sramFound p.1 p.2) s

/-- R823: a patrol of the installed bursts of DDR5 channel `x`. -/
def State.ddrScrub (s : State) (x : Nat) (found : List EccFinding) : State :=
  if ¬ s.ddrReady x then s
  else
    let lo := ddrBase + 137438953472 * x
    (s.patrolled (fun a => decide (lo ≤ a) && decide (a < lo + s.ddrSize x)) found).foldl (fun s p => s.ddrFound x p.1 p.2) s

/-! DDR5 training (R821). -/

/-- INIT written. -/
def State.ddrInit (s : State) (x : Nat) : State :=
  let st := bitsOf (s.rg (ddrOff x memcDdrSts)) 2 0
  if s.ddrSize x ≠ 0 ∧ (st = 0 ∨ st = 2 ∨ st = 4) then (s.ddrStart x).setRg (ddrOff x memcDdrSts) 1 else s

/-- Training succeeds. -/
def State.ddrTrained (s : State) (x : Nat) : State :=
  if bitsOf (s.rg (ddrOff x memcDdrSts)) 2 0 = 1 then (s.setRg (ddrOff x memcDdrSts) 2).uncause frMemc (fmDdrLink x) else s

/-- Training has not succeeded within 100 ms. -/
def State.ddrFailed (s : State) (x : Nat) : State :=
  if bitsOf (s.rg (ddrOff x memcDdrSts)) 2 0 = 1 ∧ s.canHaveLasted (s.ddrAge x) 20000000 then
    (s.setRg (ddrOff x memcDdrSts) 4).raise frMemc (fmDdrLink x)
  else s

/-- A base tick of the waits of this file and of the clocks is over. -/
def State.coreTick (s : State) : State :=
  let c := s.clk
  let runs := fun x => decide (s.pwrSt = 2) || decide (bitsOf (s.rg (ddrOff x memcDdrSts)) 2 0 = 1)
  { s with clk := { c with
      quiet := if c.throttle then c.quiet + 1 else c.quiet
      hold := if s.rgBit sysClkSts 2 then c.hold + 1 else c.hold
      ddr := c.ddr.zipIdx.map fun p => if runs p.2 then p.1 + 1 else p.1 } }

/-- Those that have ended by the end of the present tick: watchdogs, training, and the wait for self-refresh (R713, R812, R821). -/
def State.coreWaits (s : State) : State :=
  let s := (List.range 8).foldl State.wdogZero s
  [0, 1].foldl (fun s x =>
    let s := if hasLasted (s.ddrAge x) 20000000 then s.ddrFailed x else s
    if hasLasted (s.ddrAge x) 2000 then s.ddrRest x else s) s

/-! Commands. -/

def execHalt (a : Acc) (x : CoreId) (s : State) : Res :=
  s.viaReg a (coreOff x.val coreCtl) 0x10001 (·.coreCmd a.req x.val (·.haltCmd x.val))
def execCoreHalted (x : CoreId) (s : State) : Res := .next (s.haltEnd x.val)
def execCoreRun (a : Acc) (x : CoreId) (s : State) : Res :=
  s.viaReg a (coreOff x.val coreCtl) 0x20002 (·.coreCmd a.req x.val (·.resumeCmd x.val))
def execRestart (a : Acc) (x : CoreId) (s : State) : Res :=
  s.viaReg a (coreOff x.val coreCtl) 0x40004 (·.coreCmd a.req x.val (·.restartCmd x.val))
def execWdog (x : CoreId) (s : State) : Res := .next ((s.votes [coreOff x.val coreWdog]).wdogZero x.val)
def execCoreKick (a : Acc) (x : CoreId) (v : Word) (s : State) : Res :=
  s.viaReg a (coreOff x.val coreKick) v.toNat fun s => (s.votes [coreOff x.val coreWdog]).kick x.val v.toNat
def execMtimecmpMatch (x : CoreId) (cmp : BitVec 64) (s : State) : Res := .next (s.timerCmp x.val cmp.toNat)
def execCoreUpdGo (a : Acc) (s : State) : Res := s.viaReg a sysCoreUpdCtl 0x10001 (·.updGoCmd)
def execUpdateDone (v : ImageVerdict) (s : State) : Res := .next (s.updEnd v)
def execSramPatrol (found : List EccFinding) (s : State) : Res := .next (s.sramScrub found)
def execDdrPatrol (x : DdrId) (found : List EccFinding) (s : State) : Res := .next (s.ddrScrub x.val found)
def execInit (a : Acc) (x : DdrId) (s : State) : Res := s.viaReg a (ddrOff x.val memcDdrCfg) 0x80008 (·.ddrInit x.val)
def execDdrTrainingDone (x : DdrId) (s : State) : Res := .next (s.ddrTrained x.val)
def execDdrTrainingTimeout (x : DdrId) (s : State) : Res := .next (s.ddrFailed x.val)

end Sys2Proof.Machine
end

