-- ==== Sys2Proof/Machine/FabricCtl.lean ====
section
/-! DEFINITION. What software and the links do to the fabric's ports, rings and frame length (R727, R728, R745, R754, R762),
replies of dictionary firmware (R778, R790, R791), and the host's serial interfaces and DMA pointers (R831 to R836). -/

namespace Sys2Proof.Machine

/-! Ports (R727, R744). -/

/-- Once per ms a DOWN port starts training. -/
def State.trainStart (s : State) (p : Nat) : State :=
  if s.portSt p = 1 then (s.setPort p { s.port p with train := 0 }).setPortSt p 2 else s

/-- Training completes with a first delay of `d` ps. -/
def State.portRise (s : State) (p d : Nat) : State :=
  if s.portSt p ≠ 2 then s
  else
    let s := ((s.setPortSt p 3).setPort p {}).setRg (fabOff (fabDelay + 4 * p)) d
    ((s.flag (fabOff fabFlags) (2 ^ p)).linkLevel p).topoOut p true

/-- Training has not succeeded within 500 ms. -/
def State.trainFail (s : State) (p : Nat) : State :=
  if s.portSt p = 2 ∧ s.canHaveLasted (s.port p).train 100000000 then s.setPortSt p 1 else s

/-- Block lock is lost, or RETRAIN is written. -/
def State.portLose (s : State) (p : Nat) : State :=
  if s.portSt p = 2 ∨ s.portSt p = 3 then (s.portDown p 1).settleFaults else s

/-- Several ports lose their links in one cycle. -/
def State.portsLose (s : State) (ps : List Nat) : State :=
  let down := fun (s : State) p => if s.portSt p = 2 ∨ s.portSt p = 3 then s.portDown p 1 else s
  (ps.foldl down s.cycleBegin).settleFaults.cycleEnd

/-- A write of FAB_PORT_CTL. -/
def State.portCtl (s : State) (v : Nat) : State :=
  let o := fabOff fabPortCtl
  let w := ctlNew (s.rg o) v 0xFFFF
  let s := [0, 1, 2, 3].foldl State.linkLevel (s.setRg o (w % 4096))
  s.portsLose ([0, 1, 2, 3].filter fun p => bitOf w (12 + p))

/-! Rings (R745, R754, R768). -/

/-- BAD_CFG of FAB_FLAGS. -/
def State.fabBad (s : State) : State := s.flag (fabOff fabFlags) 0x40

/-- R754: replies held while the completion ring was full. -/
def State.cqDrain : Nat → State → State
  | 0, s => s
  | k + 1, s =>
    match s.fab.txns.find? fun t => t.held.isSome with
    | some t =>
      if s.cqFull then s
      else match t.held with
        | some (st, c, d, bs) =>
          let s := s.complete { t with held := none, next := none } st c d bs t.dtag
          State.cqDrain k (match t.next with
            | some (st, c, d, bs) => s.complete { t with held := none, next := none, dtag := none } st c d bs none
            | none => s)
        | none => s
    | none => s

/-- A write of FAB_CQ_RPTR. -/
def State.cqRptr (s : State) (v : Nat) : State := (s.linesRise.setRg (fabOff fabCqRptr) v).cqDrain 256

/-- A write of a ring's size: `unit` bytes an element. -/
def State.ringSize (s : State) (rel base unit v : Nat) : State :=
  let n := v % 65536
  if n = 0 ∨ 0x200000 < 32 * bitsOf (s.fr base) 15 0 + unit * n ∨ (n ≠ s.fr rel ∧ s.fab.txns ≠ []) then s.fabBad
  else s.setRg (fabOff rel) n

/-! Frame length (R762). -/

/-- The address of FAB_FRAME in the privileged view, under which the root broadcasts a new length: the length, then the tick
of its GO. -/
abbrev frameMsg : Nat := 0x100D00E0

/-- A broadcast frame of this node goes out of the ports of FAB_BCAST but `not`. -/
def State.bcastOut (s : State) (f : Frame) (not_ : Option Nat) : State :=
  [0, 1, 2, 3].foldl (fun s p => if bitOf (s.fr fabBcast) p ∧ not_ ≠ some p ∧ s.portSt p = 3 then s.emit p f else s) s

/-- GO in FAB_FRAME_CTL. -/
def State.frameGoCmd (s : State) : State :=
  let n := bitsOf (s.fr fabFrameNew) 15 0
  if s.isMember ∨ n < 20 then s.fabBad
  else
    let s := { s with fab := { s.fab with frameGo := some (s.tick, n) } }
    if s.isRoot then
      s.bcastOut { typ := 4, dst := 0, src := BitVec.ofNat 12 s.addr, len := 12, hops := 0, priv := true, tag := 0
                   w2 := BitVec.ofNat 24 (2 * 128 + 12 * 512), w3 := BitVec.ofNat 32 frameMsg
                   data := leBytes 4 n ++ leBytes 8 s.tick } none
    else s

/-- The tick from which a new length applies: at least 1,000 after the GO, and a multiple of both lengths. -/
def frameAt (old new go : Nat) : Nat :=
  let m := max 1 (Nat.lcm old new)
  (go + 1000 + m - 1) / m * m

/-- The new length is in force from tick `k` on. -/
def State.frameApply (s : State) (k : Nat) : State :=
  match s.fab.frameGo with
  | some (go, n) =>
    if frameAt (bitsOf (s.fr fabFrame) 15 0) n go ≤ k then
      { (s.setRg (fabOff fabFrame) n) with fab := { s.fab with frameGo := none } }
    else s
  | none => s

/-! Replies of firmware (R778, R789 to R791). -/

/-- The view offset of ODE register `rel`. -/
def odeOff (rel : Nat) : Nat := 0xE0000 + rel

/-- The address of entry `j` of the firmware queue. -/
def State.fwqAt (s : State) (j : Nat) : Nat := 0x5E00000 + 1024 * bitsOf (s.rg (odeOff odeFwqBase)) 10 0 + 1024 * j

/-- R788, R789: a status word as it is written at DPTR: PENDING and DTAG read zero. -/
def statusAt (w : Nat) : Nat := w % 512 + bitsOf w 15 12 * 4096

/-- R789: the bytes written at DPTR: the status word, then data that fit. -/
def dictBytes (t : Txn) (w : Nat) (data : List Byte) : List Byte :=
  if t.room < 4 + data.length then leBytes 4 8 else leBytes 4 (statusAt w) ++ data

/-- R789: an answer completes transaction `t`. -/
def State.dictDone (s : State) (t : Txn) (w : Nat) (data : List Byte) : State :=
  let d := dictBytes t w data
  s.complete t 0 0 d.length d none

/-- R790, R791: the second completion of `t`, which waits while the first is held. -/
def State.second (s : State) (t : Txn) (status done : Nat) (data : List Byte) : State :=
  if t.held.isSome then
    { s with fab := { s.fab with txns := s.fab.txns.map fun x => if x = t then { t with next := some (status, 0, done, data) } else x } }
  else s.complete t status 0 done data none

/-- R790, R791: the result of a deferred request arrives. -/
def State.resultIn (s : State) (tag dtag w : Nat) (data : List Byte) : State :=
  match s.fab.txns.find? fun t => decide (t.tag = tag) && decide (t.dtag = some dtag) && t.next.isNone with
  | some t => let d := dictBytes t w data; s.second t 0 d.length d
  | none => s.count (fabOff fabLate)

/-- R791: DTMO, in CLK_CONV cycles. -/
def State.deferred (s : State) : Nat := 200000 * bitsOf (s.rg (odeOff odeDtmo)) 15 0

/-- R791: no result has arrived DTMO ms after the PENDING answer. -/
def State.resultLate (s : State) (tag : Nat) : State :=
  match s.fab.txns.find? fun t => decide (t.tag = tag) && t.dtag.isSome && t.next.isNone && s.canHaveLasted t.age s.deferred with
  | some t => s.second t 6 0 []
  | none => s

/-- R778, R780: the result of queue entry `r` goes to its requester; an entry that cannot be read gives ECC. -/
def State.fwAnswer (s : State) (r : FwReq) (w0 : Nat) (data0 : List Byte) : State :=
  let bad := s.ue (s.fwqAt r.slot) (16 + data0.length)
  let s := (State.unitRead { s with fwq := s.fwq.filter (· ≠ r) } (s.fwqAt r.slot) (16 + data0.length))
  let s := if bad then s.fault frOde foDictEcc else s
  let w := if bad then 18 else w0
  let data := if bad then [] else data0
  let s := if w % 256 = 0 then s else s.count (odeOff odeAborts)
  if r.loc then s.resultIn r.tag r.dtag w data
  else
    s.sendFrame { typ := 9, dst := BitVec.ofNat 12 r.src, src := BitVec.ofNat 12 s.addr, len := BitVec.ofNat 10 (4 + data.length)
                  hops := 0, priv := false, tag := BitVec.ofNat 12 r.tag, w2 := BitVec.ofNat 24 r.key
                  w3 := BitVec.ofNat 32 (2 + 65536 * r.dtag), data := leBytes 4 w ++ data }

/-- GO in ODE_FW_REPLY1 with abort code `ab`. -/
def State.fwReplyCmd (s : State) (ab : Nat) : State :=
  let s := s.linesRise
  let s := s.setRg (odeOff odeFwReply1) ab
  let w := s.rg (odeOff odeFwReply0)
  match s.fwq.find? fun r => decide (r.dtag = bitsOf w 15 0) with
  | none => s.flag (odeOff odeFlags) 4
  | some r => s.fwAnswer r ab (if ab = 0 ∧ ¬ r.write then s.bytes (s.fwqAt r.slot + 16) (min 1000 (bitsOf w 25 16)) else [])

/-- R779: while C1 is fenced or held in reset, every queued entry is answered with FW_UNAVAIL. -/
def State.fwqLose (s : State) : List FwReq → State
  | [] => s
  | r :: l => State.fwqLose (s.fwAnswer r 16 []) l

/-- R779: C1 is fenced or held in reset. -/
def State.fwDead (s : State) : Bool := s.isFenced (unCore 1) || decide (s.coreSt 1 = 0)

/-- R779, R826: C1 cannot answer a new request: it is fenced, held in reset or halted. -/
def State.fwGone (s : State) : Bool :=
  s.fwDead || decide (s.coreSt 1 = 3) || (decide (s.coreSt 1 = 4) && decide (tget (fun _ => 1) s.cpu.back 1 = 3))

/-! The host's serial interfaces and DMA pointers. -/

/-- The view offset of HOST register `rel`, and of DMA engine `e`'s. -/
def hostOff (rel : Nat) : Nat := 0xF8000 + rel
def dmaOff (e rel : Nat) : Nat := 0xF8100 + 32 * e + rel

/-- BUSY of XSPI_CMD. -/
def State.xspiBusy (s : State) : Bool := s.rgBit (hostOff hostXspiCmd) 30

/-- The bytes of XSPI_BUF. -/
def State.xspiBytes (s : State) (n : Nat) : List Byte :=
  ((List.range 64).flatMap fun i => leBytes 4 (s.rg (hostOff (hostXspiBuf + 4 * i)))).take n

/-- R834: a write of XSPI_CMD. -/
def State.xspiCmd (s : State) (v : Nat) : State :=
  if s.xspiBusy then s
  else
    let s := s.linesRise.setRg (hostOff hostXspiCmd) (v % 0x40000 + (if bitOf v 31 then 0x40000000 else 0))
    if bitOf v 31 then
      { s with out := s.out ++ [.xspi (bitsOf v 7 0) (s.rg (hostOff hostXspiAddr))
                 (if bitOf v 17 then s.xspiBytes (min 256 (bitsOf v 16 8)) else [])]
               hostp := { s.hostp with xspiIrq := false } }
    else s

/-- Bytes placed in XSPI_BUF from word `i` on. -/
def State.xspiFill (s : State) (i : Nat) : List Byte → State
  | a :: b :: c :: d :: r => (s.setRg (hostOff (hostXspiBuf + 4 * i)) (leNat [a, b, c, d])).xspiFill (i + 1) r
  | [] => s
  | l =>
    let o := hostOff (hostXspiBuf + 4 * i)
    s.setRg o (leNat (l ++ (leBytes 4 (s.rg o)).drop l.length))

/-- R834: the command completes. -/
def State.xspiEnd (s : State) (data : List Byte) : State :=
  if ¬ s.xspiBusy then s
  else
    let w := s.rg (hostOff hostXspiCmd)
    let s := if bitOf w 17 then s else s.xspiFill 0 (data.take (min 256 (bitsOf w 16 8)))
    { (s.putRg (hostOff hostXspiCmd) 30 false) with hostp := { s.hostp with xspiIrq := true } }

/-- R835: a byte queued for transmission; a full queue loses it. -/
def State.uartSend (s : State) (b : Byte) : State :=
  if s.hostp.tx.length < 16 then { s with hostp := { s.hostp with tx := s.hostp.tx ++ [b] } } else s

/-- The transmitter over one base tick of 25 CLK_PER cycles: a byte takes ten bits of 16 × DIV cycles. -/
def State.uartTick (s : State) : State :=
  match s.hostp.tx with
  | [] => s
  | b :: r =>
    let a := s.hostp.txAcc + 25
    let n := 160 * max 1 (bitsOf (s.rg (hostOff hostUartCtl)) 11 0)
    if a < n then { s with hostp := { s.hostp with txAcc := a } }
    else { s with hostp := { s.hostp with tx := r, txAcc := (if r = [] then 0 else a - n) }, out := s.out ++ [Out.uart b] }

/-- R836: the loader takes a byte. -/
def State.loaderByte (s : State) (b : Byte) : State :=
  let l := s.boot.loader
  let put := fun (s : State) (l : Loader) => { s with boot := { s.boot with loader := l } }
  match l.st with
  | 0 => if b = 0x55 then put s { l with st := 1 } else s
  | 1 => if b = 0xAA then put s { on := true, st := 2 } else put s { l with st := if b = 0x55 then 1 else 0 }
  | 2 =>
    let buf := l.buf ++ [b]
    if buf.length < 4 then put s { l with buf := buf }
    else
      let n := leNat buf
      if 256 ≤ n ∧ n ≤ 8388608 then put s { on := true, st := 3, len := n } else put s { on := true }
  | 3 =>
    let s := s.corePut 0 (bootStage + l.pos) [b]
    if l.pos + 1 < l.len then put s { l with pos := l.pos + 1 } else put s { l with st := 4, buf := [] }
  | 4 =>
    let buf := l.buf ++ [b]
    if buf.length < 4 then put s { l with buf := buf }
    else if leNat buf = (crc32c (s.bytes bootStage l.len)).toNat then
      let s := if s.stageNo = 7 then s.setStage 5 else s
      put { (s.bootSrc 3 false) with boot := { s.boot with busy := true, src := 3 } } { l with st := 5 }
    else put { s with out := s.out ++ [Out.uart 0x15, Out.uart 0x06] } { on := true }
  | _ => s

/-- A byte is received. [DESIGN CHOICE, log 81] -/
def State.uartIn (s : State) (b : Byte) : State :=
  if s.boot.loader.on then s.loaderByte b else { s with hostp := { s.hostp with rx := s.hostp.rx ++ [b] } }

/-- R836: the loader's prompt, until 0x55 and 0xAA have come. -/
def State.loaderAsk (s : State) : State :=
  if s.boot.loader.on ∧ s.boot.loader.st ≤ 1 then { s with out := s.out ++ [Out.uart 0x3F] } else s

/-- R831: a write of an engine's WPTR, which also ends the level of its interrupt line. -/
def State.dmaWptrCmd (s : State) (e v : Nat) : State :=
  let s := s.linesRise
  { (s.setRg (dmaOff e dmaWptr) v) with hostp := { s.hostp with dmaIrq := s.hostp.dmaIrq.filter (· ≠ e) } }

/-! Commands. -/

def execPortTrainStart (p : PortId) (s : State) : Res := .next (s.trainStart p.val)
def execPortUp (p : PortId) (delay : Word) (s : State) : Res := .next (s.portRise p.val delay.toNat)
def execTrainingTimeout (p : PortId) (s : State) : Res := .next (s.trainFail p.val)
def execRetrain (a : Acc) (p : PortId) (s : State) : Res :=
  s.viaReg a (fabOff fabPortCtl) (4096 * 65537 * 2 ^ p.val) (·.portLose p.val)
def execBlockLockLoss (p : PortId) (s : State) : Res := .next (s.portLose p.val)
def execFabRqWptr (a : Acc) (v : Word) (s : State) : Res :=
  s.viaReg a (fabOff fabRqWptr) v.toNat (·.setRg (fabOff fabRqWptr) v.toNat)
def execFrameLengthGo (a : Acc) (s : State) : Res := s.viaReg a (fabOff fabFrameCtl) 0x10001 (·.frameGoCmd)
def execFrameLengthApply (s : State) : Res := .next (s.frameApply (s.tick + 1))
def execFwReply (a : Acc) (abort : Byte) (s : State) : Res :=
  s.viaReg a (odeOff odeFwReply1) (0x1FF0100 + abort.toNat) (·.fwReplyCmd abort.toNat)
def execDeferredTimeout (tag : BitVec 12) (s : State) : Res := .next (s.resultLate tag.toNat)
def execHostDmaWptr (a : Acc) (e : DmaId) (v : Word) (s : State) : Res :=
  s.viaReg a (dmaOff e.val dmaWptr) v.toNat (·.dmaWptrCmd e.val v.toNat)
def execXspiGo (a : Acc) (v : Word) (s : State) : Res :=
  s.viaReg a (hostOff hostXspiCmd) (v.toNat ||| 0x80000000) (·.xspiCmd (v.toNat ||| 0x80000000))
def execXspiDone (data : List Byte) (s : State) : Res := .next (s.xspiEnd data)
def execUartRx (b : Byte) (s : State) : Res := .next (s.uartIn b)
def execUartTx (a : Acc) (b : Byte) (s : State) : Res := s.viaReg a (hostOff hostUartData) b.toNat (·.uartSend b)
def execLoaderPrompt (s : State) : Res := .next s.loaderAsk

end Sys2Proof.Machine
end

