-- ==== Sys2Proof/Machine/Bus.lean ====
section
/-! DEFINITION. Accesses: what a read returns and what a write does by class and mark (R612 to R645), guarded pairs, 64-bit
registers, alias windows, and the memory windows with their protections and error codes (R656, R816 to R819, R869). -/

namespace Sys2Proof.Machine

/-! What a register reads. -/

/-- The companions that a read of a low word latches (R620): the high word, and INFO with SYS_BUSERR_ADDR_HI (R658). -/
def latched (l : Loc) : List Nat :=
  match l.grp with
  | .sys => if l.rel = sysCoreMtime then [4] else if l.rel = sysBuserrAddrLo then [4, 8] else []
  | .fab => if l.rel = fabUidLo ∨ l.rel = fabTime then [4] else []
  | .ch => if l.rel = chNcoPhLo ∨ l.rel = chUnderrunTicks then [4] else []
  | .psc => if l.rel = pscTime then [4] else []
  | .cap => if l.rel = capTs then [4] else []
  | .calD => if l.rel = calLastTime then [4] else []
  | .memc => if l.rel = memcDdrAddr ∨ l.rel = memcDdrAddr + 32 then [4] else []
  | .dma => if l.rel = dmaRing then [4] else []
  | _ => []

/-- CHn_STAT. -/
def State.chStatus (s : State) (n : Nat) : Nat :=
  let c := s.ch n
  let st := match c.state with
    | .off => 0
    | .armed => 1
    | .active => 2
    | .service => 3
    | .fenced => 4
  st + 8 * b2n (s.modeAct n) + 16 * c.rngP + 256 * c.vrngP + 1024 * b2n c.outEn
    + 2048 * b2n (c.clampLive && c.comp.driven && !c.comp.trip) + 4096 * b2n c.sup.inCompl + 8192 * b2n (s.railsOk n)
    + 16384 * b2n c.sup.offCmd.isSome + 32768 * b2n (s.chIdle n)

/-- CHn_HO_STS. [DESIGN CHOICE, log 40] -/
def hoStatus (h : Ho) : Nat :=
  let st := match h.st with
    | .idle => 0
    | .window => 1
    | .due => 2
    | .handed => 3
  let p := match h.pend with
    | some (v, r) => 4096 + 8192 * b2n v + 65536 * (r % 16)
    | none => 0
  st + 4 * b2n h.volt + 16 * h.frm + 256 * h.dst + p + 1048576 * min 15 h.defers

/-- CHn_RAKE_STS. -/
def rakeStatus (r : Rake) : Nat :=
  let st := match r.st with
    | .stopped => 0
    | .running => 1
    | .waiting => 2
    | .paused => 3
    | .starved => 4
  st + 8 * r.loops.length + 128 * b2n r.jlatch + 256 * b2n r.segOk + 512 * r.stopWhy + 65536 * (r.seg % 256)

/-- CHn_RAKE_LOOPi: level 0 is the outermost. -/
def loopStatus (r : Rake) (i : Nat) : Nat :=
  match r.loops.reverse[i]? with
  | some l => l.left % 65536 + 65536 * b2n l.forever + 131072
  | none => 0

/-- CHn_MEAS_STS. [DEDUCED, log 53] -/
def measStatus (a : Aper) : Nat :=
  let st := match a.st with
    | .idle => 0
    | .delay => 1
    | .integ => 2
    | .write => 3
  b2n (decide (st ≠ 0)) + 2 * a.desc + 128 * st

/-- A register of a channel as it reads. -/
def State.peekCh (s : State) (n rel w : Nat) : Nat :=
  let c := s.ch n
  if rel = chStat then s.chStatus n
  else if rel = chRailStat then c.rail.dutyH + 65536 * c.rail.dutyL
  else if rel = chBankSts then s.bankStatus n
  else if rel = chSetValid then c.valid.toNat
  else if rel = chSupSts then
    b2n c.sup.ramp + 2 * b2n c.sup.inCompl + 4 * b2n c.sup.cxNeg + 8 * b2n c.sup.fallback + 16 * b2n c.le.run
      + 256 * min 255 c.sup.oscCnt
  else if rel = chHoSts then hoStatus c.ho
  else if rel = chRakeCtl then 32 * b2n (c.rake.checking || c.rake.cmds.contains 4)
  else if rel = chRakeSts then rakeStatus c.rake
  else if rel = chRakePos then c.rake.pos
  else if rel = chRakeIdx then c.rake.sweep
  else if rel = chRakeRep then c.rake.repLeft % 65536
  else if chRakeLoop ≤ rel ∧ rel < chRakeLoop + 32 then loopStatus c.rake ((rel - chRakeLoop) / 4)
  else if rel = chStrSts then s.ringNew n % 262144 + 262144 * b2n c.str.halted
  else if rel = chNcoPhLo then c.acc % 4294967296
  else if rel = chNcoPhHi then c.acc / 4294967296
  else if rel = chNcoOut then (word32 c.nco).toNat
  else if rel = chMeasSts then measStatus c.meas.ap
  else w

/-- A register of SYS as it reads. -/
def State.peekSys (s : State) (rel w : Nat) : Nat :=
  if rel = sysCfgcrcCmd then 2 * b2n s.crc.run.isSome
  else if rel = sysCfgcrcRef then s.refRead s.crcSel
  else if rel = sysCfgcrcStat then s.crcStat
  else if rel = sysUpdPend then
    (List.range 8).foldl (fun a g => a + 2 ^ g * b2n (tget (fun _ => none) s.strobes g).isSome) 0
  else if rel = sysDroopSts then s.droopSts
  else if rel = sysCoreUpdSts then w + b2n s.cpu.upd.isSome
  else if rel = sysBootDoor then 0
  else w

/-- FAB_TIME_STS.TIME_LOCK (R759). -/
def State.timeLock (s : State) : Bool :=
  s.isRoot || (s.isMember && decide (s.portSt s.upPort = 3) && (s.port s.upPort).timed && !s.causes.contains (15 * 32 + ffSync s.upPort))

/-- A register of FAB as it reads; DEPTH is the HOPS of the root's routing entry. [DEDUCED, log 36] -/
def State.peekFab (s : State) (rel w : Nat) : Nat :=
  let t := (BitVec.ofInt 64 s.now).toNat
  if rel = fabAddr then w + 8192 * b2n s.isRoot
  else if rel = fabOutst then s.fab.txns.length
  else if rel = fabTime then t % 4294967296
  else if rel = fabTime + 4 then t / 4294967296
  else if rel = fabTimeSts then
    b2n s.timeLock + 2 * b2n (s.fab.step.isSome && !s.chansQuiet) + 4 * (if s.isMember then bitsOf (s.fr fabRt) 8 3 else 0)
  else if rel = fabFrame then w + 65536 * b2n s.fab.frameGo.isSome
  else w

/-- FLT_FENCED of frame `f`. -/
def State.fencedBits (s : State) (f : Nat) : Nat :=
  let us := if 19 ≤ f then [64 + (f - 19)] else if f = 17 then [unDdr 0, unDdr 1] else if f = 15 then [unPort 0, unPort 1, unPort 2, unPort 3]
    else if 10 ≤ f ∧ f < 14 then [unTile (f - 10)] else if 1 ≤ f ∧ f < 9 then [unCore (f - 1)] else []
  us.reverse.foldl (fun a u => 2 * a + b2n (s.unitFenced u)) 0

/-- PSCn_STS. -/
def pscStatus (p : Psc) : Nat :=
  let st := match p.st with
    | .idle => 0
    | .regular => 1
    | .injected => 2
    | .cal => 3
  p.own + 4 * st + 16 * p.row + 1024 * b2n p.pend

/-- CAL_STSt. [DEDUCED, log 117] -/
def calStatus (c : CalStep) : Nat :=
  let st := match c.st with
    | .idle => 0
    | .bus => 1
    | .measure => 2
    | .commit => 4
  st + 8 * c.bus + 64 * b2n (decide (c.bus ≠ 0)) + 128 * (c.pt % 8)

/-- What the register at offset `o` reads, without the effects of a read. -/
def State.peek (s : State) (o : Nat) : Nat :=
  match locate o with
  | none => 0
  | some l => match rowAt l with
    | none => 0
    | some (r, _) =>
      let w := if r.buf ∨ r.cov then s.sh o else s.rg o
      match l.grp with
      | .flt =>
        if l.rel = fltFenced then s.fencedBits l.inst
        else if r.cls = .grd then (if l.rel = fltInj then w else 0) else w
      | .ch => if r.cls = .grd then 0 else s.peekCh l.inst l.rel w
      | .sys => if r.cls = .grd then 0 else s.peekSys l.rel w
      | .fab => s.peekFab l.rel w
      | .eng => if engLoad ≤ l.rel ∧ l.rel < engLoad + 16 then s.laneWord ((l.rel - engLoad) / 4) else w
      | .tile => if l.rel = tileCmpIrq then s.cmpIrq l.inst else w
      | .cmp =>
        if l.rel = cmpOut then (s.ch l.inst).comp.out + 16 * b2n (s.ch l.inst).comp.trip
        else if r.cls = .grd then 0 else w
      | .psc => if l.rel = pscSts then pscStatus (s.psc l.inst) else w
      | .calE => if l.rel = calSts then calStatus (s.tile l.inst).cal else w
      | .calD =>
        if l.rel = calObjSts then
          let j := bitsOf (s.rg (caldOff calObjCmd)) 11 0
          w + b2n (s.calSel.contains j) + 2 * b2n (s.flipWaits j)
        else w
      | .brm => if l.rel = brmTrigLvl then s.trigLvl else w
      | .core => if l.rel = coreKick then 0 else w
      | .host =>
        if l.rel = hostUartData then (match s.hostp.rx with
          | b :: _ => b.toNat
          | [] => 0)
        else if l.rel = hostUartSts then b2n (!s.hostp.rx.isEmpty) + 2 * b2n (decide (16 ≤ s.hostp.tx.length))
        else w
      | _ => w

/-- A value latched for requester `r` at offset `o` (R620). -/
def State.latchOf (s : State) (r : Req) (o : Nat) : Option Nat :=
  (s.latches.find? fun h => h.req = r ∧ h.off = o).map (·.val.toNat)

/-- A read of the register at offset `o` by `r`: the value and what the read does: a vote (R632), latches (R620), a byte
taken from the UART (R839). -/
def State.readReg (s : State) (r : Req) (o : Nat) : State × Nat :=
  let s := if o = sysCoreMtime then s.mtimeShow else s
  let s := if s.voteErr.contains o then s.voteFix o else s
  let v := match s.latchOf r o with
    | some v => v
    | none => s.peek o
  match locate o with
  | none => (s, v)
  | some l =>
    let s := (latched l).foldl (fun s d =>
      { s with latches := { req := r, off := o + d, val := BitVec.ofNat 32 (s.peek (o + d)) } ::
          s.latches.filter fun h => !(decide (h.req = r) && decide (h.off = o + d)) }) s
    let s := if l.grp = .host ∧ l.rel = hostUartData then
        let s := s.linesRise
        { s with hostp := { s.hostp with rx := s.hostp.rx.drop 1 } }
      else s
    (s, v)

/-! Writes by class. -/

/-- Bit `i` of a CTL write takes the value 1. -/
def setsBit (v i : Nat) : Bool := bitOf v i && bitOf v (16 + i)

/-- R627: a write to an STS register. -/
def State.stsPut (s : State) (l : Loc) (fl o v : Nat) : State :=
  if l.grp = .flt then s.fltClear l.inst v
  else if v / 16777216 = s.rg o / 16777216 then s.stsDrop o (v &&& fl)
  else s.flag o (if l.grp = .sys ∧ l.rel = sysCoreUpdSts then 8 else 2 ^ Nat.log2 (fl % 16777216))

/-- R621, R628: a write to a CNT register; the low word of a 64-bit counter is held. -/
def State.cntPut (s : State) (r : Req) (l : Loc) (o v : Nat) : State :=
  let rest := fun o => s.holds.filter fun h => !(decide (h.req = r) && decide (h.off = o))
  if l.grp = .ch ∧ l.rel = chUnderrunTicks then
    { s with holds := rest o ++ [{ req := r, off := o, val := BitVec.ofNat 32 v }] }
  else if l.grp = .ch ∧ l.rel = chUnderrunTicks + 4 then
    match s.holds.find? fun h => h.req = r ∧ h.off = o - 4 with
    | some h => ({ s with holds := rest (o - 4) }.setRg (o - 4) h.val.toNat).setRg o v
    | none => s.setRg o v
  else if l.grp = .ch ∧ l.rel = chRakeCnt then (s.decideAll).setRg o v
  else s.setRg o v

/-- R642: a completed pair of SYS_SVC. -/
def State.svcKey (s : State) (v : Nat) : State :=
  if v = 1 then s.setRg sysSvcSts 1 else if v = 2 then s.setRg sysSvcSts 0 else s.guardErr sysSvc

/-- R601: a completed pair of FLT_UNFENCE of frame `f`. -/
def State.fltUnfenceKey (s : State) (f v : Nat) : State :=
  if v = 0 then s
  else if f = 15 then (if v ≤ 4 then s.unfenceCmd (unPort (v - 1)) f else s)
  else if f = 17 then (if v ≤ 2 then s.unfenceCmd (unDdr (v - 1)) f else s)
  else if v ≠ 1 then s
  else if 10 ≤ f ∧ f < 14 then s.unfenceCmd (unTile (f - 10)) f
  else if 1 ≤ f ∧ f < 9 then s.unfenceCmd (unCore (f - 1)) f
  else s

/-- R630: a completed pair of the register at `l` with value `v`. -/
def State.grdAct (s : State) (l : Loc) (v : Nat) : State :=
  match l.grp with
  | .ch => if l.rel = chRst then (if v = 1 then s.chanReset l.inst else s)
      else if v = 1 then s.unfenceCmd (64 + l.inst) (frCh l.inst) else s
  | .cmp => if v = 1 then s.clampKey l.inst else s
  | .flt => if l.rel = fltInj then s.injectCmd l.inst v else s.fltUnfenceKey l.inst v
  | .sys => if l.rel = sysSvc then s.svcKey v
      else if l.rel = sysChiprst then (if v = 1 then s.swReset else s)
      else s.blockResetCmd v
  | _ => s

/-- R629: a write to A or A + 4 of a guarded pair; `base` is the offset of A in its group. -/
def State.grdPut (s : State) (r : Req) (l : Loc) (base o v : Nat) : State :=
  let a := o - (l.rel - base)
  let mine := fun (h : Held) => decide (h.req = r) && decide (h.off = a)
  let rest := s.guards.filter fun h => !mine h
  let was := s.guards.find? mine
  if l.rel = base then
    let s := s.pairDrop r a
    { s with guards := rest ++ [{ req := r, off := a, val := BitVec.ofNat 32 v }] }
  else match was with
    | none => s.guardErr a
    | some h =>
      let s := { s with guards := rest }
      if v = 4294967295 - h.val.toNat then s.grdAct { l with rel := base } h.val.toNat else s.guardErr a

/-- R635, R639: a new value of a register of a covered set goes to its working copy. [DEDUCED, log 78] -/
def State.covPut (s : State) (l : Loc) (o v : Nat) : State :=
  match s.setOfReg l with
  | none => s
  | some k => if s.setOpen k then (s.setSh o v).crcTouch k else s.flag sysCfgcrcFlags 4

/-- A write of CHn_CTL, CHn_SET_CMD and the other command registers of a channel. The command that a write of CHn_CTL brings is the
latched one with the bits of the mask changed (R625); CMD reads as what is latched (R77). An ARM is judged after the strobes of
earlier cycles and before those of its own (R142). -/
def State.ctlCh (s : State) (n rel o new v : Nat) : State :=
  let on := fun i => setsBit v i
  if rel = chCtl then
    let s := s.setRg o ((new &&& 0x10) + s.rg o % 16)
    let c := new % 16
    if v / 65536 % 16 = 0 ∨ c = 0 then s
    else if c = 1 then s.armCmd n
    else s.chanCmd n c
  else if rel = chSetCmd then
    let k := new % 16
    if on 4 && on 5 then s.cflag n chSetSts 8
    else if (s.ch n).vfy.isSome then (if on 4 || on 5 then s.cflag n chSetSts 8 else s.setRg o (k + 16))
    else
      let s := s.setRg o k
      let s := if on 4 then s.verify n k else s
      if on 5 then s.invalidate n k else s
  else if rel = chLawSnap then (if on 0 then s.snapCmd n else s)
  else if rel = chLeCtl then
    let s := s.setRg o (new &&& 4)
    let s := if on 0 then s.leStart n else s
    if on 1 then s.leStop n else s
  else if rel = chRakeCtl then
    let s := [(0, 3), (1, 0), (2, 1), (3, 2)].foldl (fun s p => if on p.1 then s.rakeLatch n p.2 else s) s
    let s := if on 4 then s.rakeJump n else s
    if on 5 then s.rakeLatch n 4 else s
  else if rel = chStrCtl then
    let s := if on 0 then s.flushCmd n else s
    if on 1 then s.retryCmd n else s
  else if rel = chMeasCtl then
    let s := s.setRg o (new &&& 0x7E)
    let s := if on 0 then s.measGo n (bitsOf new 6 1) else s
    if on 7 then s.measAbort n else s
  else s.setRg o new

/-- The cores whose gate a write of SYS_CORE_GATE changes: C0 never (R717), and from STANDBY to the end of TO_RUN C1 only (R711). -/
def State.gateWrite (s : State) (new : Nat) : State :=
  let old := s.rg sysCoreGate
  let s := s.setRg sysCoreGate (new &&& 0xFE)
  let ok := fun x => bitOf old x != bitOf new x && (decide (x = 1) || decide (s.pwrSt < 2) || bitOf new x)
  s.applyGate ([1, 2, 3, 4, 5, 6, 7].filter ok)

/-- A write of SYS_CLK_CFG (R699). With REF_SRC = 1 a new UP_PORT moves the reference to that port's clock. [DEDUCED, log 67] -/
def State.clkCfgWrite (s : State) (new v : Nat) : State :=
  let t := s.setRg sysClkCfg (setBits (s.rg sysClkCfg) 2 1 (bitsOf new 2 1))
  if setsBit v 0 then (if s.isMember then t.refRecovered else s.badCfg)
  else if bitOf v 16 then t.refLocal
  else if s.rgBit sysClkCfg 0 then State.refMove { t with clk := { t.clk with move := true } }
  else t

/-- A write of a CTL register of SYS. -/
def State.ctlSys (s : State) (rel o new v : Nat) : State :=
  let on := fun i => setsBit v i
  if rel = sysCfgcrcSel then (if v / 65536 % 128 = 0 then s else s.crcSelect new)
  else if rel = sysCfgcrcCmd then
    let s := if on 0 then s.uncommitCmd else s
    if on 1 then s.commitCmd else s
  else if rel = sysUpdCtl then s.updGo (v &&& (v / 65536) &&& 255)
  else if rel = sysClkCfg then s.clkCfgWrite new v
  else if rel = sysThrForce then (if new % 4 = 3 then s.badCfg else s.setRg o new)
  else if rel = sysPwrCtl then
    let s := s.setRg o (new &&& 4)
    let s := if on 0 then s.standbyCmd else s
    if on 1 then s.runCmd else s
  else if rel = sysCoreGate then s.gateWrite new
  else if sysCoreIrqrt ≤ rel ∧ rel < sysCoreIrqrt + 256 then
    s.setRg o (if 39 ≤ (rel - sysCoreIrqrt) / 4 then new &&& 0x3F7 else new)
  else if rel = sysCoreUpdCtl then
    let s := s.setRg o (new &&& 0xE)
    if on 0 then s.updGoCmd else s
  else s.setRg o new

/-- A write of CORE_CTLx (R807, R810). -/
def State.ctlCore (s : State) (r : Req) (x o new v : Nat) : State :=
  if coreSelf r x then s
  else
    let s := s.setRg o (new &&& 0xFF8)
    if setsBit v 0 then s.haltCmd x
    else
      let s := if setsBit v 1 then s.resumeCmd x else s
      if setsBit v 2 then s.restartCmd x else s

/-- A write of a CTL register of a tile, a converter, a step engine or the calibration block. -/
def State.ctlTile (s : State) (l : Loc) (o new v : Nat) : State :=
  let on := fun i => setsBit v i
  let i := l.inst
  match l.grp with
  | .tile =>
    if l.rel = tilePwrCtl then
      let s := s.setRg o (new &&& 4)
      let s := if on 0 then s.sleepCmd i else s
      if on 1 then s.wakeCmd i else s
    else if l.rel = tileLineCfg then s.lineCfg i new
    else s.setRg o new
  | .psc =>
    if l.rel = pscCtl then
      s.latchNow fun s c =>
        let s := if on 0 then s.pscLatch i c else s
        let s := if on 1 then s.pscInj i c else s
        if on 2 then s.pscStopCmd i c else s
    else s.setRg o new
  | .calE =>
    let s := if on 0 then s.calGoNow i (on 1) else if on 1 then s.calAbortCmd i else s
    if on 2 then s.calAck i else s
  | .calD =>
    let s := s.setRg o (new % 4096)
    if on 12 then s.selectObj (new % 4096) else s
  | _ => s.setRg o new

/-- A write of a CTL register of the Bramble. -/
def State.ctlBrm (s : State) (a : Acc) (l : Loc) (i o new v : Nat) : State :=
  let on := fun i => setsBit v i
  match l.grp with
  | .evc =>
    if l.rel = evcCtl then
      let s := if on 1 then s.evcDisarmCmd l.inst a else if on 0 then s.evcArmCmd l.inst a.req else s
      if on 2 then (s.swFireCmd l.inst s.wcyc).passed s.wcyc else s
    else if l.rel = evcCfg then s.evcPut l.inst 8 new
    else s.evcPut l.inst i new
  | _ =>
    if l.rel = brmFire then
      let s := s.setRg o (new % 1024)
      if on 10 then (s.brmFireCmd (new % 1024) s.wcyc).passed s.wcyc else s
    else if brmSub ≤ l.rel ∧ l.rel < brmSub + 4 * 696 then s.subPut i new
    else s.setRg o new

/-- A write of a CTL register of the fabric, the dictionary, the memory controller, a DMA engine. -/
def State.ctlRest (s : State) (l : Loc) (i o new v : Nat) : State :=
  let on := fun i => setsBit v i
  match l.grp with
  | .fab =>
    if l.rel = fabPortCtl then s.portCtl v
    else if l.rel = fabFrameCtl then (if on 0 then s.frameGoCmd else s)
    else s.setRg o new
  | .ode =>
    if l.rel = odeFwReply1 then (if on 8 then s.fwReplyCmd (new % 256) else s.setRg o (new % 256))
    else s.setRg o new
  | .memc =>
    if 6 ≤ new % 8 ∨ bitsOf new 11 4 = 0 then s
    else
      let s := s.setRg o (new &&& 0xFF7)
      if on 3 then s.ddrInit i else s
  | .dma => s.setRg o ((new &&& 3) + 4 * b2n (bitOf new 2 && bitOf (s.rg o) 2))
  | _ => s.setRg o new

/-- R625: a write of a CTL register; `i` is the copy of its row. -/
def State.ctlPut (s : State) (a : Acc) (l : Loc) (i o wm v : Nat) : State :=
  let new := ctlNew (s.peek o) v wm
  match l.grp with
  | .ch => s.ctlCh l.inst l.rel o new v
  | .sys => s.ctlSys l.rel o new v
  | .core => if l.rel = coreCtl then s.ctlCore a.req l.inst o new v else s.setRg o new
  | .tile => s.ctlTile l o new v
  | .psc => s.ctlTile l o new v
  | .calE => s.ctlTile l o new v
  | .calD => s.ctlTile l o new v
  | .evc => s.ctlBrm a l i o new v
  | .brm => s.ctlBrm a l i o new v
  | .fab => s.ctlRest l i o new v
  | .ode => s.ctlRest l i o new v
  | .memc => s.ctlRest l i o new v
  | .dma => s.ctlRest l i o new v
  | _ => s.setRg o new

/-- R830: a word of the MSI-X table; a vector that is unmasked while its message is pending sends it. [DEDUCED, log 79] -/
def State.msixWrite (s : State) (i o v : Nat) : State :=
  let s := s.setRg o v
  let p := hostOff (hostHostMsixPba + 4 * (i / 4 / 32))
  if i % 4 = 3 ∧ ¬ bitOf v 0 ∧ s.rgBit p (i / 4 % 32) then (s.putRg p (i / 4 % 32) false).msix (i / 4) else s

/-- A write of a DAT register of the fabric or the dictionary. -/
def State.datFab (s : State) (l : Loc) (o v : Nat) : State :=
  if l.grp = .fab then
    if l.rel = fabRqSize then s.ringSize fabRqSize fabRqBase 32 v
    else if l.rel = fabCqSize then s.ringSize fabCqSize fabCqBase 16 v
    else if l.rel = fabCqRptr then s.cqRptr v
    else if l.rel = fabSyncCfg ∧ v = 0 then s.fabBad
    else s.setRg o v
  else if l.rel = odeDtmo ∧ v = 0 then s
  else if l.rel = odeFwqSize then (if v = 0 ∨ 64 < v ∨ (v ≠ s.rg o ∧ s.fwq ≠ []) then s else s.setRg o v)
  else s.setRg o v

/-- R626: a write of a DAT register with the value `v` of its writable bits. -/
def State.datPut (s : State) (a : Acc) (l : Loc) (i o v : Nat) : State :=
  match l.grp with
  | .sys =>
    if l.rel = sysCfgcrcRef then s.refWrite v
    else if l.rel = sysBootDoor then s.bootDoor a.req v
    else if l.rel = sysClkHoldto then (if v = 0 then s.badCfg else s.setRg o v)
    else if l.rel = sysDroopCfg then (if bitsOf v 6 5 = 3 ∨ bitsOf v 23 8 = 0 then s.badCfg else s.setRg o v)
    else if l.rel = sysThermTh then (if thermOk v then s.setRg o v else s.badCfg)
    else s.setRg o v
  | .tile => if l.rel = tileThermTh ∧ ¬ thermOk v then s.badCfg else s.setRg o v
  | .core =>
    if l.rel = coreKick then s.kick l.inst v
    else if l.rel = coreWdog then (s.setRg o v).wdogLoad l.inst
    else s.setRg o v
  | .ch =>
    if l.rel = chRailFs ∨ l.rel = chRailMin ∨ l.rel = chRailSettle then s.railWrite l.inst l.rel v
    else if l.rel = chStrWptr then s.strWptr l.inst v
    else if l.rel = chPansRptr then s.pansRptr l.inst v
    else if l.rel = chBrnRptr then s.brnRptr l.inst v
    else s.setRg o v
  | .fab => s.datFab l o v
  | .ode => s.datFab l o v
  | .host =>
    if l.rel = hostXspiCmd then s.xspiCmd v
    else if l.rel = hostUartCtl ∧ v = 0 then s
    else if l.rel = hostUartData then s.uartSend (BitVec.ofNat 8 v)
    else if hostHostMsixTab ≤ l.rel ∧ l.rel < hostHostMsixTab + 1024 then s.msixWrite i o v
    else s.setRg o v
  | .dma =>
    if l.rel = dmaWptr then s.dmaWptrCmd l.inst v
    else if l.rel = dmaSize ∧ s.rgBit (dmaOff l.inst dmaCtl) 0 ∧ v ≠ s.rg o then s
    else s.setRg o v
  | _ => s.setRg o v

/-- A routing entry whose EGRESS is none (R768). -/
def rtBad (l : Loc) (v : Nat) : Bool := decide (l.grp = .fab) && decide (fabRt ≤ l.rel) && decide (4 ≤ v % 8) && decide (v % 8 ≤ 6)

/-- R632: a write of `v` to the register at a place stores it, where R635 and the register's own rules take it and its mask names a
bit. -/
def State.takes (s : State) (l : Loc) (r : RegRow) (v : Nat) : Bool :=
  (decide (r.cls ≠ .ctl) || decide (v / 65536 &&& r.wm ≠ 0)) &&
  (if r.cov then (match s.setOfReg l with
      | some k => s.setOpen k
      | none => false)
    else match l.grp with
      | .sys => if l.rel = sysDroopCfg then decide (bitsOf v 6 5 ≠ 3) && decide (bitsOf v 23 8 ≠ 0)
          else if l.rel = sysThermTh then thermOk (v % 65536) else true
      | .tile => if l.rel = tileThermTh then thermOk (v % 65536) else true
      | .fab => if l.rel = fabSyncCfg then decide (v % 256 ≠ 0) else true
      | .ch => if l.rel = chRailFs ∨ l.rel = chRailMin then s.railTakes l.inst l.rel v else true
      | _ => true)

/-- R645: the write `v` of a buffered CTL register asks for a swap or a preset. -/
def State.asked (s : State) (l : Loc) (o v : Nat) : State :=
  let b := if l.rel = chBank then 4 else 1
  if l.grp = .ch ∧ (l.rel = chBank ∨ l.rel = chNcoCtl) ∧ bitOf v b ∧ bitOf v (b + 16) then s.askAgain l.inst o else s

/-- R814: before a write that can end the level of a line or change its steering, lines that have risen send their messages. -/
def State.lineSee (s : State) (l : Loc) : State :=
  if l.grp = .cmp ∨ (l.grp = .sys ∧ sysCoreIrqrt ≤ l.rel ∧ l.rel < sysCoreIrqrt + 256) ∨
      (l.grp = .host ∧ hostHostMsixTab ≤ l.rel ∧ l.rel < hostHostMsixTab + 1024) then s.linesRise
  else s

/-- R625 to R631, R635, R645: what a write of `v` to the register at offset `o` does. -/
def State.regPut (s : State) (a : Acc) (o v : Nat) : State :=
  match locate o with
  | none => s
  | some l => match rowAt l with
    | none => s
    | some (r, i) =>
      let vote := fun (t : State) => if r.voted ∧ s.takes l r v then t.voteWrite o else t
      let s := s.lineSee l
      match r.cls with
      | .sts => (s.stsMeets o v).stsPut l r.fl o v
      | .cnt => s.cntMeets.cntPut a.req l o v
      | .grd => s.grdPut a.req l r.off o v
      | .ctl =>
        if v / 65536 = 0 then s
        else if r.buf then vote ((s.shMeets.setSh o (ctlNew (s.shMeets.sh o) v r.wm)).asked l o v)
        else if r.cov ∧ l.grp ≠ .evc ∧ l.grp ≠ .brm then vote (s.covPut l o (ctlNew (s.sh o) v r.wm))
        else vote (s.ctlPut a l i o r.wm v)
      | .dat =>
        if r.wm = 0 then s
        else if r.buf then vote (s.shMeets.setSh o (v &&& r.wm))
        else if r.cov then (if rtBad l v ∧ s.setOpen 64 then s.fabBad else vote (s.covPut l o (v &&& r.wm)))
        else vote (s.datPut a l i o (v &&& r.wm))

/-! Accesses. -/

/-- What an access leaves: the state, the cause of a bus error (0 for none), whether it met an uncorrectable error, and the
data of a read. -/
structure Acs where
  st    : State
  cause : Nat := 0
  ue    : Bool := false
  data  : List Byte := []

/-- The width code of `n` bytes in SYS_BUSERR_INFO. -/
def widthCode (n : Nat) : Nat := if n = 2 then 1 else if n = 4 then 2 else if n = 8 then 3 else 0

/-- R618: an access that ends in a bus error of cause `c`. -/
def State.refuse (s : State) (r : Req) (wr : Bool) (n addr c : Nat) : Acs := { st := s.busErr r wr (widthCode n) addr c, cause := c }

/-- A write of a register through a view. -/
def State.regWrite (s : State) (a : Acc) (o v : Nat) : Acs :=
  match s.regCause a o true v with
  | some c => s.refuse a.req true 4 (viewBase a.view + o) c
  | none => { st := s.regPut a o v }

/-- A read of a register through a view. -/
def State.regRead (s : State) (a : Acc) (o : Nat) : Acs :=
  match s.regCause a o false 0 with
  | some c => s.refuse a.req false 4 (viewBase a.view + o) c
  | none => let p := s.readReg a.req o; { st := p.1, data := leBytes 4 p.2 }

/-- The service state is in force (R642). -/
def State.svc (s : State) : Bool := s.rgBit sysSvcSts 0

/-- What an alias write makes of `old`: 0 set, 1 clear, 2 toggle. -/
def aliasOp (k old v : Nat) : Nat := if k = 0 then old ||| v else if k = 1 then old &&& (4294967295 - v) else old ^^^ v

/-- R610, R643, R644: a write of `v` through alias window `k` at offset `o`. -/
def State.aliasWrite (s : State) (r : Req) (k o v : Nat) : Acs :=
  let addr := 0x12000000 + 0x2000000 * k + o
  let a : Acc := ⟨r, .priv⟩
  if ¬ privCore r then s.refuse r true 4 addr 4
  else if ¬ s.svc then s.refuse r true 4 addr 5
  else match s.regCause a o true v with
    | some c => s.refuse r true 4 addr c
    | none => match locate o with
      | none => s.refuse r true 4 addr 3
      | some l => match rowAt l with
        | none => s.refuse r true 4 addr 3
        | some (row, _) =>
          match row.cls with
          | .ctl =>
            let old := s.peek o % 65536
            { st := s.regPut a o (aliasOp k old (v % 65536) % 65536 + 65536 * (v % 65536)) }
          | .dat => if row.wm = 0 then s.refuse r true 4 addr 5 else { st := s.regPut a o (aliasOp k (s.peek o) v) }
          | .sts =>
            if k ≠ 1 then s.refuse r true 4 addr 5
            else if l.grp = .flt then { st := s.fltDrop l.inst (v % 16777216) }
            else { st := (s.lineSee l).stsDrop o (v &&& row.fl) }
          | _ => s.refuse r true 4 addr 5

/-! Memory. -/

/-- C0, C1 and the host (R656). -/
def memPriv : Req → Bool
  | .core x => decide (x.val < 2)
  | .host => true
  | .fabric => false

/-- The region at `a` can be written by `C0, C1, host` alone. -/
def memGuarded (a : Nat) : Bool :=
  (decide (0x5100000 ≤ a) && decide (a < 0x5400000)) || (decide (0x5C00000 ≤ a) && decide (a < 0x6000000))

/-- The calibration object at address `a`, its copy that is hit, and whether there is one (R519, R520). -/
def calObjAt (a : Nat) : Option Nat :=
  if 0x5100000 ≤ a ∧ a < 0x5300000 then some ((a - 0x5100000) / 0x400)
  else if 0x5300000 ≤ a ∧ a < 0x5320000 then some (2048 + (a - 0x5300000) / 0x400)
  else if 0x5320000 ≤ a ∧ a < 0x5324000 then some (2560 + (a - 0x5320000) / 0x100)
  else none

/-- R524: a write to `a` in the calibration area is refused. -/
def State.calProt (s : State) (a : Nat) : Bool :=
  match calObjAt a with
  | none => false
  | some j =>
    if 2560 ≤ j then
      let st := (s.ch (j - 2560)).state
      (decide (st ≠ .off) && decide (st ≠ .service)) || s.calRuns j
    else s.calRuns j || (decide (s.objUse j ≤ a) && decide (a < s.objUse j + 0x200))

/-- R165, R310, R325, R524: a write of `n` bytes at `a` that is refused as PROTECTED, with the flag it sets. -/
def State.memProt (s : State) (a n : Nat) : Option State :=
  if a < 0x4000000 then
    let hit := fun (f : State → Nat → Bool) => (s.chans.map (·.1)).filter fun m => f s m && decide ((s.ch m).rake.st ≠ .stopped)
    let t := hit fun s m => s.tableHit m a n
    let q := hit fun s m => s.ringHit m a n
    if t = [] ∧ q = [] then none
    else some (q.foldl (fun s m => s.cflag m chStrFlags 0x10) (t.foldl (fun s m => s.cflag m chRakeFlags 0x40) s))
  else if 0x5000000 ≤ a ∧ a < 0x5100000 then
    let j := (a - 0x5000000) / 0x400
    if s.setProt (j / 16) (j % 16) then some (s.cflag (j / 16) chSetSts 4) else none
  else if s.calProt a then some (s.flag (caldOff calObjSts) 0x200)
  else none

/-- What a write into a coefficient set, a descriptor table or a streaming ring ends (R164, R310, R325). -/
def State.memTouch (s : State) (a n : Nat) : State :=
  if a < 0x4000000 then
    ((s.chans.map (·.1)).filter fun m => s.tableHit m a n || s.ringHit m a n).foldl (fun s m => s.segStale m) s
  else if 0x5000000 ≤ a ∧ a < 0x5100000 then
    let j := (a - 0x5000000) / 0x400
    s.setStale (j / 16) (j % 16) true
  else s

/-- R818, R823: an error met by an access in the word at `w`. -/
def State.eccMeet (s : State) (w : Nat) (ue : Bool) : State :=
  if ddrBase ≤ w then s.ddrFound (ddrOf (w - ddrBase)) w ue
  else if 0x5400000 ≤ w ∧ w < 0x5800000 then
    let x := (w - 0x5400000) / 0x80000
    if ue then (s.ueAt w).fault (frCore x) fxTcmUe
    else State.fault { s with memCE := s.memCE.filter (· ≠ w) } (frCore x) fxTcmCe
  else s.sramFound w ue

/-- A read of `n` bytes in one word of memory. -/
def State.wordRead (s : State) (a n : Nat) : Acs :=
  let w := codeword a
  if s.memUE.contains w then { st := s.eccMeet w true, ue := true }
  else
    let s := if s.memCE.contains w then s.eccMeet w false else s
    { st := s, data := s.bytes a n }

/-- R869: a write in one word of memory: of the whole word it needs no read. -/
def State.wordWrite (s : State) (a : Nat) (bs : List Byte) : Acs :=
  let w := codeword a
  let whole := decide (a = w) && decide (bs.length = if a < ddrBase then 32 else 128)
  if ¬ whole ∧ s.memUE.contains w then { st := s.eccMeet w true, ue := true }
  else
    let s := if ¬ whole ∧ s.memCE.contains w then s.eccMeet w false else s
    { st := (s.store a bs).memTouch a bs.length }

/-- The cause of a bus error of an access of `n` bytes at memory address `a` (R610, R615, R616, R619). [DEDUCED, log 76] -/
def State.memCause (s : State) (r : Req) (wr : Bool) (a n : Nat) : Nat :=
  if n ≠ 1 ∧ n ≠ 2 ∧ n ≠ 4 ∧ n ≠ 8 then 1
  else if a % n ≠ 0 then 2
  else if a < 0x6000000 then (if wr ∧ memGuarded a ∧ ¬ memPriv r then 4 else 0)
  else if ddrBase ≤ a ∧ a < ddrBase + 274877906944 then
    (if r = .host then 4 else if s.ddrOk (a - ddrBase) n then 0 else 10)
  else 3

/-- R819, R869: a core whose access meets an uncorrectable error takes an access fault. -/
def Acs.told (x : Acs) (r : Req) (wr : Bool) : Acs :=
  match r with
  | .core k => if x.ue then { x with st := { x.st with out := x.st.out ++ [.accessFault k.val wr] } } else x
  | _ => x

/-- A write to a memory window. -/
def State.memWrite (s : State) (r : Req) (a : Nat) (bs : List Byte) : Acs :=
  let c := s.memCause r true a bs.length
  if c ≠ 0 then s.refuse r true bs.length a c
  else
    let s := if a < 0x4000000 then s.decideAll else s
    match s.memProt a bs.length with
    | some s => s.refuse r true bs.length a 8
    | none => ((s.ddrWake a).wordWrite a bs).told r true

/-- A read of a memory window. -/
def State.memRead (s : State) (r : Req) (a n : Nat) : Acs :=
  let c := s.memCause r false a n
  if c ≠ 0 then s.refuse r false n a c else ((s.ddrWake a).wordRead a n).told r false

/-- R807: a core's own address: its DDR5 aperture lies at 0x2000_0000. -/
def State.coreAddr (s : State) (r : Req) (addr : Nat) : Nat :=
  match r with
  | .core x =>
    if 0x20000000 ≤ addr ∧ addr < 0x40000000 then
      ddrBase + 536870912 * bitsOf (s.rg (coreOff x.val coreCtl)) 11 3 + (addr - 0x20000000)
    else addr
  | _ => addr

/-- The address lies in register space: the views and the alias windows. -/
def inRegs (a : Nat) : Bool := decide (0x10000000 ≤ a) && decide (a < 0x1A000000)

/-- A write by `r` of `bs` at `addr` (R609 to R621, R656). [DESIGN CHOICE, log 2] -/
def State.busWrite (s : State) (r : Req) (addr : Nat) (bs : List Byte) : Acs :=
  let a := s.coreAddr r addr
  if inRegs a then
    if bs.length ≠ 4 then s.refuse r true bs.length a 1
    else if a % 4 ≠ 0 then s.refuse r true 4 a 2
    else
      let o := a % 0x2000000
      let v := leNat bs
      match (a - 0x10000000) / 0x2000000 with
      | 0 => s.regWrite ⟨r, .priv⟩ o v
      | 4 => s.regWrite ⟨r, .unpriv⟩ o v
      | k => s.aliasWrite r (k - 1) o v
  else s.memWrite r a bs

/-- A read by `r` of `n` bytes at `addr`. -/
def State.busRead (s : State) (r : Req) (addr n : Nat) : Acs :=
  let a := s.coreAddr r addr
  if inRegs a then
    if n ≠ 4 then s.refuse r false n a 1
    else if a % 4 ≠ 0 then s.refuse r false 4 a 2
    else
      let o := a % 0x2000000
      match (a - 0x10000000) / 0x2000000 with
      | 0 => s.regRead ⟨r, .priv⟩ o
      | 4 => s.regRead ⟨r, .unpriv⟩ o
      | _ => s.refuse r false 4 a (if privCore r then 5 else 4)
  else s.memRead r a n

/-! Windows that expire. -/

/-- The window of 64 CLK_PER cycles of `h` can be over. -/
def State.windowOver (s : State) (h : Held) : Bool := s.canHaveLasted h.age 128

/-- R629: the oldest pending pair of `r` expires. -/
def State.guardExpire (s : State) (r : Req) : State :=
  match s.guards.find? fun h => decide (h.req = r) && s.windowOver h with
  | some h => State.guardErr { s with guards := s.guards.filter (· ≠ h) } h.off
  | none => s

/-- R621: the oldest word held for `r` is discarded. -/
def State.holdExpire (s : State) (r : Req) : State :=
  match s.holds.find? fun h => decide (h.req = r) && s.windowOver h with
  | some h => { s with holds := s.holds.filter (· ≠ h) }
  | none => s

/-- A base tick of every window is over. -/
def State.windowTick (s : State) : State :=
  let older := fun (h : Held) => { h with age := h.age + 1 }
  { s with guards := s.guards.map older, holds := s.holds.map older }

/-- The windows that end with the present base tick at the latest. -/
def State.windowsEnd (s : State) : State :=
  let old := fun (h : Held) => hasLasted h.age 128
  let gone := (s.guards.filter old).map (·.off)
  let s := { s with guards := s.guards.filter fun h => !old h, holds := s.holds.filter fun h => !old h }
  gone.foldl State.guardErr s

/-! Commands. -/

def execRegisterWrite (r : Req) (addr : Nat) (bytes : List Byte) (s : State) : Res := .next (s.busWrite r addr bytes).st
def execStsClear (a : Acc) (off : Nat) (v : Word) (s : State) : Res := s.viaReg a off v.toNat (·.regPut a off v.toNat)
def execGuardPairExpire (r : Req) (s : State) : Res := .next (s.guardExpire r)
def execCounterHoldExpire (r : Req) (s : State) : Res := .next (s.holdExpire r)
/-- R623: the access has not completed within its limit. -/
def execAccessTimeout (r : Req) (addr : Nat) (isWrite : Bool) (s : State) : Res := .next (s.busErr r isWrite 2 addr 7)
def execSvcEnter (a : Acc) (s : State) : Res := s.viaGrd a sysSvc 1 (·.svcKey 1)
def execSvcLeave (a : Acc) (s : State) : Res := s.viaGrd a sysSvc 2 (·.svcKey 2)
def execAliasSet (r : Req) (off : Nat) (v : Word) (s : State) : Res := .next (s.aliasWrite r 0 off v.toNat).st
def execAliasClear (r : Req) (off : Nat) (v : Word) (s : State) : Res := .next (s.aliasWrite r 1 off v.toNat).st
def execAliasToggle (r : Req) (off : Nat) (v : Word) (s : State) : Res := .next (s.aliasWrite r 2 off v.toNat).st
def execCoefSetWrite (r : Req) (n : ChanId) (k : SetId) (off : BitVec 10) (bytes : List Byte) (s : State) : Res :=
  .next (s.busWrite r (setAddr n.val k.val + off.toNat) bytes).st
def execDescriptorTableWrite (r : Req) (n : ChanId) (off : Nat) (bytes : List Byte) (s : State) : Res :=
  .next (s.busWrite r (s.rakeAddr n.val (bitsOf (s.cr n.val chRakeSegtab) 21 0) + off) bytes).st
def execCalObjectWrite (r : Req) (addr : Nat) (bytes : List Byte) (s : State) : Res := .next (s.busWrite r addr bytes).st

end Sys2Proof.Machine
end

