-- ==== Sys2Proof/Machine/ChannelCmds.lean ====
section
/-! DEFINITION. The commands of the supervisor, the load estimator, the handover, the Rake, the stream and the measurement
path, over the operations of their files. -/

namespace Sys2Proof.Machine

/-! Loop supervision and handover. -/

def execLeStart (a : Acc) (n : ChanId) (s : State) : Res := s.viaReg a (chOff n.val chLeCtl) 0x10001 (·.leStart n.val)
def execLeStop (a : Acc) (n : ChanId) (s : State) : Res := s.viaReg a (chOff n.val chLeCtl) 0x20002 (·.leStop n.val)
def execLeRunEnd (n : ChanId) (s : State) : Res := .next (s.leRunEnd n.val)
def execLeDone (n : ChanId) (s : State) : Res := .next (s.leDone n.val)
def execOscWindowEnd (n : ChanId) (s : State) : Res := .next (s.oscWindow n.val)
def execHandoverCheck (n : ChanId) (s : State) : Res := .next (s.hoCheck n.val)
def execAutorangeRequest (n : ChanId) (s : State) : Res := .next (s.arRequest n.val)

/-! Measurement. -/

def execBrineLineTimeout (n : ChanId) (s : State) : Res := .next (s.brnTimeout n.val)
def execApertureDelayEnd (n : ChanId) (s : State) : Res := .next (s.apDelayEnd n.val)
def execApertureEnd (n : ChanId) (s : State) : Res := .next (s.apEnd n.val)
def execRecordWritten (n : ChanId) (cyc : Cycle) (s : State) : Res := .next ((s.recWrite n.val cyc.val).passed cyc.val)
def execSpillMove (n : ChanId) (s : State) : Res := .next (s.spillMove n.val)
def execPansRptrWrite (a : Acc) (n : ChanId) (v : Word) (s : State) : Res :=
  s.viaReg a (chOff n.val chPansRptr) v.toNat (·.pansRptr n.val v.toNat)
def execBrnRptrWrite (a : Acc) (n : ChanId) (v : Word) (s : State) : Res :=
  s.viaReg a (chOff n.val chBrnRptr) v.toNat (·.brnRptr n.val v.toNat)
def execMeasGo (a : Acc) (n : ChanId) (aper : BitVec 6) (s : State) : Res :=
  s.viaReg a (chOff n.val chMeasCtl) (0x7F0001 + 2 * aper.toNat)
    fun s => (s.setCr n.val chMeasCtl (2 * aper.toNat)).measGo n.val aper.toNat
def execMeasAbort (a : Acc) (n : ChanId) (s : State) : Res := s.viaReg a (chOff n.val chMeasCtl) 0x800080 (·.measAbort n.val)
def execLineCrossing (t : TileId) (interval : Nat) (s : State) : Res := .next (s.lineCross t.val interval)

/-! The Rake. -/

def execRakeCmdStop (a : Acc) (n : ChanId) (s : State) : Res := s.viaReg a (chOff n.val chRakeCtl) 0x20002 (·.rakeLatch n.val 0)
def execRakeCmdPause (a : Acc) (n : ChanId) (s : State) : Res := s.viaReg a (chOff n.val chRakeCtl) 0x40004 (·.rakeLatch n.val 1)
def execRakeCmdResume (a : Acc) (n : ChanId) (s : State) : Res := s.viaReg a (chOff n.val chRakeCtl) 0x80008 (·.rakeLatch n.val 2)
def execRakeCmdStart (a : Acc) (n : ChanId) (s : State) : Res := s.viaReg a (chOff n.val chRakeCtl) 0x10001 (·.rakeLatch n.val 3)
def execRakeCmdJump (a : Acc) (n : ChanId) (s : State) : Res := s.viaReg a (chOff n.val chRakeCtl) 0x100010 (·.rakeJump n.val)
def execRakeCmdCheck (a : Acc) (n : ChanId) (s : State) : Res := s.viaReg a (chOff n.val chRakeCtl) 0x200020 (·.rakeLatch n.val 4)
def execCheckDone (n : ChanId) (s : State) : Res := .next (s.checkDone n.val)
def execPointEnd (n : ChanId) (s : State) : Res := .next (s.pointEnd n.val)
def execWaitEnd (n : ChanId) (s : State) : Res := .next (s.waitEnd n.val)
def execWaitTimeout (n : ChanId) (s : State) : Res := .next (s.waitTimeout n.val)
def execSegmentRepetitionEnd (n : ChanId) (s : State) : Res := .next (s.segEnd n.val)
def execGranuleEnd (n : ChanId) (s : State) : Res := .next (s.granEnd n.val)
def execUnderrunResume (n : ChanId) (s : State) : Res := .next (s.underrunResume n.val)

/-! The stream. -/

def execFlush (a : Acc) (n : ChanId) (s : State) : Res := s.viaReg a (chOff n.val chStrCtl) 0x10001 (·.flushCmd n.val)
def execRetry (a : Acc) (n : ChanId) (s : State) : Res := s.viaReg a (chOff n.val chStrCtl) 0x20002 (·.retryCmd n.val)
def execStrWptrWrite (a : Acc) (n : ChanId) (v : Word) (s : State) : Res :=
  s.viaReg a (chOff n.val chStrWptr) v.toNat (·.strWptr n.val v.toNat)
def execRefillMove (n : ChanId) (cyc : Cycle) (s : State) : Res := .next (s.decideAll.refillMove n.val cyc.val)

end Sys2Proof.Machine
end

