-- ==== Sys2Proof/Machine/Dict.lean ====
section
/-! DEFINITION. The object dictionary: objects and their rights, access to hardware objects in raw codes and engineering
units, the firmware queue, the Harvest maps and their application (R769 to R804). -/

namespace Sys2Proof.Machine

/-! Objects (R769 to R772, R794, R795, R797). -/

/-- Access rights (R772); `wop` is the write-only object that only a privileged request writes. -/
inductive Right where
  | ro | wo | rw | rwp | const | wop
deriving DecidableEq, Repr

/-- What holds an object. -/
inductive ObjAt where
  /-- A constant. -/
  | lit (bs : List Byte)
  /-- Bits `hi` to `lo` of the register at a view offset. -/
  | fld (off hi lo : Nat)
  /-- The 64-bit register whose low word lies there. -/
  | wide (off : Nat)
  /-- A field of channel `n`'s newest record: 0 V, 1 I, 2 TIME, 3 SWEEP, 4 RFLAGS. -/
  | newest (n i : Nat)
  /-- RAKE_CMD and STROBE of channel `n`. -/
  | rakeCmd (n : Nat)
  | strobe (n : Nat)
  /-- A Harvest map object. -/
  | map (idx sub : Nat)
  /-- Firmware answers it. -/
  | fw
deriving DecidableEq, Repr

/-- An object: its type code (R771), rights, place, scale class (R781) and channel, and the length limit of a STR or
DOMAIN. -/
structure Obj where
  typ   : Nat
  right : Right
  at_   : ObjAt
  scale : Nat := 0
  chan  : Nat := 0
  max   : Nat := 0
deriving DecidableEq, Repr

/-- Bytes of a type of fixed size (R771); 0 for STR and DOMAIN. -/
def typeSize (t : Nat) : Nat :=
  if t = 1 ∨ t = 2 ∨ t = 6 then 1 else if t = 3 ∨ t = 7 then 2 else if t = 4 ∨ t = 8 ∨ t = 10 ∨ t = 12 then 4
  else if t = 5 ∨ t = 9 ∨ t = 11 then 8 else 0

/-- The highest subindex of an index; 0 where the index is not listed. -/
def idxTop (i : Nat) : Nat :=
  if 0x6000 ≤ i ∧ i < 0x7000 then
    match i % 64 with
    | 0 => 5
    | 1 => 1
    | 2 => 4
    | 3 => 3
    | 4 => 12
    | 5 => 4
    | 6 => 6
    | 7 => 2
    | 8 => 5
    | 9 => 3
    | 10 => 1
    | 63 => 1
    | _ => 0
  else if i = 0x1000 ∨ i = 0x1008 ∨ i = 0x1110 then 1
  else if i = 0x1009 ∨ i = 0x1100 then 5
  else if i = 0x1018 ∨ i = 0x2001 then 3
  else if i = 0x2000 then 7
  else if i = 0x2010 then 6
  else if i = 0xA000 ∨ i = 0xA100 then 64
  else if i = 0xA200 then 4
  else 0

/-- "XD6464". -/
def devName : List Byte := [0x58, 0x44, 0x36, 0x34, 0x36, 0x34]

/-- A listed subindex of a device object (R794). -/
def devObj (i sub : Nat) : Obj :=
  if i = 0x1000 then ⟨4, .const, .lit (leBytes 4 0x6464), 0, 0, 0⟩
  else if i = 0x1008 then ⟨13, .const, .lit devName, 0, 0, 16⟩
  else if i = 0x1009 then ⟨2, .ro, .fld (if sub = 1 then sysDieRev else tileOff (sub - 2) tileDieRev) 7 0, 0, 0, 0⟩
  else if i = 0x1018 then
    if sub = 1 then ⟨4, .const, .lit (leBytes 4 0xA7E), 0, 0, 0⟩
    else if sub = 2 then ⟨4, .ro, .fw, 0, 0, 0⟩
    else ⟨5, .ro, .wide (fabOff fabUidLo), 0, 0, 0⟩
  else if i = 0x1100 then
    if sub = 1 then ⟨3, .ro, .fld (fabOff fabAddr) 11 0, 0, 0, 0⟩
    else if sub = 2 then ⟨1, .ro, .fld (fabOff fabAddr) 13 13, 0, 0, 0⟩
    else if sub = 3 then ⟨2, .ro, .fld (fabOff fabTimeSts) 7 2, 0, 0, 0⟩
    else if sub = 4 then ⟨1, .ro, .fld (fabOff fabTimeSts) 0 0, 0, 0, 0⟩
    else ⟨3, .ro, .fld (fabOff fabFrame) 15 0, 0, 0, 0⟩
  else if i = 0x1110 then ⟨14, .ro, .fw, 0, 0, 1000⟩
  else if i = 0x2000 then
    if sub = 1 then ⟨10, .rwp, .fld (caldOff calStdV) 31 0, 0, 0, 0⟩
    else if sub ≤ 5 then ⟨10, .rwp, .fld (caldOff (calStdOhm + 4 * (sub - 2))) 31 0, 0, 0, 0⟩
    else if sub = 6 then ⟨3, .rwp, .fld (caldOff calLimits) 15 0, 0, 0, 0⟩
    else ⟨3, .rwp, .fld (caldOff calLimits) 31 16, 0, 0, 0⟩
  else if i = 0x2001 then
    if sub = 1 then ⟨4, .ro, .fld (caldOff calAccepts) 31 0, 0, 0, 0⟩
    else if sub = 2 then ⟨4, .ro, .fld (caldOff calRejects) 31 0, 0, 0, 0⟩
    else ⟨5, .ro, .wide (caldOff calLastTime), 0, 0, 0⟩
  else if i = 0x2010 then
    if sub = 1 then ⟨2, .ro, .fld sysPwrSts 1 0, 0, 0, 0⟩
    else ⟨7, .ro, .fld (if sub = 2 then sysTemp else tileOff (sub - 3) tileTemp) 15 0, 0, 0, 0⟩
  else if i = 0xA200 then
    if sub = 2 then ⟨5, .rwp, .map i sub, 0, 0, 0⟩ else if sub = 4 then ⟨2, .wop, .map i sub, 0, 0, 0⟩
    else ⟨3, .rwp, .map i sub, 0, 0, 0⟩
  else ⟨5, .rwp, .map i sub, 0, 0, 0⟩

/-- A listed subindex of an object of channel `n` (R795). -/
def chanObj (n k sub : Nat) : Obj :=
  match k with
  | 0 =>
    if sub = 5 then ⟨1, .ro, .fld (chOff n chStat) 12 12, 0, n, 0⟩
    else
      let b := if sub = 1 then (2, 0) else if sub = 2 then (3, 3) else if sub = 3 then (7, 4) else (9, 8)
      ⟨2, .ro, .fld (chOff n chStat) b.1 b.2, 0, n, 0⟩
  | 1 => ⟨2, .wo, .fld (chOff n chCtl) 3 0, 0, n, 0⟩
  | 2 =>
    let b := if sub = 1 then (0, 0) else if sub = 2 then (2, 1) else if sub = 3 then (6, 3) else (8, 7)
    ⟨2, .rw, .fld (chOff n chCfg) b.1 b.2, 0, n, 0⟩
  | 3 =>
    if sub = 1 then ⟨10, .rw, .fld (chOff n chSp) 31 0, 1, n, 0⟩
    else if sub = 2 then ⟨10, .rw, .fld (chOff n chLim) 31 0, 2, n, 0⟩
    else ⟨1, .rw, .fld (chOff n chSsCtl) 0 0, 0, n, 0⟩
  | 4 => ⟨10, .rw, .fld (chOff n (chIfs + 4 * (sub - 1))) 31 0, 0, n, 0⟩
  | 5 => ⟨10, .rw, .fld (chOff n (chVfs + 4 * (sub - 1))) 31 0, 0, n, 0⟩
  | 6 =>
    if sub = 5 then ⟨2, .rwp, .fld (chOff n chSafeCtl) 7 0, 0, n, 0⟩
    else if sub = 6 then ⟨2, .wop, .fw, 0, n, 0⟩
    else ⟨10, .rwp, .fld (chOff n (chSafeVpos + 4 * (sub - 1))) 31 0, 0, n, 0⟩
  | 7 => ⟨4, .rw, .fld (if sub = 1 then chOff n chFlags else fltOff (frCh n) fltSts) 31 0, 0, n, 0⟩
  | 8 =>
    if sub = 1 then ⟨10, .ro, .newest n 0, 5, n, 0⟩
    else if sub = 2 then ⟨10, .ro, .newest n 1, 6, n, 0⟩
    else ⟨if sub = 3 then 5 else 4, .ro, .newest n (sub - 1), 0, n, 0⟩
  | 9 =>
    if sub = 1 then ⟨2, .wo, .rakeCmd n, 0, n, 0⟩
    else if sub = 2 then ⟨2, .ro, .fld (chOff n chRakeSts) 2 0, 0, n, 0⟩
    else ⟨4, .ro, .fld (chOff n chRakeIdx) 31 0, 0, n, 0⟩
  | 10 => ⟨2, .wo, .strobe n, 0, n, 0⟩
  | _ => ⟨13, .rw, .fw, 0, n, 32⟩

/-- The object at index `i`, subindex `sub`; otherwise the abort code NO_OBJECT or NO_SUB. -/
def objAt (i sub : Nat) : Obj ⊕ Nat :=
  let top := idxTop i
  if top = 0 then .inr 1
  else if sub = 0 then .inl ⟨2, .const, .lit (leBytes 1 top), 0, 0, 0⟩
  else if top < sub then .inr 2
  else if 0x6000 ≤ i ∧ i < 0x7000 then .inl (chanObj ((i - 0x6000) / 64) (i % 64) sub)
  else .inl (devObj i sub)

/-- The object can be read, and written by a request that is privileged or not; the abort code otherwise (R772). -/
def readBad (o : Obj) : Bool := decide (o.right = .wo) || decide (o.right = .wop)
def writeBad (o : Obj) (priv : Bool) : Nat :=
  if o.right = .ro ∨ o.right = .const then 3
  else if (o.right = .rwp ∨ o.right = .wop) ∧ ¬ priv then 5
  else 0

/-! Hardware objects. -/

/-- What an access to an object leaves: the state, the abort code, CONV, the bus-error cause and the data. -/
structure DRes where
  st    : State
  abort : Nat := 0
  conv  : Bool := false
  cause : Nat := 0
  data  : List Byte := []

/-- R788: the status word of an answer that is not PENDING. -/
def DRes.word (r : DRes) : Nat := r.abort + 256 * b2n r.conv + 4096 * r.cause

/-- The engine's accesses go through the privileged view: the rights of the objects stand in place of the views'. [DEDUCED, log 84] -/
def engAcc : Acc := ⟨.fabric, .priv⟩

/-- The full scale of a scale class, if the range is implemented (R781, R782); `fl` is the FLAGS word of a record. -/
def State.scaleFs (s : State) (n cls fl : Nat) : Option Nat :=
  let v := fun k => if s.vImpl n k then some (s.vfs n k) else none
  let i := fun k => if s.iImpl n k then some (s.ifs n k) else none
  let w := s.sh (chOff n chCfg)
  let fi := bitOf w 0
  match cls with
  | 1 => if fi then i (bitsOf w 6 3) else v (bitsOf w 8 7)
  | 2 => if fi then v (bitsOf w 8 7) else i (bitsOf w 6 3)
  | 3 => v (s.ch n).vrngP
  | 4 => i (s.ch n).rngP
  | 5 => v (bitsOf fl 15 14)
  | _ => i (bitsOf fl 13 10)

/-- R781: a code in engineering units, as an F32 word. -/
def unitsOf (code : Int) (fs : Nat) : Word := f32of (code * f32v fs) 1073741824

/-- R781, R782: the code of an F32 word; none for a NaN, an infinity or a code beyond 2^31 - 1. -/
def codeIn (w fs : Nat) : Option Int :=
  match f32 w with
  | .fin v =>
    let c := rne (v * 1073741824) (f32v fs)
    if c.natAbs ≤ 2147483647 then some c else none
  | _ => none

/-- The words from `a` on that the dictionary engine reads: an uncorrectable error refuses the request (R780, R818). -/
def State.dictEcc (s : State) : DRes := { st := s.fault frOde foDictEcc, abort := 18 }

/-- R796: the newest record of channel `n`: its address, or none. -/
def State.newestAt (s : State) (n : Nat) : Option Nat :=
  if bitOf (s.cr n chMeasCfg) 6 ∧ (s.ch n).meas.stored then some (s.pansAddr n (wrapSub (s.cr n chPansWptr) 1)) else none

/-- A value of `k` bytes converted by scale class (R781 to R783). -/
def State.scaled (s : State) (o : Obj) (raw : Bool) (v k fl : Nat) : DRes :=
  if o.scale = 0 ∨ raw then { st := s, data := leBytes k v }
  else match s.scaleFs o.chan o.scale fl with
    | none => { st := s, abort := 10 }
    | some fs => { st := s, conv := true, data := leBytes 4 (unitsOf (sgn32 v) fs).toNat }

/-- The bytes of a Harvest map object as last written. -/
def State.mapVal (s : State) (i sub : Nat) : Nat := tget (fun _ => 0) s.fab.hv.objs (256 * i + sub)

/-- A read of a hardware object. -/
def State.objRead (s : State) (o : Obj) (raw : Bool) : DRes :=
  match o.at_ with
  | .lit bs => { st := s, data := bs }
  | .fld off hi lo =>
    let r := s.regRead engAcc off
    if r.cause ≠ 0 then { st := r.st, abort := 11, cause := r.cause }
    else r.st.scaled o raw (bitsOf (leNat r.data) hi lo) (typeSize o.typ) 0
  | .wide off =>
    let a := s.regRead engAcc off
    let b := a.st.regRead engAcc (off + 4)
    if a.cause ≠ 0 then { st := a.st, abort := 11, cause := a.cause }
    else { st := b.st, data := a.data ++ b.data }
  | .newest n i =>
    (match s.newestAt n with
    | none => { st := s, abort := 13 }
    | some a =>
      if s.ue a 32 then (s.unitRead a 32).dictEcc
      else
        let s := s.unitRead a 32
        let fl := s.w32 (a + 12)
        if i = 2 then { st := s, data := s.bytes a 8 }
        else if i = 3 then { st := s, data := s.bytes (a + 8) 4 }
        else if i = 4 then { st := s, data := s.bytes (a + 12) 4 }
        else s.scaled o raw (s.w32 (a + 16 + 4 * i)) 4 fl)
  | .map i sub => { st := s, data := leBytes (typeSize o.typ) (s.mapVal i sub) }
  | _ => { st := s, abort := 4 }

/-- A register write by the engine. -/
def State.objPut (s : State) (off v : Nat) : DRes :=
  let r := s.regWrite engAcc off v
  if r.cause ≠ 0 then { st := r.st, abort := 11, cause := r.cause } else { st := r.st }

/-- R776: field `hi` to `lo` of the register at `off` takes `v`. -/
def State.fldPut (s : State) (off hi lo v : Nat) : DRes :=
  match locate off with
  | none => { st := s, abort := 11, cause := 3 }
  | some l => match rowAt l with
    | none => { st := s, abort := 11, cause := 3 }
    | some (row, _) =>
      let locked := row.cov && (match s.setOfReg l with
        | some k => s.committed k
        | none => false)
      if locked then { st := s, abort := 12 }
      else match row.cls with
        | .ctl => s.objPut off (v * 2 ^ lo + (2 ^ (hi + 1 - lo) - 1) * 2 ^ lo * 65536)
        | .sts =>
          let r := s.regRead engAcc off
          if r.cause ≠ 0 then { st := r.st, abort := 11, cause := r.cause }
          else r.st.objPut off (v % 16777216 + leNat r.data / 16777216 * 16777216)
        | _ =>
          if hi = 31 ∧ lo = 0 then s.objPut off v
          else
            let r := s.regRead engAcc off
            if r.cause ≠ 0 then { st := r.st, abort := 11, cause := r.cause }
            else r.st.objPut off (setBits (leNat r.data) hi lo v)

/-! The Harvest maps (R797 to R799). -/

/-- The entries of a map object, up to the first that is zero (R798). -/
def State.mapEntries (s : State) (i : Nat) : List Nat :=
  ((List.range 64).map fun k => s.mapVal i (k + 1)).takeWhile (· ≠ 0)

/-- The object and the offset of an entry. -/
def entryObj (e : Nat) : Obj ⊕ Nat := objAt (bitsOf e 15 0) (bitsOf e 23 16)
def entryOff (e : Nat) : Nat := bitsOf e 47 32
def entryRaw (e : Nat) : Bool := bitOf e 24

/-- Bytes of an object's value. -/
def objLen (o : Obj) : Nat := match o.at_ with
  | .lit bs => bs.length
  | _ => if typeSize o.typ = 0 then o.max else typeSize o.typ

/-- An entry that the rules of R799 reject; `wr` for a down entry of a member, `len` the bytes it must lie in. -/
def entryBad (wr : Bool) (len e : Nat) : Bool :=
  match entryObj e with
  | .inr _ => true
  | .inl o =>
    decide (o.at_ = .fw) || (wr && (decide (o.right = .ro) || decide (o.right = .const)))
      || decide (entryOff e % max 1 (objLen o) ≠ 0) || decide (len < entryOff e + objLen o)

/-- The bytes an entry takes. -/
def entryLen (e : Nat) : Nat := match entryObj e with
  | .inl o => objLen o
  | .inr _ => 0

/-- Two entries of a map overlap. -/
def entriesMeet : List Nat → Bool
  | [] => false
  | e :: r => r.any (fun f => decide (entryOff e < entryOff f + entryLen f) && decide (entryOff f < entryOff e + entryLen e))
      || entriesMeet r

/-- R799: the maps as the objects give them are in order. -/
def State.mapsOk (s : State) : Bool :=
  let dn := s.mapEntries 0xA000
  let up := s.mapEntries 0xA100
  let dl := s.mapVal 0xA200 1
  let ul := s.mapVal 0xA200 3
  !(dn.any (entryBad (!s.isRoot) dl)) && !(up.any (entryBad false ul)) && !entriesMeet dn && !entriesMeet up
    && (!s.isRoot || s.ddrIn (s.mapVal 0xA200 2) 4194304)

/-- R797, R799: APPLY: the maps come into force at the next frame start, or are rejected. [DEDUCED, log 86] -/
def State.applyMaps (s : State) : State :=
  if s.mapsOk then
    let m : HvMaps := { dn := s.mapEntries 0xA000, up := s.mapEntries 0xA100, dnLen := s.mapVal 0xA200 1
                        upBase := s.mapVal 0xA200 2, upLen := s.mapVal 0xA200 3 }
    { s with fab := { s.fab with hv := { s.fab.hv with next := some m } } }
  else s.flag (odeOff odeFlags) 1

/-- A map object's value outside its listed range (R797). -/
def mapBad (i sub v : Nat) : Bool :=
  if i = 0xA200 then
    if sub = 1 then decide (64256 < v) else if sub = 2 then decide (v % 1024 ≠ 0) else if sub = 3 then decide (1004 < v)
    else decide (v ≠ 1)
  else decide (bitsOf v 31 25 ≠ 0) || decide (bitsOf v 63 48 ≠ 0)

/-- A write of a map object. -/
def State.mapPut (s : State) (i sub v : Nat) : DRes :=
  if mapBad i sub v then { st := s, abort := 9 }
  else if i = 0xA200 ∧ sub = 4 then { st := s.applyMaps }
  else
    let h := { s.fab.hv with objs := tput (fun _ => 0) s.fab.hv.objs (256 * i + sub) v }
    { st := { s with fab := { s.fab with hv := h } } }

/-- A write of the value `v` to a hardware object (R771, R776, R777, R781 to R783, R796). -/
def State.objWrite (s : State) (o : Obj) (raw : Bool) (v : Nat) : DRes :=
  if o.typ = 1 ∧ 1 < v then { st := s, abort := 9 }
  else match o.at_ with
    | .fld off hi lo =>
      if 2 ^ (hi + 1 - lo) ≤ v then { st := s, abort := 9 }
      else if o.scale = 0 ∨ raw then s.fldPut off hi lo v
      else (match s.scaleFs o.chan o.scale 0 with
        | none => { st := s, abort := 10 }
        | some fs => match codeIn v fs with
          | none => { st := s, abort := 9 }
          | some c => { s.fldPut off hi lo (word32 c).toNat with conv := true })
    | .rakeCmd n => if 1 ≤ v ∧ v ≤ 5 then s.objPut (chOff n chRakeCtl) (2 ^ (v - 1) * 65537) else { st := s, abort := 9 }
    | .strobe n => if v = 1 then s.objPut sysUpdCtl (2 ^ s.chGrp n * 65537) else { st := s, abort := 9 }
    | .map i sub => s.mapPut i sub v
    | _ => { st := s, abort := 3 }

/-! Requests (R774 to R780, R784 to R793). -/

/-- What the engine makes of a request: an answer, or a request that firmware answers. -/
inductive Served where
  | answered (r : DRes)
  | queued

/-- The length of a write does not fit the object (R786): the abort code. -/
def lenBad (o : Obj) (n : Nat) : Nat :=
  if o.typ = 13 then (if o.max < n then 6 else 0)
  else if o.typ = 14 then (if o.max < n then 7 else 0)
  else if n ≠ typeSize o.typ then 6 else 0

/-- R772, R774, R780, R786: a request is answered, refused, or is one for firmware. `write` holds the data of a write, `room`
the room of a local read. [DEDUCED, log 85] -/
def State.serve (s : State) (idx sub : Nat) (raw priv ecc : Bool) (write : Option (List Byte)) (room : Option Nat) : Served :=
  let no := fun c => Served.answered { st := s, abort := c }
  if ¬ bitOf (s.rg (odeOff odeCtl)) 0 then no 17
  else if ecc then .answered s.dictEcc
  else match objAt idx sub with
    | .inr c => no c
    | .inl o =>
      match write with
      | none =>
        if readBad o then no 4
        else if o.at_ = .fw then .queued
        else
          let r := s.objRead o raw
          let big := match room with
            | some k => r.abort = 0 && decide (k < 4 + r.data.length)
            | none => false
          .answered (if big then { st := r.st, abort := 8 } else r)
      | some bs =>
        let c := writeBad o priv
        let l := lenBad o bs.length
        if c ≠ 0 then no c else if l ≠ 0 then no l
        else if o.at_ = .fw then .queued
        else .answered (s.objWrite o raw (leNat bs))

/-- R778, R779: the firmware queue has no room. -/
def State.fwqFull (s : State) : Bool :=
  let n := bitsOf (s.rg (odeOff odeFwqSize)) 6 0
  let w := s.rg (odeOff odeFwqWptr)
  decide (n ≤ (w + 4294967296 - s.rg (odeOff odeFwqRptr)) % 4294967296) || s.fwq.any fun r => decide (r.slot = w % max 1 n)

/-- A request as it is served for its requester. -/
structure DAsk where
  idx  : Nat
  sub  : Nat
  raw  : Bool
  priv : Bool
  src  : Nat
  loc  : Bool
  tag  : Nat
  room : Nat
  write : Option (List Byte)

/-- The request is placed in the queue, and its deferred tag; none where a word of the entry cannot be written (R869). -/
def State.fwqPut (s : State) (q : DAsk) : State × Option Nat :=
  let w := s.rg (odeOff odeFwqWptr)
  let slot := w % max 1 (bitsOf (s.rg (odeOff odeFwqSize)) 6 0)
  let d := s.nextDtag
  let bs := q.write.getD []
  let p := s.put (s.fwqAt slot)
    (leBytes 4 (d + 65536 * b2n q.write.isSome + 131072 * b2n q.priv + 262144 * b2n q.raw)
      ++ leBytes 4 (q.idx + 65536 * q.sub) ++ leBytes 4 (q.src + 4096 * b2n q.loc) ++ leBytes 4 bs.length ++ bs)
  let s := p.1.setRg (odeOff odeFwqWptr) ((w + 1) % 4294967296)
  if p.2 ≠ [] then (p.1, none) else
  ({ s with fwq := s.fwq ++ [{ dtag := d, slot := slot, key := q.idx + 65536 * q.sub, write := q.write.isSome, src := q.src, loc := q.loc, tag := q.tag
                               room := q.room }]
            nextDtag := (d + 1) % 65536 }, some d)

/-- An answer of the engine goes to its requester. -/
def State.dictSend (s : State) (q : DAsk) (w : Nat) (data : List Byte) : State :=
  let s := s.countWrap (odeOff odeReqs)
  let s := if w % 256 = 0 then s else s.count (odeOff odeAborts)
  if q.loc then
    match s.fab.txns.find? fun t => decide (t.tag = q.tag) && t.dtag.isNone && t.held.isNone with
    | some t => if bitOf w 9 then s.complete t 0 0 0 [] (some (bitsOf w 31 16)) else s.dictDone t w data
    | none => s.count (fabOff fabLate)
  else s.answer q.src q.tag 0 0 (4 + data.length) (leBytes 4 w ++ data)

/-- R775: the engine can hold 16 requests that wait, and each is answered within 1.2 µs: it is full only where as many have arrived
in that time. -/
def State.engBusy (s : State) : Bool :=
  bitOf (s.rg (odeOff odeCtl)) 0 && decide (16 ≤ s.fab.asks.length) && Config.engFull s.tick s.fab.asks.length

/-- R774 to R780: the engine serves a request, within its 1 µs at once. [DESIGN CHOICE, log 125] -/
def State.dictServe (s : State) (q : DAsk) (ecc : Bool) : State :=
  if s.engBusy then s.dictSend q 14 []
  else
  let s := { s with fab := { s.fab with asks := s.fab.asks ++ [0] } }
  match s.serve q.idx q.sub q.raw q.priv ecc q.write (if q.loc ∧ q.write = none then some q.room else none) with
  | .answered r => r.st.dictSend q r.word (if r.abort = 0 then r.data else [])
  | .queued =>
    if s.fwGone then s.dictSend q 16 []
    else if s.fwqFull then (s.flag (odeOff odeFlags) 2).dictSend q 15 []
    else
      let p := s.fwqPut q
      match p.2 with
      | some d => p.1.dictSend q (512 + 65536 * d) []
      | none => p.1.dictEcc.st.dictSend q 18 []

/-- R775, R784 to R786: the local request of transaction `t` is served as its descriptor gives it. -/
def State.locDo (s : State) (ecc : Bool) (t : Txn) : State :=
  match t.ask with
  | none => s
  | some a =>
    let s := { s with fab := { s.fab with txns := s.fab.txns.map fun x => if x = t then { t with ask := none } else x } }
    s.dictServe ⟨a.idx, a.sub, a.raw, true, s.addr, true, t.tag, t.room, a.write⟩ ecc

/-- The local requests that wait are served in their order. -/
def State.locServes (s : State) : State := s.fab.txns.foldl (fun s t => s.locDo false t) s

/-- The engine comes to the local request of tag `tag`, a write or a read, after those before it. -/
def State.locServe (s : State) (write : Bool) (tag : Nat) (ecc : Bool) : State :=
  let mine := fun (t : Txn) => decide (t.tag = tag) && (match t.ask with
    | some a => a.write.isSome == write
    | none => false)
  match s.fab.txns.find? mine with
  | none => s
  | some t => ((s.fab.txns.takeWhile fun x => !mine x).foldl (fun s x => s.locDo false x) s).locDo ecc t

/-- R747: the source of a privileged request is accepted. -/
def State.fabTrusted (s : State) (src : Nat) : Bool :=
  decide (src = 0) || (List.range 8).any fun k =>
    let w := s.fr (fabTrust + 4 * k)
    bitOf w 12 && decide (bitsOf w 11 0 = src)

/-- A request of the local node, which its descriptor gives (R784), or one that a frame brings, which comes after the local ones
(R775): a frame is acknowledged (R734), and a privileged one from a
source that is not trusted is denied (R747, R772). -/
def State.dictAsk (s : State) (d : DictReq) (room : Nat) (write : Option (List Byte)) : State :=
  match d.link with
  | none => s.locServe write.isSome d.tag.toNat d.ecc
  | some (p, n) =>
    if s.portSt p.val ≠ 3 then s
    else
      let s := { s with out := s.out ++ [.ctrl p.val false n.toNat] }
      if ¬ s.assigned then s
      else if d.priv ∧ ¬ s.fabTrusted d.src.toNat then s.answer d.src.toNat d.tag.toNat 3 0 0 []
      else s.locServes.dictServe ⟨d.index.toNat, d.sub.toNat, d.raw, d.priv, d.src.toNat, false, d.tag.toNat, room, write⟩ d.ecc

/-! Commands. -/

def execDictRead (d : DictReq) (room : Nat) (s : State) : Res := .next (s.dictAsk d room none)
def execDictWrite (d : DictReq) (data : List Byte) (s : State) : Res := .next (s.dictAsk d 4 (some data))
/-- A write of 1 to APPLY, object 0xA200 subindex 4. -/
def execApply (d : DictReq) (s : State) : Res :=
  .next (s.dictAsk { d with index := 0xA200, sub := 4, raw := false } 4 (some [1]))

end Sys2Proof.Machine
end

