-- ==== Sys2Proof/Machine/FabricRx.lean ====
section
/-! DEFINITION. Frames that arrive and frames that are retried: forwarding, remote accesses, replies, discovery, time
(R729 to R761), the request ring (R745, R746), and the Harvest exchange (R762 to R765, R797 to R801). -/

namespace Sys2Proof.Machine

/-! Arrival (R732 to R740). -/

/-- The type is one that a route forwards (R731, R738). -/
def frameAddressed (f : Frame) : Bool := [1, 2, 3, 6, 9, 10].contains f.typ.toNat

/-- A request: READ, WRITE, or a DICT frame that is no RESULT. -/
def frameRequest (f : Frame) : Bool :=
  decide (f.typ = 1) || decide (f.typ = 2) || (decide (f.typ = 9) && decide (f.w3.toNat % 4 ≠ 2))

/-- The frame is delivered at this node (R737). -/
def State.forMe (s : State) (f : Frame) : Bool := s.assigned && decide (f.dst.toNat = s.addr)

/-- The frame one link further (R730). -/
def frameHop (f : Frame) : Frame := { f with hops := f.hops + 1 }

/-- Hop `j` of a DISCOVER path, the lowest bits first. -/
def hopAt (d : List Byte) (j : Nat) : Nat := bitsOf ((d.getD (j / 4) 0).toNat) (2 * (j % 4) + 1) (2 * (j % 4))

/-- The path with hop `j` set. -/
def setHop (d : List Byte) (j p : Nat) : List Byte :=
  d.set (j / 4) (BitVec.ofNat 8 (setBits ((d.getD (j / 4) 0).toNat) (2 * (j % 4) + 1) (2 * (j % 4)) p))

/-- R740: where a DISCOVER frame that arrived on port `p` goes on, and with which path; none where it has come to its end. -/
def discoverNext (p : Nat) (f : Frame) : Option (Nat × List Byte) :=
  let plen := bitsOf f.w2.toNat 6 0
  let h := f.hops.toNat
  if plen ≤ h + 1 then none
  else if bitOf f.w2.toNat 7 then some (hopAt f.data (plen - 2 - h), f.data)
  else some (hopAt f.data (h + 1), setHop f.data h p)

/-- R736: a transit frame that fails its CRC has been forwarded by then, and its copy ends with an invalid end marker.
[DEDUCED, log 88] -/
def State.badCopy (s : State) (p : Nat) (f : Frame) : State :=
  if (¬ s.assigned ∧ f.typ ≠ 5 ∧ f.typ ≠ 8) ∨ f.hops = 63 then s
  else if f.typ = 8 then
    (match discoverNext p f with
    | some (q, d) => if s.portSt q = 3 then s.emitBad q { frameHop f with data := d } else s
    | none => s)
  else if f.typ = 4 ∨ f.typ = 5 then
    [0, 1, 2, 3].foldl (fun s q =>
      if bitOf (s.fr fabBcast) q ∧ q ≠ p ∧ s.portSt q = 3 then s.emitBad q (frameHop f) else s) s
  else
    let e := s.egress f.dst.toNat
    if frameAddressed f ∧ ¬ s.forMe f ∧ e < 4 ∧ s.portSt e = 3 then s.emitBad e (frameHop f) else s

/-- A frame arrives: a copy with an invalid end marker is discarded, a frame that fails its CRC is answered with NAK, every
other with ACK, and `take` makes use of it (R732, R734, R736). `f` is the frame as the command's row takes it. -/
def State.rxLink (s : State) (rx : Rx) (f : Frame) (take : State → State) : State :=
  let p := rx.port.val
  let say := fun (s : State) (nak : Bool) => { s with out := s.out ++ [.ctrl p nak rx.lseq.toNat] }
  if s.portSt p ≠ 3 then s
  else if ¬ rx.endOk then s.drop p
  else if ¬ crcHolds rx then
    ((say (s.badCopy p f) true).count (fabOff (fabCrcerr + 4 * p))).fault frFab (ffCrc p)
  else take (say s false)

/-- R750: the requests that this node hands over on their last hop. -/
def State.transitPut (s : State) (p : Nat) (f : Frame) : State :=
  if frameRequest f ∧ bitsOf (s.fr (fabRt + 4 * f.dst.toNat)) 8 3 = 1 then
    { s with fab := { s.fab with transit := s.fab.transit ++ [{ port := p, src := f.src.toNat, tag := f.tag.toNat }] } }
  else s

/-- R750: a reply has returned, wherever it goes from here. -/
def State.transitBack (s : State) (f : Frame) : State :=
  if f.typ = 3 then
    let out := fun (x : Transit) => !(decide (x.src = f.dst.toNat) && decide (x.tag = f.tag.toNat))
    { s with fab := { s.fab with transit := s.fab.transit.filter out } }
  else s

/-- R732, R738, R752: an addressed frame that arrived on port `p` for another node. -/
def State.forward (s : State) (p : Nat) (f : Frame) : State :=
  if f.typ = 0 ∨ 11 ≤ f.typ.toNat then s.drop p
  else if ¬ s.assigned ∨ ¬ frameAddressed f ∨ s.forMe f then s
  else
    let s := s.transitBack f
    let e := s.egress f.dst.toNat
    if 4 ≤ e then (if frameRequest f then s.answer f.src.toNat f.tag.toNat 4 0 0 [] else s.drop p)
    else if s.portSt e ≠ 3 then s.loseFrame f
    else if f.hops = 63 then s.drop p
    else (s.transitPut e f).emit e (frameHop f)

/-- An addressed frame: delivered here, or forwarded. -/
def State.deliver (s : State) (p : Nat) (f : Frame) (take : State → State) : State :=
  if s.forMe f then take s else s.forward p f

/-- R739: the ports on which a broadcast goes on. -/
def State.bcastOn (s : State) (p : Nat) (f : Frame) : State :=
  let on := [0, 1, 2, 3].any fun q => bitOf (s.fr fabBcast) q && decide (q ≠ p) && decide (s.portSt q = 3)
  if ¬ on then s else if f.hops = 63 then s.drop p else s.bcastOut (frameHop f) (some p)

/-! Remote accesses (R747, R748). -/

/-- What the accesses of a request leave: the state, whether one failed and with which cause, the bytes done and read. -/
structure Ran where
  st    : State
  bad   : Bool := false
  cause : Nat := 0
  done  : Nat := 0
  data  : List Byte := []

/-- R747: the address at which a request reaches register space: its view by PRIV, an alias window for a privileged one
alone. -/
def reqAddr (priv : Bool) (a : Nat) : Option Nat :=
  if ¬ inRegs a then some a
  else
    let k := (a - 0x10000000) / 0x2000000
    if k = 0 ∨ k = 4 then some (viewBase (if priv then .priv else .unpriv) + a % 0x2000000)
    else if priv then some a else none

/-- One access of `w` bytes. -/
def State.reqOne (s : State) (priv : Bool) (a w : Nat) (wr : Option (List Byte)) : Acs :=
  match reqAddr priv a with
  | none => s.refuse .fabric wr.isSome w a 4
  | some a => match wr with
    | some bs => s.busWrite .fabric a bs
    | none => s.busRead .fabric a w

/-- `k` accesses of `w` bytes from `a` on; `wr` holds the data of a write. -/
def Ran.go (priv : Bool) (w : Nat) : Nat → Nat → Option (List Byte) → Ran → Ran
  | 0, _, _, r => r
  | k + 1, a, wr, r =>
    let x := r.st.reqOne priv a w (wr.map (·.take w))
    if x.cause ≠ 0 ∨ x.ue then { r with st := x.st, bad := true, cause := x.cause }
    else Ran.go priv w k (a + w) (wr.map (·.drop w)) { r with st := x.st, done := r.done + w, data := r.data ++ x.data }

/-- The address, width in bytes and COUNT of a READ, WRITE or BCAST_WRITE frame (R731). -/
def frameAddr (f : Frame) : Nat := bitsOf f.w2.toNat 6 0 * 4294967296 + f.w3.toNat
def frameWidth (f : Frame) : Nat := 2 ^ bitsOf f.w2.toNat 8 7
def frameCount (f : Frame) : Nat := bitsOf f.w2.toNat 18 9

/-- R748: the accesses of a request. -/
def State.runReq (s : State) (f : Frame) (wr : Bool) : Ran :=
  let n := if wr then f.len.toNat else frameCount f
  Ran.go f.priv (frameWidth f) (n / frameWidth f) (frameAddr f) (if wr then some f.data else none) { st := s }

/-- R747: PRIV = 1 from a source that is not trusted. -/
def State.reqDenied (s : State) (f : Frame) : Bool := f.priv && !s.fabTrusted f.src.toNat

/-- R747 to R749: a request is executed at its target and answered. [DEDUCED, log 89] -/
def State.reqServe (s : State) (f : Frame) (wr : Bool) : State :=
  if s.reqDenied f then s.answer f.src.toNat f.tag.toNat 3 0 0 []
  else
    let r := s.runReq f wr
    r.st.answer f.src.toNat f.tag.toNat (b2n r.bad) r.cause r.done r.data

/-- R751, R753, R788 to R790: a REPLY. -/
def State.replyIn (s : State) (f : Frame) : State :=
  match s.fab.txns.find? fun t => decide (t.tag = f.tag.toNat) && t.dtag.isNone && t.held.isNone with
  | none => s.count (fabOff fabLate)
  | some t =>
    let w := f.w2.toNat
    if t.op = 9 ∧ bitsOf w 3 0 = 0 then
      let d := leNat (f.data.take 4)
      if bitOf d 9 then s.complete t 0 0 0 [] (some (bitsOf d 31 16)) else s.dictDone t d (f.data.drop 4)
    else s.complete t (bitsOf w 3 0) (bitsOf w 7 4) (bitsOf w 17 8) (if t.op = 1 then f.data.take t.room else []) none

/-- R739, R762: a broadcast write at this node: accesses, or the frame length that the root has sent. -/
def State.bcastHere (s : State) (f : Frame) : State :=
  if f.src = 0 ∧ frameAddr f = frameMsg ∧ s.isMember then
    { s with fab := { s.fab with frameGo := some (leNat (f.data.drop 4), leNat (f.data.take 4)) } }
  else if s.reqDenied f then s
  else (s.runReq f true).st

/-! Discovery (R740). -/

/-- The access at the end of a path: a word with TYPE and, as in a READ frame, ADDR[38:32], then ADDR[31:0], then the data
of a write. -/
def State.discoverRun (s : State) (d : List Byte) : Ran :=
  let w := leNat ((d.drop 16).take 4)
  let a := bitsOf w 14 8 * 4294967296 + leNat ((d.drop 20).take 4)
  Ran.go true 4 1 a (if w % 16 = 2 then some ((d.drop 24).take 4) else none) { st := s }

/-- A DISCOVER frame that arrived on port `p`: forwarded along its path, which records the reverse ports, or its access made
and replied. [DESIGN CHOICE, log 90] -/
def State.discoverIn (s : State) (p : Nat) (f : Frame) : State :=
  let plen := bitsOf f.w2.toNat 6 0
  let h := f.hops.toNat
  let go := fun (s : State) (q : Nat) (d : List Byte) =>
    if s.portSt q ≠ 3 then s
    else if h = 63 then s.drop p
    else s.emit q { frameHop f with data := d }
  match discoverNext p f with
  | some (q, d) => go s q d
  | none =>
    if bitOf f.w2.toNat 7 then s
    else
      let d := setHop f.data h p
      let r := s.discoverRun d
      let w := 3 + 256 * b2n r.bad + 4096 * r.cause + 65536 * r.done
      let data := d.take 16 ++ leBytes 4 w ++ r.data
      r.st.emit p { f with dst := f.src, src := BitVec.ofNat 12 s.addr, len := BitVec.ofNat 10 data.length, hops := 0
                           w2 := BitVec.ofNat 24 (plen + 128), data := data }

/-! Time (R755 to R760). -/

/-- A time in units of 2^-16 ns as a TIME frame carries it: 64 bits of ns and a fraction of 16 (R731). -/
def stamp (t : Int) : List Byte := leBytes 8 ((t / 65536) % 18446744073709551616).toNat ++ leBytes 2 (t % 65536).toNat

/-- A value in the range of a signed 32-bit register. -/
def satReg (v : Int) : Int := if v < -2147483648 then -2147483648 else if 2147483647 < v then 2147483647 else v

/-- The link delay from the four times, in ps (R756). -/
def linkDelay (t1 t2 t3 t4 : Int) : Int :=
  let n := (t4 - t1) - (t3 - t2)
  if n % 2 ≠ 0 ∧ Config.delayUp n then n / 2 + 1 else n / 2

/-- R759, R760: a member's offset `θ` on its UP_PORT `p`; one within SYNC_LIM ends SYNC of every port. [DESIGN CHOICE, log 138] -/
def State.offsetIn (s : State) (p : Nat) (th : Int) : State :=
  let s := s.setRg (fabOff fabOffset) (word32 (satReg th)).toNat
  let far := decide (250 * bitsOf (s.fr fabSyncCfg) 7 0 < th.natAbs)
  let s := if far then s.cause frFab (ffSync p) else [0, 1, 2, 3].foldl (fun s q => s.uncause frFab (ffSync q)) s
  let big := decide (1000000 < th.natAbs)
  let s := { s with fab := { s.fab with step := if big then some th else none } }
  if big ∧ ¬ s.chansQuiet then s.flag (fabOff fabFlags) 0x20 else s

/-- R731, R756: the four times of an exchange on port `p`, in ps; `data` is the payload of the frame that has come, at T2.
[DEDUCED, log 91] -/
def State.timeIn (s : State) (p : Nat) (data : List Byte) (t1 t2 t3 t4 : Int) : State :=
  let d := linkDelay t1 t2 t3 t4
  let s := s.setRg (fabOff (fabDelay + 4 * p)) (word32 d).toNat
  let s := s.setPort p { s.port p with timed := true, heard := some (data.take 10 ++ stamp (t2 * 65536 / 1000)) }
  let s := { s with fab := { s.fab with quiet := s.fab.quiet.set p 0 } }
  if s.isMember ∧ p = s.upPort then s.offsetIn p (t2 - t1 - d - sgn32 (s.fr (fabAsym + 4 * p))) else s

/-- A TIME frame goes out (R731, R756). -/
def State.timeOut (s : State) (p : Nat) : State :=
  if s.portSt p = 3 then
    s.emit p { typ := 7, dst := 0, src := BitVec.ofNat 12 s.addr, len := 30, hops := 0, priv := false, tag := 0, w2 := 0, w3 := 0
               data := stamp (16384000 * (s.tick : Int) + Config.timeOff p s.tick % 16384000)
                 ++ ((s.port p).heard.getD ((List.range 20).map fun i => Config.timeByte p s.tick i)) }
  else s

/-- R759: no TIME frame has arrived on the UP_PORT for 3 ms. -/
def State.timeLost (s : State) (p : Nat) : State :=
  if s.isMember ∧ p = s.upPort ∧ s.canHaveLasted (s.fab.quiet.getD p 0) 600000 then s.cause frFab (ffSync p) else s

/-- R760: the step is due: it is to be made, and every channel is OFF or FENCED. -/
def State.stepDue (s : State) : Option Int := if s.chansQuiet then s.fab.step else none

/-- What is held as an absolute cycle or tick, `k` later by the loaded counter. -/
def timeBy (k : Int) (a : Nat) : Nat := ((a : Int) + k).toNat

/-- Edges of CLK_AUX go on at the next cycle at which one may fall: a loaded counter has one at every boundary whose tick is a
multiple of 4 (R697), so what keeps time by them is later by a multiple of 8 cycles. [DESIGN CHOICE, log 109] -/
def auxBy (c : Int) : Int := c + (-c) % 8

/-- A converter's times, later by a counter that is loaded `c` cycles on. -/
def Psc.laterBy (c : Int) (p : Psc) : Psc :=
  let e := auxBy c
  { p with
    q := p.q.map fun x => (timeBy c x.1, x.2)
    startAt := p.startAt.map (timeBy e), from_ := timeBy e p.from_, setAt := timeBy e p.setAt, due := timeBy e p.due
    tmr := p.tmr.map (timeBy c), dly := p.dly.map (timeBy c)
    edges := p.edges.map fun x => (timeBy c x.1, x.2) }

/-- A channel's times, later by a counter that is loaded `c` cycles and `k` ticks on. -/
def Chan.laterBy (c k : Int) (x : Chan) : Chan :=
  let a := x.meas.ap
  let b := x.meas.brine
  let r := x.rail
  { x with
    comp := { x.comp with smpAt := x.comp.smpAt.map (timeBy (auxBy c)) }
    tags := x.tags.map fun g => (g.1, timeBy c g.2.1, g.2.2)
    meas := { x.meas with recs := x.meas.recs.map fun r => { r with due := timeBy c r.due }
                          ap := { a with s := timeBy k a.s, crossed := a.crossed.map (timeBy k) }
                          brine := { b with first := timeBy k b.first } }
    rail := { r with rise := timeBy k r.rise, formed := r.formed.map (timeBy k)
                     fallH := r.fallH.map (timeBy c), fallL := r.fallL.map (timeBy c) }
    rake := { x.rake with wFrom := timeBy k x.rake.wFrom, gapB := timeBy k x.rake.gapB }
    law := { x.law with snap := x.law.snap.map (timeBy k) }
    sup := { x.sup with cxTick := timeBy k x.sup.cxTick }
    le := { x.le with fit := x.le.fit.map fun f => { f with due := timeBy k f.due } } }

/-- Boundary A of the pending strobes, found anew from the loaded counter (R649). [DESIGN CHOICE, log 109] -/
def State.strobesAnew (s : State) : State :=
  { s with strobes := s.strobes.map fun x => (x.1, x.2.map fun b => { b with at_ := s.boundaryA b.mine }) }

/-- What runs through a step of the counter by `c` cycles and `k` ticks keeps its distance from the present; what waits for
a tick of a given number waits for that number, or acts at the next boundary where the step has passed it. [DESIGN CHOICE, log 109] -/
def State.laterBy (s : State) (c k : Int) : State :=
  { s with
    refillAt := s.refillAt.map (timeBy c), auxPh := (((s.auxPh : Int) + auxBy c) % 32).toNat
    contribs := s.contribs.map fun x => { x with cyc := timeBy c x.cyc }
    fired := s.fired.map fun x => (x.1, x.2.map fun y => (timeBy c y.1, y.2))
    evcLast := s.evcLast.map fun x => (x.1, x.2.map fun y => { y with cyc := timeBy c y.cyc })
    updAt := s.updAt.map fun x => (x.1, x.2.map (timeBy c))
    seqAt := s.seqAt.map fun x => (timeBy c x.1, x.2)
    fenceAt := s.fenceAt.map fun x => (timeBy c x.1, x.2)
    loopCnt := s.loopCnt.map fun x => (x.1, timeBy k x.2.1, x.2.2)
    trig := s.trig.map fun x => (x.1, { x.2 with till := x.2.till.map (timeBy c) })
    pscs := s.pscs.map fun x => (x.1, x.2.laterBy c)
    chans := s.chans.map fun x => (x.1, x.2.laterBy c k)
    tiles := s.tiles.map fun x => (x.1, { x.2 with cal := { x.2.cal with
      from_ := timeBy k x.2.cal.from_, due := timeBy (auxBy c) x.2.cal.due } }) }

/-- R760: the tick counter is loaded: it moves by θ, to the CLK_CONV cycle, of which the tick that ends lasts up to 49
cycles longer. -/
def State.timeStepNow (s : State) : State :=
  match s.stepDue with
  | none => s
  | some th =>
    let cyc := rne th 5000
    let k := -((-cyc) / 50)
    let s := s.laterBy cyc k
    State.strobesAnew { s with tick := ((s.tick : Int) + k).toNat, fab := { s.fab with step := none } }

/-! Link retry (R734, R735). -/

/-- The last permitted attempt of a frame has failed, or the port is lost. -/
def State.portFail (s : State) (p : Nat) : State := (s.portDown p 1).settleFaults

/-- The frames of `l` go out again, in order. -/
def State.resend (s : State) (p : Nat) : List Sent → State
  | [] => s
  | x :: r => (s.wire p x.lseq x.frame true).resend p r

/-- The next attempt of the frame with sequence number `q` on port `p`; `room` where it can end in time. The frames sent after it follow
again, acknowledged or not, but for those that have had three attempts. [DEDUCED, log 146] -/
def State.retryFrame (s : State) (p q : Nat) (room : Bool) : State :=
  let v := s.port p
  match v.sent.find? fun x => decide (x.lseq = q) && !x.acked with
  | none => s
  | some x =>
    if 3 ≤ x.tries ∨ ¬ room then s.portFail p
    else
      let again := (v.sent.dropWhile fun y => y.lseq ≠ q).filter fun y => decide (y.tries < 3)
      let s := s.setPort p { v with sent := v.sent.map fun y => if again.contains y then { y with tries := y.tries + 1, acked := false } else y }
      (s.count (fabOff (fabRetry + 4 * p)) again.length).resend p again

/-- An acknowledgement. -/
def State.ackFrame (s : State) (p q : Nat) : State :=
  let v := s.port p
  s.setPort p { v with sent := (v.sent.map fun x => if x.lseq = q then { x with acked := true } else x).dropWhile (·.acked) }

/-- No answer within the window to the oldest frame that waits for one. [DEDUCED, log 92] -/
def State.answerLate (s : State) (p : Nat) (room : Bool) : State :=
  match (s.port p).sent.find? fun x => !x.acked with
  | some x => s.retryFrame p x.lseq room
  | none => s

/-- R750: a request was handed over on its last hop through port `p` so long ago, by `old`, that its target is absent. -/
def State.targetGone (s : State) (old : Nat → Bool) (p : Nat) : Bool :=
  (s.fab.txns.any fun t => decide (t.port = some p) && t.dtag.isNone && t.held.isNone
    && decide (bitsOf (s.fr (fabRt + 4 * t.dst)) 8 3 = 1) && old t.age)
  || s.fab.transit.any fun x => decide (x.port = p) && old x.age

/-- R750: the target behind port `p` is absent: no reply within 2 µs. -/
def State.absent (s : State) (p : Nat) : State :=
  if s.portSt p = 3 ∧ s.targetGone (s.canHaveLasted · 400) p then s.portFail p else s

/-- FAB_TMO, in CLK_CONV cycles. -/
def State.fabTmoCyc (s : State) : Nat := 20 * bitsOf (s.fr fabTmo) 15 0

/-- R753: a transaction is not completed in time. -/
def State.txnLate (s : State) (tag : Nat) : State :=
  match s.fab.txns.find? fun t => decide (t.tag = tag) && t.dtag.isNone && t.held.isNone && s.canHaveLasted t.age s.fabTmoCyc with
  | some t => s.complete t 6 0 0 [] none
  | none => s

/-! The request ring (R745, R746). -/

/-- R754: the first tag from `t` on that is not outstanding. -/
def freeTag (used : List Nat) : Nat → Nat → Nat
  | 0, t => t
  | k + 1, t => if used.contains t then freeTag used k ((t + 1) % 4096) else t

/-- Words that the transaction layer reads: an uncorrectable error is raised and ends the request (R818, R819). -/
def State.fabMeet (s : State) (a n : Nat) : State × Bool :=
  (codewords a n (n + 1)).foldl (fun p w =>
    if p.1.memUE.contains w then (p.1.eccMeet w true, true)
    else if p.1.memCE.contains w then (p.1.eccMeet w false, p.2) else p) (s, false)

/-- A descriptor (R745, R784). -/
structure Desc where
  op   : Nat
  dst  : Nat
  priv : Bool
  wid  : Nat
  lo   : Nat
  hi   : Nat
  cnt  : Nat
  dptr : Nat
  user : Nat

/-- The descriptor at address `a`. -/
def State.descAt (s : State) (a : Nat) : Desc :=
  let w0 := s.w32 a
  let w2 := s.w32 (a + 8)
  { op := bitsOf w0 3 0, dst := bitsOf w0 15 4, priv := bitOf w0 16, wid := bitsOf w0 18 17, lo := s.w32 (a + 4)
    hi := bitsOf w2 6 0, cnt := bitsOf w2 25 16, dptr := s.w32 (a + 12), user := s.w32 (a + 16) }

/-- WRITE of a DICT descriptor. -/
def Desc.dictWrite (d : Desc) : Bool := decide (d.op = 9) && bitOf d.lo 24

/-- The descriptor sends data. -/
def Desc.sends (d : Desc) : Bool := decide (d.op = 2) || decide (d.op = 3) || d.dictWrite

/-- R745, R746, R786: a bad descriptor. [DESIGN CHOICE, log 112] -/
def Desc.bad (d : Desc) : Bool :=
  !([1, 2, 3, 9].contains d.op) || decide (d.cnt = 0) || decide (1004 < d.cnt) || decide (d.cnt % 2 ^ d.wid ≠ 0) || decide (0x200000 < d.dptr + d.cnt)
    || (decide (d.op = 9) && !d.dictWrite && decide (d.cnt < 4))

/-- R746: FAB_TMO is too short for the way to `dst`. -/
def State.tmoShort (s : State) (dst : Nat) : Bool :=
  decide (100 * bitsOf (s.fr fabTmo) 15 0 < 600 * bitsOf (s.fr (fabRt + 4 * dst)) 8 3 + 2000)

/-- The frame of a descriptor (R731, R787). -/
def State.descFrame (s : State) (d : Desc) (tag : Nat) (data : List Byte) : Frame :=
  { typ := BitVec.ofNat 4 (if d.op = 3 then 4 else d.op), dst := BitVec.ofNat 12 (if d.op = 3 then 0 else d.dst)
    src := BitVec.ofNat 12 s.addr, len := BitVec.ofNat 10 data.length, hops := 0, priv := d.priv, tag := BitVec.ofNat 12 tag
    w2 := BitVec.ofNat 24 (if d.op = 9 then d.lo % 16777216 else d.hi + 128 * d.wid + 512 * d.cnt)
    w3 := BitVec.ofNat 32 (if d.op = 9 then b2n (bitOf d.lo 24) + 4 * b2n (bitOf d.lo 25) else d.lo), data := data }

/-- A descriptor that can be sent is sent, or served at this node where it names it (R737, R785); a dictionary request of this node waits
for the engine, which comes to it within the tick. -/
def State.descSend (s : State) (d : Desc) (t : Txn) (data : List Byte) : State :=
  let f := s.descFrame d t.tag data
  let wait := fun (s : State) (p : Option Nat) =>
    { s with fab := { s.fab with txns := s.fab.txns ++ [{ t with port := p }] } }
  if d.op = 3 then (s.bcastOut f none).complete t 0 0 d.cnt [] none
  else if d.op = 9 ∧ d.dst = s.addr then
    { s with fab := { s.fab with txns := s.fab.txns ++
        [{ t with ask := some ⟨bitsOf d.lo 15 0, bitsOf d.lo 23 16, bitOf d.lo 25, if d.dictWrite then some data else none⟩ }] } }
  else if s.forMe f then
    (if s.reqDenied f then s.complete t 3 0 0 [] none
     else
      let r := s.runReq f (decide (d.op = 2))
      r.st.complete t (b2n r.bad) r.cause r.done r.data none)
  else
    let e := s.egress d.dst
    if 4 ≤ e then s.complete t 4 0 0 [] none
    else if s.portSt e ≠ 3 then s.complete t 5 0 0 [] none
    else wait (s.emit e f) (some e)

/-- R745, R746, R754: the next descriptor is taken. -/
def State.reqSend (s : State) : State :=
  let n := bitsOf (s.fr fabRqSize) 15 0
  let r := s.fr fabRqRptr
  if n = 0 ∨ r = s.fr fabRqWptr ∨ 256 ≤ s.fab.txns.length ∨ s.cqFull then s
  else
    let a := fabBuf + 32 * bitsOf (s.fr fabRqBase) 15 0 + 32 * (r % n)
    let s := s.setRg (fabOff fabRqRptr) ((r + 1) % 4294967296)
    let tag := freeTag (s.fab.txns.map (·.tag)) 257 s.fab.nextTag
    let s := { s with fab := { s.fab with nextTag := (tag + 1) % 4096 } }
    let m := s.fabMeet a 32
    let d := s.descAt a
    let t : Txn := { tag := tag, op := d.op, port := none, dst := d.dst, user := d.user, dptr := d.dptr
                     room := if d.dictWrite then 1008 else d.cnt, dtag := none, held := none }
    if m.2 then m.1.complete t 1 0 0 [] none
    else if d.bad then m.1.complete t 8 0 0 [] none
    else if m.1.tmoShort d.dst then m.1.complete t 7 0 0 [] none
    else
      let data := if d.sends then s.bytes (fabBuf + d.dptr) d.cnt else []
      let q := if d.sends then m.1.fabMeet (fabBuf + d.dptr) d.cnt else m
      if q.2 then q.1.complete t 1 0 0 [] none else q.1.descSend d t data

/-! Harvest (R763 to R765, R798, R800, R801). -/

/-- The node makes Harvest exchanges (R33, R762). -/
def State.hvNode (s : State) : Bool := s.isRoot || s.isMember

/-- Replace the Harvest exchange. -/
def State.setHv (s : State) (h : Hv) : State := { s with fab := { s.fab with hv := h } }

/-- Bytes placed at offset `o` of an image. -/
def putAt (img : List Byte) (o : Nat) (bs : List Byte) : List Byte := img.take o ++ bs ++ img.drop (o + bs.length)

/-- The objects of entries read into an image (R797, R800). -/
def State.gather (s : State) (img : List Byte) : List Nat → State × List Byte
  | [] => (s, img)
  | e :: r => match entryObj e with
    | .inr _ => s.gather img r
    | .inl o =>
      if readBad o then s.gather img r
      else
        let x := s.objRead o (entryRaw e)
        x.st.gather (if x.abort = 0 then putAt img (entryOff e) x.data else img) r

/-- The image before any entry is read. -/
def State.blank (s : State) (n : Nat) : List Byte := (List.range n).map (Config.harvestByte s.tick)

/-- The objects of entries written from an image in map order; false where one could not be written (R800). -/
def State.scatter (s : State) (img : List Byte) (ok : Bool) : List Nat → State × Bool
  | [] => (s, ok)
  | e :: r => match entryObj e with
    | .inr _ => s.scatter img false r
    | .inl o =>
      let x := s.objWrite o (entryRaw e) (leNat ((img.drop (entryOff e)).take (objLen o)))
      x.st.scatter img (ok && decide (x.abort = 0)) r

/-- The HARVEST producer fires in cycle `c` of the present tick (R765). -/
def State.hvFire (s : State) (c : Nat) : State :=
  let s := s.setHv { s.fab.hv with fired := true }
  (s.fireAt 2 0 (s.at_ c) none).countWrap (fabOff fabHvCnt)

/-- R763, R798: the root's down frames from frame `i` on. -/
def State.hvSend (s : State) (n i : Nat) : Nat → List Byte → State
  | 0, _ => s
  | k + 1, img =>
    let d := img.take 1004
    let f : Frame := { typ := 5, dst := 0, src := BitVec.ofNat 12 s.addr, len := BitVec.ofNat 10 d.length, hops := 0, priv := false
                       tag := 0, w2 := BitVec.ofNat 24 (s.fab.hv.start % 65536 + 65536 * i), w3 := BitVec.ofNat 32 (n - 1), data := d }
    (s.bcastOut f none).hvSend n (i + 1) k (img.drop 1004)

/-- R763, R764: what the root does at a frame start. -/
def State.hvRoot (s : State) : State :=
  let m := s.fab.hv.maps
  let g := s.gather (s.blank m.dnLen) m.dn
  let n := max 1 ((m.dnLen + 1003) / 1004)
  let s := g.1.hvSend n 0 n g.2
  if bitsOf (s.fr fabHvCfg) 11 0 = 0 then s.hvFire 0 else s

/-- A frame starts in this tick and its exchange has not been begun (R32). -/
def State.frameDue (s : State) : Bool :=
  s.running && s.fab.hv.due

/-- R32, R763, R765, R799: the exchange of a frame that starts in this tick. -/
def State.frameBegin (s : State) : State :=
  if ¬ s.frameDue then s
  else
    let h := s.fab.hv
    let s := if h.begun && s.hvNode && !h.fired then (s.count (fabOff fabHvLate)).flag (fabOff fabFlags) 0x10 else s
    let s := s.setHv { begun := true, start := s.tick, maps := h.next.getD h.maps, objs := h.objs }
    if s.isRoot then s.hvRoot else s

/-- R763, R800: a member has the whole set: it writes its down entries, reads its up entries and fires. -/
def State.hvTake (s : State) (img : List Byte) (c : Nat) : State :=
  let m := s.fab.hv.maps
  let w := s.scatter img true m.dn
  if ¬ w.2 then w.1
  else
    let g := w.1.gather (w.1.blank m.upLen) m.up
    let s := g.1.hvFire c
    if bitOf (s.fr fabHvCfg) 12 then
      s.sendFrame { typ := 6, dst := 0, src := BitVec.ofNat 12 s.addr, len := BitVec.ofNat 10 g.2.length, hops := 0, priv := false
                    tag := 0, w2 := BitVec.ofNat 24 (s.fab.hv.start % 65536), w3 := 0, data := g.2 }
    else s

/-- A HARVEST_DN frame at a member (R763). -/
def State.hvDn (s : State) (f : Frame) (c : Nat) : State :=
  let h := s.fab.hv
  let i := bitsOf f.w2.toNat 21 16
  let n := f.w3.toNat % 64 + 1
  if ¬ s.isMember ∨ ¬ h.begun ∨ h.fired ∨ bitsOf f.w2.toNat 15 0 ≠ h.start % 65536 ∨ n ≤ i ∨ h.got.any (fun p => p.1 = i) then s
  else
    let got := h.got ++ [(i, f.data)]
    let s := s.setHv { h with got := got }
    if got.length < n then s
    else s.hvTake ((List.range n).flatMap fun j => (got.find? fun p => p.1 = j).elim [] (·.2)) c

/-- Bytes stored in DDR5 in words; a word that cannot be written keeps its content (R869). -/
def State.ddrPut (s : State) (a : Nat) (bs : List Byte) : Nat → State
  | 0 => s
  | k + 1 =>
    if bs = [] then s
    else
      let n := codeword a + 128 - a
      (s.wordWrite a (bs.take n)).st.ddrPut (a + n) (bs.drop n) k

/-- R592, R713, R801: the payload of a HARVEST_UP frame at window offset `o`; one that DDR5 cannot take is a bus error. -/
def State.hvStore (s : State) (o : Nat) (bs : List Byte) : State :=
  if bs = [] then s
  else if s.ddrOk o bs.length then
    ((s.ddrWake (ddrBase + o)).ddrWake (ddrBase + o + bs.length - 1)).ddrPut (ddrBase + o) bs 9
  else s.busErr .fabric true 3 (ddrBase + o) 10

/-- A HARVEST_UP frame at the root (R764, R801). [DEDUCED, log 87] -/
def State.hvUp (s : State) (f : Frame) (c : Nat) : State :=
  let h := s.fab.hv
  if ¬ s.isRoot ∨ ¬ h.begun ∨ bitsOf f.w2.toNat 15 0 ≠ h.start % 65536 then s
  else
    let o := h.maps.upBase + 1024 * f.src.toNat
    let s := s.hvStore o f.data
    let ups := h.ups ++ [f.src.toNat]
    let s := s.setHv { s.fab.hv with ups := ups }
    if ¬ h.fired ∧ ups.length = bitsOf (s.fr fabHvCfg) 11 0 then s.hvFire c else s

/-! Waits. -/

/-- R749: a read that has not completed is answered with BUSY and abandoned. -/
def State.readBusy (s : State) (src tag : Nat) : State :=
  match s.fab.reads.find? fun x => decide (x.src = src) && decide (x.tag = tag) && s.canHaveLasted x.age 320 with
  | some x => State.answer { s with fab := { s.fab with reads := s.fab.reads.filter (· ≠ x) } } src tag 2 0 0 []
  | none => s

/-- R749: a READ at its target: completed and answered, or, where its accesses take too long, not. -/
def State.readServe (s : State) (f : Frame) (late : Bool) : State :=
  if late ∧ ¬ s.reqDenied f then { s with fab := { s.fab with reads := s.fab.reads ++ [{ src := f.src.toNat, tag := f.tag.toNat }] } }
  else s.reqServe f false

/-- A base tick of every wait of the fabric is over. -/
def State.fabTick (s : State) : State :=
  let f := s.fab
  let s := { s with fab := { f with
      txns := f.txns.map fun t => { t with age := t.age + 1 }
      transit := f.transit.map fun x => { x with age := x.age + 1 }
      reads := f.reads.map fun x => { x with age := x.age + 1 }
      quiet := if s.isMember then f.quiet.map (· + 1) else f.quiet
      asks := (f.asks.map (· + 1)).filter fun a => !hasLasted a 240 } }
  [0, 1, 2, 3].foldl (fun s p => if s.portSt p = 2 then s.setPort p { s.port p with train := (s.port p).train + 1 } else s) s

/-- The local dictionary requests, and the waits that have ended by the end of the present tick: slow reads, absent targets, since PATH_LOST wins over TIMEOUT (R753), then
transactions, deferred results, the training of the ports and the TIME frames of the UP_PORT. -/
def State.fabWaits (s : State) : State :=
  let s := s.locServes
  let s := s.fab.reads.foldl (fun s x => if hasLasted x.age 320 then s.readBusy x.src x.tag else s) s
  let s := [0, 1, 2, 3].foldl (fun s p => if s.targetGone (hasLasted · 400) p then s.absent p else s) s
  let s := s.fab.txns.foldl (fun s t =>
    if t.dtag.isNone ∧ t.held.isSome then s
    else if t.dtag.isSome then (if hasLasted t.age s.deferred then s.resultLate t.tag else s)
    else if hasLasted t.age s.fabTmoCyc then s.txnLate t.tag else s) s
  let s := [0, 1, 2, 3].foldl (fun s p => if hasLasted (s.port p).train 100000000 then s.trainFail p else s) s
  if hasLasted (s.fab.quiet.getD s.upPort 0) 600000 then s.timeLost s.upPort else s

/-! Commands: the frame of a row has the row's type. -/

def execFrameForward (rx : Rx) (s : State) : Res := .next (s.rxLink rx rx.frame (·.forward rx.port.val rx.frame))
def execRead (rd : ReadRx) (s : State) : Res :=
  let f := { rd.rx.frame with typ := 1 }
  .next (s.rxLink rd.rx f fun s => s.deliver rd.rx.port.val f (·.readServe f rd.late))
def execWrite (rx : Rx) (s : State) : Res :=
  let f := { rx.frame with typ := 2 }
  .next (s.rxLink rx f fun s => s.deliver rx.port.val f (·.reqServe f true))
def execReply (rx : Rx) (s : State) : Res :=
  let f := { rx.frame with typ := 3 }
  .next (s.rxLink rx f fun s => s.deliver rx.port.val f (·.replyIn f))
def execBcastWrite (rx : Rx) (s : State) : Res :=
  let f := { rx.frame with typ := 4 }
  .next (s.rxLink rx f fun s => if s.assigned then (s.bcastHere f).bcastOn rx.port.val f else s)
def execHarvestDn (rx : Rx) (cyc : Cycle) (s : State) : Res :=
  let f := { rx.frame with typ := 5 }
  .next (s.rxLink rx f fun s => (s.hvDn f cyc.val).bcastOn rx.port.val f)
def execHarvestUp (rx : Rx) (cyc : Cycle) (s : State) : Res :=
  let f := { rx.frame with typ := 6 }
  .next (s.rxLink rx f fun s => s.deliver rx.port.val f (·.hvUp f cyc.val))
def execTime (rx : Rx) (t1 t2 t3 t4 : Int) (s : State) : Res :=
  .next (s.rxLink rx { rx.frame with typ := 7 } (·.timeIn rx.port.val rx.frame.data t1 t2 t3 t4))
def execDiscover (rx : Rx) (s : State) : Res :=
  let f := { rx.frame with typ := 8 }
  .next (s.rxLink rx f (·.discoverIn rx.port.val f))
/-- A TOPO frame at the root is for its fabric manager, which runs in firmware (R741, R744). -/
def execTopo (rx : Rx) (s : State) : Res :=
  let f := { rx.frame with typ := 10 }
  .next (s.rxLink rx f fun s => s.deliver rx.port.val f id)
def execDictResult (rx : Rx) (s : State) : Res :=
  let f := { rx.frame with typ := 9, w3 := rx.frame.w3 / 4 * 4 + 2 }
  .next (s.rxLink rx f fun s => s.deliver rx.port.val f
    (·.resultIn f.tag.toNat (f.w3.toNat / 65536) (leNat (f.data.take 4)) (f.data.drop 4)))
def execAck (p : PortId) (lseq : BitVec 8) (s : State) : Res := .next (s.ackFrame p.val lseq.toNat)
def execNak (p : PortId) (lseq : BitVec 8) (room : Bool) (s : State) : Res := .next (s.retryFrame p.val lseq.toNat room)
def execRetryTimeout (p : PortId) (room : Bool) (s : State) : Res := .next (s.answerLate p.val room)
def execRequestSend (s : State) : Res := .next s.reqSend
def execTransactionTimeout (tag : BitVec 12) (s : State) : Res := .next (s.txnLate tag.toNat)
def execTargetAbsent (p : PortId) (s : State) : Res := .next (s.absent p.val)
def execReadBusyTimeout (tag src : BitVec 12) (s : State) : Res := .next (s.readBusy src.toNat tag.toNat)
def execTimeExchange (p : PortId) (s : State) : Res := .next (s.timeOut p.val)
def execTimeFrameTimeout (p : PortId) (s : State) : Res := .next (s.timeLost p.val)

end Sys2Proof.Machine
end

