-- ==== Sys2Proof/Machine/HostBus.lean ====
section
/-! DEFINITION. The host: DMA engines (R831 to R833), transaction-layer packets to the BARs (R827 to R829), the PCI Express
link, and the IEEE 1149.1 port (R668, R837). -/

namespace Sys2Proof.Machine

/-! DMA engines. -/

/-- Engine `e`. -/
def State.dma (s : State) (e : Nat) : Dma := tget (fun _ => {}) s.hostp.dma e

/-- Replace it. -/
def State.setDma (s : State) (e : Nat) (v : Dma) : State :=
  { s with hostp := { s.hostp with dma := tput (fun _ => {}) s.hostp.dma e v } }

/-- R833: engine `e` stops: ERR is set, and RPTR names the descriptor. -/
def State.dmaHalt (s : State) (e : Nat) : State := (s.setDma e {}).putRg (dmaOff e dmaCtl) 2 true

/-- R833: a fault stops engine `e`. -/
def State.dmaStop (s : State) (e : Nat) : State := (s.dmaHalt e).fault frHost fhDmaErr

/-- R831: the descriptor that eight words hold. -/
def dmaDesc (ws : List Word) : DmaDesc :=
  let w := fun i => ws.getD i 0
  { hostAddr := w 1 ++ w 0, devAddr := (w 2).toNat + 4294967296 * bitsOf (w 3).toNat 6 0, toHost := bitOf (w 3).toNat 8
    irq := bitOf (w 3).toNat 9, len := (w 4).toNat, postOff := w 5, postVal := w 6, user := w 7 }

/-- R831: the host address of the descriptor that engine `e` takes next. -/
def State.dmaAt (s : State) (e : Nat) : Nat :=
  s.rg (dmaOff e dmaRing) + 4294967296 * s.rg (dmaOff e dmaRing + 4) + 32 * (s.rg (dmaOff e dmaRptr) % s.rg (dmaOff e dmaSize))

/-- R827: the bytes of a read request: Max_Read_Request_Size of Device Control, at most what the device supports. [PRESUMED, log 106] -/
def State.readMax (s : State) : Nat := min s.hostp.pcie.readReq (128 * 2 ^ bitsOf s.hostp.pcie.devCtl 14 12)

/-- The read requests for `n` bytes of the host's memory from `a` on: each ends at a multiple of their greatest size.
[PRESUMED, log 106] -/
def hostReads (m a n : Nat) : Nat → List Out
  | 0 => []
  | k + 1 =>
    if n = 0 then []
    else let c := min n (m - a % m); .hostRead a c :: hostReads m (a + c) (n - c) k

/-- R831, R833: a field of a descriptor is bad. -/
def dmaBad (d : DmaDesc) : Bool :=
  decide (d.hostAddr.toNat % 8 ≠ 0) || decide (d.devAddr % 8 ≠ 0) || decide (0x8000000000 ≤ d.devAddr)
    || decide (d.len % 8 ≠ 0) || decide (d.len < 8) || decide (16777216 < d.len) || decide (0x2000000 ≤ d.postOff.toNat)

/-- The cause of a bus error of an engine's access to the 8 bytes at `a`; 0 for none (R656, R821, R831): the calibration area is written
by C0, C1 and the host through BAR4 alone, and the views are no part of what an engine reaches. [DEDUCED, log 131] -/
def State.dmaCause (s : State) (wr : Bool) (a : Nat) : Nat :=
  if a < 0x6000000 then
    (if wr ∧ 0x5100000 ≤ a ∧ a < 0x5400000 then 4 else if wr ∧ (s.memProt a 8).isSome then 8 else 0)
  else if inRegs a then 4
  else if ddrBase ≤ a ∧ a < ddrBase + 274877906944 then (if s.ddrOk (a - ddrBase) 8 then 0 else 10)
  else 3

/-- The 8-byte steps of `n` bytes from `a` on that come before the first with a bus error. -/
def State.dmaClear (s : State) (wr : Bool) (a n : Nat) : Nat :=
  ((List.range (n / 8)).takeWhile fun i => decide (s.dmaCause wr (a + 8 * i) = 0)).length

/-- R618: the bus error of an engine. -/
def State.dmaRefuse (s : State) (wr : Bool) (a : Nat) : State :=
  let c := s.dmaCause wr a
  let s := if c = 8 then (s.memProt a 8).getD s else s
  s.busErr .host wr 3 a c

/-- Data written to the device in words; the flag is false where an error ends them. -/
def State.dmaIn (s : State) (a : Nat) (bs : List Byte) : Nat → State × Bool
  | 0 => (s, true)
  | k + 1 =>
    if bs = [] then (s, true)
    else
      let c := codeword a + (if a < ddrBase then 32 else 128) - a
      let n := min c bs.length
      let g := 8 * s.dmaClear true a n
      let s := if a < 0x4000000 then s.decideAll else s
      let x := if g = 0 then { st := s } else (s.ddrWake a).wordWrite a (bs.take g)
      if x.ue then (x.st, false)
      else if g < n then (x.st.dmaRefuse true (a + g), false)
      else x.st.dmaIn (a + n) (bs.drop n) k

/-- Data read from the device in words; none where an error ends them. -/
def State.dmaOut (s : State) (a n : Nat) (acc : List Byte) : Nat → State × Option (List Byte)
  | 0 => (s, some acc)
  | k + 1 =>
    if n = 0 then (s, some acc)
    else
      let c := min n (codeword a + (if a < ddrBase then 32 else 128) - a)
      let g := 8 * s.dmaClear false a c
      if g < c then (s.dmaRefuse false (a + g), none)
      else
        let x := (s.ddrWake a).wordRead a c
        if x.ue then (x.st, none) else x.st.dmaOut (a + c) (n - c) (acc ++ x.data) k

/-- R831: engine `e` can take a descriptor. -/
def State.dmaReady (s : State) (e : Nat) : Bool :=
  s.hostp.linkUp && s.rgBit (dmaOff e dmaCtl) 0 && !s.rgBit (dmaOff e dmaCtl) 2 && (s.dma e).cur.isNone
    && decide (s.rg (dmaOff e dmaSize) ≠ 0) && decide (s.rg (dmaOff e dmaRptr) ≠ s.rg (dmaOff e dmaWptr))

/-- R831, R833: engine `e` has fetched the descriptor in `ws` and moves its data; `data` holds what the host's memory gives, and
`hostErr` a completion with UR, CA or poisoned data. -/
def State.dmaTake (s : State) (e : Nat) (ws : List Word) (data : List Byte) (hostErr : Bool) : State :=
  let d := dmaDesc ws
  let m := s.readMax
  let asks := hostReads m (s.dmaAt e) 32 32 ++ (if dmaBad d || d.toHost then [] else hostReads m d.hostAddr.toNat d.len d.len)
  if ¬ s.dmaReady e then s
  else
    let s := { s with out := s.out ++ asks }
    if dmaBad d ∨ hostErr then s.dmaStop e
    else if d.toHost then
      let r := s.dmaOut d.devAddr d.len [] (d.len + 1)
      match r.2 with
      | some bs => State.setDma { r.1 with out := r.1.out ++ [.hostWrite d.hostAddr.toNat bs] } e { cur := some d }
      | none => r.1.dmaStop e
    else
      let r := s.dmaIn d.devAddr (data.take d.len) (d.len + 1)
      if r.2 then r.1.setDma e { cur := some d } else r.1.dmaStop e

/-- R832: the data of engine `e`'s descriptor are complete: the post-write, the interrupt, RPTR. -/
def State.dmaEnd (s : State) (e : Nat) : State :=
  match (s.dma e).cur with
  | none => s
  | some d =>
    let v : View := if s.rgBit (dmaOff e dmaCtl) 1 then .priv else .unpriv
    let x : Acs := if d.postOff = 0 then { st := s } else s.busWrite .host (viewBase v + d.postOff.toNat) (leBytes 4 d.postVal.toNat)
    if x.cause ≠ 0 then x.st.dmaStop e
    else
      let s := (x.st.setDma e {}).countWrap (dmaOff e dmaRptr)
      if d.irq ∧ ¬ s.hostp.dmaIrq.contains e then { s with hostp := { s.hostp with dmaIrq := s.hostp.dmaIrq ++ [e] } } else s

/-! Transaction-layer packets (R828, R829). -/

/-- The byte offset and width of the access that byte enables describe, if they do. -/
def beAcc (be : Nat) : Option (Nat × Nat) :=
  match be with
  | 1 => some (0, 1)
  | 2 => some (1, 1)
  | 4 => some (2, 1)
  | 8 => some (3, 1)
  | 3 => some (0, 2)
  | 12 => some (2, 2)
  | 15 => some (0, 4)
  | _ => none

/-- The byte enables of the `n` words of a packet. -/
def tlpBes (fbe lbe n : Nat) : List Nat :=
  if n ≤ 1 then List.replicate n fbe else fbe :: (List.replicate (n - 2) 15 ++ [lbe])

/-- The naturally aligned accesses of a packet whose words lie from `a` on: address, place in the data and width. -/
def tlpAccs : Nat → Nat → List Nat → List (Nat × Nat × Nat)
  | a, i, be :: be2 :: r =>
    if be = 15 ∧ be2 = 15 ∧ a % 8 = 0 then (a, i, 8) :: tlpAccs (a + 8) (i + 8) r
    else match beAcc be with
      | some (o, w) => (a + o, i + o, w) :: tlpAccs (a + 4) (i + 4) (be2 :: r)
      | none => tlpAccs (a + 4) (i + 4) (be2 :: r)
  | a, i, [be] => match beAcc be with
    | some (o, w) => [(a + o, i + o, w)]
    | none => []
  | _, _, [] => []

/-- The accesses of a packet in order; the first that fails ends it. -/
def State.tlpRun (s : State) (wr : Bool) (data acc : List Byte) : List (Nat × Nat × Nat) → State × Option (List Byte)
  | [] => (s, some acc)
  | (a, i, w) :: r =>
    let x := if wr then s.busWrite .host a ((data.drop i).take w) else s.busRead .host a w
    if x.cause ≠ 0 ∨ x.ue then (x.st, none) else x.st.tlpRun wr data (acc ++ x.data) r

/-- The address that offset `off` of a BAR maps onto. -/
def barAddr (b : Bar) (off : Nat) : Nat :=
  match b with
  | .bar0 => 0x10000000 + off
  | .bar2 => 0x18000000 + off
  | .bar4 => off
  | .config => off

/-- The size of a BAR. -/
def barSize (b : Bar) : Nat :=
  match b with
  | .bar2 => 0x2000000
  | _ => 0x8000000

/-- A packet that is no access: its bus error. -/
def tlpBad (b : Bar) (off : Nat) (wr : Bool) (fbe lbe n : Nat) : Option Nat :=
  if barSize b ≤ off then some 3
  else if off % 4 ≠ 0 ∨ (beAcc fbe).isNone ∨ (1 < n ∧ (beAcc lbe).isNone) ∨ (n = 1 ∧ lbe ≠ 0) then some 2
  else if b ≠ .bar4 ∧ (n ≠ 1 ∨ fbe ≠ 15) then some 1
  else if wr ∧ n = 0 then some 1
  else none

/-- R827: the word at offset `off` of the configuration space, by the layout of the PCI Express standard; what the spec leaves open is
free. -/
def State.cfgRead (s : State) (off : Nat) : Nat :=
  let c := s.hostp.pcie
  let f := (Config.pcieWord (off / 4)).toNat
  let cap := 64 + 4 * (Config.pcieCap.toNat % 32)
  if off = 0 then c.vendor + 65536 * c.device
  else if off = 8 then c.revision + 256 * c.classCode
  else if off = 0xC then setBits f 23 23 0
  else if off = 0x2C then c.subVendor + 65536 * c.subsystem
  else if off = cap + 4 then setBits f 2 0 (if c.payload = 512 then 2 else if c.payload = 256 then 1 else 0)
  else if off = cap + 8 then setBits f 15 0 c.devCtl
  else if off = cap + 12 then setBits (setBits f 3 0 c.gen) 9 4 c.width
  else if off = cap + 16 then setBits (setBits f 19 16 c.speed) 25 20 c.lanes
  else if off = 256 + 4 * (Config.pcieAer.toNat % 896) then setBits f 15 0 (if c.aer then 1 else 0)
  else f

/-- A write of the configuration space with byte enables `be`: Device Control takes its Max_Payload_Size and Max_Read_Request_Size
(R827). [PRESUMED, log 106] -/
def State.cfgWrite (s : State) (off be w : Nat) : State :=
  let c := s.hostp.pcie
  if off = 64 + 4 * (Config.pcieCap.toNat % 32) + 8 then
    let lo := if bitOf be 0 then setBits c.devCtl 7 5 (min 2 (bitsOf w 7 5)) else c.devCtl
    let v := if bitOf be 1 then setBits lo 14 12 (min 5 (bitsOf w 14 12)) else lo
    { s with hostp := { s.hostp with pcie := { c with devCtl := v } } }
  else s

/-- R828, R829: a packet of `dwords.length` words; a read is answered with a completion. -/
def State.tlpIn (s : State) (b : Bar) (off : Nat) (wr : Bool) (fbe lbe : Nat) (dwords : List Word) : State :=
  let a := barAddr b off
  let answer := fun (s : State) (d : Option (List Byte)) => if wr then s else { s with out := s.out ++ [.cpl d] }
  if ¬ s.hostp.linkUp then s
  else if b = .config then
    answer (if wr ∧ dwords.length = 1 then s.cfgWrite off fbe (dwords.headD 0).toNat else s) (if off % 4 = 0 ∧ off < 4096 ∧ dwords.length = 1 then some (leBytes 4 (s.cfgRead off)) else none)
  else match tlpBad b off wr fbe lbe dwords.length with
    | some c => answer (s.busErr .host wr 2 a c) none
    | none =>
      let r := s.tlpRun wr (dwords.flatMap fun w => leBytes 4 w.toNat) [] (tlpAccs a 0 (tlpBes fbe lbe dwords.length))
      answer r.1 r.2

/-! The link. -/

/-- The engines that run. -/
def State.dmaOn (s : State) : List Nat :=
  (List.range 8).filter fun e => s.rgBit (dmaOff e dmaCtl) 0 && !s.rgBit (dmaOff e dmaCtl) 2

/-- R833: the link goes down: every engine that runs stops, and LINK_DOWN and DMA_ERR are raised. [DEDUCED, log 82] -/
def State.pcieDown (s : State) : State :=
  if ¬ s.hostp.linkUp then s
  else
    let s := s.linesRise
    let es := s.dmaOn
    let s := es.foldl State.dmaHalt { s with hostp := { s.hostp with linkUp := false } }
    let k := frHost * 32 + fhLinkDown
    let down := if s.causes.contains k then [] else [(fhLinkDown, srcCls frHost fhLinkDown)]
    let err := if es = [] then [] else [(fhDmaErr, srcCls frHost fhDmaErr)]
    State.report { s with causes := if s.causes.contains k then s.causes else k :: s.causes } frHost (down ++ err)

/-- The link comes up, where the strap enables it (R673) and the PHY is not held in reset (R679), at a generation from 1 to 4 and on 1, 2
or 4 lanes, as the partner allows (R827). [DESIGN CHOICE, log 148] -/
def State.pcieUp (s : State) : State :=
  if s.boot.pcie ∧ s.rel 0 ∧ ¬ s.boot.phyHeld then
    let s := s.linesRise
    let p := s.hostp.pcie
    let p := { p with speed := (Config.pcieGen p.ups).val + 1, lanes := 2 ^ (Config.pcieLanes p.ups).val, ups := p.ups + 1 }
    State.uncause { s with hostp := { s.hostp with linkUp := true, pcie := p } } frHost fhLinkDown
  else s

/-! Pins of the units around the channels, in reset and from their release on (R688). -/

/-- The transmitters of port `p` and of PCI Express are in electrical idle: until link training. [DEDUCED, log 132] -/
def State.portIdle (s : State) (p : Nat) : Bool := !(s.rel 0 && (decide (s.portSt p = 2) || decide (s.portSt p = 3)))
def State.pcieIdle (s : State) : Bool := !(s.rel 0 && s.boot.pcie && !s.boot.phyHeld)

/-- The reset output of DDR5 channel `x` is high and its clock runs: from the start of its initialisation on,
not while it is fenced and so in reset. [DEDUCED, log 132] -/
def State.ddrRstN (s : State) (x : Nat) : Bool :=
  let st := bitsOf (s.rg (ddrOff x memcDdrSts)) 2 0
  s.rel 1 && decide (st ≠ 0) && decide (st ≠ 5)

/-- The flash's chip select is active and its clock runs: while a command does, and while the boot ROM
fetches an image from it. [DEDUCED, log 132] -/
def State.xspiCs (s : State) : Bool := s.xspiBusy || (s.boot.busy && decide (s.boot.src = 0))

/-- The UART's transmit line: high, but for the start bit and the zero bits of a byte on it, the lowest first. [DEDUCED, log 132] -/
def State.uartTxd (s : State) : Bool :=
  match s.hostp.tx with
  | [] => true
  | b :: _ =>
    let k := s.hostp.txAcc / (16 * max 1 (bitsOf (s.rg (hostOff hostUartCtl)) 11 0))
    if k = 0 then false else if k ≤ 8 then b.getLsbD (k - 1) else true

/-! The IEEE 1149.1 port. -/

/-- An instruction takes effect, and reads `data`. [DEDUCED, log 83] -/
def State.jtagIn (s : State) (i : Nat) (data : List Nat) : State := { s with jtag := { instr := i }, out := s.out ++ [.jtag i data] }

/-- R668: what SYSRD reads, from the start of step 1 on. -/
def State.sysrdData (s : State) : List Nat :=
  if s.boot.phase = 2 then [s.rg sysRstSts, s.rg sysStrap, s.rg sysTrimSts] else []

/-! Commands. -/

def execDmaDescriptor (e : DmaId) (ws : List Word) (data : List Byte) (hostErr : Bool) (s : State) : Res :=
  .next (s.dmaTake e.val ws data hostErr)
def execDmaDone (e : DmaId) (s : State) : Res := .next (s.dmaEnd e.val)
def execTlp (bar : Bar) (off : Nat) (isWrite : Bool) (fbe lbe : BitVec 4) (dwords : List Word) (s : State) : Res :=
  .next (s.tlpIn bar off isWrite fbe.toNat lbe.toNat dwords)
def execPcieLinkDown (s : State) : Res := .next s.pcieDown
def execPcieLinkUp (s : State) : Res := .next s.pcieUp
def execBypass (s : State) : Res := .next (s.jtagIn 1 [])
def execIdcode (s : State) : Res := .next (s.jtagIn 0 [0x2646474B])
def execSamplePreload (s : State) : Res := .next (s.jtagIn 2 [])
def execExtest (s : State) : Res := .next (s.jtagIn 3 [])
def execSysrd (s : State) : Res := .next (s.jtagIn 4 s.sysrdData)
/-- DBG selects the debug module of its own specification. -/
def execDbg (s : State) : Res := .next (s.jtagIn 5 [])
def execTrstN (s : State) : Res := .next { s with jtag := {} }

end Sys2Proof.Machine
end

