-- ==== Sys2Proof/Machine/Tick.lean ====
section
/-! DEFINITION. The base tick: what the tick that ends still owes, and the boundary that begins the next one, with the die
link, the FDAC values, the evaluations and the pins of every channel (R15, R19 to R29, R50, R68, R91, R134, R135, R352 to
R359, R364 to R369, R525, R577, R578, R597, R871); the application of strobes, the time step and the start of a frame. -/

namespace Sys2Proof.Machine

/-! The end of a tick: the events whose time the spec fixes exactly, where no command has told of them. -/

/-- Channel `n` at the end of the present tick. [DESIGN CHOICE, log 8] -/
def State.settleChan (s : State) (n : Nat) : State :=
  let s := (s.apDelayEnd n).apEnd n
  let s := s.recsSettle n (s.at_ 50) (s.ch n).meas.recs
  ((((((s.leDue n).brnTimeout n).leRunEnd n).oscWindow n).hoCheck n).arRequest n).smpStep n

/-- The present tick up to its end. [DEDUCED, log 4] -/
def State.settleTick (s : State) : State :=
  let s := s.frameBegin
  let s := s.each State.settleChan (s.chans.map (·.1))
  let s := s.decideAll.each State.calWaits [0, 1, 2, 3]
  let s := State.runTo runFuel s (s.at_ 49)
  (s.trigEnds (List.range 16)).aliveToggle.aliveResume.windowsEnd.fabWaits.coreWaits

/-- What takes effect at the boundary that ends the present tick (R79, R101, R489, R522, R650, R760). -/
def State.endTick (s : State) : State :=
  let s := s.timeStepNow
  let s := s.each (fun s n => ((s.railSettle n).offRampDone n).clampRelease n) (s.chans.map (·.1))
  let s := s.strobesDue (List.range 8)
  s.calCommits [0, 1, 2, 3]

/-! The die link (R15, R134, R577, R578, R871). -/

/-- The upward transfer of tile `t` brings no samples in this tick. -/
def State.linkFails (s : State) (inp : TickIn) (t : Nat) : Bool :=
  bitOf inp.upCrc.toNat t || bitOf inp.upLate.toNat t || s.injHit (frTile t) 3 none

/-- R134, R577, R871: the transfers of tile `t`; a miss counts in STANDBY too. [DEDUCED, log 10] [DEDUCED, log 11] -/
def State.linkStep (s : State) (inp : TickIn) (t : Nat) : State :=
  if bitOf s.held.toNat t then s
  else
    let fails := s.linkFails inp t
    let late := bitOf inp.upLate.toNat t
    let crc := bitOf inp.upCrc.toNat t || s.injHit (frTile t) 3 none || bitOf inp.downCrc.toNat t
    let s := s.injGen (frTile t) 3 none
    let s := if fails ∧ ¬ s.isFenced (unTile t) then s.count (engOff (engMiss + 4 * t)) else s
    let bad := if fails then min 8 (tget (fun _ => 0) s.linkBad t + 1) else 0
    let good := if fails then 0 else min 8 (tget (fun _ => 0) s.linkGood t + 1)
    let s := { s with linkBad := tput (fun _ => 0) s.linkBad t bad, linkGood := tput (fun _ => 0) s.linkGood t good }
    let rs := (if crc then [(ftLinkCrc, srcCls (frTile t) ftLinkCrc)] else []) ++
      (if late then [(ftLinkLate, srcCls (frTile t) ftLinkLate)] else [])
    let s := if rs = [] then s else s.report (frTile t) rs
    if bad = 8 then s.cause (frTile t) ftLinkDown
    else if good = 8 then s.uncause (frTile t) ftLinkDown
    else s

/-- What the link brings for channel `n`; `miss` tells the tiles without samples. [DEDUCED, log 7] -/
def tickSample (inp : TickIn) (miss : Nat → Bool) (n : Nat) : BIn :=
  match inp.chans.find? fun c => c.chan.val = n with
  | some c => { v := c.v, ia := c.ia, ib := c.ib, miss := miss (tileOf n), ecc := c.coefEcc, late := c.lateU }
  | none => { miss := miss (tileOf n) }

/-! FDAC, oscillator and pins. -/

/-- R19, R149: the tile applies the value formed at the last own boundary; R578: not where its transfer fails. [DEDUCED, log 9] -/
def State.fdacStep (s : State) (n : Nat) (down : Bool) : State :=
  let c := s.ch n
  if ¬ down ∧ (c.state = .armed ∨ c.state = .active) then
    s.setCh n { c with law := { c.law with u := c.law.uNext, uLim := c.law.uLimNext } }
  else s

/-- R50, R68, R71, R226: the code at the FDAC. -/
def State.codeStep (s : State) (n : Nat) (down : Bool) : State :=
  let c := s.ch n
  if down ∨ s.calDrives n then s
  else s.setCh n { c with law := { c.law with code := (if c.loopOn then fdacCode c.law.u c.lePert else 0) } }

/-- R352, R354, R359: the oscillator at a base tick. Where its accumulator reads zero, NCO_OUT is that of phase POFF. -/
def State.ncoStep (s : State) (n : Nat) : State :=
  let c := s.ch n
  if c.state = .armed ∨ c.state = .active then
    let wide := fun lo hi => s.cr n lo + 4294967296 * bitsOf (s.cr n hi) 15 0
    let acc := if c.preset then wide chNcoPinitLo chNcoPinitHi else c.accNext
    s.setCh n { c with
      preset := false, acc := acc, accNext := (acc + wide chNcoFtwLo chNcoFtwHi) % 281474976710656
      nco := ncoOut acc (s.cr n chNcoPoff) (s.cr n chNcoAmp) }
  else s.setCh n { c with preset := false, nco := ncoOut 0 (s.cr n chNcoPoff) (s.cr n chNcoAmp) }

/-! The boundary of a channel. -/

/-- The fast converters of channel `n` run (R365). -/
def Chan.sampling (c : Chan) : Bool := decide (c.state = .armed) || decide (c.state = .active) || decide (c.state = .service)

/-- An own boundary (R19, R28), up to the measurement path: in cycle 0 what takes effect at it, and in a later cycle of the
tick what its samples bring about. [DEDUCED, log 6] -/
def State.ownBoundary (s : State) (n : Nat) (b : BIn) (down : Bool) : State :=
  let was := (s.ch n).ho.st
  let s := (s.cycleBegin.stage n (·.fdacStep n down)).bdHead n
  let s := s.stage n (·.arbitrate n)
  let s := s.stage n (·.hoRequests n was)
  let s := s.stage n (·.ncoStep n)
  let y := if (s.ch n).sampling then s.samples n b else none
  let s := s.stage n (·.spStage n y)
  let s := s.stage n (·.leBegin n)
  let s := s.stage n (·.codeStep n down)
  let s := (if down then s else s.stage n (·.pinStep n)).cycleBegin
  let s := s.stage n (·.evalStage n b y)
  let s := s.stage n (·.leStage n y)
  let s := s.stage n (·.supStage n y)
  let s := s.stage n fun s => match y with
    | some y => s.safeStage n y
    | none => s
  let s := s.stage n (·.hoSample n b y)
  let s := s.stage n (·.railStep n y)
  (s.stage n (·.measStage n b.v b.ia b.ib y)).cycleEnd

/-- Channel `n` at a base tick. -/
def State.chanTick (s : State) (n : Nat) (b : BIn) (down : Bool) : State :=
  if bitOf s.held.toNat (tileOf n) then s
  else
    let own := s.own n
    let s := if own then s.unfenceStep n else s
    let s := if own then (s.stage n (·.ownBoundary n b down)).gapLate n
      else
        let s := (s.stage n (·.ncoStep n)).stage n (·.brnStage n false b.v b.ia b.ib b.miss)
        if down then s else s.stage n (·.pinStep n)
    let s := s.stage n (·.clampStep n own)
    if own then s.stage n (·.rakeLook n) else s

/-- Channel `n` made an evaluation in this tick, one of its own, whose FDAC value is late. [DEDUCED, log 13] [DESIGN CHOICE, log 113] -/
def State.lateNow (s : State) (n : Nat) (b : BIn) : Bool := b.late && s.own n && (s.ch n).loopOn && (s.ch n).law.made

/-- R135: late FDAC values of the lanes `ts`, in one cycle (R627). -/
def State.overruns (s : State) (ts : List Nat) : State :=
  let ts := ts.filter fun t => !s.isFenced (unTile t)
  if ts = [] then s
  else
    let s := ts.foldl (fun s t => s.count (engOff (engOvr + 4 * t))) s
    (s.flag (engOff engLaneSts) (ts.foldl (fun m t => m ||| 2 ^ t) 0)).report frEng (ts.map fun t => (t, srcCls frEng t))

/-! Taps (R525). -/

/-- One tap towards `t`. -/
def tapMove (v t : Int) : Int := if v < t then v + 1 else if t < v then v - 1 else v

/-- The comparator and delay taps of channel `n`. -/
def State.tapStep (s : State) (n : Nat) : State :=
  let c := s.ch n
  let w := s.rg (cmpOff n cmpTrim)
  let cmp := c.trim.cmp.zipIdx.map fun p => tapMove p.1 (cmpTap w p.2)
  let dly := (c.trim.dly.zip c.trim.dlyTo).map fun p => (tapMove p.1 p.2).toNat
  if cmp = c.trim.cmp ∧ dly = c.trim.dly then s
  else s.setCh n { c with trim := { c.trim with cmp := cmp, dly := dly } }

/-- The reference tap of tile `t`. -/
def State.refStep (s : State) (t : Nat) : State :=
  let v := s.tile t
  if v.refTap = v.refTo then s else s.setTile t { v with refTap := tapMove v.refTap v.refTo }

/-! The base tick. -/

/-- What a boundary does beside the channels, before them: throttle and reference, timers, commits, frame length, votes, ALIVE,
the coefficients' temperatures and the producers TICK and FRAME (R545). [DEDUCED, log 12] [DEDUCED, log 75] -/
def State.tickHead (s : State) : State :=
  let s := s.throttleEnd.refMove
  let s := (s.mtimeAdd 25).mtips.wdogTick.uartTick
  let s := (s.commitsLate s.crc.late).frameApply s.tick
  let s := s.voteFixes (s.voteErr.filter s.scrubbed)
  let s := if s.fwDead then s.fwqLose s.fwq else s
  let s := s.aliveTick.windowTick.fabTick.coreTick.coresOpen
  s.calForm.tickFires

/-- The boundary at which the present tick begins; what a direct fire of its cycle 0 brings comes after it (R23). -/
def State.boundary (s : State) (inp : TickIn) : State :=
  let s := s.tickHead
  let fails := fun t => s.linkFails inp t
  let down := fun n => bitOf inp.downCrc.toNat (tileOf n)
  let smp := tickSample inp fails
  let s := s.each (fun s t => s.linkStep inp t) [0, 1, 2, 3]
  let s := s.each (fun s n => s.chanTick n (smp n) (down n)) (List.range 64)
  let s := s.carried
  let late := fun t => (tileChans t).any fun n => s.lateNow n (smp n)
  let s := s.overruns ([0, 1, 2, 3].filter late)
  let s := s.each State.tapStep (s.chans.map (·.1))
  let s := s.each State.cmpGate (s.chans.map (·.1))
  let s := s.each (fun s t => (s.refStep t).pipStep t) [0, 1, 2, 3]
  s.linesRise

/-- R29: a base tick ends and the next begins; before the tiles are released none runs (R31), and the cores' programs and the lines go on.
[DEDUCED, log 3] [DEDUCED, log 5] -/
def State.baseTick (s : State) (inp : TickIn) : State :=
  let s := s.coresRun inp.cores
  if ¬ s.running then s.linesRise
  else
    let s := s.settleTick.endTick
    if ¬ s.running then s else State.boundary { s with tick := (s.tick + 1) % 18446744073709551616, cyc := 0 } inp

/-! Commands. -/

def execBaseTick (inp : TickIn) (s : State) : Res := .next (s.baseTick inp)
def execStrobeApply (g : GroupId) (s : State) : Res := .next (s.settleTick.strobeApply g.val)
def execTimeStep (s : State) : Res := .next s.settleTick.timeStepNow
def execFrameStart (s : State) : Res := .next s.frameBegin

end Sys2Proof.Machine
end

