-- ==== Sys2Proof/Machine/Dispatch.lean ====
section
/-! DEFINITION. The meaning of every command: one arm per constructor of `Instr`. -/

namespace Sys2Proof.Machine

/-- The effect of a command on everything but the queue. -/
def exec (i : Instr) (s : State) : Host.Outcome State Fault Refusal :=
  match i with
  | .baseTick inp => Sys2Proof.Machine.execBaseTick inp s
  | .railSettleEnd n => Sys2Proof.Machine.execRailSettleEnd n s
  | .pwmPeriod n cyc => Sys2Proof.Machine.execPwmPeriod n cyc s
  | .offRampComplete n => Sys2Proof.Machine.execOffRampComplete n s
  | .oscWindowEnd n => Sys2Proof.Machine.execOscWindowEnd n s
  | .leStart a n => Sys2Proof.Machine.execLeStart a n s
  | .leStop a n => Sys2Proof.Machine.execLeStop a n s
  | .leRunEnd n => Sys2Proof.Machine.execLeRunEnd n s
  | .leDone n => Sys2Proof.Machine.execLeDone n s
  | .handoverCheck n => Sys2Proof.Machine.execHandoverCheck n s
  | .autorangeRequest n => Sys2Proof.Machine.execAutorangeRequest n s
  | .brineLineTimeout n => Sys2Proof.Machine.execBrineLineTimeout n s
  | .apertureDelayEnd n => Sys2Proof.Machine.execApertureDelayEnd n s
  | .apertureEnd n => Sys2Proof.Machine.execApertureEnd n s
  | .recordWritten n cyc => Sys2Proof.Machine.execRecordWritten n cyc s
  | .spillMove n => Sys2Proof.Machine.execSpillMove n s
  | .pansRptrWrite a n v => Sys2Proof.Machine.execPansRptrWrite a n v s
  | .brnRptrWrite a n v => Sys2Proof.Machine.execBrnRptrWrite a n v s
  | .measGo a n aper => Sys2Proof.Machine.execMeasGo a n aper s
  | .measAbort a n => Sys2Proof.Machine.execMeasAbort a n s
  | .lineCrossing t interval => Sys2Proof.Machine.execLineCrossing t interval s
  | .arm a n => Sys2Proof.Machine.execArm a n s
  | .enable a n => Sys2Proof.Machine.execEnable a n s
  | .disable a n => Sys2Proof.Machine.execDisable a n s
  | .disarm a n => Sys2Proof.Machine.execDisarm a n s
  | .serviceEnter a n => Sys2Proof.Machine.execServiceEnter a n s
  | .serviceLeave a n => Sys2Proof.Machine.execServiceLeave a n s
  | .chnCmdReserved a n code => Sys2Proof.Machine.execChnCmdReserved a n code s
  | .channelReset a n => Sys2Proof.Machine.execChannelReset a n s
  | .unfence a u => Sys2Proof.Machine.execUnfence a u s
  | .railWrite a n r v => Sys2Proof.Machine.execRailWrite a n r v s
  | .verify a n k => Sys2Proof.Machine.execVerify a n k s
  | .verifyDone n => Sys2Proof.Machine.execVerifyDone n s
  | .invalidate a n k => Sys2Proof.Machine.execInvalidate a n k s
  | .coefSetWrite r n k off bytes => Sys2Proof.Machine.execCoefSetWrite r n k off bytes s
  | .snap a n => Sys2Proof.Machine.execSnap a n s
  | .rakeCmdStart a n => Sys2Proof.Machine.execRakeCmdStart a n s
  | .rakeCmdStop a n => Sys2Proof.Machine.execRakeCmdStop a n s
  | .rakeCmdPause a n => Sys2Proof.Machine.execRakeCmdPause a n s
  | .rakeCmdResume a n => Sys2Proof.Machine.execRakeCmdResume a n s
  | .rakeCmdJump a n => Sys2Proof.Machine.execRakeCmdJump a n s
  | .rakeCmdCheck a n => Sys2Proof.Machine.execRakeCmdCheck a n s
  | .checkDone n => Sys2Proof.Machine.execCheckDone n s
  | .descriptorTableWrite r n off bytes => Sys2Proof.Machine.execDescriptorTableWrite r n off bytes s
  | .pointEnd n => Sys2Proof.Machine.execPointEnd n s
  | .waitEnd n => Sys2Proof.Machine.execWaitEnd n s
  | .waitTimeout n => Sys2Proof.Machine.execWaitTimeout n s
  | .segmentRepetitionEnd n => Sys2Proof.Machine.execSegmentRepetitionEnd n s
  | .granuleEnd n => Sys2Proof.Machine.execGranuleEnd n s
  | .underrunResume n => Sys2Proof.Machine.execUnderrunResume n s
  | .flush a n => Sys2Proof.Machine.execFlush a n s
  | .retry a n => Sys2Proof.Machine.execRetry a n s
  | .strWptrWrite a n v => Sys2Proof.Machine.execStrWptrWrite a n v s
  | .refillMove n cyc => Sys2Proof.Machine.execRefillMove n cyc s
  | .updGo a mask => Sys2Proof.Machine.execUpdGo a mask s
  | .strobeApply g => Sys2Proof.Machine.execStrobeApply g s
  | .pscGo a m => Sys2Proof.Machine.execPscGo a m s
  | .pscInjGo a m => Sys2Proof.Machine.execPscInjGo a m s
  | .pscStop a m => Sys2Proof.Machine.execPscStop a m s
  | .pscTimer m => Sys2Proof.Machine.execPscTimer m s
  | .pscPwmEdge m => Sys2Proof.Machine.execPscPwmEdge m s
  | .pscEdgeDelayEnd m => Sys2Proof.Machine.execPscEdgeDelayEnd m s
  | .pscSettleEnd m => Sys2Proof.Machine.execPscSettleEnd m s
  | .pscEntryResult m l ovr cyc => Sys2Proof.Machine.execPscEntryResult m l ovr cyc s
  | .comparatorEdge n k uv cyc => Sys2Proof.Machine.execComparatorEdge n k uv cyc s
  | .cmpSampleWindow n k uv cyc => Sys2Proof.Machine.execCmpSampleWindow n k uv cyc s
  | .clampTrip n k uv => Sys2Proof.Machine.execClampTrip n k uv s
  | .clampRelease n => Sys2Proof.Machine.execClampRelease n s
  | .clampReleaseKey a n => Sys2Proof.Machine.execClampReleaseKey a n s
  | .calGo a t => Sys2Proof.Machine.execCalGo a t s
  | .busAck a t => Sys2Proof.Machine.execBusAck a t s
  | .calAbort a t => Sys2Proof.Machine.execCalAbort a t s
  | .calBusTimeout t => Sys2Proof.Machine.execCalBusTimeout t s
  | .calPointSettleEnd t => Sys2Proof.Machine.execCalPointSettleEnd t s
  | .calReadingDone t psc fast ovr ecc => Sys2Proof.Machine.execCalReadingDone t psc fast ovr ecc s
  | .calCommit t => Sys2Proof.Machine.execCalCommit t s
  | .select a obj => Sys2Proof.Machine.execSelect a obj s
  | .calObjectWrite r addr bytes => Sys2Proof.Machine.execCalObjectWrite r addr bytes s
  | .calCoefUpdate temps ecc => Sys2Proof.Machine.execCalCoefUpdate temps ecc s
  | .eventDispatch c => Sys2Proof.Machine.execEventDispatch c s
  | .brmFire a task cyc => Sys2Proof.Machine.execBrmFire a task cyc s
  | .swfire a c cyc => Sys2Proof.Machine.execSwfire a c cyc s
  | .evcArm a c => Sys2Proof.Machine.execEvcArm a c s
  | .evcDisarm a c => Sys2Proof.Machine.execEvcDisarm a c s
  | .evcConfigWrite a c slot v => Sys2Proof.Machine.execEvcConfigWrite a c slot v s
  | .subscriptionWrite a ix v => Sys2Proof.Machine.execSubscriptionWrite a ix v s
  | .trigIn p level cyc => Sys2Proof.Machine.execTrigIn p level cyc s
  | .trigPulseEnd p => Sys2Proof.Machine.execTrigPulseEnd p s
  | .aliveToggle => Sys2Proof.Machine.execAliveToggle s
  | .aliveResume => Sys2Proof.Machine.execAliveResume s
  | .faultClear a b v => Sys2Proof.Machine.execFaultClear a b v s
  | .faultInject a b v => Sys2Proof.Machine.execFaultInject a b v s
  | .voteScrub upsets => Sys2Proof.Machine.execVoteScrub upsets s
  | .cfgCrcScan => Sys2Proof.Machine.execCfgCrcScan s
  | .registerWrite r addr bytes => Sys2Proof.Machine.execRegisterWrite r addr bytes s
  | .stsClear a off v => Sys2Proof.Machine.execStsClear a off v s
  | .guardPairExpire r => Sys2Proof.Machine.execGuardPairExpire r s
  | .counterHoldExpire r => Sys2Proof.Machine.execCounterHoldExpire r s
  | .accessTimeout r addr isWrite => Sys2Proof.Machine.execAccessTimeout r addr isWrite s
  | .svcEnter a => Sys2Proof.Machine.execSvcEnter a s
  | .svcLeave a => Sys2Proof.Machine.execSvcLeave a s
  | .aliasSet r off v => Sys2Proof.Machine.execAliasSet r off v s
  | .aliasClear r off v => Sys2Proof.Machine.execAliasClear r off v s
  | .aliasToggle r off v => Sys2Proof.Machine.execAliasToggle r off v s
  | .cfgcrcSelWrite a k => Sys2Proof.Machine.execCfgcrcSelWrite a k s
  | .crcPassDone => Sys2Proof.Machine.execCrcPassDone s
  | .uncommit a => Sys2Proof.Machine.execUncommit a s
  | .commit a => Sys2Proof.Machine.execCommit a s
  | .commitDone => Sys2Proof.Machine.execCommitDone s
  | .powerOnReset => Sys2Proof.Machine.execPowerOnReset s
  | .resetPin => Sys2Proof.Machine.execResetPin s
  | .resetDriveEnd => Sys2Proof.Machine.execResetDriveEnd s
  | .sequenceStart => Sys2Proof.Machine.execSequenceStart s
  | .strapMeasured sum => Sys2Proof.Machine.execStrapMeasured sum s
  | .trimLoadDone d pass img => Sys2Proof.Machine.execTrimLoadDone d pass img s
  | .pllLock => Sys2Proof.Machine.execPllLock s
  | .pllLockRetry => Sys2Proof.Machine.execPllLockRetry s
  | .domainRelease d => Sys2Proof.Machine.execDomainRelease d s
  | .qualifierTimeout u => Sys2Proof.Machine.execQualifierTimeout u s
  | .imageVerified v flash => Sys2Proof.Machine.execImageVerified v flash s
  | .bootJump => Sys2Proof.Machine.execBootJump s
  | .sysBootDoor a v => Sys2Proof.Machine.execSysBootDoor a v s
  | .sysChiprst a => Sys2Proof.Machine.execSysChiprst a s
  | .blockReset a key => Sys2Proof.Machine.execBlockReset a key s
  | .refSrc a => Sys2Proof.Machine.execRefSrc a s
  | .refclkLost => Sys2Proof.Machine.execRefclkLost s
  | .holdoverTimeout => Sys2Proof.Machine.execHoldoverTimeout s
  | .pllUnlock => Sys2Proof.Machine.execPllUnlock s
  | .droop below => Sys2Proof.Machine.execDroop below s
  | .throttleEnd => Sys2Proof.Machine.execThrottleEnd s
  | .tempMonitor site hottest => Sys2Proof.Machine.execTempMonitor site hottest s
  | .supplyExcursion site outside => Sys2Proof.Machine.execSupplyExcursion site outside s
  | .clkQual t lost => Sys2Proof.Machine.execClkQual t lost s
  | .standby a => Sys2Proof.Machine.execStandby a s
  | .run a => Sys2Proof.Machine.execRun a s
  | .standbyReached => Sys2Proof.Machine.execStandbyReached s
  | .runReached => Sys2Proof.Machine.execRunReached s
  | .sleep a t => Sys2Proof.Machine.execSleep a t s
  | .wake a t => Sys2Proof.Machine.execWake a t s
  | .tileOn t => Sys2Proof.Machine.execTileOn t s
  | .ddrSelfRefresh x => Sys2Proof.Machine.execDdrSelfRefresh x s
  | .portTrainStart p => Sys2Proof.Machine.execPortTrainStart p s
  | .portUp p delay => Sys2Proof.Machine.execPortUp p delay s
  | .trainingTimeout p => Sys2Proof.Machine.execTrainingTimeout p s
  | .retrain a p => Sys2Proof.Machine.execRetrain a p s
  | .blockLockLoss p => Sys2Proof.Machine.execBlockLockLoss p s
  | .frameForward rx => Sys2Proof.Machine.execFrameForward rx s
  | .read rd => Sys2Proof.Machine.execRead rd s
  | .write rx => Sys2Proof.Machine.execWrite rx s
  | .reply rx => Sys2Proof.Machine.execReply rx s
  | .bcastWrite rx => Sys2Proof.Machine.execBcastWrite rx s
  | .harvestDn rx cyc => Sys2Proof.Machine.execHarvestDn rx cyc s
  | .harvestUp rx cyc => Sys2Proof.Machine.execHarvestUp rx cyc s
  | .time rx t1 t2 t3 t4 => Sys2Proof.Machine.execTime rx t1 t2 t3 t4 s
  | .discover rx => Sys2Proof.Machine.execDiscover rx s
  | .topo rx => Sys2Proof.Machine.execTopo rx s
  | .ack p lseq => Sys2Proof.Machine.execAck p lseq s
  | .nak p lseq room => Sys2Proof.Machine.execNak p lseq room s
  | .retryTimeout p room => Sys2Proof.Machine.execRetryTimeout p room s
  | .fabRqWptr a v => Sys2Proof.Machine.execFabRqWptr a v s
  | .requestSend => Sys2Proof.Machine.execRequestSend s
  | .transactionTimeout tag => Sys2Proof.Machine.execTransactionTimeout tag s
  | .targetAbsent p => Sys2Proof.Machine.execTargetAbsent p s
  | .readBusyTimeout tag src => Sys2Proof.Machine.execReadBusyTimeout tag src s
  | .timeExchange p => Sys2Proof.Machine.execTimeExchange p s
  | .timeFrameTimeout p => Sys2Proof.Machine.execTimeFrameTimeout p s
  | .timeStep => Sys2Proof.Machine.execTimeStep s
  | .frameLengthGo a => Sys2Proof.Machine.execFrameLengthGo a s
  | .frameLengthApply => Sys2Proof.Machine.execFrameLengthApply s
  | .frameStart => Sys2Proof.Machine.execFrameStart s
  | .dictRead d room => Sys2Proof.Machine.execDictRead d room s
  | .dictWrite d data => Sys2Proof.Machine.execDictWrite d data s
  | .dictResult rx => Sys2Proof.Machine.execDictResult rx s
  | .fwReply a abort => Sys2Proof.Machine.execFwReply a abort s
  | .deferredTimeout tag => Sys2Proof.Machine.execDeferredTimeout tag s
  | .apply d => Sys2Proof.Machine.execApply d s
  | .halt a x => Sys2Proof.Machine.execHalt a x s
  | .coreHalted x => Sys2Proof.Machine.execCoreHalted x s
  | .coreRun a x => Sys2Proof.Machine.execCoreRun a x s
  | .restart a x => Sys2Proof.Machine.execRestart a x s
  | .wdog x => Sys2Proof.Machine.execWdog x s
  | .coreKick a x v => Sys2Proof.Machine.execCoreKick a x v s
  | .mtimecmpMatch x cmp => Sys2Proof.Machine.execMtimecmpMatch x cmp s
  | .coreUpdGo a => Sys2Proof.Machine.execCoreUpdGo a s
  | .updateDone v => Sys2Proof.Machine.execUpdateDone v s
  | .sramPatrol found => Sys2Proof.Machine.execSramPatrol found s
  | .ddrPatrol x found => Sys2Proof.Machine.execDdrPatrol x found s
  | .init a x => Sys2Proof.Machine.execInit a x s
  | .ddrTrainingDone x => Sys2Proof.Machine.execDdrTrainingDone x s
  | .ddrTrainingTimeout x => Sys2Proof.Machine.execDdrTrainingTimeout x s
  | .hostDmaWptr a e v => Sys2Proof.Machine.execHostDmaWptr a e v s
  | .dmaDescriptor e ws data hostErr => Sys2Proof.Machine.execDmaDescriptor e ws data hostErr s
  | .dmaDone e => Sys2Proof.Machine.execDmaDone e s
  | .tlp bar off isWrite fbe lbe dwords => Sys2Proof.Machine.execTlp bar off isWrite fbe lbe dwords s
  | .pcieLinkDown => Sys2Proof.Machine.execPcieLinkDown s
  | .xspiGo a v => Sys2Proof.Machine.execXspiGo a v s
  | .xspiDone data => Sys2Proof.Machine.execXspiDone data s
  | .uartRx b => Sys2Proof.Machine.execUartRx b s
  | .uartTx a b => Sys2Proof.Machine.execUartTx a b s
  | .loaderPrompt => Sys2Proof.Machine.execLoaderPrompt s
  | .bypass => Sys2Proof.Machine.execBypass s
  | .idcode => Sys2Proof.Machine.execIdcode s
  | .samplePreload => Sys2Proof.Machine.execSamplePreload s
  | .extest => Sys2Proof.Machine.execExtest s
  | .sysrd => Sys2Proof.Machine.execSysrd s
  | .dbg => Sys2Proof.Machine.execDbg s
  | .trstN => Sys2Proof.Machine.execTrstN s
  | .pcieLinkUp => Sys2Proof.Machine.execPcieLinkUp s
  | .refclkReturn => Sys2Proof.Machine.execRefclkReturn s
  | .slewingEnd => Sys2Proof.Machine.execSlewingEnd s

end Sys2Proof.Machine
end

