-- ==== Sys2Proof/WellFormed.lean ====
section
/-! DEFINITION. What a sender must respect for a command to stand for something that can reach the device: inputs that name
a channel once, frames that hold the bytes they announce, accesses of a width that a bus has (R615, R730, R749, R829). -/

namespace Sys2Proof

/-- A core has 31 integer registers beside x0 and 32 floating-point registers (R805). -/
def CoreRegs.wf (r : CoreRegs) : Bool := decide (r.x.length = 31) && decide (r.f.length = 32) && decide (r.csr.map (·.1)).Nodup

/-- Every channel and every core is named at most once. -/
def TickIn.wf (inp : TickIn) : Bool :=
  decide (inp.chans.map (·.chan)).Nodup && decide (inp.cores.map (·.core)).Nodup && inp.cores.all fun c => c.regs.wf

/-- A frame holds the payload that LEN announces (R730). -/
def Frame.wf (f : Frame) : Bool := decide (f.data.length = f.len.toNat)

/-- The bytes of one access: 1, 2, 4 or 8 (R615). -/
def accessBytes (bs : List Byte) : Bool := [1, 2, 4, 8].contains bs.length

/-- The well-formed commands. -/
def Instr.wf : Instr → Bool
  | .baseTick inp => inp.wf
  | .coefSetWrite _ _ _ _ bs => accessBytes bs
  | .descriptorTableWrite _ _ _ bs => accessBytes bs
  | .calObjectWrite _ _ bs => accessBytes bs
  | .registerWrite _ _ bs => accessBytes bs
  | .calCoefUpdate temps _ => decide (temps.length = 16)
  | .frameForward rx => rx.frame.wf
  | .read rd => rd.rx.frame.wf && decide (rd.rx.frame.len = 0)
  | .write rx => rx.frame.wf
  | .reply rx => rx.frame.wf
  | .bcastWrite rx => rx.frame.wf
  | .harvestDn rx _ => rx.frame.wf
  | .harvestUp rx _ => rx.frame.wf
  | .time rx _ _ _ _ => rx.frame.wf
  | .discover rx => rx.frame.wf
  | .topo rx => rx.frame.wf && decide (rx.frame.len = 0)
  | .dictResult rx => rx.frame.wf
  | .dmaDescriptor _ ws data bad =>
    decide (ws.length = 8) && (bad || decide (data.length = if (ws.getD 3 0).getLsbD 8 then 0 else (ws.getD 4 0).toNat))
  | .tlp _ _ w _ _ dws => !w || decide (dws ≠ [])
  | _ => true

end Sys2Proof
end

