-- ==== Sys2Proof/Safety.lean ====
section
/-! DEFINITION. What the claims call sound and safe: memory in its canonical form, a queue of well-formed commands, a fenced
channel with its outputs at the levels of R71, and a run that ends in neither a fault nor a refusal. -/

namespace Sys2Proof.Machine

/-- The canonical form of a memory: addresses rise strictly, and no entry equals what an unlisted address reads as. -/
def Memory.wf (m : Tbl Byte) : Bool := twf memDef m

/-- The memory of the state is in its canonical form. -/
def State.memWf (s : State) : Bool := Memory.wf s.mem

/-- Every command that waits is well formed. -/
def State.queueWf (s : State) : Bool := s.pending.all Instr.wf

/-- R71: the outputs of channel `n` are at the levels of a fenced channel. -/
def State.safePins (s : State) (n : Nat) : Bool :=
  let c := s.ch n
  !c.outEn && decide (c.rngP = 15) && decide (c.rngS = 15) && decide (c.law.code = 0) && !c.comp.driven

/-- A write of the register at view offset `o` through `a` is no bus error, whatever it writes. -/
def State.mayWrite (s : State) (a : Acc) (o : Nat) : Prop := ∀ v, s.regCause a o true v = none

/-- The reaction table of frame `f` names neither NMI nor FENCE nor CHIPRST for any severity (R587), and no copy of its words
differs (R632). -/
def State.mild (s : State) (f : Nat) : Bool :=
  (s.voteErr.all fun o => o ≠ fltOff f fltReact ∧ o ≠ fltOff f fltSev0 ∧ o ≠ fltOff f fltSev1) &&
    (List.range 4).all fun k => bitsOf (s.rg (fltOff f fltReact)) (8 * k + 3) (8 * k + 1) = 0

/-- R629: the requester of `a` has no first write to the guarded register at `o` pending. -/
def State.unpaired (s : State) (a : Acc) (o : Nat) : Bool := !s.guards.any fun h => decide (h.req = a.req) && decide (h.off = o)

/-- A DAT register whose write the rules of no unit turn into more than its value. -/
def plainDat (l : Loc) : Bool := match l.grp with
  | .sys => !([sysCfgcrcRef, sysBootDoor, sysClkHoldto, sysDroopCfg, sysThermTh].contains l.rel)
  | .tile => decide (l.rel ≠ tileThermTh)
  | .core => !([coreKick, coreWdog].contains l.rel)
  | .ch => !([chRailFs, chRailMin, chRailSettle, chStrWptr, chPansRptr, chBrnRptr].contains l.rel)
  | .fab => false
  | .ode => false
  | .host => !([hostXspiCmd, hostUartCtl, hostUartData].contains l.rel) &&
      !(decide (hostHostMsixTab ≤ l.rel) && decide (l.rel < hostHostMsixTab + 1024))
  | .dma => !([dmaWptr, dmaSize].contains l.rel)
  | _ => true

/-- The pending bits of MSI-X vectors (R830). -/
def pbaRegs : List Nat := [0xF8000 + hostHostMsixPba, 0xF8000 + hostHostMsixPba + 4]

/-- The registers that a report of frame `f` writes. -/
def reportRegs (f : Nat) : List Nat := [fltOff f fltSts, fltOff f fltCnt, fltOff f fltLast, fltOff f fltEsc, fltOff f fltRepeats]

/-- The registers that a store into DDR5 may write: an injection used up (R604), a channel's self-refresh left (R713). -/
def ddrRegs : List Nat := [fltOff frMemc fltInj, ddrOff 0 memcDdrSts, ddrOff 1 memcDdrSts]

/-- The registers that record the last uncorrectable word or burst (R818, R823). -/
def ueRegs : List Nat :=
  [0xF0000 + memcSramAddr, ddrOff 0 memcDdrAddr, ddrOff 0 (memcDdrAddr + 4), ddrOff 1 memcDdrAddr, ddrOff 1 (memcDdrAddr + 4)]

/-- A step answers a state. -/
def State.steps (s : State) : Bool :=
  match step s with
  | .next _ => true
  | _ => false

end Sys2Proof.Machine
end

