-- ==== Sys2Proof/Certificates/Slice0/Obligations.lean ====
section
/-! DEFINITION. The statements about the model, one for each group of rules that speak of one thing. -/

open Sys2Proof Sys2Proof.Machine

/-- R72, R73, R77, R142: a command in its state and on its conditions is latched for the channel's next own boundary; CMD
reads as the command, ARM reserves the lane slot, and nothing else changes; an ARM comes after the strobes of earlier cycles.
R74, R90: a command outside its states or conditions changes nothing but CHn_REFUSE, which records code and reason, and
CMD_REFUSED; a reserved code is refused in every state. -/
def Obligations.ChannelCommands : Prop :=
  (∀ (s : State) (a : Acc) (n : ChanId), s.mayWrite a (chOff n.val chCtl) →
      let latched := fun (s : State) (code : Nat) =>
        (s.setCr n.val chCtl (setBits (s.cr n.val chCtl) 3 0 code)).updCh n.val fun c =>
          { c with cmds := c.cmds ++ [code], slot := c.slot || decide (code = 1) }
      let st := (s.ch n.val).state
      let u := s.catchTo (s.at_ s.wcyc - 1)
      ((u.ch n.val).state = .off → u.awake n.val = true → u.committed n.val = true → armRanges u.accepted n.val = true →
        u.armAdmits n.val = true → u.armConfig n.val = true → exec (.arm a n) s = .next (latched u 1)) ∧
      (st = .armed → s.railsOk n.val = true → exec (.enable a n) s = .next (latched s 2)) ∧
      (st = .active → exec (.disable a n) s = .next (latched s 3)) ∧
      (st = .armed ∨ st = .active → exec (.disarm a n) s = .next (latched s 4)) ∧
      (st = .off → s.awake n.val = true → s.committed n.val = true → exec (.serviceEnter a n) s = .next (latched s 5)) ∧
      (st = .service → s.calOn n.val = false → exec (.serviceLeave a n) s = .next (latched s 6))) ∧
  (∀ (s : State) (a : Acc) (n : ChanId), s.mayWrite a (chOff n.val chCtl) →
      let refusedAt := fun (s : State) (code why : Nat) => (s.setCr n.val chRefuse (code + 16 * why)).cflag n.val chFlags 1
      let refused := refusedAt s
      let st := (s.ch n.val).state
      let off := st = .off ∧ s.awake n.val = true
      let u := s.catchTo (s.at_ s.wcyc - 1)
      let uff := (u.ch n.val).state = .off ∧ u.awake n.val = true
      (¬ uff → exec (.arm a n) s = .next (refusedAt u 1 1)) ∧
      (uff → u.committed n.val = false → exec (.arm a n) s = .next (refusedAt u 1 4)) ∧
      (uff → u.committed n.val = true → armRanges u.accepted n.val = false → exec (.arm a n) s = .next (refusedAt u 1 5)) ∧
      (uff → u.committed n.val = true → armRanges u.accepted n.val = true → u.armAdmits n.val = false →
        exec (.arm a n) s = .next (refusedAt u 1 3)) ∧
      (uff → u.committed n.val = true → armRanges u.accepted n.val = true → u.armAdmits n.val = true → u.armConfig n.val = false →
        exec (.arm a n) s = .next (refusedAt u 1 5)) ∧
      (st ≠ .armed → exec (.enable a n) s = .next (refused 2 1)) ∧
      (st = .armed → s.railsOk n.val = false → exec (.enable a n) s = .next (refused 2 2)) ∧
      (st ≠ .active → exec (.disable a n) s = .next (refused 3 1)) ∧
      (st ≠ .armed → st ≠ .active → exec (.disarm a n) s = .next (refused 4 1)) ∧
      (¬ off → exec (.serviceEnter a n) s = .next (refused 5 1)) ∧
      (off → s.committed n.val = false → exec (.serviceEnter a n) s = .next (refused 5 4)) ∧
      (st ≠ .service → exec (.serviceLeave a n) s = .next (refused 6 1)) ∧
      (st = .service → s.calOn n.val = true → exec (.serviceLeave a n) s = .next (refused 6 6)) ∧
      ∀ code : BitVec 4, 7 ≤ code.toNat → exec (.chnCmdReserved a n code) s = .next (refused code.toNat 7))

/-- R161 to R165: VERIFY starts a verification of the named set, VERIFY_DONE ends it and sets the valid bit where it finds no
failure, INVALIDATE clears the bit of a set that is not protected. -/
def Obligations.CoefficientSetCommands : Prop :=
  ∀ (s : State) (a : Acc) (n : ChanId) (k : SetId), s.mayWrite a (chOff n.val chSetCmd) →
    ((s.ch n.val).vfy = none →
      exec (.verify a n k) s = .next ((s.updCh n.val fun c => { c with vfy := some ⟨k.val, false⟩ }).setCr n.val chSetCmd (k.val + 16))) ∧
    ((s.ch n.val).vfy = none → s.setProt n.val k.val = false →
      ∃ t, exec (.invalidate a n k) s = .next t ∧ t.setValid n.val k.val = false ∧
        ∀ j, j < 16 → j ≠ k.val → t.setValid n.val j = s.setValid n.val j) ∧
    ((s.ch n.val).vfy ≠ none → exec (.verify a n k) s = .next (s.cflag n.val chSetSts 8) ∧
      exec (.invalidate a n k) s = .next (s.cflag n.val chSetSts 8)) ∧
    ((s.ch n.val).vfy = some ⟨k.val, false⟩ → s.ue (setAddr n.val k.val) 1024 = false → s.vfyReason n.val k.val = 0 →
      ∃ t, exec (.verifyDone n) s = .next t ∧ t.setValid n.val k.val = true ∧ (t.ch n.val).vfy = none ∧
        bitOf (t.cr n.val chSetSts) 0 = true)

/-- R81, R82: CHn_RST resets an idle or a fenced channel: CHn_CTL, CHn_CFG, CHn_SP, CHn_LIM, CHn_FLAGS and CHn_REFUSE read
their reset values, its latched commands are discarded (log 99, the model's choice) and its streaming ring is emptied (R333).
No other register, with the range table, the safety set, the group and the supply settings, no commit, no other channel and
no byte of memory changes. Of another channel it sets RST_BUSY. -/
def Obligations.ChannelReset : Prop :=
  ∀ (s : State) (a : Acc) (n : ChanId), s.mayWrite a (chOff n.val chRst) → s.unpaired a (chOff n.val chRst) = true →
    let own := [chCtl, chCfg, chSp, chLim, chFlags, chRefuse]
    ((s.ch n.val).state = .fenced ∨ s.chIdle n.val = true →
      ∃ t, exec (.channelReset a n) s = .next t ∧
        (∀ r ∈ own, t.cr n.val r = (regReset (chOff n.val r)).toNat) ∧
        (t.ch n.val).cmds = [] ∧ (t.ch n.val).state = (s.ch n.val).state ∧ t.cr n.val chStrWptr = 0 ∧ t.cr n.val chStrRptr = 0 ∧
        (∀ o, o ∉ (own ++ [chStrWptr, chStrRptr, chStrFlags]).map (chOff n.val) → t.rg o = s.rg o) ∧
        (∀ k, t.committed k = s.committed k) ∧ (∀ m, m ≠ n.val → t.ch m = s.ch m) ∧ t.fenced = s.fenced ∧
        ∀ b, t.byte b = s.byte b) ∧
    ((s.ch n.val).state ≠ .fenced → s.chIdle n.val = false →
      exec (.channelReset a n) s = .next (s.cflag n.val chFlags 0x40))

/-- R224, R225, R227, R874: START in ACTIVE with the loop on the pins, without a ramp or crossover, with a chip and a repeat
of at least 1 and fewer than two runs of other channels in the lane latches a run, which takes the place of one in progress
[log 97]; otherwise it is refused: STATE, RAMP_OR_COMPL, BAD_CFG or LANE_BUSY, the first in this order that holds [log 141].
R227 to R232: STOP ends a run with reason 1 and LE_ABORT; the last own sample begins the fit, of the sums with the full
scales and the SR_DIV of the run; its end writes LE_C, LE_R and LE_Q, each the rounding [log 25] of its exact value (LE_R is
+Inf where it has none), and sets LE_DONE. -/
def Obligations.LoadEstimator : Prop :=
  (∀ (s : State) (a : Acc) (n : ChanId), s.mayWrite a (chOff n.val chLeCtl) →
      let c := s.ch n
      let w := s.cr n.val chLeCfg
      let live := c.state = .active ∧ c.disp = .loop
      let ready := bitsOf w 7 0 ≠ 0 ∧ bitsOf w 15 8 ≠ 0
      (live → c.sup.ramp = false → c.sup.inCompl = false → ready → s.leRuns n.val < 2 →
        exec (.leStart a n) s = .next (s.updCh n.val fun c => { c with le := { c.le with start := true } })) ∧
      (¬ live → exec (.leStart a n) s = .next (s.leRefuse n.val 3 0x10)) ∧
      (live → c.sup.ramp = true ∨ c.sup.inCompl = true → exec (.leStart a n) s = .next (s.leRefuse n.val 4 0x10)) ∧
      (live → c.sup.ramp = false → c.sup.inCompl = false → ¬ ready → exec (.leStart a n) s = .next (s.leRefuse n.val 5 0x10)) ∧
      (live → c.sup.ramp = false → c.sup.inCompl = false → ready → 2 ≤ s.leRuns n.val →
        exec (.leStart a n) s = .next (s.leRefuse n.val 8 0x20))) ∧
  (∀ (s : State) (a : Acc) (n : ChanId), s.mayWrite a (chOff n.val chLeCtl) →
      let c := s.ch n.val
      (c.le.run = true ∨ c.le.start = true →
        ∃ t, exec (.leStop a n) s = .next t ∧ (t.ch n.val).le = { fit := c.le.fit } ∧ bitsOf (t.cr n.val chLeSts) 11 8 = 1 ∧
          bitOf (t.cr n.val chSupFlags) 4 = true ∧ (∀ m, m ≠ n.val → t.ch m = s.ch m) ∧
          (∀ o, o ∉ [chOff n.val chLeSts, chOff n.val chSupFlags] → t.rg o = s.rg o) ∧ t.mem = s.mem) ∧
      (c.le.run = true → c.le.total ≤ c.le.idx →
        exec (.leRunEnd n) s = .next (s.updCh n.val fun c => { c with le := { start := c.le.start, fit := some {
          sums := c.le.sums, vfs := s.vfs n.val c.rng.v, ifs := s.ifs n.val c.rng.i, div := s.srDiv n.val, due := s.tick + 39 } } })) ∧
      (∀ f, c.le.fit = some f →
        ∃ t, exec (.leDone n) s = .next t ∧ (t.ch n.val).le = { c.le with fit := none } ∧ bitOf (t.cr n.val chSupFlags) 3 = true ∧
          t.cr n.val chLeC = leWord f.exact.1 ∧ t.cr n.val chLeQ = leWord f.exact.2.2 ∧
          t.cr n.val chLeR = (match f.exact.2.1 with
            | some q => leWord q
            | none => 0x7F800000) ∧
          (∀ m, m ≠ n.val → t.ch m = s.ch m) ∧
          (∀ o, o ∉ [chLeSts, chSupFlags, chLeC, chLeR, chLeQ].map (chOff n.val) → t.rg o = s.rg o) ∧ t.mem = s.mem))

/-- R218: at the end of a window the crossing count and the window start anew, and nothing else changes. R250 to R253: at the
end of the window the mean difference stands in CHn_HO_DIFF; within the tolerance the handover is due, otherwise it is to be
abandoned with reason DISAGREE. R263 to R265: when the count towards a larger range has reached AR_CNT, the request for the
next larger candidate is latched and the count starts anew; likewise towards a smaller range. -/
def Obligations.SupervisionEvents : Prop :=
  (∀ (s : State) (n : ChanId), bitsOf (s.cr n.val chOscWin) 15 0 ≤ (s.ch n.val).sup.oscN →
      exec (.oscWindowEnd n) s = .next (s.updCh n.val fun c => { c with sup := { c.sup with oscN := 0, oscCnt := 0 } })) ∧
  (∀ (s : State) (n : ChanId), (s.ch n.val).ho.st = .window → (s.ch n.val).ho.win ≤ (s.ch n.val).ho.j →
      (s.ch n.val).ho.abandon = none →
      let h := (s.ch n.val).ho
      let fs := fun g => f32v (if h.volt then s.vfs n.val g else s.ifs n.val g)
      let d := rne h.sum (max (fs h.frm) (fs h.dst) * (h.cnt : Int))
      ∃ t, exec (.handoverCheck n) s = .next t ∧ t.cr n.val chHoDiff = (word32 (sat32 d)).toNat ∧
        ((d.natAbs : Int) ≤ (h.tol * 16384 : Nat) → (t.ch n.val).ho = { h with st := .due }) ∧
        (((h.tol * 16384 : Nat) : Int) < d.natAbs → (t.ch n.val).ho = { h with abandon := some 1 }) ∧
        (∀ m, m ≠ n.val → t.ch m = s.ch m) ∧ (∀ o, o ≠ chOff n.val chHoDiff → t.rg o = s.rg o) ∧ t.mem = s.mem) ∧
  (∀ (s : State) (n : ChanId) (g : Nat), (s.ch n.val).state = .active → bitsOf (s.cr n.val chArMask) 23 16 ≠ 0 →
      (bitsOf (s.cr n.val chArMask) 23 16 ≤ (s.ch n.val).sup.arUp →
        (s.updCh n.val fun c => { c with sup := { c.sup with arUp := 0 } }).arUpRange n.val = some g →
        exec (.autorangeRequest n) s = .next (s.updCh n.val fun c =>
          { c with sup := { c.sup with arUp := 0 }, ho := { c.ho with reqs := c.ho.reqs ++ [(false, g)] } })) ∧
      ((s.ch n.val).sup.arUp < bitsOf (s.cr n.val chArMask) 23 16 → bitsOf (s.cr n.val chArMask) 23 16 ≤ (s.ch n.val).sup.arDn →
        (s.updCh n.val fun c => { c with sup := { c.sup with arDn := 0 } }).arDnRange n.val = some g →
        exec (.autorangeRequest n) s = .next (s.updCh n.val fun c =>
          { c with sup := { c.sup with arDn := 0 }, ho := { c.ho with reqs := c.ho.reqs ++ [(false, g)] } })))

/-- R370, R380: GO latches an aperture start with its descriptor for the channel's next own boundary, ABORT its end. R378: an
aperture whose last sample has been integrated goes to WRITE with its record, the last of those that wait, which is due by
cycle 20 of the next tick; R375, R386: the first sample is integrated where the delay has passed and, with LSTART, a crossing
came in an earlier tick. -/
def Obligations.Apertures : Prop :=
  (∀ (s : State) (a : Acc) (n : ChanId) (d : BitVec 6), s.mayWrite a (chOff n.val chMeasCtl) →
      exec (.measGo a n d) s = .next ((s.setCr n.val chMeasCtl (2 * d.toNat)).updCh n.val fun c =>
        { c with meas := { c.meas with goReq := some d.toNat } }) ∧
      exec (.measAbort a n) s = .next (s.updCh n.val fun c => { c with meas := { c.meas with abort := true } })) ∧
  (∀ (s : State) (n : ChanId),
      let a := (s.ch n.val).meas.ap
      (a.st = .integ → a.n ≤ a.done →
        exec (.apertureEnd n) s = .next (s.updCh n.val fun c => { c with meas := { c.meas with
          recs := c.meas.recs ++ [{ s.apRecord n.val false with due := s.at_ 70 }], ap := { c.meas.ap with st := .write } } })) ∧
      (a.st = .delay → bitsOf a.dly 23 0 ≤ a.k → (bitOf a.dly 25 = true → ∃ k, a.crossed = some k ∧ k < s.tick) → s.own n.val = true →
        ∃ t, exec (.apertureDelayEnd n) s = .next t ∧ (t.ch n.val).meas.ap.st = .integ ∧ (t.ch n.val).meas.ap.done = a.done + 1 ∧
          ((s.ch n.val).meas.cur.miss = false → (t.ch n.val).meas.ap.nr = a.nr + 1) ∧
          ((s.ch n.val).meas.cur.miss = true → (t.ch n.val).meas.ap.nr = a.nr) ∧
          (∀ m, m ≠ n.val → t.ch m = s.ch m) ∧ t.regs = s.regs ∧ t.mem = s.mem))

/-- R392, R397: a record with a place in the ring is stored at the ring's write pointer, which advances by one; no other byte
of memory changes. R398, R405: a record that leaves the on-chip ring stands in the spill ring of DDR5 and the spill pointer
advances; of one that cannot be read no byte is stored [log 145]. -/
def Obligations.MeasurementRecords : Prop :=
  (∀ (s : State) (n : ChanId) (cyc : Cycle) (r : Rec) (rest : List Rec), (s.ch n.val).meas.recs = r :: rest →
      bitOf (s.cr n.val chMeasCfg) 6 = true → s.pansSpace n.val = true → (s.ch n.val).meas.dropped = 0 →
      ∃ t, exec (.recordWritten n cyc) s = .next t ∧
        t.bytes (s.pansAddr n.val (s.cr n.val chPansWptr)) 32 = recBytes r ∧
        (∀ b, b < s.pansAddr n.val (s.cr n.val chPansWptr) ∨ s.pansAddr n.val (s.cr n.val chPansWptr) + 32 ≤ b → t.byte b = s.byte b) ∧
        t.cr n.val chPansWptr = wrapAdd (s.cr n.val chPansWptr) 1 ∧ (t.ch n.val).meas.recs = rest ∧
        (∀ m, m ≠ n.val → t.ch m = s.ch m) ∧
        ∀ o, o ∉ [chOff n.val chPansWptr, chOff n.val chMeasFlags, fltOff frMemc fltInj] → t.rg o = s.rg o) ∧
  (∀ (s : State) (n : ChanId),
      let p := s.cr n.val chPansSptr
      let o := s.dbase n.val chSpillDbaseLo + 32 * (p % max 1 (s.spillSize n.val))
      s.spill n.val = true → bitOf (s.cr n.val chMeasCfg) 6 = true → p ≠ s.cr n.val chPansWptr →
      wrapSub p (s.cr n.val chPansRptr) < s.spillSize n.val → s.ddrOk o 32 = true →
      ∃ t, exec (.spillMove n) s = .next t ∧
        (s.memUE = [] → t.bytes (ddrBase + o) 32 = s.bytes (s.pansAddr n.val p) 32) ∧
        (s.ue (s.pansAddr n.val p) 32 = true → ∀ b, t.byte b = s.byte b) ∧
        t.cr n.val chPansSptr = wrapAdd p 1 ∧ (∀ m, m ≠ n.val → t.ch m = s.ch m) ∧
        (∀ o, o ∉ [chOff n.val chPansSptr, chOff n.val chMeasFlags] ++ ddrRegs ++ ueRegs → t.rg o = s.rg o) ∧
        ∀ b, b < ddrBase + o ∨ ddrBase + o + 32 ≤ b → t.byte b = s.byte b)

/-- R411, R412: a partial Brine line of 1,024 ticks is completed with PAD words and written where the ring has a place. R400,
R410: a consumer pointer moves up to the records that stand in its ring; a value beyond sets RPTR_BAD and leaves the pointer.
R384: with the line input enabled a crossing that follows another enters the last eight intervals; of eight the mean stands
in TILEt_LINE_PER, with LINE_OK where every one lies between 2,857,143 and 5,000,000 cycles. The first crossing ends no
interval. -/
def Obligations.BrineAndPointers : Prop :=
  (∀ (s : State) (n : ChanId), (s.ch n.val).meas.brine.line ≠ [] → (s.ch n.val).meas.brine.line.length < 8 →
      (s.ch n.val).meas.brine.first + 1024 ≤ s.tick → s.brnSpace n.val = true →
      ∃ t, exec (.brineLineTimeout n) s = .next t ∧
        (s.memUE = [] → t.bytes (ddrBase + s.brnAt n.val) 64 = ((s.ch n.val).meas.brine.line.map BWord.w ++
          List.replicate (8 - (s.ch n.val).meas.brine.line.length) 18446744073709551615).flatMap (leBytes 8)) ∧
        t.cr n.val chBrnWptr = wrapAdd (s.cr n.val chBrnWptr) 1 ∧ (t.ch n.val).meas.brine.line = [] ∧
        (∀ b, b < ddrBase + s.brnAt n.val ∨ ddrBase + s.brnAt n.val + 64 ≤ b → t.byte b = s.byte b) ∧
        (∀ m, m ≠ n.val → t.ch m = s.ch m) ∧ ∀ o, o ∉ chOff n.val chBrnWptr :: ddrRegs ++ ueRegs → t.rg o = s.rg o) ∧
  (∀ (s : State) (a : Acc) (n : ChanId) (v : Word),
      let top := s.cr n.val (if s.spill n.val then chPansSptr else chPansWptr)
      (s.mayWrite a (chOff n.val chPansRptr) → wrapSub v.toNat (s.cr n.val chPansRptr) ≤ wrapSub top (s.cr n.val chPansRptr) →
        exec (.pansRptrWrite a n v) s = .next (s.setCr n.val chPansRptr v.toNat)) ∧
      (s.mayWrite a (chOff n.val chPansRptr) → wrapSub top (s.cr n.val chPansRptr) < wrapSub v.toNat (s.cr n.val chPansRptr) →
        exec (.pansRptrWrite a n v) s = .next (s.cflag n.val chMeasFlags 0x10)) ∧
      (s.mayWrite a (chOff n.val chBrnRptr) →
        wrapSub v.toNat (s.cr n.val chBrnRptr) ≤ wrapSub (s.cr n.val chBrnWptr) (s.cr n.val chBrnRptr) →
        exec (.brnRptrWrite a n v) s = .next (s.setCr n.val chBrnRptr v.toNat)) ∧
      (s.mayWrite a (chOff n.val chBrnRptr) →
        wrapSub (s.cr n.val chBrnWptr) (s.cr n.val chBrnRptr) < wrapSub v.toNat (s.cr n.val chBrnRptr) →
        exec (.brnRptrWrite a n v) s = .next (s.cflag n.val chMeasFlags 0x10))) ∧
  (∀ (s : State) (t : TileId) (dt : Nat), bitOf (s.rg (tileOff t.val tileLineCfg)) 3 = true → s.isFenced (unTile t.val) = false →
      let l := (dt :: tget (fun _ => []) s.lines t.val).take 8
      (s.lineOn.contains t.val = false → ∃ u, exec (.lineCrossing t dt) s = .next u ∧ u.lineOn = t.val :: s.lineOn ∧
        u.lines = s.lines ∧ u.regs = s.regs ∧ u.mem = s.mem ∧ ∀ m, tileOf m ≠ t.val → u.ch m = s.ch m) ∧
      (s.lineOn.contains t.val = true →
        ∃ u, exec (.lineCrossing t dt) s = .next u ∧ tget (fun _ => []) u.lines t.val = l ∧
        (l.length = 8 → bitsOf (u.rg (tileOff t.val tileLinePer)) 22 0 = (rne (l.foldl (· + ·) 0 : Nat) 8).toNat % 8388608 ∧
          bitOf (u.rg (tileOff t.val tileLinePer)) 31 = l.all fun x => decide (2857143 ≤ x) && decide (x ≤ 5000000)) ∧
        (∀ o, o ≠ tileOff t.val tileLinePer → u.rg o = s.rg o) ∧ (∀ m, tileOf m ≠ t.val → u.ch m = s.ch m) ∧
        u.mem = s.mem))

/-- R276 to R280, R301: STOP, PAUSE, RESUME, START and CHECK are latched for the channel's next own boundary in the order in
which they come; JUMP sets the jump latch, and a second one is counted in CHn_RAKE_JDROP. -/
def Obligations.RakeCommands : Prop :=
  ∀ (s : State) (a : Acc) (n : ChanId), s.mayWrite a (chOff n.val chRakeCtl) → (s.ch n.val).state ≠ .fenced →
    let latched := fun k : Nat => s.updCh n.val fun c => { c with rake := { c.rake with cmds := c.rake.cmds ++ [k] } }
    exec (.rakeCmdStop a n) s = .next (latched 0) ∧
    exec (.rakeCmdPause a n) s = .next (latched 1) ∧
    exec (.rakeCmdResume a n) s = .next (latched 2) ∧
    exec (.rakeCmdStart a n) s = .next (latched 3) ∧
    exec (.rakeCmdCheck a n) s = .next (latched 4) ∧
    ((s.ch n.val).rake.jlatch = false →
      exec (.rakeCmdJump a n) s = .next (s.updCh n.val fun c => { c with rake := { c.rake with jlatch := true } })) ∧
    ((s.ch n.val).rake.jlatch = true → exec (.rakeCmdJump a n) s = .next (s.ccount n.val chRakeJdrop))

/-- R275, R278, R309: CHECK is latched for the next own boundary, where it starts only with the Rake stopped; it ends with
SEGTAB_OK where the table lies in the channel's region and no segment fails, and otherwise records the first segment that
fails and its reason; without a region it ends as with a table outside it (log 121, the model's choice). -/
def Obligations.SegmentCheck : Prop :=
  ∀ (s : State) (a : Acc) (n : ChanId),
    let base := bitsOf (s.cr n.val chRakeSegtab) 21 0
    let cnt := bitsOf (s.cr n.val chRakeSegcfg) 16 8
    let here := base + cnt ≤ s.rkLen n.val ∧ bitOf (s.cr n.val chRakeCfg) 0 = true
    let frame := fun (t : State) => (t.ch n.val).rake.checking = false ∧ (∀ m, m ≠ n.val → t.ch m = s.ch m) ∧
      (∀ o, o ∉ [chOff n.val chRakeErr, chOff n.val chRakeFlags] ++ ueRegs → t.rg o = s.rg o) ∧ t.mem = s.mem
    (s.mayWrite a (chOff n.val chRakeCtl) → (s.ch n.val).state ≠ .fenced →
      exec (.rakeCmdCheck a n) s = .next (s.updCh n.val fun c => { c with rake := { c.rake with cmds := c.rake.cmds ++ [4] } })) ∧
    ((s.ch n.val).rake.st = .stopped →
      s.rakeCheck n.val = s.updCh n.val fun c => { c with rake := { c.rake with checking := true } }) ∧
    ((s.ch n.val).rake.st ≠ .stopped → s.rakeCheck n.val = s.rakeRefuse n.val 33) ∧
    ((s.ch n.val).rake.checking = true → ¬ here →
      ∃ t, exec (.checkDone n) s = .next t ∧ (t.ch n.val).rake.segOk = (s.ch n.val).rake.segOk ∧
        t.cr n.val chRakeErr = 16777216 * 16 ∧ frame t) ∧
    ((s.ch n.val).rake.checking = true → here → (∀ g, g < cnt → s.segReason n.val g = 0) →
      ∃ t, exec (.checkDone n) s = .next t ∧ (t.ch n.val).rake.segOk = true ∧ bitOf (t.cr n.val chRakeFlags) 4 = true ∧ frame t) ∧
    (∀ g, (s.ch n.val).rake.checking = true → here → g < cnt → s.segReason n.val g ≠ 0 → (∀ j, j < g → s.segReason n.val j = 0) →
      ∃ t, exec (.checkDone n) s = .next t ∧ (t.ch n.val).rake.segOk = (s.ch n.val).rake.segOk ∧
        t.cr n.val chRakeErr = (g + 16777216 * s.segReason n.val g) % 4294967296 ∧ frame t) ∧
    ((s.ch n.val).rake.checking = false → exec (.checkDone n) s = .next s)

/-- R290 to R293, R302, R303: a POINT whose dwell ends, and a WAIT that a firing ends, lead to the entry after them when it
is a POINT or WAIT that can be read and breaks no rule; a WAIT that times out with TO_ACT = 2 stops the Rake. R817: what a
decision reads, it corrects. R312 to R314: the last repetition of a segment with SEG_STOP stops the Rake, an earlier one
begins the next, and inside a resident repetition the next granule follows. -/
def Obligations.RakeBoundaries : Prop :=
  (∀ (s : State) (n : ChanId),
      let c := s.ch n.val
      let r := c.rake
      let w := s.entry n.val (r.pos + 1)
      let good := fun nx : Nat => nx < s.rkLen n.val ∧ s.entryUE n.val nx = false ∧ s.entryReason n.val w r.loops.length 0 = 0 ∧
        ew w 3 % 4 ≠ 1 ∧ ew w 3 % 4 ≠ 3
      let goes := fun (l : List Nat) (d : Decision) =>
        (s.rakeReads n.val { d with reads := l }).updCh n.val fun c => { c with rake := { c.rake with next := some d } }
      (r.st = .running → s.wave n.val = false → r.next = none → s.own n.val = true → r.left ≤ 1 → r.je = false → good (r.pos + 1) →
        exec (.pointEnd n) s = .next (goes [r.pos + 1] { next := .entry (r.pos + 1) w, loops := r.loops, done := true })) ∧
      (r.st = .waiting → r.next = none → s.own n.val = true → r.wHit = true → good (r.pos + 1) →
        exec (.waitEnd n) s = .next (goes [r.pos + 1] { next := .entry (r.pos + 1) w, loops := r.loops })) ∧
      (r.st = .waiting → r.next = none → s.own n.val = true → r.wHit = false → r.left ≤ 1 → bitsOf (ew r.wait 0) 9 7 = 2 →
        exec (.waitTimeout n) s = .next (goes [] { next := .stop 5, loops := r.loops }))) ∧
  (∀ (s : State) (n : ChanId),
      let c := s.ch n.val
      let r := c.rake
      let w0 := ew (s.segDesc n.val r.seg) 0
      let goes := fun d : Decision => (s.rakeReads n.val d).updCh n.val fun c => { c with rake := { c.rake with next := some d } }
      r.st = .running → s.wave n.val = true → r.next = none → s.own n.val = true → r.si = 63 → c.jump = false →
      (s.segLen n.val r.seg ≤ r.gi + 1 → bitOf w0 31 = false → r.repLeft ≤ 1 → bitOf w0 30 = true →
        exec (.segmentRepetitionEnd n) s = .next (goes { next := .stop 1, done := true })) ∧
      (s.segLen n.val r.seg ≤ r.gi + 1 → bitOf w0 31 = false → 1 < r.repLeft → s.streamed n.val r.seg = false →
        s.entryUE n.val (bitsOf (s.cr n.val chRakeSegtab) 21 0 + r.seg) = false → (s.segGran n.val r.seg 0).bad = none →
        exec (.segmentRepetitionEnd n) s =
          .next (goes { next := .rep r.seg false (r.repLeft - 1) (.own (s.segGran n.val r.seg 0)), done := true })) ∧
      (r.gi + 1 < s.segLen n.val r.seg → s.streamed n.val r.seg = false → r.pre = none →
        exec (.granuleEnd n) s = .next (goes { next := .gran (.own (s.segGran n.val r.seg (r.gi + 1))) })))

/-- R330, R332, R338, R345: WPTR moves forward within the DDR5 ring and is otherwise refused; FLUSH of a stopped Rake drops
every granule; RETRY lets a halted refill go on; a starved Rake whose granule is present resumes on the gap's grid. R290,
R334 to R336: the tick's decisions made, the refill engine moves 256 bytes from the DDR5 ring to the next slot of the on-chip
ring, once in 16 cycles, for the channel with the least fill; RPTR advances and no other byte changes. -/
def Obligations.StreamRing : Prop :=
  (∀ (s : State) (a : Acc) (n : ChanId) (v : Word),
      let o := s.cr n.val chStrWptr
      let d := s.srDiv n.val
      let r := (s.ch n.val).rake
      (s.mayWrite a (chOff n.val chStrWptr) → wrapSub v.toNat o + wrapSub o (s.cr n.val chStrRptr) ≤ s.strSize n.val →
        exec (.strWptrWrite a n v) s = .next (s.setCr n.val chStrWptr v.toNat)) ∧
      (s.mayWrite a (chOff n.val chStrWptr) → s.strSize n.val < wrapSub v.toNat o + wrapSub o (s.cr n.val chStrRptr) →
        exec (.strWptrWrite a n v) s = .next (s.cflag n.val chStrFlags 4)) ∧
      (s.mayWrite a (chOff n.val chStrCtl) → (s.ch n.val).rake.st = .stopped →
        ∃ t, exec (.flush a n) s = .next t ∧ t.cr n.val chStrRptr = o ∧ t.strLevel n.val = 0 ∧ (t.ch n.val).str.buf = none ∧
          (∀ m, m ≠ n.val → t.ch m = s.ch m) ∧ ∀ b, t.byte b = s.byte b) ∧
      (s.mayWrite a (chOff n.val chStrCtl) → (s.ch n.val).rake.st ≠ .stopped →
        exec (.flush a n) s = .next (s.cflag n.val chStrFlags 0x20)) ∧
      (s.mayWrite a (chOff n.val chStrCtl) →
        exec (.retry a n) s = .next (s.updCh n.val fun c => { c with str := { c.str with halted := false } })) ∧
      (r.st = .starved → r.next = none → s.own n.val = true → r.strOk = true → r.gapB < s.tick + d →
        (s.tick + d - r.gapB) % (64 * d) = 0 → (s.ch n.val).str.buf.isSome = true →
        exec (.underrunResume n) s = .next (s.updCh n.val fun c => { c with rake := { c.rake with next := some { next := .resume } } }))) ∧
  (∀ (u : State) (n : ChanId) (cyc : Cycle),
      let s := u.decideAll
      let g := s.cr n.val chStrRptr
      let src := ddrBase + s.dbase n.val chStrDbaseLo + 256 * (g % s.strSize n.val)
      let dst := s.rakeAddr n.val (s.slotEntry n.val (g % s.rlen n.val))
      s.refillNext = some n.val → (∀ at_, s.refillAt = some at_ → at_ + 16 ≤ s.at_ cyc.val) → s.ue src 256 = false →
      ∃ t, exec (.refillMove n cyc) u = .next t ∧ t.bytes dst 256 = s.bytes src 256 ∧
        t.cr n.val chStrRptr = wrapAdd g 1 ∧ (∀ b, b < dst ∨ dst + 256 ≤ b → t.byte b = s.byte b) ∧
        (∀ o, o ∉ [chOff n.val chStrRptr, chOff n.val chStrFlags] ++ ddrRegs → t.rg o = s.rg o) ∧ ∀ m, m ≠ n.val → t.ch m = s.ch m)

/-- R430, R433, R436, R438, R714: with SEQ_EN = 1 in force and the converter's tile awake [log 60: one whose tile sleeps
latches nothing], GO latches a regular trigger, INJ_GO an injected one where INJ_LEN is not 0, and STOP a stop, for the next
modulator edge after the cycle in which the write completes [log 2], once what was told for earlier cycles has come about;
otherwise they latch nothing. R437, R443 to R445: each in the cycle in which it is due, when nothing of the converter comes
before it: an expiry starts the timer anew and with SRC = 1 latches a regular trigger, with SRC = 3 opens the gate, or is
dropped where the gate is open; with SRC = 2, and with SRC = 3 through the open gate, a selected edge becomes a trigger after
DELAY; with SRC = 2 it is ignored while a pass runs or a trigger waits (the outputs' falls of the tick come first); the end
of DELAY latches the trigger. -/
def Obligations.Converters : Prop :=
  (∀ (s : State) (a : Acc) (m : PscId), s.mayWrite a (pscOff m.val pscCtl) →
      let u := s.catchTo (s.at_ s.wcyc)
      let p := u.psc m.val
      let latched := fun e : PscEv => (u.setPsc m.val { p with q := insertAt (·.1) (u.at_ u.wcyc, e) p.q }).passed u.wcyc
      (p.seq = true → u.pscUp m.val = true →
        exec (.pscGo a m) s = .next (latched .reg) ∧
        (0 < u.injLen m.val → exec (.pscInjGo a m) s = .next (latched .inj)) ∧
        (u.injLen m.val = 0 → exec (.pscInjGo a m) s = .next (u.passed u.wcyc)) ∧
        exec (.pscStop a m) s = .next (latched .stop)) ∧
      (p.seq = false ∨ u.pscUp m.val = false →
        exec (.pscGo a m) s = .next (u.passed u.wcyc) ∧ exec (.pscInjGo a m) s = .next (u.passed u.wcyc) ∧
        exec (.pscStop a m) s = .next (u.passed u.wcyc))) ∧
  ((∀ (s : State) (m : PscId) (c : Nat), (s.psc m.val).seq = true → s.pscUp m.val = true → c ≤ s.at_ 49 →
      let p := s.psc m.val
      let w := s.pr m.val pscTrig
      let next := some (c + 32 * max 1 (s.pr m.val pscTmr))
      (p.tmr = some c → s.pscFirst m.val c 5 = none →
        (bitsOf w 1 0 = 1 → exec (.pscTimer m) s =
          .next (s.setPsc m.val { p with tmr := next, q := insertAt (·.1) (c, .reg) p.q })) ∧
        (bitsOf w 1 0 = 3 → p.gate = false → exec (.pscTimer m) s = .next (s.setPsc m.val { p with tmr := next, gate := true })) ∧
        (bitsOf w 1 0 = 3 → p.gate = true →
          exec (.pscTimer m) s = .next ((s.setPsc m.val { p with tmr := next }).pscLost m.val 1))) ∧
      (∀ r, p.dly = c :: r → s.pscFirst m.val c 4 = none → exec (.pscEdgeDelayEnd m) s =
        .next (s.setPsc m.val { p with dly := r, q := insertAt (·.1) (c, .reg) p.q }))) ∧
    ∀ (t : State) (m : PscId) (c k : Nat) (r : List (Nat × Nat)),
      let s := t.pwmFalls (t.at_ 49) ((List.range 16).map (16 * (m.val / 4) + ·))
      let p := s.psc m.val
      let w := s.pr m.val pscTrig
      p.seq = true → s.pscUp m.val = true → c ≤ s.at_ 49 → p.edges = (c, k) :: r → s.pscFirst m.val c 3 = none →
      (bitsOf w 1 0 = 2 → p.busy c = false → s.pscHears m.val k = true → exec (.pscPwmEdge m) t =
        .next (s.setPsc m.val { p with edges := r, dly := insertAt id (c + bitsOf w 31 16) p.dly })) ∧
      (bitsOf w 1 0 = 3 → p.gate = true → s.pscHears m.val k = true → exec (.pscPwmEdge m) t =
        .next (s.setPsc m.val { p with edges := r, gate := false, dly := insertAt id (c + bitsOf w 31 16) p.dly })) ∧
      (bitsOf w 1 0 = 2 → p.busy c = true → exec (.pscPwmEdge m) t = .next (s.setPsc m.val { p with edges := r })) ∧
      (s.pscHears m.val k = false → exec (.pscPwmEdge m) t = .next (s.setPsc m.val { p with edges := r })))

/-- R421, R427, R428, R448: the end of SETTLE, in its cycle, lets the entry convert; its result, in its cycle, stands in
PSCn_RES of its row, corrected and saturated, or at the largest magnitude with its sign and OVR; a regular pass goes on with
the next row at that modulator edge. R421, R422: an over-range converter value is the largest magnitude with the sign of the
overload. R423, R425: the filter's gain is 1, so that the first valid outputs of a constant input have that value as their
mean, and a filter of order 1 takes the mean of its samples. -/
def Obligations.ConverterResults : Prop :=
  (∀ (s : State) (m : PscId) (l : List (BitVec 32)) (ovr : Option Bool) (cyc : Cycle),
      let p := s.psc m.val
      let y := s.pscOutput m.val (some (l.map (·.toInt), ovr))
      s.pscUp m.val = true → p.st = .regular → p.startAt = none →
      (p.settled = false → p.setAt ≤ s.at_ 49 → s.pscFirst m.val p.setAt 1 = none →
        exec (.pscSettleEnd m) s = .next (s.setPsc m.val { p with settled := true })) ∧
      (s.at_ cyc.val = p.due → s.pscFirst m.val p.due 0 = none → p.row + 1 < p.regLen → p.row < 36 → bitOf (p.ent.getD 0 0) 20 = false →
        ∃ t, exec (.pscEntryResult m l ovr cyc) s = .next t ∧
          t.pr m.val (pscRes + 4 * p.row) = (word32 (s.pscValue m.val (bitsOf (p.ent.getD 0 0) 5 0) y.1 y.2.2)).toNat ∧
          (y.2.2.isSome = true → bitOf (t.pr m.val pscFlags) 3 = true) ∧
          (t.psc m.val).row = p.row + 1 ∧ (t.psc m.val).st = .regular ∧ (t.psc m.val).from_ = p.due ∧
          (∀ o, o ∉ [pscOff m.val (pscRes + 4 * p.row), pscOff m.val pscFlags] → t.rg o = s.rg o) ∧
          (∀ j, j ≠ m.val → t.psc j = s.psc j) ∧ (∀ n, t.ch n = s.ch n) ∧ ∀ b, t.byte b = s.byte b)) ∧
  ((∀ (s : State) (m inp : Nat) (x : Int),
      s.pscValue m inp x (some false) = -2147483647 ∧ s.pscValue m inp x (some true) = 2147483647) ∧
    (∀ (k d a : Nat) (x : Int), 0 < k → 0 < d → 0 < a → sincMean k d a (List.replicate ((k + a - 1) * d) x) = x) ∧
    ∀ l : List Int, l ≠ [] → sincMean 1 l.length 1 l = rne l.sum l.length)

/-- R462, R465, R469 to R472, R476: an upper comparator is 1 on an input above its threshold, and stays 1 until the input is
more than H below it; a lower one the other way round. A new output of a comparator that runs, is enabled and is no clamp
comparator is registered, and an edge that EDGE selects sets the comparator's flag; without a wake mask and a capture unit on
it nothing else follows but the producer's event. The same holds of a sampled comparator at the end of its window. R487: a
clamp comparator whose input makes its output 1 trips the clamp of a channel whose CLAMP_N the comparators drive: the trip is
counted, flagged in CMP_STS and reported as CLAMP_TRIP; the channel's state stays (R93). R489, R490: a tripped clamp whose
comparators all read 0 is released at an own boundary, without LATCH after HOLD ticks (at the first own boundary after that)
and with LATCH after a release key; the key does nothing else. -/
def Obligations.Comparators : Prop :=
  (∀ (s : State) (n : ChanId) (k : Fin 4) (v : BitVec 32) (cyc : Cycle),
      let thr := s.cmpThr n.val k.val
      let h := s.cmpHyst n.val k.val
      let old := bitOf (s.ch n.val).comp.out k.val
      let out := s.cmpNext n.val k.val v.toInt
      let selected := edgeSel (bitsOf (s.rg (cmpOff n.val cmpEdge)) (2 * k.val + 1) (2 * k.val)) out
      let done := fun t : State => bitOf (t.ch n.val).comp.out k.val = out ∧
        (selected = true → bitOf (t.rg (cmpOff n.val cmpSts)) k.val = true) ∧
        (selected = false → t.rg (cmpOff n.val cmpSts) = s.rg (cmpOff n.val cmpSts)) ∧
        (t.ch n.val).comp.trip = (s.ch n.val).comp.trip ∧ (∀ m, m ≠ n.val → t.ch m = s.ch m) ∧ ∀ b, t.byte b = s.byte b
      (k.val % 2 = 1 → (out = true ↔ thr < v.toInt ∨ (old = true ∧ thr - h ≤ v.toInt))) ∧
      (k.val % 2 = 0 → (out = true ↔ v.toInt < thr ∨ (old = true ∧ v.toInt ≤ thr + h))) ∧
      (s.cmpRuns n.val k.val = true → s.cmpEn n.val k.val = true → s.isClamp n.val k.val = false → old ≠ out →
        bitOf (s.rg (cmpOff n.val cmpWake)) (9 + k.val) = false → s.capWatch n.val k.val out = [] →
        (s.cmpSampled n.val k.val = false → ∃ t, exec (.comparatorEdge n k v cyc) s = .next t ∧ done t) ∧
        (s.cmpSampled n.val k.val = true → s.smpEnd n.val = some cyc.val →
          ∃ t, exec (.cmpSampleWindow n k v cyc) s = .next t ∧ done t))) ∧
  (∀ (s : State) (n : ChanId) (k : Fin 4) (v : BitVec 32), s.mild (frCh n.val) = true → s.later = [] →
      s.cmpRuns n.val k.val = true → s.isClamp n.val k.val = true → (s.ch n.val).comp.driven = true →
      (s.ch n.val).comp.trip = false →
      s.cmpJudge n.val k.val (bitOf (s.ch n.val).comp.raw k.val) v.toInt = true →
      ∃ t, exec (.clampTrip n k v) s = .next t ∧ (t.ch n.val).comp.trip = true ∧ (t.ch n.val).state = (s.ch n.val).state ∧
        bitOf (t.rg (cmpOff n.val cmpSts)) 4 = true ∧ bitOf (t.rg (fltOff (frCh n.val) fltSts)) fcClampTrip = true ∧
        (t.ch n.val).law = (s.ch n.val).law ∧ (t.ch n.val).rake = (s.ch n.val).rake ∧
        (∀ m, m ≠ n.val → t.ch m = s.ch m) ∧ ∀ b, t.byte b = s.byte b) ∧
  (∀ (s : State) (a : Acc) (n : ChanId), (s.ch n.val).comp.trip = true →
      let freed := s.updCh n.val fun c => { c with comp := { c.comp with trip := false, met := false, relKey := false } }
      ((s.tick + 1) % s.srDiv n.val = 0 → s.clampLatch n.val = false →
        ((s.clampClear n.val = true ∧ bitsOf (s.rg (cmpOff n.val cmpClhold)) 15 0 ≤ (s.ch n.val).comp.zero + 1) ∨
          (s.ch n.val).comp.met = true) → exec (.clampRelease n) s = .next freed) ∧
      ((s.tick + 1) % s.srDiv n.val = 0 → s.clampClear n.val = true → s.clampLatch n.val = true → (s.ch n.val).comp.relKey = true →
        exec (.clampRelease n) s = .next freed) ∧
      (s.clampClear n.val = false → (s.ch n.val).comp.met = false ∨ s.clampLatch n.val = true → exec (.clampRelease n) s = .next s) ∧
      ((s.tick + 1) % s.srDiv n.val ≠ 0 → exec (.clampRelease n) s = .next s) ∧
      (s.mayWrite a (cmpOff n.val cmpClrel) → s.unpaired a (cmpOff n.val cmpClrel) = true → s.clampLatch n.val = true →
        exec (.clampReleaseKey a n) s = .next (s.updCh n.val fun c => { c with comp := { c.comp with relKey := true } })))

/-- R500 to R503: GO refused leaves only its reason in REASON of CAL_RESULT and BAD_GO in CAL_FLAGS; accepted, it takes
CAL_STEP, CAL_CFG and CAL_TIME into the step and asks for the bus the kind needs, or measures at once where it needs none.
R454: it comes after what was told for earlier cycles. R498, R503, R505, R508: BUS_ACK lets the point that waits for the bus
be measured, SETTLE ms later it can be read, its first reading after the filter's length; a step whose bus does not come in
BUS_TO ms is rejected with reason 7, an aborted one, in whichever state it is, with reason 8, and leaves the tile idle. -/
def Obligations.CalibrationRuns : Prop :=
  (∀ (s0 : State) (a : Acc) (t : TileId), s0.mayWrite a (calOff t.val calCtl) →
      let s := s0.catchTo (s0.at_ s0.wcyc)
      let c : CalStep := { step := s.rg (calOff t.val calStep), cfg := s.rg (calOff t.val calCfg), time := s.rg (calOff t.val calTime) }
      s.voteErr = [] →
      (s.calRefusal t.val c false ≠ 0 →
        exec (.calGo a t) s0 = .next (((s.setRg (calOff t.val calResult)
          (setBits (s.rg (calOff t.val calResult)) 7 0 (s.calRefusal t.val c false))).flag (calOff t.val calFlags) 8).passed s.wcyc)) ∧
      (s.calRefusal t.val c false = 0 → calBusOf (calKind c) ≠ 0 →
        ∃ u, exec (.calGo a t) s0 = .next u ∧ (u.tile t.val).cal = { c with st := .bus, bus := calBusOf (calKind c), from_ := s.tick } ∧
          u.regs = s.regs ∧ (∀ n, u.ch n = s.ch n) ∧ (∀ j, j ≠ t.val → u.tile j = s.tile j) ∧ ∀ b, u.byte b = s.byte b) ∧
      (s.calRefusal t.val c false = 0 → calBusOf (calKind c) = 0 →
        ∃ u, exec (.calGo a t) s0 = .next u ∧ (u.tile t.val).cal = { c with st := .measure, from_ := s.tick } ∧
          u.regs = s.regs ∧ (∀ n, u.ch n = s.ch n) ∧ (∀ j, j ≠ t.val → u.tile j = s.tile j) ∧ ∀ b, u.byte b = s.byte b)) ∧
  (∀ (s : State) (a : Acc) (t : TileId),
      let c := (s.tile t.val).cal
      let rejected := fun (u : State) (why : Nat) => u.rg (calOff t.val calResult) = setBits (s.rg (calOff t.val calResult)) 7 0 why ∧ (u.tile t.val).cal = {} ∧
        bitsOf (u.rg (calOff t.val calFlags)) 2 0 % 2 = 1 ∧
        (∀ o, o ∉ [calOff t.val calResult, calOff t.val calFlags, caldOff calRejects] ++ reportRegs (frTile t.val) → u.rg o = s.rg o) ∧
        ∀ b, u.byte b = s.byte b
      (s.mayWrite a (calOff t.val calCtl) → c.st = .bus →
        ∃ u, exec (.busAck a t) s = .next u ∧ (u.tile t.val).cal =
            { c with st := .measure, settled := false, rd := [], flt := [], from_ := s.tick } ∧ (∀ o, u.rg o = s.rg o) ∧ ∀ b, u.byte b = s.byte b) ∧
      (c.st = .measure → c.settled = false → c.from_ + 4000 * bitsOf c.time 15 0 ≤ s.tick →
        exec (.calPointSettleEnd t) s = .next (s.setTile t.val { s.tile t.val with cal := { c with
          settled := true, due := s.modEdge (s.at_ 0) + (if calUsesPsc (calKind c) then 32 * (calK c * calD c) else 0) } })) ∧
      (s.mild (frTile t.val) = true → s.later = [] → c.st = .bus → c.from_ + 4000 * bitsOf c.time 31 16 ≤ s.tick →
        ∃ u, exec (.calBusTimeout t) s = .next u ∧ rejected u 7) ∧
      (s.mild (frTile t.val) = true → s.later = [] → s.mayWrite a (calOff t.val calCtl) → c.st ≠ .idle →
        ∃ u, exec (.calAbort a t) s = .next u ∧ rejected u 8))

/-- R503, R505, R507: a reading in range, of the samples that the filter and its window need, is kept for its point; the last
one of a point leads to the next point, and after the last point to CHECK. R503, R513, R522, R525, R527: at its boundary a
commit takes effect, leaves the tile idle and counts, and where it is one of coefficients the other copy of each of its
objects comes into use; SELECT registers the flip of an object whose other copy is sound; the mean of a tile's four sensors
over a millisecond is held for the tiles that are up and for no other [log 119]. -/
def Obligations.CalibrationResults : Prop :=
  (∀ (s : State) (t : TileId) (psc : List (BitVec 32)) (fast : List (BitVec 20)) (ecc : Bool),
      let c := (s.tile t.val).cal
      let uses := calUsesPsc (calKind c)
      let l := c.flt ++ psc.map (·.toInt)
      let f := fastMean (fast.map (·.toInt))
      let x := sat32 (sincMean (calK c) (calD c) 1 l)
      let rd := if uses then c.rd ++ [(s.calReading t.val c x, f)] else psc.map fun x => (x.toInt, 0)
      let full := uses = true → bitsOf c.cfg 26 23 ≤ rd.length
      c.st = .measure → c.settled = true → c.due ≤ s.at_ 49 → (uses = true → l.length = calK c * calD c) →
      fastFits c (fast.map (·.toInt)) = true → 100 * f.natAbs ≤ 99 * 2147483648 → s.voteErr = [] →
      (¬ full →
        exec (.calReadingDone t psc fast false ecc) s = .next (s.setTile t.val { s.tile t.val with cal := { c with
          rd := rd, flt := l.drop (calD c), due := c.due + 32 * calD c } })) ∧
      (full → c.pt + 1 < calNpts c → calKind c ≠ 0 ∨ c.pt ≠ 0 →
        ∃ u, exec (.calReadingDone t psc fast false ecc) s = .next u ∧ (u.tile t.val).cal = { c with
          st := .measure, settled := false, rd := [], flt := [], from_ := s.tick, pts := c.pts ++ [rd], pt := c.pt + 1 } ∧
          (∀ o, u.rg o = s.rg o) ∧ ∀ b, u.byte b = s.byte b) ∧
      (full → c.pt + 1 < calNpts c → calKind c = 0 → c.pt = 0 →
        ∃ u, exec (.calReadingDone t psc fast false ecc) s = .next u ∧ (u.tile t.val).cal = { c with
          st := .bus, bus := 2, settled := false, rd := [], from_ := s.tick, pts := c.pts ++ [rd], pt := c.pt + 1 } ∧
          (∀ o, u.rg o = s.rg o) ∧ (∀ n, u.ch n = s.ch n) ∧ ∀ b, u.byte b = s.byte b) ∧
      (full → calNpts c ≤ c.pt + 1 →
        exec (.calReadingDone t psc fast false ecc) s = .next (State.calCheck (s.setTile t.val { s.tile t.val with cal := { c with
          rd := [], settled := false, pts := c.pts ++ [rd], pt := c.pt + 1 } }) t.val ecc))) ∧
  (∀ (s : State) (a : Acc) (t : TileId),
      let c := (s.tile t.val).cal
      (c.st = .commit → c.m ≤ s.tick + 1 →
        ∃ u, exec (.calCommit t) s = .next u ∧ (u.tile t.val).cal = {} ∧ u.rg (calOff t.val calResult) = 256 * (c.slot % 8) ∧
          bitOf (u.rg (calOff t.val calFlags)) 0 = true ∧
          (calKind c ≤ 4 → s.calFlip = [] →
            (∀ j, u.calSel.contains j = (s.calSel.contains j ^^ (calObjs t.val c).contains j)) ∧
            (∀ o, o ∉ [calOff t.val calResult, calOff t.val calFlags, caldOff calAccepts, caldOff calLastTime, caldOff (calLastTime + 4)] →
              u.rg o = s.rg o) ∧ ∀ b, u.byte b = s.byte b)) ∧
      (s.tick + 1 < c.m → s.calFlip = [] → exec (.calCommit t) s = .next s) ∧
      (∀ j : BitVec 12, s.mayWrite a (caldOff calObjCmd) → objExists j.toNat = true → s.calRuns j.toNat = false → s.selOk j.toNat = true →
        (s.calFlip.any fun p => p.1 = j.toNat) = false →
        exec (.select a j) s =
          .next { s.setRg (caldOff calObjCmd) j.toNat with calFlip := s.calFlip ++ [(j.toNat, s.commitTick)] }) ∧
      (∀ l : List (BitVec 32), l.length = 16 →
        ∃ u, exec (.calCoefUpdate l 0) s = .next u ∧
          (∀ j, j < 4 → tget (fun _ => (0 : Word)) u.tileT j =
            if s.tileUp j then word32 (rne (((l.drop (4 * j)).take 4).map BitVec.toInt).sum 4)
            else tget (fun _ => (0 : Word)) s.tileT j) ∧
          u.tileTUse = s.tileTUse ∧ (∀ o, u.rg o = s.rg o) ∧ (∀ n, u.ch n = s.ch n) ∧ ∀ b, u.byte b = s.byte b))

/-- R538, R550: an event channel passes the event of its earliest cycle once that cycle is over, after what was told for the
cycles before: EVCNT advances by one, and the core interrupt task that listens sets its bit; what comes late to a cycle whose
event has passed coincides with it. A contribution with the channel's own tag drops without LOOP_EN, which sets LOOP and
counts (R554, R555). R537, R548, R549: a write of BRM_FIRE fires the named task in the next cycle, where nothing told for
earlier cycles waits; an event's firing of the task in the same cycle merges with it and is counted; a number that names no
task sets BAD; a write in the last cycle of a tick acts in the next. SWFIRE of an armed channel contributes in the next
cycle, of another channel it does nothing. -/
def Obligations.EventsAndFires : Prop :=
  (∀ (s0 : State) (c : EvcId) (k j : Nat) (g : Option Nat), s0.evcCyc c.val = some k →
      let s := s0.toCycle k
      s.contribs = [{ evc := c.val, cyc := k, slot := j, tag := g }] → (k + 1) / 50 ≤ s.tick → s.updDue = [] →
      let last := tget (fun _ => none) s.evcLast c.val
      let same := fun (t : State) => t.contribs = [] ∧ (∀ n, t.ch n = s.ch n) ∧ ∀ b, t.byte b = s.byte b
      (g ≠ some c.val → (∀ p, last = some p → p.cyc ≠ k + 1) → s.listeners c.val = [] →
        ∃ t, exec (.eventDispatch c) s0 = .next t ∧ t.rg (evcOff c.val evcEvcnt) = wrapAdd (s.rg (evcOff c.val evcEvcnt)) 1 ∧
          (∀ o, o ≠ evcOff c.val evcEvcnt → t.rg o = s.rg o) ∧ same t) ∧
      (∀ i, g ≠ some c.val → (∀ p, last = some p → p.cyc ≠ k + 1) → s.listeners c.val = [632 + i] → i < 64 →
        s.isFenced (unCore (i / 8)) = false → (∀ p ∈ tget (fun _ => []) s.fired (632 + i), p.1 ≠ k + 1) →
        ∃ t, exec (.eventDispatch c) s0 = .next t ∧ bitOf (t.rg (coreOff (i / 8) coreBirq)) (i % 8) = true ∧
          t.rg (evcOff c.val evcEvcnt) = wrapAdd (s.rg (evcOff c.val evcEvcnt)) 1 ∧
          (∀ o, o ∉ [coreOff (i / 8) coreBirq, evcOff c.val evcEvcnt] → t.rg o = s.rg o) ∧ same t) ∧
      (g ≠ some c.val → last = some ⟨k + 1, false⟩ →
        ∃ t, exec (.eventDispatch c) s0 = .next t ∧ t.rg (evcOff c.val evcCoincide) = holdAdd (s.rg (evcOff c.val evcCoincide)) 1 ∧
          (∀ o, o ≠ evcOff c.val evcCoincide → t.rg o = s.rg o) ∧ same t) ∧
      (g = some c.val → bitOf (s.rg (evcOff c.val evcCfg)) 5 = false →
        ∃ t, exec (.eventDispatch c) s0 = .next t ∧ bitOf (t.rg (evcOff c.val evcSts)) 0 = true ∧
          t.rg (evcOff c.val evcLoops) = holdAdd (s.rg (evcOff c.val evcLoops)) 1 ∧
          (∀ o, o ∉ [evcOff c.val evcSts, evcOff c.val evcLoops] → t.rg o = s.rg o) ∧ same t)) ∧
  (∀ (s : State) (a : Acc) (cyc : Cycle),
      (∀ task : BitVec 10, s.regCause a (brmOff brmFire) true (0x07FF0400 + task.toNat) = none →
        let u := s.setRg (brmOff brmFire) task.toNat
        let at_ := s.at_ (cyc.val + 1)
        let fired := tget (fun _ => []) s.fired task.toNat
        (696 ≤ task.toNat → exec (.brmFire a task cyc) s = .next ((u.flag (brmOff brmSts) 1).passed cyc.val)) ∧
        (task.toNat < 696 → cyc.val = 49 → exec (.brmFire a task cyc) s = .next (State.passed { u with contribs :=
          s.contribs ++ [{ evc := directEvc + task.toNat, cyc := s.at_ 49, slot := 8, tag := none }] } 49)) ∧
        (task.toNat < 696 → cyc.val ≠ 49 → u.waits (s.at_ cyc.val + 1) = false →
          exec (.brmFire a task cyc) s =
            .next ((u.inCycle at_ fun s => (s.fireTask task.toNat at_ none).updFlush at_).passed cyc.val)) ∧
        (632 ≤ task.toNat → task.toNat < 696 → cyc.val ≠ 49 → u.waits (s.at_ cyc.val + 1) = false → s.updDue = [] →
          s.isFenced (unCore ((task.toNat - 632) / 8)) = false →
          ((∀ p ∈ fired, p.1 ≠ at_) →
            ∃ t, exec (.brmFire a task cyc) s = .next t ∧
              bitOf (t.rg (coreOff ((task.toNat - 632) / 8) coreBirq)) ((task.toNat - 632) % 8) = true ∧
              (∀ o, o ∉ [brmOff brmFire, coreOff ((task.toNat - 632) / 8) coreBirq] → t.rg o = s.rg o) ∧ (∀ n, t.ch n = s.ch n) ∧ ∀ b, t.byte b = s.byte b) ∧
          (fired = [(at_, 1)] →
            ∃ t, exec (.brmFire a task cyc) s = .next t ∧
              t.rg (brmOff (brmMerge + 4 * task.toNat)) = holdAdd (s.rg (brmOff (brmMerge + 4 * task.toNat))) 1 ∧
              (∀ o, o ∉ [brmOff brmFire, brmOff (brmMerge + 4 * task.toNat)] → t.rg o = s.rg o) ∧ (∀ n, t.ch n = s.ch n) ∧ ∀ b, t.byte b = s.byte b))) ∧
      ∀ c : EvcId, s.regCause a (evcOff c.val evcCtl) true 0x40004 = none →
        (s.armed c.val = true → exec (.swfire a c cyc) s = .next (State.passed { s with contribs :=
          s.contribs ++ [{ evc := c.val, cyc := s.at_ (cyc.val + 1), slot := 8, tag := none }] } cyc.val)) ∧
        (s.armed c.val = false → exec (.swfire a c cyc) s = .next (s.passed cyc.val)))

/-- R537, R559, R562: once what was told for cycles up to that of the write has come about, ARM by the owner sets the
channel's armed bit, unless the channel is in the secure set while that is not committed (CFG_LOCKED); by another it sets
NOT_OWNER. DISARM by the owner or through the privileged view clears it. R537, R542, R545, R558, R560, R562, R625: once what
was told for cycles up to that of the write has come about, a CFG or PROD value of a disarmed channel outside the secure set
is taken; of an armed channel it sets CFG_LOCKED, and a reserved KIND, INST, OWNER or LOOP_MAX sets BAD; neither changes the
register. A subscription outside the set is taken as written, one inside a committed set is not. A write whose mask is zero
changes nothing. R564, R566, R567: a selected edge of an input pin fires the pin's producer in the cycle that registers it;
another change only moves the level. A pulse that has run its length returns the output to IDLE. -/
def Obligations.BrambleConfiguration : Prop :=
  (∀ (s : State) (a : Acc) (c : EvcId),
      let u := s.catchUp
      let armedIs := fun (t : State) (b : Bool) => t.armed c.val = b ∧ (∀ j, j < 128 → j ≠ c.val → t.armed j = u.armed j) ∧
        (∀ o, o ≠ brmOff (brmArmed + 4 * (c.val / 32)) → t.rg o = u.rg o) ∧ (∀ n, t.ch n = u.ch n) ∧ ∀ b, t.byte b = u.byte b
      (s.regCause a (evcOff c.val evcCtl) true 0x10001 = none →
        (u.evcOwner c.val ≠ reqCode a.req → exec (.evcArm a c) s = .next (u.flag (brmOff brmSts) 4)) ∧
        (u.evcOwner c.val = reqCode a.req → u.secEvc c.val = true → u.committed 65 = false →
          exec (.evcArm a c) s = .next (u.flag (brmOff brmSts) 2)) ∧
        (u.evcOwner c.val = reqCode a.req → u.secEvc c.val = false ∨ u.committed 65 = true →
          ∃ t, exec (.evcArm a c) s = .next t ∧ armedIs t true)) ∧
      (s.regCause a (evcOff c.val evcCtl) true 0x20002 = none →
        (u.evcOwner c.val = reqCode a.req ∨ a.view = .priv → ∃ t, exec (.evcDisarm a c) s = .next t ∧ armedIs t false) ∧
        (u.evcOwner c.val ≠ reqCode a.req → a.view ≠ .priv → exec (.evcDisarm a c) s = .next (u.flag (brmOff brmSts) 4)))) ∧
  (∀ (s : State) (a : Acc) (v : Word),
      let u := s.catchUp
      (∀ (c : EvcId) (slot : Fin 9), s.regCause a (slotOff c.val slot.val) true v.toNat = none →
        let o := slotOff c.val slot.val
        let w := ctlNew (s.sh o) v.toNat (if slot.val = 8 then 0x3FFF else 0xFFFF)
        let bad := if slot.val = 8 then 10 ≤ bitsOf w 3 0 ∨ bitsOf w 13 6 = 0
          else ∀ m, instMax (bitsOf w 7 0) = some m → m < bitsOf w 14 8
        (v.toNat < 65536 → exec (.evcConfigWrite a c slot v) s = .next s) ∧
        (65536 ≤ v.toNat →
        (u.armed c.val = true → exec (.evcConfigWrite a c slot v) s = .next (u.flag (brmOff brmSts) 2)) ∧
        (u.armed c.val = false → u.secEvc c.val = false → (slot.val = 8 → bitOf w 4 = false) → bad →
          exec (.evcConfigWrite a c slot v) s = .next (u.flag (brmOff brmSts) 1)) ∧
        (u.armed c.val = false → u.secEvc c.val = false → (slot.val = 8 → bitOf w 4 = false) → ¬ bad →
          exec (.evcConfigWrite a c slot v) s = .next ((u.setRg o w).setSh o w)) ∧
        (u.armed c.val = false → u.secEvc c.val = true → u.setOpen 65 = false →
          exec (.evcConfigWrite a c slot v) s = .next (u.flag (brmOff brmSts) 2)))) ∧
      ∀ i : Fin 696, s.regCause a (subOff i.val) true v.toNat = none →
        let w := ctlNew (s.sh (subOff i.val)) v.toNat 0xFF
        (v.toNat < 65536 → exec (.subscriptionWrite a i v) s = .next s) ∧
        (65536 ≤ v.toNat → u.secSub i.val = false → (∀ c, subEvc w = some c → u.secEvc c = false) →
          exec (.subscriptionWrite a i v) s = .next ((u.setRg (subOff i.val) w).setSh (subOff i.val) w)) ∧
        (65536 ≤ v.toNat → u.secSub i.val = true → u.setOpen 65 = false →
          exec (.subscriptionWrite a i v) s = .next (u.flag (brmOff brmSts) 2))) ∧
  (∀ (s : State) (p : PinId) (level : Bool) (cyc : Cycle),
      let w := s.pinCfg p.val
      let v := s.pin p.val
      let moved := s.setPin p.val { v with level := level }
      (v.level = level → exec (.trigIn p level cyc) s = .next (s.passed cyc.val)) ∧
      (v.level ≠ level → bitsOf w 1 0 = 1 → edgeSel (bitsOf w 3 2) level = true →
        exec (.trigIn p level cyc) s = .next ((moved.fireAt 3 p.val (s.at_ cyc.val) none).passed cyc.val)) ∧
      (v.level ≠ level → bitsOf w 1 0 ≠ 1 ∨ edgeSel (bitsOf w 3 2) level = false →
        exec (.trigIn p level cyc) s = .next (moved.passed cyc.val)) ∧
      (∀ k, v.till = some k → k ≤ s.at_ 49 →
        exec (.trigPulseEnd p) s = .next (s.setPin p.val { v with out := bitOf w 6, till := none })) ∧
      (∀ k, v.till = some k → s.at_ 49 < k → exec (.trigPulseEnd p) s = .next s))

/-- R598 to R600, R627, R645: once what was told for cycles up to its own has come about [log 2], a write of FLT_STS with the
SEQ that it then holds clears the flags written as 1, but for those of a kind-L source whose cause is present; with another
SEQ it clears nothing and sets SEQ_ERR. No channel and no byte of memory changes (a line that has risen has its MSI-X message
before it may fall: R814). R627, R645: once what was told for cycles up to its own has come about [log 2], a write of an STS
register outside the fault frames with the SEQ that it then holds clears the flags written as 1 among those it has; with
another SEQ, and so where hardware sets in its cycle a flag that it would clear, it sets the register's SEQ_ERR, its highest
flag, and clears nothing. Before it a comparator's line that has risen has its MSI-X message (R814), which writes no register
but a pending bit. -/
def Obligations.StatusClears : Prop :=
  (∀ (s0 : State) (a : Acc) (b : Block) (v : Word), s0.mayWrite a (fltOff (blockFrame b) fltSts) →
      let f := blockFrame b
      let s := s0.stsMeets (fltOff f fltSts) v.toNat
      let w := s.rg (fltOff f fltSts)
      let stays := fun i => ((srcsOf f).getD i ⟨15, false, 0⟩).lvl = true ∧ s.causes.contains (f * 32 + i) = true
      (v.toNat / 16777216 = w / 16777216 →
        ∃ t, exec (.faultClear a b v) s0 = .next t ∧
          (∀ i, i < 20 → (bitOf (t.rg (fltOff f fltSts)) i = true ↔ bitOf w i = true ∧ (bitOf v.toNat i = false ∨ stays i))) ∧
          (∀ i, 20 ≤ i → i < 24 → (bitOf (t.rg (fltOff f fltSts)) i = true ↔ bitOf w i = true ∧ bitOf v.toNat i = false)) ∧
          (∀ o, o ∉ [fltOff f fltSts, fltOff f fltPers, fltOff f fltEsc] ++ pbaRegs → t.rg o = s.rg o) ∧ t.chans = s.chans ∧
          t.fenced = s.fenced ∧ t.mem = s.mem) ∧
      (v.toNat / 16777216 ≠ w / 16777216 →
        exec (.faultClear a b v) s0 = .next (s.flag (fltOff f fltSts) 0x800000))) ∧
  (∀ (s : State) (a : Acc) (o : Nat) (l : Loc) (row : RegRow) (i : Nat) (v : Word),
      locate o = some l → rowAt l = some (row, i) → s.mayWrite a o → row.cls = .sts → l.grp ≠ .flt →
      let z := s.at_ s.wcyc
      let b := (s.lineSee l).catchTo (z - 1)
      let u := (s.lineSee l).stsMeets o v.toNat
      (v.toNat / 16777216 = u.rg o / 16777216 →
        exec (.stsClear a o v) s = .next (u.setRg o (u.rg o - (u.rg o % 16777216 &&& (v.toNat &&& row.fl))))) ∧
      (v.toNat / 16777216 ≠ u.rg o / 16777216 → (l.grp = .sys → l.rel ≠ sysCoreUpdSts) →
        exec (.stsClear a o v) s = .next (u.flag o (2 ^ Nat.log2 (row.fl % 16777216)))) ∧
      (∀ k, k < 24 → bitOf v.toNat k = true → bitOf (b.rg o) k = true → v.toNat / 16777216 = b.rg o / 16777216 →
        b.rg o < 4294967296 → bitOf ((State.catchTo (b.setRg o (b.rg o - b.rg o % 16777216)) z).rg o) k = true →
        v.toNat / 16777216 ≠ u.rg o / 16777216) ∧
      (s.lineSee l).chans = s.chans ∧ (s.lineSee l).mem = s.mem ∧ ∀ p, p ∉ pbaRegs → (s.lineSee l).rg p = s.rg p)

/-- R22, R41, R601, R602: the unfence key of a fenced unit, no fault of which is set with FENCE, takes the unit out of its
fence, a channel at its next own boundary and into OFF with its outputs off; while such a flag is set, or the channel's tile
is fenced, it does nothing but set UNFENCE_REFUSED; of a unit that is not fenced it does nothing. R604 to R606: a value that
names a checker of the block in a MODE that is not reserved is taken into FLT_INJ, as is one with MODE 0 and CHK 0, which
names none and injects nothing [log 65, the model's reading]; another sets INJ_BAD and leaves FLT_INJ. -/
def Obligations.UnfenceAndInject : Prop :=
  (∀ (s : State) (a : Acc) (u : FenceUnit), s.mayWrite a (unfenceReg u).1 → s.unpaired a (unfenceReg u).1 = true →
      let f := (unfenceReg u).2.2
      let under := 64 ≤ unitCode u ∧ s.isFenced (unTile (tileOf (unitCode u - 64))) = true
      (s.fenceFlag (unitCode u) = true ∨ under → exec (.unfence a u) s = .next (s.flag (fltOff f fltSts) 0x400000)) ∧
      (s.fenceFlag (unitCode u) = false → ¬ under → s.unitFenced (unitCode u) = true →
        (unitCode u < 64 → ∃ t, exec (.unfence a u) s = .next t ∧ t.unitFenced (unitCode u) = false ∧
          (∀ k, k < 64 → k ≠ unitCode u → t.isFenced k = s.isFenced k) ∧ t.chans = s.chans ∧ t.mem = s.mem) ∧
        (∀ n, u = .chan n → exec (.unfence a u) s = .next (s.updCh n.val fun c => { c with unf := true }))) ∧
      (s.fenceFlag (unitCode u) = false → ¬ under → s.unitFenced (unitCode u) = false → exec (.unfence a u) s = .next s) ∧
      ∀ n, (s.ch n).state = .fenced →
        ((s.ch n).unf = true → s.unfenceStep n = s.setCh n { s.ch n with state := .off, unf := false, outEn := false, rngP := 15, rngS := 15 }) ∧
        ((s.ch n).unf = false → s.unfenceStep n = s)) ∧
  (∀ (s : State) (a : Acc) (b : Block) (v : Word), s.mayWrite a (fltOff (blockFrame b) fltInj) →
      s.unpaired a (fltOff (blockFrame b) fltInj) = true →
      let f := blockFrame b
      let taken := bitsOf v.toNat 5 4 ≠ 3 ∧ (injHolds f (bitsOf v.toNat 3 0) = true ∨ (bitsOf v.toNat 5 4 = 0 ∧ bitsOf v.toNat 3 0 = 0))
      (taken → exec (.faultInject a b v) s = .next (s.setRg (fltOff f fltInj) (v.toNat % 512))) ∧
      (¬ taken → exec (.faultInject a b v) s = .next (s.flag (fltOff f fltSts) 0x200000)))

/-- R579, R582, R632: a scrub that finds no copy changed does nothing; one that finds one changed copy of a voted register
corrects it and reports the block's VOTE source, which sets its flag and is counted, with no other effect where the frame
names no NMI, FENCE or CHIPRST. R595, R596, R863: ALIVE makes the transition that is due [log 108] while no fault that is set
stops it; within 1 µs, 4 base ticks, of the stop it may still make one [log 125]; held by such a fault it makes the one that
follows 100 µs after the last is cleared. After a transition the next one is 100 µs, 400 base ticks, away. -/
def Obligations.VoteScrubAndAlive : Prop :=
  (∀ (s : State), s.voteErr = [] →
      exec (.voteScrub []) s = .next s ∧
      ∀ (o : Nat) (l : Loc), isVoted o = true → locate o = some l → s.mild (voteSource l).1 = true → s.later = [] →
        bitOf (s.rg (fltOff (voteSource l).1 fltSts)) (voteSource l).2 = false →
        ∃ t, exec (.voteScrub [o]) s = .next t ∧ t.voteErr = [] ∧
          bitOf (t.rg (fltOff (voteSource l).1 fltSts)) (voteSource l).2 = true ∧
          t.rg (fltOff (voteSource l).1 fltCnt) = holdAdd (s.rg (fltOff (voteSource l).1 fltCnt)) 1 ∧
          (∀ p, p ∉ reportRegs (voteSource l).1 → t.rg p = s.rg p) ∧ t.chans = s.chans ∧ t.fenced = s.fenced ∧ t.mem = s.mem) ∧
  (∀ (s : State),
      let turned := { s with alive := { s.alive with level := !s.alive.level, left := 400, held := false } }
      let now := s.alive.on = true ∧ s.alive.left = 0
      let due := now ∧ s.aliveStop = false
      let late := now ∧ s.aliveStop = true ∧ s.alive.held = true ∧ 0 < s.alive.soon
      (due → s.alive.held = false → exec .aliveToggle s = .next turned) ∧
      (late → exec .aliveToggle s = .next
        (if Config.aliveRuns s.tick then { s with alive := { s.alive with level := !s.alive.level, left := 400 } } else s)) ∧
      (¬ late → ¬ due ∨ s.alive.held = true → exec .aliveToggle s = .next s) ∧
      (due → s.alive.held = true → exec .aliveResume s = .next turned) ∧
      (¬ due ∨ s.alive.held = false → exec .aliveResume s = .next s))

/-- R584, R586, R592, R594, R595, R812: the fault of a watchdog at zero whose flag is not set yet registers with the severity
of its source, one higher where a fault of its class is set, and takes the reactions of that severity's byte: FENCE fences
its core, ALIVE_STOP holds the ALIVE pin, and CHIPRST resets the device with cause SELF, naming the source in SYS_FLT_RSTSRC.
R38, R71, R575, R584 to R586, R591: a fault of a channel or a tile takes the reactions of its severity's byte as well: a
clamp trip whose byte has FENCE takes its channel to FENCED, and the loss of a tile's clock the tile and with it its 16
channels, the outputs of each at the levels of a fenced channel. No other unit is fenced, and no other channel changes that
does not take part in a calibration step. -/
def Obligations.FaultReactions : Prop :=
  (∀ (s : State) (x : CoreId),
      let f := frCore x.val
      let sev := min 3 (s.sevOf f fxWdog + b2n (s.classSet f (s.rg (fltOff f fltSts)) (srcCls f fxWdog)))
      let byte := bitsOf (s.rg (fltOff f fltReact)) (8 * sev + 7) (8 * sev)
      s.wdogRuns x.val = true → tget (fun _ => 0) s.cpu.wdog x.val = 0 → s.later = [] → bitOf (s.rg (fltOff f fltSts)) fxWdog = false → s.isFenced (unCore x.val) = false →
      s.cpu.upd = none → s.voteErr = [] →
      (bitOf byte 2 = true → bitOf byte 3 = false →
        ∃ t, exec (.wdog x) s = .next t ∧ t.isFenced (unCore x.val) = true ∧ t.coreSt x.val = 5 ∧
          bitOf (t.rg (fltOff f fltSts)) fxWdog = true ∧ (∀ k, k ≠ unCore x.val → t.isFenced k = s.isFenced k) ∧
          (bitOf byte 4 = true → t.alive.held = true) ∧ t.chans = s.chans ∧ t.mem = s.mem) ∧
      (bitOf byte 3 = true →
        ∃ t, exec (.wdog x) s = .next t ∧ t.rg sysRstCause = 2 ∧ t.running = false ∧ t.held = 15 ∧ t.chans = [] ∧ t.boot.phase = 0 ∧
          bitsOf (t.rg (fltOff frSys fltSysFltRstsrc)) 3 0 = 2 ∧ bitsOf (t.rg (fltOff frSys fltSysFltRstsrc)) 9 4 = x.val ∧
          bitsOf (t.rg (fltOff frSys fltSysFltRstsrc)) 14 10 = fxWdog ∧ t.mem = s.mem)) ∧
  (∀ (s : State), s.later = [] → s.voteErr = [] →
      let byte := fun f i => bitsOf (s.rg (fltOff f fltReact))
        (8 * min 3 (s.sevOf f i + b2n (s.classSet f (s.rg (fltOff f fltSts)) (srcCls f i))) + 7)
        (8 * min 3 (s.sevOf f i + b2n (s.classSet f (s.rg (fltOff f fltSts)) (srcCls f i))))
      (∀ (n : ChanId) (k : Fin 4) (v : Word),
        let f := frCh n.val
        s.cmpRuns n.val k.val = true → s.isClamp n.val k.val = true → (s.ch n.val).comp.driven = true → (s.ch n.val).comp.trip = false →
        s.cmpJudge n.val k.val (bitOf (s.ch n.val).comp.raw k.val) v.toInt = true → bitOf (s.rg (fltOff f fltSts)) fcClampTrip = false →
        bitOf (byte f fcClampTrip) 2 = true → bitOf (byte f fcClampTrip) 3 = false →
        ∃ t, exec (.clampTrip n k v) s = .next t ∧ (t.ch n.val).state = .fenced ∧ t.safePins n.val = true ∧
          bitOf (t.rg (fltOff f fltSts)) fcClampTrip = true ∧ t.fenced = s.fenced ∧
          ((s.tile (tileOf n.val)).cal.st = .idle → ∀ m, m ≠ n.val → t.ch m = s.ch m) ∧ t.mem = s.mem) ∧
      (∀ k : TileId,
        let f := frTile k.val
        s.causes.contains (f * 32 + ftClkQual) = false → bitOf (s.rg (fltOff f fltSts)) ftClkQual = false → s.isFenced (unTile k.val) = false →
        (∀ n, n < 64 → tileOf n = k.val → (s.ch n).state = .fenced → s.safePins n = true) →
        bitOf (byte f ftClkQual) 2 = true → bitOf (byte f ftClkQual) 3 = false →
        ∃ t, exec (.clkQual k true) s = .next t ∧ t.isFenced (unTile k.val) = true ∧ bitOf (t.rg (fltOff f fltSts)) ftClkQual = true ∧
          (∀ n, n < 64 → tileOf n = k.val → (t.ch n).state = .fenced ∧ t.safePins n = true) ∧
          (∀ n, n < 64 → tileOf n ≠ k.val → t.ch n = s.ch n) ∧ (∀ u, u ≠ unTile k.val → t.isFenced u = s.isFenced u) ∧ t.mem = s.mem))

/-- R611, R614, R618, R623: an access to register space that is no aligned 32-bit access, or does not complete, is a bus
error: SYS_BUSERR_ADDR and SYS_BUSERR_INFO record it and BUS_ERR sets, with BUS_FAULT of the core whose access it is (R575)
and the access fault of its load, and nothing is written. The width goes before the alignment, and both before the address
[log 77, the model's order]. R621, R629, R642: a pair not completed within its 64 CLK_PER cycles, which can have passed [log
110], is discarded and sets GUARD_ERR with its address, a low word not completed so is discarded; SYS_SVC takes the device
into the service state and out of it. -/
def Obligations.BusErrors : Prop :=
  (∀ (s : State) (r : Req) (addr : Nat) (bs : List Byte), s.mild frSys = true → s.later = [] →
      (∀ x, r = .core x → s.mild (frCore x.val) = true) →
      let own := match r with
        | .core x => reportRegs (frCore x.val)
        | _ => []
      let recorded := fun (t : State) (wr : Bool) (w c : Nat) =>
        t.rg sysBuserrAddrLo = addr % 4294967296 ∧ t.rg sysBuserrAddrHi = addr / 4294967296 % 128 ∧
        t.rg sysBuserrInfo = (reqCode r + 16 * b2n wr + 32 * w + 256 * c) % 4294967296 ∧
        bitOf (t.rg (fltOff frSys fltSts)) fsBusErr = true ∧
        (∀ x, r = .core x → bitOf (t.rg (fltOff (frCore x.val) fltSts)) fxBusFault = true ∧
          (wr = false → t.out = s.out ++ [.accessFault x.val false])) ∧
        (∀ o, o ∉ [sysBuserrAddrLo, sysBuserrAddrHi, sysBuserrInfo] ++ reportRegs frSys ++ own → t.rg o = s.rg o) ∧
        t.shadow = s.shadow ∧ t.chans = s.chans ∧ t.mem = s.mem
      (0x10000000 ≤ addr → addr < 0x1A000000 → bs.length ≠ 4 →
        ∃ t, exec (.registerWrite r addr bs) s = .next t ∧ recorded t true (widthCode bs.length) 1) ∧
      (0x10000000 ≤ addr → addr < 0x1A000000 → bs.length = 4 → addr % 4 ≠ 0 →
        ∃ t, exec (.registerWrite r addr bs) s = .next t ∧ recorded t true 2 2) ∧
      ∀ wr, ∃ t, exec (.accessTimeout r addr wr) s = .next t ∧ recorded t wr 2 7) ∧
  (∀ (s : State) (r : Req) (a : Acc) (h : Held),
      (s.guards.find? (fun h => decide (h.req = r) && s.windowOver h) = some h → s.mild frSys = true → s.later = [] →
        ∃ t, exec (.guardPairExpire r) s = .next t ∧ t.guards = s.guards.filter (· ≠ h) ∧ t.rg sysGuarderrAddr = h.off % 4294967296 ∧
          bitOf (t.rg (fltOff frSys fltSts)) fsGuardErr = true ∧
          (∀ o, o ∉ sysGuarderrAddr :: reportRegs frSys → t.rg o = s.rg o) ∧ t.chans = s.chans ∧ t.mem = s.mem) ∧
      (s.holds.find? (fun h => decide (h.req = r) && s.windowOver h) = some h →
        exec (.counterHoldExpire r) s = .next { s with holds := s.holds.filter (· ≠ h) }) ∧
      (s.mayWrite a sysSvc → s.unpaired a sysSvc = true → exec (.svcEnter a) s = .next (s.setRg sysSvcSts 1) ∧
        exec (.svcLeave a) s = .next (s.setRg sysSvcSts 0)))

/-- R625, R626, R645, R646: a write through the privileged view of a register of mark B, of class DAT or CTL, goes to its
shadow once the strobes that were told for cycles up to its own have captured [log 2], of a CTL register only the bits whose
mask bit is set, and changes no register in force; R626, R628, R645: one of a plain DAT or CNT register changes that register
alone, to the bits that can be written, of a CNT register after what counts in earlier cycles (a line that has risen has its
message before: R814); R644: an alias write in the service state is the write of the combined value, outside it a bus error
of cause ALIAS. R629, R630: a guarded register's value at A waits and changes nothing else; its complement at A + 4 from the
same requester then has the register's effect, another value, or a value at A + 4 with none pending, is discarded with
GUARD_ERR, as is a pending value when another is written to A. A command that is the pair of a guarded register discards a
pending value in the same way. -/
def Obligations.RegisterWrites : Prop :=
  (∀ (s : State) (r : Req) (o : Nat) (l : Loc) (row : RegRow) (i : Nat) (v : Word),
      locate o = some l → rowAt l = some (row, i) → o < 0x2000000 → o % 4 = 0 → s.mayWrite ⟨r, .priv⟩ o →
      let written := fun v : Word => exec (.registerWrite r (0x10000000 + o) (leBytes 4 v.toNat)) s
      let others := fun s t : State => (∀ p, p ≠ o → t.sh p = s.sh p) ∧ (∀ p, p ≠ o → p ∉ pbaRegs → t.rg p = s.rg p) ∧
        t.chans = s.chans ∧ t.mem = s.mem
      let u := (s.lineSee l).shMeets
      let c := (s.lineSee l).cntMeets
      (row.buf = true → u.injHit (voteFrame l) 5 none = false →
        (row.cls = .dat → row.wm ≠ 0 → ∃ t, written v = .next t ∧ t.sh o = v.toNat &&& row.wm ∧ t.rg o = u.rg o ∧ others u t) ∧
        (row.cls = .ctl → v.toNat / 65536 ≠ 0 → ∃ t, written v = .next t ∧ t.rg o = u.rg o ∧ others u t ∧
          ∀ k, bitOf (t.sh o) k = if k < 16 ∧ bitOf v.toNat (16 + k) = true ∧ bitOf row.wm k = true then bitOf v.toNat k
            else bitOf (u.sh o) k) ∧
        (row.cls = .ctl → v.toNat / 65536 = 0 → written v = .next (s.lineSee l))) ∧
      (row.cls = .dat → row.wm ≠ 0 → row.buf = false → row.cov = false → plainDat l = true → s.injHit (voteFrame l) 5 none = false →
        ∃ t, written v = .next t ∧ t.rg o = v.toNat &&& row.wm ∧ t.sh o = s.sh o ∧ others s t) ∧
      (row.cls = .cnt → l.grp ≠ .ch ∨ l.rel ∉ [chUnderrunTicks, chUnderrunTicks + 4, chRakeCnt] →
        ∃ t, written v = .next t ∧ t.rg o = v.toNat ∧ t.sh o = c.sh o ∧ others c t) ∧
      (row.cls = .dat → row.wm ≠ 0 →
        (∀ w : Word, s.svc = true → s.peek o = w.toNat →
          (∃ t, exec (.aliasSet r o v) s = .next t ∧ written (w ||| v) = .next t) ∧
          (∃ t, exec (.aliasClear r o v) s = .next t ∧ written (w &&& ~~~v) = .next t) ∧
          ∃ t, exec (.aliasToggle r o v) s = .next t ∧ written (w ^^^ v) = .next t) ∧
        (s.svc = false →
          exec (.aliasSet r o v) s = .next (s.busErr r true 2 (0x12000000 + o) 5) ∧
          exec (.aliasClear r o v) s = .next (s.busErr r true 2 (0x14000000 + o) 5) ∧
          exec (.aliasToggle r o v) s = .next (s.busErr r true 2 (0x16000000 + o) 5)))) ∧
  (∀ (s : State) (r : Req) (o : Nat) (l : Loc) (row : RegRow) (i : Nat) (v w : Word),
      locate o = some l → rowAt l = some (row, i) → o < 0x2000000 → o % 4 = 0 → row.cls = .grd → l.rel = row.off →
      s.mayWrite ⟨r, .priv⟩ o → s.mayWrite ⟨r, .priv⟩ (o + 4) →
      let first := fun (u : State) => exec (.registerWrite r (0x10000000 + o) (leBytes 4 v.toNat)) u
      let second := fun (u : State) => exec (.registerWrite r (0x10000000 + (o + 4)) (leBytes 4 w.toNat)) u
      let wait : Held := { req := r, off := o, val := v }
      (s.unpaired ⟨r, .priv⟩ o = true →
        first s = .next { s with guards := s.guards ++ [wait] } ∧
        second s = .next (s.guardErr o) ∧
        second { s with guards := s.guards ++ [wait] } = .next (if w = ~~~v then s.grdAct l v.toNat else s.guardErr o)) ∧
      (s.unpaired ⟨r, .priv⟩ o = false → s.mild frSys = true → s.later = [] →
        ∃ t, first s = .next t ∧ bitOf (t.rg (fltOff frSys fltSts)) fsGuardErr = true ∧ t.rg sysGuarderrAddr = o ∧
          (∀ p, p ∉ sysGuarderrAddr :: reportRegs frSys → t.rg p = s.rg p) ∧ t.chans = s.chans ∧ t.mem = s.mem ∧
          t.guards = (s.guards.filter fun h => !(decide (h.req = r) && decide (h.off = o))) ++ [wait]) ∧
      ((o = sysSvc → v = 1 → w = ~~~v → s.unpaired ⟨r, .priv⟩ o = true →
        second { s with guards := s.guards ++ [wait] } = exec (.svcEnter ⟨r, .priv⟩) s) ∧
      ∀ n : ChanId, o = cmpOff n.val cmpClrel → s.unpaired ⟨r, .priv⟩ o = false → s.mild frSys = true → s.later = [] →
        ∃ t, exec (.clampReleaseKey ⟨r, .priv⟩ n) s = .next t ∧ t.unpaired ⟨r, .priv⟩ o = true ∧
          bitOf (t.rg (fltOff frSys fltSts)) fsGuardErr = true))

/-- R609 to R611: a write of an address without a register is a bus error of cause UNMAPPED; a write through the privileged
view by a core other than C0 and C1, and one of a privileged or guarded register through the unprivileged view, are bus
errors of cause VIEW, whatever the value. UNMAPPED goes before VIEW, and VIEW before the causes that follow it [log 77, the
model's order]. -/
def Obligations.AccessRights : Prop :=
  ∀ (s : State) (r : Req) (o : Nat) (v : Word), o < 0x2000000 → o % 4 = 0 →
    let w := fun base : Nat => exec (.registerWrite r (base + o) (leBytes 4 v.toNat)) s
    (locate o = none → w 0x10000000 = .next (s.busErr r true 2 (0x10000000 + o) 3) ∧
      w 0x18000000 = .next (s.busErr r true 2 (0x18000000 + o) 3)) ∧
    (∀ l row, locate o = some l → rowAt l = some row →
      (privCore r = false → w 0x10000000 = .next (s.busErr r true 2 (0x10000000 + o) 4)) ∧
      (l.grp ≠ .evc → l.grp ≠ .brm → row.1.priv = true ∨ row.1.cls = .grd →
        w 0x18000000 = .next (s.busErr r true 2 (0x18000000 + o) 4)))

/-- R637, R638: SEL names a set and begins a pass over it, whose end stores the CRC of the set's working copy; UNCOMMIT of a
committed set uncommits it and no other. R88, R639, R640: COMMIT takes the set and its reference and runs; at its end an
uncommitted set whose working copy has the reference as its CRC, and whose contents obey R88 for a channel, is committed with
DONE; otherwise the set's number and the reason stand in SYS_CFGCRC_FAIL with FAIL, and the set and every register in force
stay (set 65, whose end comes after the events of the cycles before it, apart). R641: a scan in which every committed set in
force has its reference as its CRC leaves everything but the causes of the mismatch sources; a single committed set without
it reports its source and goes on being committed. -/
def Obligations.CoveredSets : Prop :=
  (∀ (s : State) (a : Acc) (k : BitVec 7),
      (s.mayWrite a sysCfgcrcSel →
        ∃ t, exec (.cfgcrcSelWrite a k) s = .next t ∧ t.crcSel = k.toNat ∧ t.crc = { s.crc with pass := true } ∧
          (∀ o, o ≠ sysCfgcrcSel → t.rg o = s.rg o)) ∧
      (s.crc.pass = true → s.crcSel < 67 → s.voteErr = [] →
        ∃ t, exec .crcPassDone s = .next t ∧ t.rg sysCfgcrcNow = s.crcWork s.crcSel ∧ t.rg sysCfgcrcStat = 2 ∧ t.crc.pass = false ∧
          ∀ o, o ≠ sysCfgcrcNow → o ≠ sysCfgcrcStat → t.rg o = s.rg o) ∧
      (s.mayWrite a sysCfgcrcCmd → s.crcSel < 67 → s.committed s.crcSel = true →
        ∃ t, exec (.uncommit a) s = .next t ∧ t.committed s.crcSel = false ∧ (∀ j, j ≠ s.crcSel → t.committed j = s.committed j) ∧
          t.regs = s.regs ∧ t.chans = s.chans ∧ t.mem = s.mem) ∧
      (s.mayWrite a sysCfgcrcCmd → s.crcSel < 67 → s.committed s.crcSel = false → exec (.uncommit a) s = .next s)) ∧
  (∀ (s : State) (a : Acc),
      (s.mayWrite a sysCfgcrcCmd → s.crc.run = none →
        exec (.commit a) s = .next { s with crc := { s.crc with run := some (s.crcSel, s.refRead s.crcSel) } }) ∧
      ∀ k ref, s.crc.run = some (k, ref) → s.voteErr = [] →
        (k ≠ 65 → s.commitReason k ref ≠ 0 →
          exec .commitDone s = .next ((State.setRg { s with crc := { s.crc with run := none } }
            sysCfgcrcFail (k + 256 * s.commitReason k ref)).flag sysCfgcrcFlags 2)) ∧
        (k < 64 → s.committed k = false → ref = s.crcWork k → s.safeReason k = 0 →
          ∃ t, exec .commitDone s = .next t ∧ t.committed k = true ∧ t.refOf k = ref ∧ t.crc.run = none ∧
            bitOf (t.rg sysCfgcrcFlags) 0 = true ∧ (∀ o, o ≠ sysCfgcrcFlags → t.rg o = s.rg o) ∧
            (∀ n, t.ch n = s.ch n) ∧ ∀ b, t.byte b = s.byte b)) ∧
  (∀ (s : State), s.crc.late = [] → (∀ k, k < 67 → s.injHit (crcSource k).1 6 none = false) →
      ((∀ k, k < 67 → s.committed k = true → s.crcForce k = s.refOf k) →
        ∃ t, exec .cfgCrcScan s = .next t ∧ t.regs = s.regs ∧ t.chans = s.chans ∧ t.mem = s.mem ∧ t.crc = s.crc) ∧
      ∀ k, k < 67 → s.committed k = true → (∀ j, j < 67 → j ≠ k → s.committed j = false) → s.crcForce k ≠ s.refOf k →
        s.mild (crcSource k).1 = true → s.later = [] → s.causes.contains ((crcSource k).1 * 32 + (crcSource k).2) = false →
        ∃ t, exec .cfgCrcScan s = .next t ∧ bitOf (t.rg (fltOff (crcSource k).1 fltSts)) (crcSource k).2 = true ∧
          t.committed k = true ∧ (∀ n, t.ch n = s.ch n) ∧ ∀ b, t.byte b = s.byte b)

/-- R142, R647 to R652: UPD_GO, whatever groups it names, comes after what was told for earlier cycles [log 2], together with
the tasks of its own cycle, and leaves each group with a waiting strobe or with REJECTED set, unless the group latched
another in the same cycle, with which it makes one strobe, counted in SYS_UPD_MERGES; the strobes of the other groups stay. A
strobe without a failure waits, with the shadows it captured, for boundary A of its group; one that fails a check, or comes
while another waits, is rejected with REJECTED and its reason. No register in force changes but those of the rejections and
the count. R43, R177, R650: the tick's own happenings over, a strobe that waits is applied at its boundary A where no unit of
it is fenced and no SWAP meets a hardware swap: every captured value comes into force at once (SWAP and PRESET are requests
and are not stored; a shadow that b does not list was captured at its reset value), and the strobe is counted; otherwise it
is rejected there. Before its boundary it waits on. -/
def Obligations.UpdateGroups : Prop :=
  (∀ (s : State) (a : Acc), s.mayWrite a sysUpdCtl →
      let z := s.at_ s.wcyc
      let u := s.catchHold z
      let merges := fun g => tget (fun _ => none) u.updAt g = some z
      (∀ v : BitVec 8, ∃ t, exec (.updGo a v) s = .next t ∧ t.mem = u.mem ∧ t.updDue = [] ∧
        (∀ g, g < 8 → bitOf v.toNat g = true ∨ u.updDue.contains g = true →
          (t.strobe g).isSome = true ∨ bitOf (t.rg (updOff g updSts)) 1 = true ∨ merges g) ∧
        (∀ g, (bitOf v.toNat g = false ∧ u.updDue.contains g = false) ∨ (u.strobe g).isSome = true → t.strobe g = u.strobe g) ∧
        ∀ o, (∀ g, g < 8 → o ∉ [updOff g updSts, updOff g updRej, updOff g updRes]) → o ≠ sysUpdMerges → t.rg o = u.rg o) ∧
      (∀ g : GroupId, u.updDue = [g.val] → ¬ merges g.val →
        ∃ t, exec (.updGo a (BitVec.ofNat 8 (2 ^ g.val))) s = .next t ∧ t.rg sysUpdMerges = holdAdd (u.rg sysUpdMerges) 1) ∧
      ∀ g : GroupId, u.updDue = [] →
        let w := { u with updAt := tput (fun _ => none) u.updAt g.val (some z) }
        let vals := w.capture g.val
        let cmd : Instr := .updGo a (BitVec.ofNat 8 (2 ^ g.val))
        (merges g.val → exec cmd s = .next ((u.count sysUpdMerges).passed s.wcyc)) ∧
        (¬ merges g.val → (w.strobe g.val).isSome = true →
          ∃ t, exec cmd s = .next t ∧ bitOf (t.rg (updOff g.val updSts)) 1 = true ∧ t.rg (updOff g.val updRej) = 12 ∧
            t.strobes = w.strobes ∧ t.chans = w.chans ∧ t.mem = w.mem) ∧
        (¬ merges g.val → w.strobe g.val = none → firstFail (w.strobeFails g.val vals) = none →
          ∃ t b, exec cmd s = .next t ∧ t.strobe g.val = some b ∧ b.vals = vals ∧ b.at_ = w.boundaryA (w.groupChans g.val) ∧
            b.mine = w.groupChans g.val ∧ t.regs = w.regs ∧ t.shadow = w.shadow ∧ t.mem = w.mem) ∧
        (∀ f, ¬ merges g.val → w.strobe g.val = none → firstFail (w.strobeFails g.val vals) = some f →
          ∃ t, exec cmd s = .next t ∧ bitOf (t.rg (updOff g.val updSts)) 1 = true ∧
            t.rg (updOff g.val updRej) = rejWord f % 4294967296 ∧ t.strobe g.val = none ∧ t.chans = w.chans ∧ t.mem = w.mem)) ∧
  (∀ (s : State) (g : GroupId) (b : Strobe),
      let u := s.settleTick
      let v := u.setStrobe g.val none
      let fails := v.fencedFails b.mine b.units ++ v.bankBusy b.mine b.vals
      let caps := v.captured b
      u.strobe g.val = some b →
      (u.tick + 1 < b.at_ → exec (.strobeApply g) s = .next u) ∧
      (∀ f, b.at_ ≤ u.tick + 1 → firstFail fails = some f → ∃ t, exec (.strobeApply g) s = .next t ∧ t.strobe g.val = none ∧
        bitOf (t.rg (updOff g.val updSts)) 1 = true ∧ t.rg (updOff g.val updRej) = rejWord f % 4294967296 ∧
        ∀ o, o ∉ [updOff g.val updSts, updOff g.val updRej, updOff g.val updRes] → t.rg o = u.rg o) ∧
      (b.at_ ≤ u.tick + 1 → firstFail fails = none → (caps.map (·.1)).Nodup →
        (∀ p ∈ caps, p.1 ∉ [updOff g.val updSts, updOff g.val updApplied]) →
        ∃ t, exec (.strobeApply g) s = .next t ∧ t.strobe g.val = none ∧
          (∀ p ∈ caps, (∀ n, n < 64 → p.1 ≠ chOff n chBank ∧ p.1 ≠ chOff n chNcoCtl) → t.rg p.1 = p.2.toNat) ∧
          (∀ p ∈ caps, ∀ n, n < 64 → (p.1 = chOff n chBank → t.rg p.1 = p.2.toNat % 16) ∧
            (p.1 = chOff n chNcoCtl → t.rg p.1 = p.2.toNat % 2)) ∧
          bitOf (t.rg (updOff g.val updSts)) 0 = true ∧
          t.rg (updOff g.val updApplied) = wrapAdd (u.rg (updOff g.val updApplied)) 1 ∧
          (∀ o, o ∉ caps.map (·.1) → o ∉ [updOff g.val updSts, updOff g.val updApplied] → t.rg o = u.rg o) ∧
          (∀ n, n ∉ b.mine → t.ch n = u.ch n) ∧ ∀ a, t.byte a = u.byte a))

/-- R156, R164, R165, R271, R310, R524: a write into a coefficient set that is not protected stores its bytes and clears the
set's valid bit; into a protected one it is a bus error of cause PROTECTED and stores nothing. A write into a descriptor
table while every Rake is stopped stores its bytes and clears SEGTAB_OK, one into a calibration object's copy that is not in
use stores its bytes. -/
def Obligations.MemoryAreas : Prop :=
  ∀ (s : State) (r : Req) (bs : List Byte), bs.length = 1 ∨ bs.length = 2 ∨ bs.length = 4 ∨ bs.length = 8 →
    s.memUE = [] → s.memCE = [] → s.injHit 17 1 none = false →
    let stored := fun (t : State) (a : Nat) => t.bytes a bs.length = bs ∧ t.regs = s.regs ∧
      ∀ b, b < a ∨ a + bs.length ≤ b → t.byte b = s.byte b
    (∀ (n : ChanId) (k : SetId) (off : BitVec 10), off.toNat + bs.length ≤ 1024 → off.toNat % bs.length = 0 →
      (s.setProt n.val k.val = false →
        ∃ t, exec (.coefSetWrite r n k off bs) s = .next t ∧ stored t (setAddr n.val k.val + off.toNat) ∧
          t.setValid n.val k.val = false ∧ ∀ m, m ≠ n.val → t.ch m = s.ch m) ∧
      (s.setProt n.val k.val = true →
        exec (.coefSetWrite r n k off bs) s = .next ((s.cflag n.val chSetSts 4).busErr r true (widthCode bs.length)
          (setAddr n.val k.val + off.toNat) 8))) ∧
    (∀ (n : ChanId) (off : Nat),
      let a := s.rakeAddr n.val (bitsOf (s.cr n.val chRakeSegtab) 21 0) + off
      a + bs.length ≤ 0x4000000 → a % bs.length = 0 → s.tableHit n.val a bs.length = true → 
      (∀ m, (s.ch m).rake.st = .stopped) →
      ∃ t, exec (.descriptorTableWrite r n off bs) s = .next t ∧ stored t a ∧ (t.ch n.val).rake.segOk = false) ∧
    (∀ addr, 0x5100000 ≤ addr → addr + bs.length ≤ 0x5324000 → addr % bs.length = 0 → memPriv r = true → s.calProt addr = false →
      ∃ t, exec (.calObjectWrite r addr bs) s = .next t ∧ stored t addr ∧ (∀ n, t.ch n = s.ch n)) ∧
    (∀ addr, 0x5100000 ≤ addr → addr + bs.length ≤ 0x5324000 → addr % bs.length = 0 → memPriv r = false →
      exec (.calObjectWrite r addr bs) s = .next (s.busErr r true (widthCode bs.length) addr 4))

/-- R573, R659, R662, R664 to R666, R677: after power-on, an accepted RESET_N pulse or a software chip reset every register
reads its reset value but SYS_RST_CAUSE, which names the cause (0, 1, 2), the trim-load counts, which only power-on clears,
and SYS_FLT_RSTSRC; every tile is held, no base tick runs, and without a firmware update in progress the memory contents stay
(log 20, the model's choice). -/
def Obligations.ChipReset : Prop :=
  ∀ (s : State) (a : Acc),
    let fresh := fun (t : State) (cause : Nat) => t.rg sysRstCause = cause ∧
      (∀ o, o ≠ sysRstCause → o ≠ fltOff frSys fltSysFltRstsrc → (cause = 0 ∨ o < sysTrimLoads ∨ sysTrimLoads + 20 ≤ o) →
        t.rg o = (regReset o).toNat) ∧
      t.chans = [] ∧ t.running = false ∧ t.held = 15 ∧ t.boot.phase = 0 ∧ (s.cpu.upd = none → t.mem = s.mem) ∧ t.pending = s.pending
    (∃ t, exec .powerOnReset s = .next t ∧ fresh t 0) ∧
    (s.boot.phase = 2 → ∃ t, exec .resetPin s = .next t ∧ fresh t 1 ∧
      ∀ d, d < 5 → t.rg (sysTrimLoads + 4 * d) = s.rg (sysTrimLoads + 4 * d)) ∧
    (s.boot.phase ≠ 2 → exec .resetPin s = .next s) ∧
    (s.mayWrite a sysChiprst → s.unpaired a sysChiprst = true → ∃ t, exec (.sysChiprst a) s = .next t ∧ fresh t 2 ∧ t.rg (fltOff frSys fltSysFltRstsrc) = 0)

/-- R661, R663, R667, R669, R670, R675 to R678: the drive of RESET_N ends, the sequence starts with the strap's measurement,
whose mean gives SYS_STRAP and begins a load of every die; a load that passes is recorded, one that fails is tried again up
to three times; the lock of the root PLL ends step 3, and its restart changes nothing. -/
def Obligations.ResetSequence : Prop :=
  ∀ (s : State),
    (s.boot.phase = 0 → exec .resetDriveEnd s = .next { s with boot := { s.boot with phase := 1 } }) ∧
    (s.boot.phase = 1 → ∃ t, exec .sequenceStart s = .next t ∧ t.stageNo = 1 ∧ t.boot = { phase := 2 } ∧ t.chans = s.chans ∧ t.mem = s.mem) ∧
    (∀ sum, s.boot.phase = 2 → s.stageNo = 1 →
      ∃ t, exec (.strapMeasured sum) s = .next t ∧ t.rg sysStrap = strapWord (min 255 (sum / 64)) % 4294967296 ∧ t.stageNo = 2 ∧
        (∀ d, d < 5 → t.rg (sysTrimLoads + 4 * d) = holdAdd (s.rg (sysTrimLoads + 4 * d)) 1 ∧ t.trimResult d = 0) ∧
        t.chans = s.chans ∧ t.mem = s.mem) ∧
    (∀ (d : DieId) (img : TrimImage), s.boot.phase = 2 → s.stageNo = 2 → s.trimResult d.val = 0 →
      (∃ t, exec (.trimLoadDone d true img) s = .next t ∧ t.trimResult d.val = 1 ∧
        (∀ j, j < 5 → j ≠ d.val → t.trimResult j = s.trimResult j) ∧
        (1 ≤ d.val → t.rg (tileOff (d.val - 1) tilePipRsrc) = img.rsrc.toNat) ∧ t.chans = s.chans) ∧
      (tget (fun _ => 0) s.boot.tries d.val < 3 →
        ∃ t, exec (.trimLoadDone d false img) s = .next t ∧ t.trimResult d.val = 0 ∧
          t.rg (sysTrimLoads + 4 * d.val) = holdAdd (s.rg (sysTrimLoads + 4 * d.val)) 1 ∧ t.stageNo = 2 ∧
          t.chans = s.chans ∧ t.mem = s.mem) ∧
      (3 ≤ tget (fun _ => 0) s.boot.tries d.val → d.val = 0 →
        ∃ t, exec (.trimLoadDone d false img) s = .next t ∧ t.trimResult 0 = 2 ∧ t.stageNo = 2 ∧
          t.rgBit sysRstSts 23 = true ∧ t.chans = s.chans ∧ t.mem = s.mem)) ∧
    (s.boot.phase = 2 → s.stageNo = 3 →
      ∃ t, exec .pllLock s = .next t ∧ t.stageNo = 4 ∧ t.rgBit sysClkSts 0 = true ∧ t.clkWait 0 = true ∧ t.chans = s.chans ∧
        t.mem = s.mem) ∧
    exec .pllLockRetry s = .next s

/-- R679 to R682, R727: the domains are released in order, the ports that the strap enables going DOWN, C0 running and the
other cores halted; the first released tile begins base tick 0. A tile whose qualifier times out is held, with CLK_QUAL; a
port or a DDR5 channel is fenced, with its link source, and what the DDR5 channel held is lost [log 72]; the PCI Express PHY
is held in reset, with LINK_DOWN. -/
def Obligations.DomainRelease : Prop :=
  ∀ (s : State), s.boot.phase = 2 → 4 ≤ s.stageNo →
    (s.rel 0 = false → ∃ t, exec (.domainRelease .serdes) s = .next t ∧ t.rel 0 = true ∧ t.clkWait 0 = false ∧ t.clkWait 1 = true ∧
      (∀ p, p < 4 → bitOf s.boot.ports p = true → s.portSt p = 0 → t.portSt p = 1) ∧ t.chans = s.chans ∧ t.mem = s.mem) ∧
    (s.rel 1 = false → s.rel 0 = true → ∃ t, exec (.domainRelease .memory) s = .next t ∧ t.rel 1 = true ∧ t.clkWait 1 = false ∧
      t.clkWait 2 = true ∧ t.chans = s.chans ∧ t.mem = s.mem) ∧
    (s.rel 2 = false → s.rel 1 = true → ∃ t, exec (.domainRelease .cores) s = .next t ∧ t.rel 2 = true ∧ t.coreSt 0 = 1 ∧
      (∀ x, 1 ≤ x → x < 8 → t.coreSt x = 3) ∧ t.chans = s.chans ∧ t.mem = s.mem) ∧
    (∀ k : TileId, s.rel 2 = true → s.tileReady k.val = true →
      ∃ t, exec (.domainRelease (.tiles (BitVec.ofNat 4 (2 ^ k.val)))) s = .next t ∧ bitOf t.held.toNat k.val = false ∧
        (∀ j, j < 4 → j ≠ k.val → bitOf t.held.toNat j = bitOf s.held.toNat j) ∧ t.rel (3 + k.val) = true ∧ t.running = true ∧
        (s.running = false → t.tick = 0) ∧ t.mem = s.mem) ∧
    (∀ k : TileId, s.clkWait (3 + k.val) = true → s.mild (frTile k.val) = true → s.later = [] →
      s.causes.contains (frTile k.val * 32 + ftClkQual) = false →
      ∃ t, exec (.qualifierTimeout (.tile k)) s = .next t ∧ t.clkWait (3 + k.val) = false ∧ t.rgBit sysRstSts (18 + k.val) = true ∧
        bitOf (t.rg (fltOff (frTile k.val) fltSts)) ftClkQual = true ∧ t.chans = s.chans ∧ t.mem = s.mem) ∧
    (∀ p : PortId, bitOf s.boot.ports p.val = true → s.clkWait 0 = true → s.portSt p.val ≠ 3 → s.isFenced (unPort p.val) = false →
      s.mild frFab = true → s.later = [] →
      ∃ t, exec (.qualifierTimeout (.port p)) s = .next t ∧ t.isFenced (unPort p.val) = true ∧ t.portSt p.val = 4 ∧
        bitOf (t.rg (fltOff frFab fltSts)) (ffLink p.val) = true ∧ t.chans = s.chans ∧ t.mem = s.mem) ∧
    (s.boot.pcie = true → s.clkWait 0 = true → s.mild frHost = true → s.later = [] → s.causes.contains (frHost * 32 + fhLinkDown) = false →
      ∃ t, exec (.qualifierTimeout .pcie) s = .next t ∧ t.boot.phyHeld = true ∧ bitOf (t.rg (fltOff frHost fltSts)) fhLinkDown = true ∧
        (∀ o, o ∉ reportRegs frHost → t.rg o = s.rg o) ∧ t.chans = s.chans ∧ t.mem = s.mem) ∧
    (∀ x : DdrId, s.clkWait 1 = true → s.isFenced (unDdr x.val) = false → s.mild frMemc = true → s.later = [] →
      ∃ t, exec (.qualifierTimeout (.ddr x)) s = .next t ∧ t.isFenced (unDdr x.val) = true ∧
        bitsOf (t.rg (ddrOff x.val memcDdrSts)) 2 0 = 5 ∧ t.chans = s.chans ∧
        ∀ b, t.byte b = if ddrBase + 137438953472 * x.val ≤ b ∧ b < ddrBase + 137438953472 * (x.val + 1) then 0 else s.byte b)

/-- R682 to R687: an image that verifies is kept for the jump, which C0 makes at the end of step 4 to the image's entry; one
that fails leaves its reason in SYS_BOOT_STS, and from a source other than the flash the boot waits; the doorbell in stage 5
or 7 begins a verification of the source it names and leaves stage 5 in SYS_RST_STS [log 70]. -/
def Obligations.ImageBoot : Prop :=
  ∀ (s : State),
    (∀ v flash, s.boot.busy = true → s.boot.src = 1 ∨ s.boot.src = 2 →
      (s.imageWhy bootStage 0x800000 v = 0 →
        exec (.imageVerified v flash) s = .next { s with boot := { s.boot with busy := false, ok := true, loader := {} } }) ∧
      (s.imageWhy bootStage 0x800000 v ≠ 0 →
        ∃ t, exec (.imageVerified v flash) s = .next t ∧ bitsOf (t.rg sysBootSts) 7 4 = s.imageWhy bootStage 0x800000 v ∧
          t.rgBit sysBootSts 3 = true ∧ t.boot.busy = false ∧ t.boot.loader.on = true ∧
          (s.stageNo = 5 → s.svcHold = false → t.stageNo = 7) ∧ t.chans = s.chans ∧ t.mem = s.mem)) ∧
    (∀ v flash, s.boot.busy = true → s.boot.src = 0 → (s.store bootStage flash).imageWhy bootStage 0x800000 v = 0 →
      ∃ t, exec (.imageVerified v flash) s = .next t ∧ t.boot.ok = true ∧ t.bytes bootStage flash.length = flash ∧
        (∀ b, b < bootStage ∨ bootStage + flash.length ≤ b → t.byte b = s.byte b) ∧ t.chans = s.chans) ∧
    (s.boot.ok = true → s.stageNo = 5 →
      ∃ t, exec .bootJump s = .next t ∧ t.stageNo = 6 ∧ t.boot.ok = false ∧
        t.out = s.out ++ [.start 0 (bootStage + s.w32 (bootStage + 12))] ∧ t.chans = s.chans ∧ t.mem = s.mem) ∧
    (s.boot.ok = false ∨ s.stageNo ≠ 5 → exec .bootJump s = .next s) ∧
    (∀ a : Acc, s.mayWrite a sysBootDoor → a.req = .host → s.boot.pcie = true → s.stageNo = 5 ∨ s.stageNo = 7 → s.boot.busy = false →
      s.boot.ok = false →
      (∃ t, exec (.sysBootDoor a 1) s = .next t ∧ t.boot.busy = true ∧ t.boot.src = 1 ∧ t.stageNo = 5 ∧ bitsOf (t.rg sysBootSts) 1 0 = 1 ∧
        t.chans = s.chans ∧ t.mem = s.mem) ∧
      ∀ v, v ≠ 1 → exec (.sysBootDoor a v) s = .next s)

/-- R689 to R692: a block reset of a unit that does not exist sets BAD_KEY, of a busy unit BUSY; an idle core restarts
halted, an idle port goes DOWN with its registers reset, an idle DDR5 controller's memory is lost and its STATE reads
NO_DEVICE, an idle tile is held in reset, its channels' outputs off, while its trim load runs again. In the cycle of a fence
of the unit [log 2] the fence's reset stands in for it. -/
def Obligations.BlockReset : Prop :=
  ∀ (s : State) (a : Acc) (key : Word), s.mayWrite a sysBlkrst → s.unpaired a sysBlkrst = true →
    let kind := bitsOf key.toNat 3 0
    let i := bitsOf key.toNat 9 4
    let idle := s.isFenced (blockUnit kind i) = true ∨ s.unitIdle kind i = true
    (blockCount kind ≤ i → exec (.blockReset a key) s = .next (s.flag sysBlkrstSts 4)) ∧
    (i < blockCount kind → ¬ idle →
      exec (.blockReset a key) s = .next ((s.setRg sysBlkrstLast (key.toNat % 1024)).flag sysBlkrstSts 2)) ∧
    (i < blockCount kind → s.isFenced (blockUnit kind i) = true → s.fencedNow (blockUnit kind i) = true →
      exec (.blockReset a key) s = .next ((s.setRg sysBlkrstLast (key.toNat % 1024)).flag sysBlkrstSts 1)) ∧
    (i < blockCount kind → idle → s.fencedNow (blockUnit kind i) = false → s.cpu.upd = none →
      ∃ t, exec (.blockReset a key) s = .next t ∧ t.rg sysBlkrstLast = key.toNat % 1024 ∧ bitOf (t.rg sysBlkrstSts) 0 = true ∧
        (kind = 1 → bitOf t.held.toNat i = true ∧ t.rel (3 + i) = false ∧ ∀ n, n < 64 → tileOf n = i → (t.ch n).outEn = false) ∧
        (kind = 2 → s.isFenced (unCore i) = false → t.coreSt i = 3 ∧ (∀ x, x < 8 → x ≠ i → t.coreSt x = s.coreSt x)) ∧
        (kind = 3 → s.isFenced (unPort i) = false → s.portSt i ≠ 0 → t.portSt i = 1 ∧ t.port i = {} ∧
          ∀ r ∈ [fabDelay, fabAsym, fabRetry, fabCrcerr, fabDrop], t.rg (fabOff (r + 4 * i)) = (regReset (fabOff (r + 4 * i))).toNat) ∧
        (kind = 4 → s.isFenced (unDdr i) = false → bitsOf (t.rg (ddrOff i memcDdrSts)) 2 0 = 0 ∧
          ∀ b, t.byte b = if ddrBase + 137438953472 * i ≤ b ∧ b < ddrBase + 137438953472 * (i + 1) then 0 else s.byte b) ∧
        (kind ≠ 1 → t.chans = s.chans) ∧ (kind ≠ 4 → t.mem = s.mem))

/-- R699 to R701: REF_SRC = 1 of a member whose link is in step takes the recovered clock and slews; the loss of the selected
reference is holdover with REFCLK_LOST, its return ends it, HOLD_TO in it, which can have passed [log 110], returns to
REFCLK; the loss of lock raises PLL_UNLOCK. R704, R705: a droop below the threshold throttles where it is enabled, is counted
and raises DROOP; when every sensor has read above for HOLD, which can have passed [log 110], the throttle is to end. -/
def Obligations.ReferenceAndThrottle : Prop :=
  (∀ (s : State) (a : Acc),
      let same := fun (t : State) => t.chans = s.chans ∧ t.mem = s.mem
      (s.mayWrite a sysClkCfg → s.isMember = true → bitOf (s.rg (fltOff frFab fltSts)) (ffSync s.upPort) = false →
        s.rgBit sysClkSts 1 = false →
        ∃ t, exec (.refSrc a) s = .next t ∧ t.rgBit sysClkCfg 0 = true ∧ t.rgBit sysClkSts 1 = true ∧ t.rgBit sysClkSts 3 = true ∧ same t) ∧
      (s.mayWrite a sysClkCfg → s.isMember = false → exec (.refSrc a) s = .next (s.flag sysPwrFlags 2)) ∧
      (s.boot.phase = 2 → s.mild frSys = true → s.later = [] → s.causes.contains (frSys * 32 + fsRefclkLost) = false →
        ∃ t, exec .refclkLost s = .next t ∧ t.rgBit sysClkSts 2 = true ∧ bitOf (t.rg (fltOff frSys fltSts)) fsRefclkLost = true ∧
          (∀ o, o ∉ sysClkSts :: reportRegs frSys → t.rg o = s.rg o) ∧ same t) ∧
      (∃ t, exec .refclkReturn s = .next t ∧ t.rgBit sysClkSts 2 = false ∧ t.causes.contains (frSys * 32 + fsRefclkLost) = false ∧ same t) ∧
      exec .slewingEnd s = .next (s.putRg sysClkSts 3 false) ∧
      (s.rgBit sysClkCfg 0 = true → s.rgBit sysClkSts 1 = true → s.rgBit sysClkSts 2 = true →
        s.canHaveLasted s.clk.hold (200000 * bitsOf (s.rg sysClkHoldto) 15 0) = true →
        ∃ t, exec .holdoverTimeout s = .next t ∧ t.rgBit sysClkSts 1 = false ∧ t.rgBit sysClkSts 2 = false ∧
          t.rgBit sysClkSts 3 = true ∧ same t) ∧
      (s.rgBit sysClkSts 0 = true → s.mild frSys = true → s.later = [] → s.causes.contains (frSys * 32 + fsPllUnlock) = false →
        ∃ t, exec .pllUnlock s = .next t ∧ t.rgBit sysClkSts 0 = false ∧ t.rgBit sysRstSts 22 = false ∧
          bitOf (t.rg (fltOff frSys fltSts)) fsPllUnlock = true ∧ (∀ o, o ∉ [sysClkSts, sysRstSts] ++ reportRegs frSys → t.rg o = s.rg o) ∧ same t)) ∧
  (∀ (s : State), s.voteErr = [] →
      (∀ below : BitVec 16, s.clocked = true → below ≠ 0 → bitsOf (s.rg sysDroopSts) 15 0 = 0 → s.mild frSys = true → s.later = [] →
        ∃ t, exec (.droop below) s = .next t ∧ bitsOf (t.rg sysDroopSts) 15 0 = below.toNat ∧
          t.clk.throttle = (s.clk.throttle || s.rgBit sysDroopCfg 4) ∧
          (s.clk.throttle = false → t.rg sysDroopCnt = holdAdd (s.rg sysDroopCnt) 1) ∧
          bitOf (t.rg (fltOff frSys fltSts)) fsDroop = true ∧
          (∀ o, o ∉ [sysDroopSts, sysDroopCnt] ++ reportRegs frSys → t.rg o = s.rg o) ∧ t.chans = s.chans ∧ t.mem = s.mem) ∧
      (s.canHaveLasted s.clk.quiet (2 * bitsOf (s.rg sysDroopCfg) 23 8) = true →
        ∃ t, exec .throttleEnd s = .next t ∧ bitsOf (t.rg sysDroopSts) 15 0 = 0 ∧
          (s.clk.throttle = true → t.clk = { s.clk with ending := true }) ∧ (s.clk.throttle = false → t.clk = s.clk) ∧
          t.chans = s.chans ∧ t.mem = s.mem))

/-- R709: a measurement stands in the temperature register of its site and raises TEMP_HI at and above its threshold; 5 °C
below it the cause ends. A supply or a tile's clock that leaves its window raises its source, and its return ends the cause. -/
def Obligations.Monitors : Prop :=
  ∀ (s : State) (k : TileId) (hot : BitVec 16), s.later = [] → s.voteErr = [] →
    let same := fun (t : State) => t.chans = s.chans ∧ t.mem = s.mem
    let f := frTile k.val
    (s.released k.val = true → s.mild f = true →
      ∃ t, exec (.tempMonitor (.tile k) hot) s = .next t ∧ t.rg (tileOff k.val tileTemp) = hot.toNat ∧
        ((bitsOf (s.rg (tileOff k.val tileThermTh)) 7 0 : Int) * 256 ≤ hot.toInt → s.causes.contains (f * 32 + ftTempHi) = false →
          bitOf (t.rg (fltOff f fltSts)) ftTempHi = true) ∧
        (hot.toInt < ((bitsOf (s.rg (tileOff k.val tileThermTh)) 7 0 : Int) - 5) * 256 →
          t.causes.contains (f * 32 + ftTempHi) = false) ∧ same t) ∧
    (s.clocked = true → s.mild frSys = true →
      ∃ t, exec (.tempMonitor .coreDie hot) s = .next t ∧ t.rg sysTemp = hot.toNat ∧
        ((bitsOf (s.rg sysThermTh) 15 8 : Int) * 256 ≤ hot.toInt → s.causes.contains (frSys * 32 + fsTempCrit) = false →
          bitOf (t.rg (fltOff frSys fltSts)) fsTempCrit = true) ∧ same t) ∧
    (s.released k.val = true → s.mild f = true → s.causes.contains (f * 32 + ftSupply) = false →
      ∃ t, exec (.supplyExcursion (.tile k) true) s = .next t ∧ bitOf (t.rg (fltOff f fltSts)) ftSupply = true ∧
        t.causes.contains (f * 32 + ftSupply) = true ∧ (∀ o, o ∉ reportRegs f → t.rg o = s.rg o) ∧ same t) ∧
    (s.released k.val = true → exec (.supplyExcursion (.tile k) false) s = .next (s.uncause f ftSupply)) ∧
    (s.clocked = true → s.mild frSys = true → s.causes.contains (frSys * 32 + fsCoreSupply) = false →
      ∃ t, exec (.supplyExcursion .core true) s = .next t ∧ bitOf (t.rg (fltOff frSys fltSts)) fsCoreSupply = true ∧
        (∀ o, o ∉ reportRegs frSys → t.rg o = s.rg o) ∧ same t) ∧
    (s.mild f = true → s.causes.contains (f * 32 + ftClkQual) = false →
      ∃ t, exec (.clkQual k true) s = .next t ∧ bitOf (t.rg (fltOff f fltSts)) ftClkQual = true ∧
        (∀ o, o ∉ reportRegs f → t.rg o = s.rg o) ∧ same t) ∧
    exec (.clkQual k false) s = .next (s.uncause f ftClkQual)

/-- R711 to R713: STANDBY is refused unless every tile is quiet, and otherwise begins TO_STANDBY, whose end is STANDBY with
C2 to C7 gated; RUN in STANDBY begins TO_RUN, whose end is RUN; in STANDBY a DDR5 channel rests that can have been without
access for 10 µs [log 110]. R714: SLEEP puts a quiet tile that is on to sleep and is refused of a busy or kept one; WAKE of a
sleeping tile begins WAKING, whose end is ON. -/
def Obligations.PowerStates : Prop :=
  (∀ (s : State) (a : Acc),
      let same := fun (t : State) => t.chans = s.chans ∧ t.mem = s.mem
      (s.mayWrite a sysPwrCtl → s.mayStandby = true → ∃ t, exec (.standby a) s = .next t ∧ t.pwrSt = 1 ∧
        (∀ x, x < 2 → bitsOf (s.rg (ddrOff x memcDdrSts)) 2 0 = 2 → bitsOf (t.rg (ddrOff x memcDdrSts)) 2 0 = 3) ∧ same t) ∧
      (s.mayWrite a sysPwrCtl → s.mayStandby = false → exec (.standby a) s = .next (s.flag sysPwrFlags 1)) ∧
      (s.pwrSt = 1 → s.clk.wakeChans = [] → s.clk.wakeCores = [] → ∃ t, exec .standbyReached s = .next t ∧ t.pwrSt = 2 ∧
        (∀ x, 2 ≤ x → x < 8 → s.coreSt x = 1 ∨ s.coreSt x = 2 ∨ s.coreSt x = 3 → t.coreSt x = 4) ∧ same t) ∧
      (s.mayWrite a sysPwrCtl → s.pwrSt ≠ 2 → exec (.run a) s = .next s) ∧
      (s.mayWrite a sysPwrCtl → s.pwrSt = 2 → ∃ t, exec (.run a) s = .next t ∧ t.pwrSt = 3 ∧ same t) ∧
      (s.pwrSt = 3 → ∃ t, exec .runReached s = .next t ∧ t.pwrSt = 0 ∧ same t) ∧
      ∀ x : DdrId, s.pwrSt = 2 → bitsOf (s.rg (ddrOff x.val memcDdrSts)) 2 0 = 2 →
        s.canHaveLasted (s.ddrAge x.val) 2000 = true →
        ∃ t, exec (.ddrSelfRefresh x) s = .next t ∧ bitsOf (t.rg (ddrOff x.val memcDdrSts)) 2 0 = 3 ∧ same t) ∧
  (∀ (s : State) (a : Acc) (k : TileId),
      let st := tileOff k.val tilePwrSts
      let may := s.keepOn k.val = false ∧ s.tileQuiet k.val = true ∧ s.pscsIdle k.val = true
      (s.mayWrite a (tileOff k.val tilePwrCtl) →
        (may → s.tileOn k.val = true → exec (.sleep a k) s = .next (s.setRg st 1)) ∧
        (¬ may → exec (.sleep a k) s = .next (s.flag sysPwrFlags 1)) ∧
        (bitsOf (s.rg st) 1 0 = 1 → exec (.wake a k) s = .next (s.setRg st 2)) ∧
        (bitsOf (s.rg st) 1 0 ≠ 1 → exec (.wake a k) s = .next s)) ∧
      (bitsOf (s.rg st) 1 0 = 2 → exec (.tileOn k) s = .next (s.setRg st 0)))

/-- R727, R728: a DOWN port starts training, a port that trains goes UP with its delay in FAB_DELAY, or DOWN after the
timeout, which can have passed [log 110]; a retrain and a loss of block lock take an UP or a training port DOWN and do
nothing else to another. R734, R735: ACK ends the wait of its frame; NAK, or no answer in time, sends the frame and those
sent after it again, in order and with their sequence numbers, but for those that have had three attempts, and counts them in
FAB_RETRY; after the third attempt, or where another cannot end in time, the port goes DOWN. That frames already acknowledged
follow again is log 146. R730, R732, R736 to R738: a frame whose end marker is invalid is discarded and counted; one for
another node is acknowledged and goes out of the port that its route names, one link further, or is discarded and counted
once it has made 63. -/
def Obligations.FabricPorts : Prop :=
  (∀ (s : State) (a : Acc) (p : PortId) (d : Word),
      let same := fun (t : State) => (∀ q, q < 4 → q ≠ p.val → t.portSt q = s.portSt q) ∧ t.chans = s.chans
      (s.portSt p.val = 1 → exec (.portTrainStart p) s = .next ((s.setPort p.val { s.port p.val with train := 0 }).setPortSt p.val 2)) ∧
      (s.portSt p.val = 2 → ∃ t, exec (.portUp p d) s = .next t ∧ t.portSt p.val = 3 ∧ t.rg (fabOff (fabDelay + 4 * p.val)) = d.toNat ∧
        bitOf (t.rg (fabOff fabFlags)) p.val = true ∧ same t ∧ t.mem = s.mem ∧
        ∀ o, o ∉ [fabOff fabPortSts, fabOff (fabDelay + 4 * p.val), fabOff fabFlags, fltOff frFab fltInj] → t.rg o = s.rg o) ∧
      (s.portSt p.val ≠ 2 → exec (.portUp p d) s = .next s) ∧
      (s.portSt p.val = 2 →
        exec (.trainingTimeout p) s = .next (if s.canHaveLasted (s.port p.val).train 100000000 then s.setPortSt p.val 1 else s)) ∧
      (s.mild frFab = true → s.mild frMemc = true → s.later = [] → s.portSt p.val = 2 ∨ s.portSt p.val = 3 →
        (s.mayWrite a (fabOff fabPortCtl) → ∃ t, exec (.retrain a p) s = .next t ∧ t.portSt p.val = 1 ∧ same t) ∧
        ∃ t, exec (.blockLockLoss p) s = .next t ∧ t.portSt p.val = 1 ∧ same t) ∧
      (s.portSt p.val ≠ 2 → s.portSt p.val ≠ 3 → exec (.blockLockLoss p) s = .next s)) ∧
  (∀ (s : State) (p : PortId) (x : Sent) (l : List Sent) (room : Bool),
      let v := s.port p.val
      (∀ q : BitVec 8, ∃ t, exec (.ack p q) s = .next t ∧ t = s.setPort p.val { v with sent := (t.port p.val).sent } ∧
        (t.port p.val).sent.filter (!·.acked) = v.sent.filter (fun y => !y.acked && decide (y.lseq ≠ q.toNat))) ∧
      (v.sent = x :: l → x.acked = false → x.lseq < 256 → s.injHit 15 4 (some p.val) = false →
        let again := (x :: l).filter fun y => decide (y.tries < 3)
        let tried := (x :: l).map fun y => if y.tries < 3 then { y with tries := y.tries + 1, acked := false } else y
        let u := { (s.setPort p.val { v with sent := tried }).count (fabOff (fabRetry + 4 * p.val)) again.length with
          out := s.out ++ again.map fun y => frameOut p.val y.lseq y.frame }
        (x.tries < 3 → exec (.nak p (BitVec.ofNat 8 x.lseq) true) s = .next u ∧ exec (.retryTimeout p true) s = .next u) ∧
        (3 ≤ x.tries ∨ room = false → s.portSt p.val = 3 → s.mild frFab = true → s.mild frMemc = true → s.later = [] →
          (∃ t, exec (.nak p (BitVec.ofNat 8 x.lseq) room) s = .next t ∧ t.portSt p.val = 1 ∧ t.chans = s.chans) ∧
          ∃ t, exec (.retryTimeout p room) s = .next t ∧ t.portSt p.val = 1 ∧ t.chans = s.chans)) ∧
      (v.sent = [] → exec (.retryTimeout p room) s = .next s)) ∧
  (∀ (s : State) (rx : Rx), s.portSt rx.port.val = 3 →
      (rx.endOk = false → exec (.frameForward rx) s = .next (s.drop rx.port.val)) ∧
      (rx.endOk = true → crcHolds rx = true → s.assigned = true → rx.frame.typ = 10 → rx.frame.dst.toNat ≠ s.addr →
        let e := s.egress rx.frame.dst.toNat
        let f := { rx.frame with hops := rx.frame.hops + 1 }
        e < 4 → s.portSt e = 3 → s.injHit 15 4 (some e) = false →
        (rx.frame.hops = 63 → exec (.frameForward rx) s =
          .next (State.drop { s with out := s.out ++ [.ctrl rx.port.val false rx.lseq.toNat] } rx.port.val)) ∧
        (rx.frame.hops ≠ 63 → exec (.frameForward rx) s = .next (State.setPort { s with out := s.out ++ [.ctrl rx.port.val false rx.lseq.toNat,
            frameOut e (s.port e).lseq f] } e
          { s.port e with lseq := ((s.port e).lseq + 1) % 256, sent := (s.port e).sent ++ [{ frame := f, lseq := (s.port e).lseq, tries := 1 }] }))))

/-- R731, R739, R747, R748: a good READ or WRITE of one word of a core's memory, without an error in it, is made at its
target and answered with status 0 and four bytes done, the READ with the word; a privileged one from a source that is not
trusted is answered with DENIED and makes no access; a broadcast write is made and not answered. R749: a READ that does not
complete in time waits. -/
def Obligations.RemoteAccess : Prop :=
  ∀ (s : State) (rx : Rx), s.portSt rx.port.val = 3 → rx.endOk = true → crcHolds rx = true → s.assigned = true →
    let f := rx.frame
    let a := frameAddr f
    let e := s.egress f.src.toNat
    let acked := s.out ++ [.ctrl rx.port.val false rx.lseq.toNat]
    let replies := fun (t : State) (status done : Nat) (data : List Byte) =>
      t.out = acked ++ [frameOut e (s.port e).lseq (replyFrame s.addr f.src.toNat f.tag.toNat status 0 done data)]
    e < 4 → s.portSt e = 3 → s.injHit 15 4 (some e) = false → s.injHit 17 1 none = false → s.memUE = [] → s.memCE = [] →
    0x5400000 ≤ a → a < 0x5800000 → a % 4 = 0 → frameWidth f = 4 →
    (f.dst.toNat = s.addr → s.reqDenied f = false → frameCount f = 4 →
      (∃ t, exec (.read ⟨rx, false⟩) s = .next t ∧ replies t 0 4 (s.bytes a 4) ∧ t.chans = s.chans ∧ t.regs = s.regs ∧ t.mem = s.mem) ∧
      exec (.read ⟨rx, true⟩) s = .next { s with
        out := acked
        fab := { s.fab with reads := s.fab.reads ++ [{ src := f.src.toNat, tag := f.tag.toNat }] } }) ∧
    (f.dst.toNat = s.addr → s.reqDenied f = false → f.len = 4 → f.data.length = 4 →
      ∃ t, exec (.write rx) s = .next t ∧ replies t 0 4 [] ∧ t.bytes a 4 = f.data ∧
        (∀ b, b < a ∨ a + 4 ≤ b → t.byte b = s.byte b) ∧ t.chans = s.chans ∧ t.regs = s.regs) ∧
    (f.dst.toNat = s.addr → s.reqDenied f = true →
      (∀ late, ∃ t, exec (.read ⟨rx, late⟩) s = .next t ∧ replies t 3 0 [] ∧ t.chans = s.chans ∧ t.regs = s.regs ∧ t.mem = s.mem) ∧
      ∃ t, exec (.write rx) s = .next t ∧ replies t 3 0 [] ∧ t.chans = s.chans ∧ t.regs = s.regs ∧ t.mem = s.mem) ∧
    (s.isMember = false → s.reqDenied f = false → f.len = 4 → f.data.length = 4 → bitsOf (s.fr fabBcast) 3 0 = 0 →
      ∃ t, exec (.bcastWrite rx) s = .next t ∧ t.out = acked ∧ t.bytes a 4 = f.data ∧
        (∀ b, b < a ∨ a + 4 ≤ b → t.byte b = s.byte b) ∧ t.chans = s.chans ∧ t.regs = s.regs)

/-- R745, R746, R750 to R754: a good READ or WRITE descriptor for another node goes out of its route's port and is
outstanding under the next free tag; an outstanding READ that is answered, or not in time, is completed with a record in the
completion ring, and the answer's data stand at its DPTR; an answer to no transaction counts as late. A bad descriptor
completes with status 8; a target that is absent takes its port DOWN; a read that stays uncompleted is answered BUSY and
abandoned. The waits are over where they can have lasted their time [log 110]. -/
def Obligations.Transactions : Prop :=
  ∀ (s : State) (t : Txn), t.dtag = none → t.held = none → t.tag < 4096 → s.cqFull = false → s.memUE = [] →
    s.injHit 17 1 none = false →
    let w := s.fr fabCqWptr
    let at_ := fabBuf + 32 * bitsOf (s.fr fabCqBase) 15 0 + 16 * (w % max 1 (bitsOf (s.fr fabCqSize) 15 0))
    let completed := fun (u : State) (tag status done : Nat) =>
      u.bytes at_ 4 = leBytes 4 (tag + 4096 * status + 1048576 * done) ∧ u.fr fabCqWptr = wrapAdd w 1 ∧ u.chans = s.chans ∧
        ∀ o, o ∉ [fabOff fabCqWptr, fabOff fabRqRptr, fltOff frMemc fltInj] → u.rg o = s.rg o
    (s.fab.txns = [t] →
      (s.canHaveLasted t.age s.fabTmoCyc = false → exec (.transactionTimeout (BitVec.ofNat 12 t.tag)) s = .next s) ∧
      (s.canHaveLasted t.age s.fabTmoCyc = true → ∃ u, exec (.transactionTimeout (BitVec.ofNat 12 t.tag)) s = .next u ∧ completed u t.tag 6 0 ∧ u.fab.txns = [] ∧ u.fr fabRqRptr = s.fr fabRqRptr ∧
        ∀ b, b < at_ ∨ at_ + 16 ≤ b → u.byte b = s.byte b) ∧
      (∀ rx : Rx, s.portSt rx.port.val = 3 → rx.endOk = true → crcHolds rx = true → s.assigned = true → rx.frame.dst.toNat = s.addr →
        rx.frame.tag.toNat = t.tag → t.op = 1 → rx.frame.data ≠ [] → rx.frame.data.length ≤ t.room →
        bitsOf rx.frame.w2.toNat 7 0 = 0 → fabBuf + t.dptr + rx.frame.data.length ≤ at_ →
        ∃ u, exec (.reply rx) s = .next u ∧ completed u t.tag 0 (bitsOf rx.frame.w2.toNat 17 8) ∧ u.fab.txns = [] ∧
          u.fr fabRqRptr = s.fr fabRqRptr ∧
          u.bytes (fabBuf + t.dptr) rx.frame.data.length = rx.frame.data ∧
          ∀ b, (b < at_ ∨ at_ + 16 ≤ b) → (b < fabBuf + t.dptr ∨ fabBuf + t.dptr + rx.frame.data.length ≤ b) → u.byte b = s.byte b)) ∧
    (s.fab.txns = [] → ∀ rx : Rx, s.portSt rx.port.val = 3 → rx.endOk = true → crcHolds rx = true → s.assigned = true →
      rx.frame.dst.toNat = s.addr →
      ∃ u, exec (.reply rx) s = .next u ∧ u.fr fabLate = holdAdd (s.fr fabLate) 1 ∧ u.chans = s.chans ∧ u.mem = s.mem ∧
        ∀ o, o ≠ fabOff fabLate → u.rg o = s.rg o) ∧
    (s.fab.txns = [] → s.fab.nextTag < 4096 → bitsOf (s.fr fabRqSize) 15 0 ≠ 0 → s.fr fabRqRptr ≠ s.fr fabRqWptr → s.memCE = [] →
      (s.descAt (fabBuf + 32 * bitsOf (s.fr fabRqBase) 15 0 + 32 * (s.fr fabRqRptr % bitsOf (s.fr fabRqSize) 15 0))).bad = true →
      ∃ u, exec .requestSend s = .next u ∧ completed u s.fab.nextTag 8 0 ∧ u.fr fabRqRptr = wrapAdd (s.fr fabRqRptr) 1 ∧
        ∀ b, b < at_ ∨ at_ + 16 ≤ b → u.byte b = s.byte b) ∧
    (s.fr fabRqRptr = s.fr fabRqWptr → exec .requestSend s = .next s) ∧
    (let n := bitsOf (s.fr fabRqSize) 15 0
     let d := s.descAt (fabBuf + 32 * bitsOf (s.fr fabRqBase) 15 0 + 32 * (s.fr fabRqRptr % n))
     let tag := freeTag (s.fab.txns.map (·.tag)) 257 s.fab.nextTag
     let e := s.egress d.dst
     let data := if d.op = 2 then s.bytes (fabBuf + d.dptr) d.cnt else []
     n ≠ 0 → s.fr fabRqRptr ≠ s.fr fabRqWptr → s.fab.txns.length < 256 → s.memCE = [] → d.bad = false →
      s.tmoShort d.dst = false → d.op = 1 ∨ d.op = 2 → s.assigned = false ∨ d.dst ≠ s.addr → e < 4 → s.portSt e = 3 →
      s.injHit 15 4 (some e) = false →
      ∃ u, exec .requestSend s = .next u ∧ u.out = s.out ++ [frameOut e (s.port e).lseq (s.descFrame d tag data)] ∧
        u.fab.txns = s.fab.txns ++ [{ tag := tag, op := d.op, port := some e, dst := d.dst, user := d.user, dptr := d.dptr, room := d.cnt
                                      dtag := none, held := none }] ∧
        u.fab.nextTag = (tag + 1) % 4096 ∧ u.fr fabRqRptr = wrapAdd (s.fr fabRqRptr) 1 ∧ u.chans = s.chans ∧ u.mem = s.mem ∧
        ∀ o, o ≠ fabOff fabRqRptr → u.rg o = s.rg o) ∧
    (∀ p : PortId, s.portSt p.val = 3 → s.targetGone (s.canHaveLasted · 400) p.val = true → s.mild frFab = true → s.mild frMemc = true → s.later = [] →
      ∃ u, exec (.targetAbsent p) s = .next u ∧ u.portSt p.val = 1 ∧ u.chans = s.chans) ∧
    (∀ tag src : BitVec 12,
      let slow := s.fab.reads.any fun x => decide (x.src = src.toNat) && decide (x.tag = tag.toNat) && s.canHaveLasted x.age 320
      (slow = false → exec (.readBusyTimeout tag src) s = .next s) ∧
      (slow = true → s.egress src.toNat < 4 → s.portSt (s.egress src.toNat) = 3 → s.injHit 15 4 (some (s.egress src.toNat)) = false →
      ∃ u, exec (.readBusyTimeout tag src) s = .next u ∧ u.out = s.out ++ [frameOut (s.egress src.toNat) (s.port (s.egress src.toNat)).lseq
        (replyFrame s.addr src.toNat tag.toNat 2 0 0 [])] ∧ u.fab.reads.length < s.fab.reads.length ∧ u.chans = s.chans ∧ u.regs = s.regs ∧ u.mem = s.mem)) ∧
    (∀ (a : Acc) (v : Word), s.mayWrite a (fabOff fabRqWptr) → exec (.fabRqWptr a v) s = .next (s.setRg (fabOff fabRqWptr) v.toNat))

/-- R731, R740, R744, R756, R759, R760: a DISCOVER frame [log 90] goes on along its path, recording the port; a TOPO frame at
its node is acknowledged and changes nothing else [log 90]; a TIME exchange gives the port's delay, keeps the partner's time,
and a lost one, where 3 ms can have passed [log 110], raises SYNC on a member's UP_PORT; a time step, rounded to 5 ns [log
91], of a device whose channels are OFF or FENCED moves the tick counter at the end of the tick, what runs keeps its
distance, and a waiting strobe gets its boundary A anew. -/
def Obligations.FabricTime : Prop :=
  ∀ (s : State) (rx : Rx) (p : PortId),
    (s.portSt rx.port.val = 3 → rx.endOk = true → crcHolds rx = true →
      let acked := { s with out := s.out ++ [.ctrl rx.port.val false rx.lseq.toNat] }
      (s.assigned = true → rx.frame.dst.toNat = s.addr → exec (.topo rx) s = .next acked) ∧
      (∀ t1 t2 t3 t4, s.isMember = false ∨ rx.port.val ≠ s.upPort →
        ∃ t, exec (.time rx t1 t2 t3 t4) s = .next t ∧
          t.rg (fabOff (fabDelay + 4 * rx.port.val)) = (word32 (linkDelay t1 t2 t3 t4)).toNat ∧ (t.port rx.port.val).timed = true ∧
          (t.port rx.port.val).heard = some (rx.frame.data.take 10 ++ stamp (t2 * 65536 / 1000)) ∧
          (∀ o, o ≠ fabOff (fabDelay + 4 * rx.port.val) → t.rg o = s.rg o) ∧ t.chans = s.chans ∧ t.mem = s.mem) ∧
      (let h := rx.frame.hops.toNat
       let d := setHop rx.frame.data h rx.port.val
       let q := hopAt rx.frame.data (h + 1)
       bitOf rx.frame.w2.toNat 7 = false → h + 1 < bitsOf rx.frame.w2.toNat 6 0 → h ≠ 63 → s.portSt q = 3 → s.injHit 15 4 (some q) = false →
        ∃ t, exec (.discover rx) s = .next t ∧ t.chans = s.chans ∧ t.regs = s.regs ∧ t.mem = s.mem ∧
          t.out = acked.out ++ [frameOut q (s.port q).lseq { rx.frame with typ := 8, hops := rx.frame.hops + 1, data := d }])) ∧
    (s.portSt p.val = 3 → s.injHit 15 4 (some p.val) = false →
      ∃ t f, exec (.timeExchange p) s = .next t ∧ t.out = s.out ++ [frameOut p.val (s.port p.val).lseq f] ∧ f.typ = 7 ∧
        (∀ h, (s.port p.val).heard = some h → f.data.drop 10 = h) ∧ t.chans = s.chans ∧ t.regs = s.regs ∧ t.mem = s.mem) ∧
    (s.portSt p.val ≠ 3 → exec (.timeExchange p) s = .next s) ∧
    (s.isMember = true → p.val = s.upPort → s.mild frFab = true → s.later = [] →
      s.causes.contains (frFab * 32 + ffSync p.val) = false → s.canHaveLasted (s.fab.quiet.getD p.val 0) 600000 = true →
      ∃ t, exec (.timeFrameTimeout p) s = .next t ∧ bitOf (t.rg (fltOff frFab fltSts)) (ffSync p.val) = true ∧
        (∀ o, o ∉ reportRegs frFab → t.rg o = s.rg o) ∧ t.chans = s.chans ∧ t.mem = s.mem) ∧
    (s.canHaveLasted (s.fab.quiet.getD p.val 0) 600000 = false → exec (.timeFrameTimeout p) s = .next s) ∧
    let u := s.settleTick
    (∀ th, u.fab.step = some th → u.chansQuiet = true →
      let k := -((-(rne th 5000)) / 50)
      ∃ t, exec .timeStep s = .next t ∧ t.tick = ((u.tick : Int) + k).toNat ∧ t.fab.step = none ∧
        t.refillAt = u.refillAt.map (timeBy (rne th 5000)) ∧ t.evcLast = u.evcLast.map (fun x => (x.1, x.2.map fun y => { y with cyc := timeBy (rne th 5000) y.cyc })) ∧
        (∀ g b, u.strobe g = some b → ∃ b', t.strobe g = some b' ∧ b'.vals = b.vals ∧ b'.at_ = t.boundaryA b.mine) ∧
        t.regs = u.regs ∧ t.mem = u.mem ∧ t.fab.ports = u.fab.ports ∧ t.fab.txns = u.fab.txns ∧
        t.chans.map (fun x => (x.1, x.2.state, x.2.law.act, x.2.rng, x.2.fi)) =
          u.chans.map (fun x => (x.1, x.2.state, x.2.law.act, x.2.rng, x.2.fi))) ∧
    (u.fab.step = none ∨ u.chansQuiet = false → exec .timeStep s = .next u)

/-- R32, R545, R762 to R765, R800, R801: a GO of a permitted frame length waits for its tick and then comes into force; a
frame starts and begins its exchange; a member with the whole set of the frame fires HARVEST, the root stores a member's
upward data at its place in DDR5. -/
def Obligations.HarvestExchange : Prop :=
  ∀ (s : State) (a : Acc),
    (s.mayWrite a (fabOff fabFrameCtl) →
      let n := bitsOf (s.fr fabFrameNew) 15 0
      (s.isMember = true ∨ n < 20 → exec (.frameLengthGo a) s = .next (s.flag (fabOff fabFlags) 0x40)) ∧
      (s.isMember = false → s.isRoot = false → 20 ≤ n →
        exec (.frameLengthGo a) s = .next { s with fab := { s.fab with frameGo := some (s.tick, n) } })) ∧
    (∀ go n, s.fab.frameGo = some (go, n) →
      (frameAt (bitsOf (s.fr fabFrame) 15 0) n go ≤ s.tick + 1 →
        exec .frameLengthApply s = .next { (s.setRg (fabOff fabFrame) n) with fab := { s.fab with frameGo := none } }) ∧
      (s.tick + 1 < frameAt (bitsOf (s.fr fabFrame) 15 0) n go → exec .frameLengthApply s = .next s)) ∧
    (s.frameDue = true → s.fab.hv.begun = false → s.isRoot = false →
      ∃ t, exec .frameStart s = .next t ∧ t.fab.hv.begun = true ∧ t.fab.hv.start = s.tick ∧
        t.fab.hv.due = false ∧ t.fab.hv.got = [] ∧ t.contribs = s.contribs ∧ t.chans = s.chans ∧ t.regs = s.regs ∧ t.mem = s.mem) ∧
    (s.frameDue = false → exec .frameStart s = .next s) ∧
    ∀ (rx : Rx) (cyc : Cycle), s.portSt rx.port.val = 3 → rx.endOk = true → crcHolds rx = true → s.fab.hv.begun = true →
      s.fab.hv.fired = false → bitsOf rx.frame.w2.toNat 15 0 = s.fab.hv.start % 65536 →
      (s.isMember = true → s.fab.hv.got = [] → s.fab.hv.maps.dn = [] → s.fab.hv.maps.up = [] → rx.frame.w3.toNat % 64 = 0 →
        bitsOf rx.frame.w2.toNat 21 16 = 0 → bitOf (s.fr fabHvCfg) 12 = false → bitsOf (s.fr fabBcast) 3 0 = 0 →
        ∃ t, exec (.harvestDn rx cyc) s = .next t ∧ t.fab.hv.fired = true ∧ t.fr fabHvCnt = wrapAdd (s.fr fabHvCnt) 1 ∧
          t.contribs = (s.fireAt 2 0 (s.at_ cyc.val) none).contribs ∧
          (∀ o, o ≠ fabOff fabHvCnt → t.rg o = s.rg o) ∧ t.chans = s.chans ∧ t.mem = s.mem) ∧
      (let o := s.fab.hv.maps.upBase + 1024 * rx.frame.src.toNat
       s.isRoot = true → s.assigned = true → rx.frame.dst.toNat = s.addr → rx.frame.data ≠ [] → rx.frame.data.length ≤ 128 → o % 128 = 0 →
        s.ddrOk o rx.frame.data.length = true → s.memUE = [] → s.memCE = [] →
        ∃ t, exec (.harvestUp rx cyc) s = .next t ∧ t.bytes (ddrBase + o) rx.frame.data.length = rx.frame.data ∧
          t.fab.hv.ups = s.fab.hv.ups ++ [rx.frame.src.toNat] ∧ t.chans = s.chans ∧
          (∀ o, o ∉ [fabOff fabHvCnt, fltOff frMemc fltInj] ++ ddrRegs → t.rg o = s.rg o) ∧
          ∀ b, b < ddrBase + o ∨ ddrBase + o + rx.frame.data.length ≤ b → t.byte b = s.byte b)

/-- R769, R774, R787, R788, R794: with the engine enabled and fewer than 16 requests in its last 1.2 µs, a request that a
frame brings for a constant object is answered with status word 0 and the value, one for an object that does not exist with
its abort code, which counts in ODE_ABORTS; a privileged write of a Harvest map entry is stored and answered; without ENABLE
every request is answered OFF. R784 to R786, R789: the local request that a descriptor has placed, with fewer than 16
requests in the engine's last 1.2 µs, is served as the descriptor gives it: a read of a constant object completes its
transaction with the status word and the value at DPTR, or with SHORT_BUF where COUNT has no room for them; a command that
tells of another access than a transaction waits with does nothing. R797, R799: APPLY of maps that are in order makes them
the maps of the next frame; of others it sets MAP_BAD and changes no map. -/
def Obligations.Dictionary : Prop :=
  (∀ (s : State) (d : DictReq) (p : PortId) (n : BitVec 8) (room : Nat),
      d.link = some (p, n) → d.ecc = false → s.portSt p.val = 3 → s.assigned = true → (d.priv = true → s.fabTrusted d.src.toNat = true) →
      let e := s.egress d.src.toNat
      e < 4 → s.portSt e = 3 → s.injHit 15 4 (some e) = false → (∀ t ∈ s.fab.txns, t.ask = none) →
      let answered := fun (t : State) (data : List Byte) =>
        t.out = s.out ++ [.ctrl p.val false n.toNat,
          frameOut e (s.port e).lseq (replyFrame s.addr d.src.toNat d.tag.toNat 0 0 data.length data)] ∧
        t.rg (odeOff odeReqs) = wrapAdd (s.rg (odeOff odeReqs)) 1 ∧ t.chans = s.chans ∧ t.mem = s.mem ∧
        ∀ o, o ∉ [odeOff odeReqs, odeOff odeAborts] → t.rg o = s.rg o
      (bitOf (s.rg (odeOff odeCtl)) 0 = true → s.fab.asks.length < 16 →
        (∀ o bs, objAt d.index.toNat d.sub.toNat = .inl o → o.at_ = .lit bs → readBad o = false →
          ∃ t, exec (.dictRead d room) s = .next t ∧ answered t (leBytes 4 0 ++ bs)) ∧
        (∀ c data, objAt d.index.toNat d.sub.toNat = .inr c →
          (∃ t, exec (.dictRead d room) s = .next t ∧ answered t (leBytes 4 c) ∧
            t.rg (odeOff odeAborts) = holdAdd (s.rg (odeOff odeAborts)) 1) ∧
          ∃ t, exec (.dictWrite d data) s = .next t ∧ answered t (leBytes 4 c)) ∧
        (∀ v : Word, d.index = 0xA000 → 1 ≤ d.sub.toNat → d.sub.toNat ≤ 64 → d.priv = true → v.toNat < 2 ^ 25 →
          ∃ t, exec (.dictWrite d (leBytes 8 v.toNat)) s = .next t ∧ answered t (leBytes 4 0) ∧ t.mapVal 0xA000 d.sub.toNat = v.toNat ∧
            ∀ i k, 256 * i + k ≠ 256 * 0xA000 + d.sub.toNat → t.mapVal i k = s.mapVal i k)) ∧
      (bitOf (s.rg (odeOff odeCtl)) 0 = false →
        ∃ t, exec (.dictRead d room) s = .next t ∧ answered t (leBytes 4 17))) ∧
  (∀ (s : State) (d : DictReq) (t : Txn) (k : LocAsk) (room : Nat) (v : List Byte), d.link = none → d.ecc = false → d.tag.toNat = t.tag →
      t.ask = some k → t.dtag = none → t.held = none → s.fab.txns = [t] → s.cqFull = false → s.memUE = [] → s.injHit 17 1 none = false →
      bitOf (s.rg (odeOff odeCtl)) 0 = true → s.fab.asks.length < 16 →
      let w := s.fr fabCqWptr
      let at_ := fabBuf + 32 * bitsOf (s.fr fabCqBase) 15 0 + 16 * (w % max 1 (bitsOf (s.fr fabCqSize) 15 0))
      fabBuf + t.dptr + max 4 t.room ≤ at_ →
      let completed := fun (u : State) (data : List Byte) =>
        u.fab.txns = [] ∧ u.bytes at_ 4 = leBytes 4 (t.tag + 1048576 * data.length) ∧ u.bytes (fabBuf + t.dptr) data.length = data ∧
          u.fr fabCqWptr = wrapAdd w 1 ∧ u.chans = s.chans ∧
          (∀ b, (b < at_ ∨ at_ + 16 ≤ b) → (b < fabBuf + t.dptr ∨ fabBuf + t.dptr + data.length ≤ b) → u.byte b = s.byte b) ∧
          ∀ o, o ∉ [fabOff fabCqWptr, odeOff odeReqs, odeOff odeAborts] → u.rg o = s.rg o
      (∀ o bs, k.write = none → objAt k.idx k.sub = .inl o → o.at_ = .lit bs → readBad o = false →
        (4 + bs.length ≤ t.room → ∃ u, exec (.dictRead d room) s = .next u ∧ completed u (leBytes 4 0 ++ bs)) ∧
        (t.room < 4 + bs.length → ∃ u, exec (.dictRead d room) s = .next u ∧ completed u (leBytes 4 8))) ∧
      (k.write = none → exec (.dictWrite d v) s = .next s) ∧
      (k.write.isSome = true → exec (.dictRead d room) s = .next s)) ∧
  (∀ (s : State) (d : DictReq) (p : PortId) (n : BitVec 8), d.link = some (p, n) → d.ecc = false → s.portSt p.val = 3 → s.assigned = true →
      d.priv = true → s.fabTrusted d.src.toNat = true → bitOf (s.rg (odeOff odeCtl)) 0 = true → (∀ t ∈ s.fab.txns, t.ask = none) →
      s.fab.asks.length < 16 → s.egress d.src.toNat < 4 → s.portSt (s.egress d.src.toNat) = 3 →
      s.injHit 15 4 (some (s.egress d.src.toNat)) = false →
      (s.mapsOk = true → ∃ t, exec (.apply d) s = .next t ∧ t.chans = s.chans ∧ t.mem = s.mem ∧
        t.fab.hv = { s.fab.hv with next := some { dn := s.mapEntries 0xA000, up := s.mapEntries 0xA100, dnLen := s.mapVal 0xA200 1
                                                  upBase := s.mapVal 0xA200 2, upLen := s.mapVal 0xA200 3 } } ∧
        ∀ o, o ∉ [odeOff odeReqs] → t.rg o = s.rg o) ∧
      (s.mapsOk = false → ∃ t, exec (.apply d) s = .next t ∧ bitOf (t.rg (odeOff odeFlags)) 0 = true ∧ t.fab.hv = s.fab.hv ∧
        (∀ o, o ∉ [odeOff odeFlags, odeOff odeReqs] → t.rg o = s.rg o) ∧ t.chans = s.chans ∧ t.mem = s.mem))

/-- R778, R780, R790, R791: firmware's reply to a queued request of another node goes out as a RESULT with the request's
object and takes the request out of the queue, with ECC and DICT_ECC where the entry cannot be read; one to no request sets
its flag; a result completes the deferred transaction it names, and without one in time, which can have passed [log 110], it
completes with status 6. A line that has risen has its MSI-X message before the write [log 80]. -/
def Obligations.DeferredRequests : Prop :=
  ∀ (s : State),
    let r0 := s.linesRise
    (∀ (a : Acc) (ab : Byte), s.mayWrite a (odeOff odeFwReply1) →
      (s.fwq = [] → exec (.fwReply a ab) s = .next ((r0.setRg (odeOff odeFwReply1) ab.toNat).flag (odeOff odeFlags) 4)) ∧
      (∀ r, s.fwq = [r] → r.dtag = bitsOf (s.rg (odeOff odeFwReply0)) 15 0 → r.loc = false → ab ≠ 0 →
        s.mild frOde = true → s.egress (r.src % 4096) < 4 → s.portSt (s.egress (r.src % 4096)) = 3 → s.injHit 15 4 (some (s.egress (r.src % 4096))) = false →
        ∃ t f, exec (.fwReply a ab) s = .next t ∧ t.fwq = [] ∧ f.typ = 9 ∧ f.tag = BitVec.ofNat 12 r.tag ∧ f.w2 = BitVec.ofNat 24 r.key ∧
          (s.ue (s.fwqAt r.slot) 16 = false → f.data = leBytes 4 ab.toNat ∧
            ∀ o, o ∉ [odeOff odeFwReply1, odeOff odeAborts] ++ pbaRegs → t.rg o = s.rg o) ∧
          (s.ue (s.fwqAt r.slot) 16 = true → s.later = [] → f.data = leBytes 4 18 ∧
            bitOf (t.rg (fltOff frOde fltSts)) foDictEcc = true) ∧
          t.out = r0.out ++ [frameOut (s.egress (r.src % 4096)) (s.port (s.egress (r.src % 4096))).lseq f] ∧
          t.chans = s.chans ∧ t.mem = s.mem)) ∧
    ∀ (t : Txn) (g : Nat), t.dtag = some g → t.held = none → t.next = none → t.tag < 4096 → s.fab.txns = [t] → s.cqFull = false →
      s.memUE = [] → s.injHit 17 1 none = false →
      let w := s.fr fabCqWptr
      let at_ := fabBuf + 32 * bitsOf (s.fr fabCqBase) 15 0 + 16 * (w % max 1 (bitsOf (s.fr fabCqSize) 15 0))
      (s.canHaveLasted t.age s.deferred = false → exec (.deferredTimeout (BitVec.ofNat 12 t.tag)) s = .next s) ∧
      (s.canHaveLasted t.age s.deferred = true → ∃ u, exec (.deferredTimeout (BitVec.ofNat 12 t.tag)) s = .next u ∧ u.fab.txns = [] ∧ u.fr fabCqWptr = wrapAdd w 1 ∧
        u.bytes at_ 4 = leBytes 4 (t.tag + 4096 * 6) ∧ u.chans = s.chans ∧
        (∀ o, o ∉ [fabOff fabCqWptr, fltOff frMemc fltInj] → u.rg o = s.rg o) ∧ ∀ b, b < at_ ∨ at_ + 16 ≤ b → u.byte b = s.byte b) ∧
      (∀ (rx : Rx) (data : List Byte), s.portSt rx.port.val = 3 → rx.endOk = true → crcHolds rx = true → s.assigned = true →
        rx.frame.dst.toNat = s.addr → rx.frame.tag.toNat = t.tag → rx.frame.w3.toNat / 65536 = g →
        rx.frame.data = leBytes 4 0 ++ data → 4 + data.length ≤ t.room → fabBuf + t.dptr + 4 + data.length ≤ at_ →
        ∃ u, exec (.dictResult rx) s = .next u ∧ u.fab.txns = [] ∧ u.fr fabCqWptr = wrapAdd w 1 ∧
          u.bytes at_ 4 = leBytes 4 (t.tag + 1048576 * (4 + data.length)) ∧
          u.bytes (fabBuf + t.dptr) (4 + data.length) = leBytes 4 0 ++ data ∧ u.chans = s.chans ∧
          ∀ o, o ∉ [fabOff fabCqWptr, fltOff frMemc fltInj] → u.rg o = s.rg o)

/-- R809, R810: HALT of another core that runs or waits takes effect when the core reaches its instruction boundary; RUN
resumes a halted core, RESTART starts a core at its vector with its registers at their reset values, a gated one when its
clock runs again [log 73]. A core's command to itself does nothing. R808, R812, R813: a watchdog that runs out reloads and
raises WDOG, the key in CORE_KICK reloads it and another value does nothing; MTIP of a core is the comparison of mtime with
its mtimecmp. -/
def Obligations.Cores : Prop :=
  (∀ (s : State) (a : Acc) (x : CoreId), s.mayWrite a (coreOff x.val coreCtl) →
      let self := coreSelf a.req x.val
      (self = true → exec (.halt a x) s = .next s ∧ exec (.coreRun a x) s = .next s ∧ exec (.restart a x) s = .next s) ∧
      (self = false → s.coreSt x.val = 1 ∨ s.coreSt x.val = 2 ∨ s.coreSt x.val = 4 → s.cpu.halting.contains x.val = false →
        exec (.halt a x) s = .next { s with cpu := { s.cpu with halting := s.cpu.halting ++ [x.val] } }) ∧
      (s.cpu.halting.contains x.val = true → s.coreSt x.val = 1 ∨ s.coreSt x.val = 2 →
        ∃ t, exec (.coreHalted x) s = .next t ∧ t.coreSt x.val = 3 ∧ t.cpu.halting.contains x.val = false ∧
          (∀ y, y < 8 → y ≠ x.val → t.coreSt y = s.coreSt y) ∧ (∀ o, o ≠ coreOff x.val coreSts → t.rg o = s.rg o) ∧
          t.chans = s.chans ∧ t.mem = s.mem) ∧
      (self = false → s.coreSt x.val = 3 → exec (.coreRun a x) s = .next (s.setCoreSt x.val 1)) ∧
      (self = false → s.coreSt x.val ≠ 3 → exec (.coreRun a x) s = .next s) ∧
      (self = false → s.coreSt x.val = 1 ∨ s.coreSt x.val = 2 ∨ s.coreSt x.val = 3 →
        ∃ t, exec (.restart a x) s = .next t ∧ t.coreSt x.val = 1 ∧ t.out = s.out ++ [.start x.val (s.rg (coreOff x.val coreVec))] ∧
          t.coreRegs x.val = { pc := BitVec.ofNat 32 (s.rg (coreOff x.val coreVec)) } ∧ t.cpu.halting.contains x.val = false ∧ (∀ o, o ≠ coreOff x.val coreSts → t.rg o = s.rg o) ∧ t.chans = s.chans ∧
          t.mem = s.mem) ∧
      (self = false → s.coreSt x.val = 4 →
        ∃ t, exec (.restart a x) s = .next t ∧ t.coreSt x.val = 4 ∧ tget (fun _ => 1) t.cpu.back x.val = 1 ∧
          t.coreRegs x.val = { pc := BitVec.ofNat 32 (s.rg (coreOff x.val coreVec)) } ∧ t.regs = s.regs ∧ t.chans = s.chans ∧ t.mem = s.mem) ∧
      (self = false → s.coreSt x.val = 0 ∨ 5 ≤ s.coreSt x.val → exec (.restart a x) s = .next s)) ∧
  (∀ (s : State) (a : Acc) (x : CoreId),
      let loaded := s.wdogLoad x.val
      tget (fun _ => 0) loaded.cpu.wdog x.val = 4000 * bitsOf (s.rg (coreOff x.val coreWdog)) 15 0 ∧
      (s.wdogRuns x.val = true → tget (fun _ => 0) s.cpu.wdog x.val = 0 → s.voteErr = [] → s.mild (frCore x.val) = true → s.later = [] →
        ∃ t, exec (.wdog x) s = .next t ∧ bitOf (t.rg (fltOff (frCore x.val) fltSts)) fxWdog = true ∧ t.cpu = loaded.cpu ∧
          (∀ o, o ∉ reportRegs (frCore x.val) → t.rg o = s.rg o) ∧ t.chans = s.chans ∧ t.mem = s.mem) ∧
      (s.voteErr = [] → s.wdogRuns x.val = false ∨ tget (fun _ => 0) s.cpu.wdog x.val ≠ 0 → exec (.wdog x) s = .next s) ∧
      (s.mayWrite a (coreOff x.val coreKick) → s.voteErr = [] → exec (.coreKick a x 0x5A) s = .next loaded ∧
        ∀ v, v ≠ 0x5A → exec (.coreKick a x v) s = .next s) ∧
      ∀ cmp : BitVec 64, ∃ t, exec (.mtimecmpMatch x cmp) s = .next t ∧
        (t.cpu.mtip.contains x.val = true ↔ cmp.toNat ≤ t.mtime) ∧ (s.running = true → t.regs = s.regs) ∧
        (∀ y, y ≠ x.val → t.cpu.mtip.contains y = s.cpu.mtip.contains y) ∧ t.chans = s.chans ∧ t.mem = s.mem)

/-- R824 to R826: an update of a halted or fenced core from a staged image within bounds begins, and is otherwise refused
with the reason, the first of BUSY, NOT_HALTED and SIZE that holds [log 147]; an image that cannot be read ends it with READ.
Its end with a good image places the image in the core's memory, sets its vector and DONE, and with another leaves the memory
and sets FAIL with the reason. -/
def Obligations.FirmwareUpdate : Prop :=
  ∀ (s : State) (a : Acc),
    let x := bitsOf (s.rg sysCoreUpdCtl) 3 1
    let src := s.rg sysCoreUpdSrc
    let len := s.w32 (src + 8)
    (s.mayWrite a sysCoreUpdCtl →
      (s.cpu.upd.isSome = true → exec (.coreUpdGo a) s = .next (s.updFlag 4 9)) ∧
      (s.cpu.upd = none → s.coreSt x ≠ 3 → s.coreSt x ≠ 5 → exec (.coreUpdGo a) s = .next (s.updFlag 4 8)) ∧
      (s.cpu.upd = none → s.coreSt x = 3 ∨ s.coreSt x = 5 →
        src % 256 ≠ 0 ∨ src < 0x5800000 ∨ 0x80000 < len + 256 ∨ 0x5C00000 < src + 256 + len →
        exec (.coreUpdGo a) s = .next (s.updFlag 4 7)) ∧
      (s.cpu.upd = none → s.coreSt x = 3 ∨ s.coreSt x = 5 → src % 256 = 0 → 0x5800000 ≤ src → len + 256 ≤ 0x80000 →
        src + 256 + len ≤ 0x5C00000 → exec (.coreUpdGo a) s = .next { s with cpu := { s.cpu with upd := some ⟨x, src⟩ } })) ∧
    ∀ (u : Upd) (v : ImageVerdict), s.cpu.upd = some u → s.memCE = [] →
      let n := 256 + s.w32 (u.src + 8)
      let why := s.imageWhy u.src 0x80000 v
      let tcm := 0x5400000 + 0x80000 * u.slot
      (s.ue u.src n = true → ∃ t, exec (.updateDone v) s = .next t ∧ t.cpu.upd = none ∧ bitOf (t.rg sysCoreUpdSts) 2 = true ∧
        (∀ o, o ∉ sysCoreUpdSts :: ueRegs → t.rg o = s.rg o) ∧ t.chans = s.chans ∧ t.mem = s.mem) ∧
      (s.memUE = [] → why ≠ 0 → exec (.updateDone v) s = .next (State.updFlag { s with cpu := { s.cpu with upd := none } } 4 why)) ∧
      (s.memUE = [] → why = 0 → ∃ t, exec (.updateDone v) s = .next t ∧ t.bytes tcm n = s.bytes u.src n ∧
        (∀ b, b < tcm ∨ tcm + n ≤ b → t.byte b = s.byte b) ∧
        t.rg (coreOff u.slot coreVec) = (tcm + s.w32 (u.src + 12)) % 4294967296 ∧ bitOf (t.rg sysCoreUpdSts) 1 = true ∧
        t.cpu.upd = none ∧ t.chans = s.chans ∧
        ∀ o, o ∉ [coreOff u.slot coreVec, sysCoreUpdSts, fltOff frMemc fltInj] → t.rg o = s.rg o)

/-- R164, R817, R818, R821, R823: a patrol that finds one correctable error raises the CE source and the word is good; an
uncorrectable one leaves the word marked and its address in MEMC_SRAM_ADDR or MEMC_DDR_ADDR, clears the valid bit of a
coefficient set it stands in and raises the UE source; INIT of an installed DDR5 channel begins its training, whose end is
READY and whose failure, where 100 ms can have passed [log 110], raises the channel's link source. -/
def Obligations.MemoryPatrols : Prop :=
  ∀ (s : State) (a : Acc) (x : DdrId), s.mild frMemc = true → s.later = [] →
    let st := fun (t : State) => bitsOf (t.rg (ddrOff x.val memcDdrSts)) 2 0
    let same := fun (t : State) => t.chans = s.chans ∧ t.mem = s.mem
    (s.memUE = [] → s.memCE = [] →
      exec (.sramPatrol []) s = .next s ∧ exec (.ddrPatrol x []) s = .next s ∧
      ∀ w, w < 0x6000000 →
        (∃ t, exec (.sramPatrol [⟨w, true⟩]) s = .next t ∧ bitOf (t.rg (fltOff frMemc fltSts)) fmSramCe = true ∧ t.memUE = [] ∧
          t.memCE = [] ∧ (∀ o, o ∉ reportRegs frMemc → t.rg o = s.rg o) ∧ same t) ∧
        ∃ t, exec (.sramPatrol [⟨w, false⟩]) s = .next t ∧ bitOf (t.rg (fltOff frMemc fltSts)) fmSramUe = true ∧
          t.memUE = [codeword w] ∧ t.rg (0xF0000 + memcSramAddr) = codeword w ∧
          (∀ o, o ∉ (0xF0000 + memcSramAddr) :: reportRegs frMemc → t.rg o = s.rg o) ∧ t.mem = s.mem ∧
          (codeword w < 0x5000000 ∨ 0x5100000 ≤ codeword w → t.chans = s.chans) ∧
          let j := (codeword w - 0x5000000) / 0x400
          0x5000000 ≤ codeword w → codeword w < 0x5100000 → (t.ch (j / 16)).valid.getLsbD (j % 16) = false ∧
            ∀ m, m ≠ j / 16 → t.ch m = s.ch m) ∧
    (s.memUE = [] → s.memCE = [] → ∀ w, s.ddrReady x.val = true → ddrBase + 137438953472 * x.val ≤ w →
      w < ddrBase + 137438953472 * x.val + s.ddrSize x.val →
      (∃ t, exec (.ddrPatrol x [⟨w, true⟩]) s = .next t ∧ bitOf (t.rg (fltOff frMemc fltSts)) (fmDdrCe x.val) = true ∧
        (∀ o, o ∉ reportRegs frMemc → t.rg o = s.rg o) ∧ same t) ∧
      ∃ t, exec (.ddrPatrol x [⟨w, false⟩]) s = .next t ∧ bitOf (t.rg (fltOff frMemc fltSts)) (fmDdrUe x.val) = true ∧
        t.memUE = [codeword w] ∧ t.rg (ddrOff x.val memcDdrAddr) = (codeword w - ddrBase) % 4294967296 ∧
        (∀ o, o ∉ [ddrOff x.val memcDdrAddr, ddrOff x.val (memcDdrAddr + 4)] ++ reportRegs frMemc → t.rg o = s.rg o) ∧ same t) ∧
    (s.mayWrite a (ddrOff x.val memcDdrCfg) → s.ddrSize x.val ≠ 0 → st s = 0 ∨ st s = 2 ∨ st s = 4 →
      exec (.init a x) s = .next ((s.ddrStart x.val).setRg (ddrOff x.val memcDdrSts) 1)) ∧
    (st s = 1 → ∃ t, exec (.ddrTrainingDone x) s = .next t ∧ st t = 2 ∧
      (∀ o, o ≠ ddrOff x.val memcDdrSts → t.rg o = s.rg o) ∧ same t) ∧
    (st s ≠ 1 → exec (.ddrTrainingDone x) s = .next s) ∧
    (st s = 1 → s.canHaveLasted (s.ddrAge x.val) 20000000 = true → s.causes.contains (frMemc * 32 + fmDdrLink x.val) = false →
      ∃ t, exec (.ddrTrainingTimeout x) s = .next t ∧ st t = 4 ∧ bitOf (t.rg (fltOff frMemc fltSts)) (fmDdrLink x.val) = true ∧
        (∀ o, o ∉ ddrOff x.val memcDdrSts :: reportRegs frMemc → t.rg o = s.rg o) ∧ same t)

/-- R673, R814, R831 to R833: an engine that is ready fetches the descriptor at its ring's read pointer, moves the data of a
good one into the device, completes it with RPTR and its interrupt, and stops with ERR and DMA_ERR on a bad one or on an
error of the host; a write of WPTR ends its interrupt's level [log 80], and a line that has risen has its MSI-X message
before it may fall. -/
def Obligations.HostDma : Prop :=
  ∀ (s : State) (a : Acc) (e : DmaId) (ws : List Word) (data : List Byte) (hostErr : Bool),
    let d := dmaDesc ws
    let fetched := fun (t : State) => ∃ l, t.out = s.out ++ l ∧ (s.dmaAt e.val % 32 = 0 → 32 ≤ s.readMax → s.readMax % 32 = 0 →
      l.head? = some (.hostRead (s.dmaAt e.val) 32))
    (∀ v, s.mayWrite a (dmaOff e.val dmaWptr) → exec (.hostDmaWptr a e v) s =
      .next { (s.linesRise.setRg (dmaOff e.val dmaWptr) v.toNat) with
        hostp := { s.linesRise.hostp with dmaIrq := s.hostp.dmaIrq.filter (· ≠ e.val) } }) ∧
    (s.dmaReady e.val = false → exec (.dmaDescriptor e ws data hostErr) s = .next s) ∧
    (s.dmaReady e.val = true → dmaBad d = true ∨ hostErr = true → s.mild frHost = true → s.later = [] →
      ∃ t, exec (.dmaDescriptor e ws data hostErr) s = .next t ∧ fetched t ∧ t.rgBit (dmaOff e.val dmaCtl) 2 = true ∧
        bitOf (t.rg (fltOff frHost fltSts)) fhDmaErr = true ∧ t.rg (dmaOff e.val dmaRptr) = s.rg (dmaOff e.val dmaRptr) ∧
        (∀ o, o ∉ dmaOff e.val dmaCtl :: reportRegs frHost → t.rg o = s.rg o) ∧ t.chans = s.chans ∧ t.mem = s.mem) ∧
    (s.dmaReady e.val = true → dmaBad d = false → d.toHost = false → d.len = 8 → data.length = 8 → 0x5400000 ≤ d.devAddr →
      d.devAddr < 0x5800000 → s.memUE = [] → s.memCE = [] →
      ∃ t, exec (.dmaDescriptor e ws data false) s = .next t ∧ fetched t ∧ t.bytes d.devAddr 8 = data ∧ (t.dma e.val).cur = some d ∧
        (∀ b, b < d.devAddr ∨ d.devAddr + 8 ≤ b → t.byte b = s.byte b) ∧ t.chans = s.chans ∧
        ∀ o, o ≠ fltOff frMemc fltInj → t.rg o = s.rg o) ∧
    (∀ c, (s.dma e.val).cur = some c → c.postOff = 0 →
      ∃ t, exec (.dmaDone e) s = .next t ∧ (t.dma e.val).cur = none ∧
        t.rg (dmaOff e.val dmaRptr) = wrapAdd (s.rg (dmaOff e.val dmaRptr)) 1 ∧
        (c.irq = true → t.hostp.dmaIrq.contains e.val = true) ∧
        (∀ o, o ≠ dmaOff e.val dmaRptr → t.rg o = s.rg o) ∧ t.chans = s.chans ∧ t.mem = s.mem) ∧
    ((s.dma e.val).cur = none → exec (.dmaDone e) s = .next s)

/-- R673, R827 to R829, R833: a one-word write through BAR4 into a core's memory stores its word, a read is answered with the
word; the link comes up, at its generation and width, only where the strap enables it and the PHY is not held in reset
(R679), and its loss raises LINK_DOWN. -/
def Obligations.HostPackets : Prop :=
  ∀ (s : State) (off : Nat) (w : Word),
    (s.hostp.linkUp = true → 0x5400000 ≤ off → off < 0x5800000 → off % 4 = 0 → s.memUE = [] → s.memCE = [] →
      (∃ t, exec (.tlp .bar4 off true 15 0 [w]) s = .next t ∧ t.bytes off 4 = leBytes 4 w.toNat ∧ t.out = s.out ∧
        (∀ b, b < off ∨ off + 4 ≤ b → t.byte b = s.byte b) ∧ (∀ o, o ≠ fltOff frMemc fltInj → t.rg o = s.rg o) ∧
        t.chans = s.chans) ∧
      exec (.tlp .bar4 off false 15 0 [0]) s = .next { s with out := s.out ++ [.cpl (some (s.bytes off 4))] }) ∧
    (∀ bar wr fbe lbe ws, s.hostp.linkUp = false → exec (.tlp bar off wr fbe lbe ws) s = .next s) ∧
    (s.boot.pcie = true → s.rel 0 = true → s.boot.phyHeld = false →
      ∃ t, exec .pcieLinkUp s = .next t ∧ t.hostp.linkUp = true ∧ (1 ≤ t.hostp.pcie.speed ∧ t.hostp.pcie.speed ≤ 4) ∧
        (t.hostp.pcie.lanes = 1 ∨ t.hostp.pcie.lanes = 2 ∨ t.hostp.pcie.lanes = 4) ∧ (∀ o, o ∉ pbaRegs → t.rg o = s.rg o) ∧ t.chans = s.chans ∧ t.mem = s.mem) ∧
    (s.boot.pcie = false ∨ s.boot.phyHeld = true → exec .pcieLinkUp s = .next s) ∧
    (s.hostp.linkUp = true → s.mild frHost = true → s.later = [] → s.causes.contains (frHost * 32 + fhLinkDown) = false →
      ∃ t, exec .pcieLinkDown s = .next t ∧ t.hostp.linkUp = false ∧ bitOf (t.rg (fltOff frHost fltSts)) fhLinkDown = true ∧
        (∀ e, e < 8 → s.rgBit (dmaOff e dmaCtl) 0 = true → t.rgBit (dmaOff e dmaCtl) 2 = true) ∧
        (∀ o, (∀ e, e < 8 → o ≠ dmaOff e dmaCtl) → o ∉ pbaRegs ++ reportRegs frHost → t.rg o = s.rg o) ∧ t.chans = s.chans ∧ t.mem = s.mem) ∧
    (s.hostp.linkUp = false → exec .pcieLinkDown s = .next s)

/-- R814, R834 to R836: GO of an idle xSPI unit starts its command, whose end clears BUSY and raises the interrupt; a byte
sent waits for the transmitter while fewer than 16 wait, a byte received waits for software or goes to the boot loader; a
loader that waits for its first two bytes prompts. A line that has risen has its MSI-X message before it may fall. R668,
R837: an instruction of the test port takes effect and reads its data: IDCODE the device's identification, SYSRD the reset
status, the strap and the trim status once the sequence runs; TRST_N returns the port to IDCODE. -/
def Obligations.SerialAndTestPorts : Prop :=
  (∀ (s : State) (a : Acc) (v : Word) (b : Byte),
      (s.mayWrite a (hostOff hostXspiCmd) →
        (s.xspiBusy = true → exec (.xspiGo a v) s = .next s) ∧
        (s.xspiBusy = false → ∃ t x y z, exec (.xspiGo a v) s = .next t ∧ t.xspiBusy = true ∧ t.hostp.xspiIrq = false ∧
          t.out = s.linesRise.out ++ [.xspi x y z] ∧ x = bitsOf v.toNat 7 0 ∧ y = s.rg (hostOff hostXspiAddr) ∧
          (∀ o, o ∉ hostOff hostXspiCmd :: pbaRegs → t.rg o = s.rg o) ∧ t.chans = s.chans ∧ t.mem = s.mem)) ∧
      (s.xspiBusy = true → ∃ t, exec (.xspiDone []) s = .next t ∧ t.xspiBusy = false ∧ t.hostp.xspiIrq = true ∧
        (∀ o, o ≠ hostOff hostXspiCmd → t.rg o = s.rg o) ∧ t.chans = s.chans ∧ t.mem = s.mem) ∧
      (s.xspiBusy = false → exec (.xspiDone []) s = .next s) ∧
      (s.mayWrite a (hostOff hostUartData) →
        (s.hostp.tx.length < 16 → exec (.uartTx a b) s = .next { s with hostp := { s.hostp with tx := s.hostp.tx ++ [b] } }) ∧
        (16 ≤ s.hostp.tx.length → exec (.uartTx a b) s = .next s)) ∧
      (s.boot.loader.on = false → exec (.uartRx b) s = .next { s with hostp := { s.hostp with rx := s.hostp.rx ++ [b] } }) ∧
      (s.boot.loader.on = true → s.boot.loader.st = 0 → b = 0x55 →
        exec (.uartRx b) s = .next { s with boot := { s.boot with loader := { s.boot.loader with st := 1 } } }) ∧
      (s.boot.loader.on = true → s.boot.loader.st ≤ 1 → exec .loaderPrompt s = .next { s with out := s.out ++ [.uart 0x3F] }) ∧
      (s.boot.loader.on = false → exec .loaderPrompt s = .next s)) ∧
  (∀ (s : State),
      let takes := fun (i : Nat) (data : List Nat) => { s with jtag := { instr := i }, out := s.out ++ [.jtag i data] }
      exec .bypass s = .next (takes 1 []) ∧ exec .idcode s = .next (takes 0 [0x2646474B]) ∧
      exec .samplePreload s = .next (takes 2 []) ∧ exec .extest s = .next (takes 3 []) ∧
      (s.boot.phase = 2 → exec .sysrd s = .next (takes 4 [s.rg sysRstSts, s.rg sysStrap, s.rg sysTrimSts])) ∧
      (s.boot.phase ≠ 2 → exec .sysrd s = .next (takes 4 [])) ∧
      exec .dbg s = .next (takes 5 []) ∧ exec .trstN s = .next { s with jtag := { instr := 0 } })

/-- R79, R99 to R101, R192, R247, R720, R865: SNAP latches one snapshot, and while one waits a second merges with it. A rail
register is written but for a RAIL_SETTLE of 0, and, while TRACK_EN = 1, a RAIL_FS that is no positive number of at least
RAIL_MIN and a RAIL_MIN that is no number from 0 to RAIL_FS, all of which are ignored. RAIL_SETTLE ticks after a rise
RAILS_OK sets. A PWM period of an ARMED or ACTIVE channel begins with the duty of the general timer, of the tracking supply,
or none; of another channel none begins. A DISABLE or DISARM that ramped off takes effect at an own boundary once the
set-point has reached zero. -/
def Obligations.RailsAndRamps : Prop :=
  ∀ (s : State) (a : Acc) (n : ChanId),
    let c := s.ch n.val
    let only := fun (t : State) => (∀ m, m ≠ n.val → t.ch m = s.ch m) ∧ ∀ b, t.byte b = s.byte b
    (s.mayWrite a (chOff n.val chLawSnap) →
      (c.law.snap = none → exec (.snap a n) s = .next ((s.setCr n.val chLawSnap 1).updCh n.val fun c =>
        { c with law := { c.law with snap := some (s.tick + 1) } })) ∧
      (c.law.snap ≠ none → exec (.snap a n) s = .next s)) ∧
    (∀ (r : RailReg) (v : Word), s.mayWrite a (chOff n.val (railRel r)) →
      let o := chOff n.val (railRel r)
      let w := if r = .settle then v.toNat % 65536 else v.toNat
      let track := bitOf (s.cr n.val chPwmCtl) 1 = true
      let ignored := match r with
        | .settle => w = 0
        | .fs => track ∧ ¬ (f32pos w = true ∧ f32le (s.cr n.val chRailMin) w = true)
        | .min => track ∧ ¬ (f32le 0 w = true ∧ f32le w (s.cr n.val chRailFs) = true)
      (ignored → exec (.railWrite a n r v) s = .next s) ∧
      (¬ ignored → s.injHit (frCh n.val) 5 none = false → ∃ t, exec (.railWrite a n r v) s = .next t ∧ t.rg o = w ∧
        (∀ p, p ≠ o → t.rg p = s.rg p) ∧ t.shadow = s.shadow ∧ t.chans = s.chans ∧ t.mem = s.mem)) ∧
    (c.rail.ok = false → c.rail.rise + bitsOf (s.cr n.val chRailSettle) 15 0 ≤ s.tick + 1 →
      exec (.railSettleEnd n) s = .next (s.setCh n.val { c with rail := { c.rail with ok := true } })) ∧
    (c.rail.ok = true ∨ s.tick + 1 < c.rail.rise + bitsOf (s.cr n.val chRailSettle) 15 0 → exec (.railSettleEnd n) s = .next s) ∧
    (∀ cyc : Cycle,
      let per := bitsOf (s.cr n.val chPwmPer) 9 0
      let gt := bitOf (s.cr n.val chPwmCtl) 0
      let track := bitOf (s.cr n.val chPwmCtl) 1
      let fs := f32v c.rail.fs * 1073741824
      (c.state = .armed ∨ c.state = .active → ∃ t, exec (.pwmPeriod n cyc) s = .next t ∧ t.regs = s.regs ∧ only t ∧
        let u := (t.ch n.val).rail
        (gt = true → u.onH = gtOn (bitsOf (s.cr n.val chGtCfg) 1 0) (bitsOf (s.cr n.val chGtDuty) 9 0) per ∧
          u.onL = gtOn (bitsOf (s.cr n.val chGtCfg) 3 2) (bitsOf (s.cr n.val chGtDuty) 25 16) per) ∧
        (gt = false → track = true → u.dutyH = dutyOf c.rail.th fs ∧ u.dutyL = dutyOf c.rail.tl fs ∧
          (u.onH, u.ditH) = pwmOn c.rail.th fs c.rail.ditH per ∧ (u.onL, u.ditL) = pwmOn c.rail.tl fs c.rail.ditL per) ∧
        (gt = false → track = false → u.onH = 0 ∧ u.onL = 0)) ∧
      (c.state ≠ .armed → c.state ≠ .active → exec (.pwmPeriod n cyc) s = .next (s.passed cyc.val))) ∧
    (c.state = .active → c.sup.offZero = true → (s.tick + 1) % s.srDiv n.val = 0 →
      (c.sup.offCmd = some 3 → ∃ t, exec (.offRampComplete n) s = .next t ∧ (t.ch n.val).state = .armed ∧
        (t.ch n.val).sup.offCmd = none ∧ only t) ∧
      (c.sup.offCmd = some 4 → ∃ t, exec (.offRampComplete n) s = .next t ∧ (t.ch n.val).state = .off ∧
        (t.ch n.val).sup.offCmd = none ∧ only t)) ∧
    (c.sup.offCmd = none ∨ c.sup.offZero = false ∨ (s.tick + 1) % s.srDiv n.val ≠ 0 → exec (.offRampComplete n) s = .next s)

/-- R29, R31, R808: a BASE_TICK first brings in what the cores' programs have left [log 142]; before the tiles are released
nothing else happens but that lines which have risen send their messages [log 5]. Afterwards it ends the present tick, with
what is due in it, and where the device then still runs it begins the next: the tick counter counts one and the boundary's
stages run. While every tile is held, no fabric, guard, watchdog or strobe waits and no event is on its way, this is one tick
and 25 cycles of mtime, and no channel and no byte of memory changes. -/
def Obligations.BaseTick : Prop :=
  ∀ (s : State) (inp : TickIn),
    let v := s.coresRun inp.cores
    let u := v.settleTick.endTick
    (s.running = false → exec (.baseTick inp) s = .next v.linesRise) ∧
    (s.running = true → u.running = false → exec (.baseTick inp) s = .next u) ∧
    (s.running = true → u.running = true →
      exec (.baseTick inp) s = .next (State.boundary { u with tick := (u.tick + 1) % 18446744073709551616, cyc := 0 } inp)) ∧
    (s.running = true → s.held = 15 → s.chans = [] → s.tiles = [] → s.pscs = [] → s.contribs = [] → s.trig = [] → s.strobes = [] →
      s.memUE = [] → s.guards = [] → s.crc.late = [] → s.voteErr = [] → s.fwq = [] → s.fab.frameGo = none → s.fab.step = none → s.fab.txns = [] →
      s.fab.transit = [] → s.fab.reads = [] → s.fab.ports = [] → s.frameDue = false → s.isMember = false → (∀ x, x < 8 → s.wdogRuns x = false) →
      (∀ x, x < 2 → s.ddrAge x < 40) →
      ∃ t, exec (.baseTick inp) s = .next t ∧ t.tick = (s.tick + 1) % 18446744073709551616 ∧
        t.mtime = (s.mtime + 25) % 18446744073709551616 ∧ t.running = true ∧ t.chans = s.chans ∧ t.mem = s.mem)

/-- R71, R73, R75, R77, R79, R83: at an own boundary the latched command that comes first in the order of R75 takes effect,
the others are discarded and counted in CHn_CMD_DROP, and CMD reads 0: ENABLE makes an ARMED channel ACTIVE, DISABLE an
ACTIVE one ARMED and DISARM either OFF, at once or with OFF_RAMP = 1 by a ramp; SVC_ENTER and SVC_LEAVE enter and leave
SERVICE, and ARM makes an OFF channel ARMED whose ranges are implemented. The outputs follow the state and the disposition.
R50, R110, R112 to R121, R149, R151, R153: the evaluation of a loop with its samples, outside a swap and a cold evaluation:
each state, the integral and the output is the sum of its products in units of 2^-31, rounded half to even and saturated to
±(2^31 − 1), as long as no accumulator saturates, the output then limited by U_MIN and U_MAX; with anti-windup the integral
leaves out an error that drives the output further into its limit. The tile applies the output at the next own boundary, and
the FDAC code is the output in units of 2^12 with the perturbation of the load estimator. Without samples the states and the
value are kept (R134). R171 to R177, R179, R195: of the requests of a boundary at which the loop is evaluated the first in
the order of R175 takes effect and the others of the hardware count in CHn_SWAP_LOST. A swap makes its target the active set
and the set that was active the shadow, and the next evaluation is the swap evaluation of the outgoing set; states, integral
and FDAC value are as they were. A target that is not valid leaves the pointers, with SET_NOT_VALID. R85 to R87: a calibrated
sample outside the safety limits of its range counts in the run of its quantity and one inside ends the run; once a run has
SAFE_CNT samples its flag is set and SAFE_LIMIT is raised, and its cause is present until no run is that long. A sample with
power flowing in and a current above SINK_LIM counts, with SINK_EN = 0, in a run of its own. -/
def Obligations.OwnBoundary : Prop :=
  (∀ (s : State) (n : Nat), n < 64 → s.mild (frCh n) = true → s.mild (frTile (tileOf n)) = true → s.later = [] →
      let c := s.ch n
      let t := s.cmdsApply n
      let ramps := bitOf (s.cr n chCtl) 4 = true ∧ c.disp = .loop
      let first := fun k => cmdOrder.find? (c.cmds.contains ·) = some k
      let done := fun st => (t.ch n).state = st ∧ (t.ch n).cmds = [] ∧ bitsOf (t.cr n chCtl) 3 0 = 0 ∧ t.mem = s.mem
      (c.cmds = [] → t = s) ∧
      (∀ k, first k → (t.cr n chCmdDrop) = holdAdd (s.cr n chCmdDrop) (c.cmds.length - 1)) ∧
      (c.state = .armed → first 2 → done .active ∧ ∀ m, m ≠ n → t.ch m = s.ch m) ∧
      (c.state = .active → first 3 → ¬ ramps → done .armed ∧ ∀ m, m ≠ n → t.ch m = s.ch m) ∧
      (c.state = .active → first 4 → ¬ ramps → done .off) ∧ (c.state = .armed → first 4 → done .off) ∧
      (c.state = .active → first 3 ∨ first 4 → ramps → done .active ∧ (t.ch n).sup.offCmd.isSome = true ∧ (t.ch n).sup.ramp = true) ∧
      (c.state = .off → first 5 → done .service) ∧ (c.state = .service → first 6 → done .off) ∧
      (c.state = .off → first 1 → armRanges s.rg n = true → done .armed ∧ (t.ch n).rng = s.cfgRng n) ∧
      let p := s.pinStep n
      (c.state = .armed ∨ c.state = .active → (p.ch n).outEn = decide (c.disp ≠ .highz) ∧ (p.ch n).rngP = c.rng.i) ∧
      (c.state = .off → (p.ch n).outEn = false ∧ (p.ch n).rngP = 15 ∧ (p.ch n).rngS = 15) ∧
      ∀ m, m ≠ n → p.ch m = s.ch m) ∧
  (∀ (s : State) (n : Nat) (b : BIn) (y : Samp), n < 64 → s.mild (frCh n) = true → s.later = [] → s.memUE = [] → s.memCE = [] →
      (s.ch n).loopOn = true →
      let l := (s.ch n).law
      let r := (s.ch n).sup.rUse
      let c := s.loadSet n l.act
      let term := fun p : Coef × Int => if 0 ≤ p.1.e then p.1.c * p.2 * 2 ^ p.1.e.toNat else p.1.c * p.2 / 2 ^ (-p.1.e).toNat
      let fits := fun ts : List (Coef × Int) => (ts.map fun p => (term p).natAbs).sum ≤ 9223372036854775807
      let value := fun ts : List (Coef × Int) => sat32 (rne (ts.map term).sum 2147483648)
      let t := s.evalStage n b (some y)
      let k := (t.ch n).law
      (b.ecc = false → b.late = false → l.cold = false → l.owed = none →
        k.x.length = c.order ∧ k.run = true ∧ k.made = true ∧ k.u = l.u ∧ k.act = l.act ∧ k.shd = l.shd ∧
        (∀ i, i < c.order →
          let ts := (c.phi.getD i []).zip l.x ++ [(c.gam.getD i ⟨0, 0⟩, l.u), (c.lv.getD i ⟨0, 0⟩, y.v), (c.li.getD i ⟨0, 0⟩, y.i)]
          fits ts → k.x.getD i 0 = value ts) ∧
        (let e := sat32 (r - (if c.fi then y.i else y.v))
         let out := c.aw && (decide (0 < l.uLim ∧ 0 < c.ki.c * e) || decide (l.uLim < 0 ∧ c.ki.c * e < 0))
         let ts := [(c.w, l.z), (c.ki, if out then 0 else e)]
         fits ts → k.z = value ts) ∧
        (let ts := c.nk.zip k.x ++ [(c.n, r), (⟨1073741824, 1⟩, k.z)]
         fits ts →
          (c.umax < value ts → k.uNext = c.umax ∧ k.uLimNext = 1) ∧
          (value ts ≤ c.umax → value ts < c.umin → k.uNext = c.umin ∧ k.uLimNext = -1) ∧
          (value ts ≤ c.umax → c.umin ≤ value ts → k.uNext = value ts ∧ k.uLimNext = 0)) ∧
        (∀ m, m ≠ n → t.ch m = s.ch m) ∧ t.mem = s.mem) ∧
      (let q := (s.evalStage n b none).ch n
       q.law.x = l.x ∧ q.law.z = l.z ∧ q.law.uNext = l.u ∧ q.law.act = l.act) ∧
      ((s.fdacStep n false).ch n).law.u = l.uNext ∧ s.fdacStep n true = s ∧
      (s.calDrives n = false → ((s.codeStep n false).ch n).law.code = satTo 524287 (satTo 524287 (rne l.u 4096) + (s.ch n).lePert))) ∧
  (∀ (s : State) (n : Nat), n < 64 → s.mild (frCh n) = true → s.later = [] →
      let l := (s.ch n).law
      let swapped := fun (t : State) (target : Nat) =>
        let k := (t.ch n).law
        k.act = target ∧ k.shd = l.act ∧ k.owed = some (l.owed.getD { out := l.act, rng := (s.ch n).rng }) ∧ k.x = l.x ∧ k.z = l.z ∧ k.u = l.u ∧
          t.cr n chSwaps = holdAdd (s.cr n chSwaps) 1 ∧ t.cr n chSwapTick = s.tick % 4294967296 ∧
          (∀ m, m ≠ n → t.ch m = s.ch m) ∧ t.mem = s.mem
      swapped (s.takeSwap n .strobe) l.shd ∧
      (∀ d, s.setValid n d = true → swapped (s.takeSwap n (.disp d)) d) ∧
      (s.setValid n (s.hoTarget n) = true → swapped (s.takeSwap n .handover) (s.hoTarget n)) ∧
      (∀ d, s.setValid n d = false →
        let t := s.takeSwap n (.disp d)
        (t.ch n).law.act = l.act ∧ (t.ch n).law.shd = l.shd ∧ bitOf (t.cr n chSetSts) 4 = true ∧
          bitOf (t.rg (fltOff (frCh n) fltSts)) fcSetNotValid = true) ∧
      (l.run = true → l.cold = false → l.shdReq = none →
        (s.swapReqs n = [] → ((s.arbitrate n).ch n).law.act = l.act ∧ ((s.arbitrate n).ch n).law.shd = l.shd) ∧
        ∀ q r, s.swapReqs n = q :: r →
          ((s.arbitrate n).ch n).law.act = ((s.takeSwap n q).ch n).law.act ∧
          ((s.arbitrate n).ch n).law.shd = ((s.takeSwap n q).ch n).law.shd ∧
          (s.arbitrate n).cr n chSwapLost = holdAdd (s.cr n chSwapLost) (r.filter (· ≠ .strobe)).length)) ∧
  (∀ (s : State) (n : Nat) (y : Samp), n < 64 → s.mild (frCh n) = true → s.later = [] → (s.ch n).state ≠ .off → (s.ch n).state ≠ .fenced →
      let p := (s.ch n).sup
      let g := (s.ch n).smpRng
      let ctl := s.cr n chSafeCtl
      let cnt := max 1 (bitsOf ctl 7 0)
      let t := s.safeStage n y
      let q := (t.ch n).sup
      let k := frCh n * 32 + fcSafeLimit
      let outV := s.vImpl n g.v = true ∧ ((s.safeLims n false).1 < y.v ∨ y.v < (s.safeLims n false).2)
      let outI := s.iImpl n g.i = true ∧ ((s.safeLims n true).1 < y.i ∨ y.i < (s.safeLims n true).2)
      let sinks := bitOf ctl 8 = false ∧ s.vImpl n g.v = true ∧ s.iImpl n g.i = true ∧ y.v * y.i < 0 ∧ bitsOf ctl 15 9 * 8388608 < y.i.natAbs
      let raised := fun bit => bitOf (t.cr n chFlags) bit = true ∧ t.causes.contains k = true ∧
        (s.causes.contains k = false → bitOf (t.rg (fltOff (frCh n) fltSts)) fcSafeLimit = true)
      (outV → q.safeV = p.safeV + 1 ∧ (cnt ≤ p.safeV + 1 → raised 1)) ∧ (¬ outV → q.safeV = 0) ∧
      (outI → q.safeI = p.safeI + 1 ∧ (cnt ≤ p.safeI + 1 → raised 2)) ∧ (¬ outI → q.safeI = 0) ∧
      (sinks → q.sink = p.sink + 1 ∧ (cnt ≤ p.sink + 1 → raised 5)) ∧ (¬ sinks → q.sink = 0) ∧
      (q.safeV < cnt → q.safeI < cnt → q.sink < cnt → t.causes.contains k = false ∧ t.regs = s.regs) ∧
      (∀ m, m ≠ n → t.ch m = s.ch m) ∧ t.mem = s.mem)

/-- Of every command c and state s: the step of s with c in front of its queue is exec c on s with the queue's rest; a step
on an empty queue leaves the state (log 1, the model's choice). -/
def Obligations.StepRunsFront : Prop :=
  (∀ (c : Instr) (s : State), step { s with pending := c :: s.pending } = exec c s) ∧
  ∀ s : State, s.pending = [] → step s = .next s

/-- R28, R31, R36, R62, R633, R636, R659, R662: at State.reset no command waits, every register reads its reset value, every
channel is OFF with its outputs off, no unit is fenced, every tile is held and no base tick runs; the safety sets are not
committed and the sets 64 to 66 are. -/
def Obligations.ResetState : Prop :=
  State.reset.pending = [] ∧ (∀ o, State.reset.rg o = (regReset o).toNat ∧ State.reset.sh o = (regReset o).toNat) ∧
  (∀ n, (State.reset.ch n).state = .off ∧ (State.reset.ch n).outEn = false ∧ (State.reset.ch n).rngP = 15) ∧
  State.reset.fenced = [] ∧ State.reset.held = 15 ∧ State.reset.running = false ∧ State.reset.tick = 0 ∧
  (∀ k, State.reset.committed k = decide (64 ≤ k)) ∧ State.reset.memWf = true ∧ ∀ b, State.reset.byte b = 0

/-- Every step answers a next state: the model has no command without an effect (log 16). A command leaves the queue of the
commands that wait as it is: a step takes its front and nothing else. -/
def Obligations.QueueAndCompletion : Prop :=
  (∀ s : State, s.steps = true) ∧
  (∀ (s t : State) (c : Instr) (r : List Instr), s.pending = c :: r → step s = .next t → t.pending = r)

/-- Every step keeps the memory in its canonical form. -/
def Obligations.MemoryStaysCanonical : Prop :=
  ∀ s t : State, s.memWf = true → step s = .next t → t.memWf = true

/-- R636: at reset sets 0 to 63 are uncommitted; sets 64 to 66 are committed, with the CRC of their reset contents as their
reference. -/
def Obligations.CoveredSetsAtReset : Prop :=
  ∀ k, (k < 64 → State.reset.committed k = false) ∧
    (64 ≤ k → k < 67 → State.reset.committed k = true ∧ State.reset.refOf k = State.reset.crcForce k)

/-- R600: a clear that leaves a flag at 0 clears its bits in FLT_ESC and FLT_PERS; a clear of a kind-E flag always leaves it
at 0. -/
def Obligations.FaultClearClearsRecord : Prop :=
  ∀ (s : State) (a : Acc) (b : Block) (v : Word) (i : Nat), s.mayWrite a (fltOff (blockFrame b) fltSts) →
    let f := blockFrame b
    let w := (s.stsMeets (fltOff f fltSts) v.toNat).rg (fltOff f fltSts)
    v.toNat / 16777216 = w / 16777216 → i < 20 → bitOf w i = true → bitOf v.toNat i = true →
    ∃ t, exec (.faultClear a b v) s = .next t ∧
      (bitOf (t.rg (fltOff f fltSts)) i = false →
        bitOf (t.rg (fltOff f fltEsc)) i = false ∧ bitOf (t.rg (fltOff f fltPers)) i = false) ∧
      (((srcsOf f).getD i ⟨15, false, 0⟩).lvl = false → bitOf (t.rg (fltOff f fltSts)) i = false)

/-- R666: the guarded key of SYS_CHIPRST, no other first write of the requester to it pending, clears SYS_FLT_RSTSRC and then
pulls RESET_N: no base tick runs, every tile is held, the sequence has not begun, and the cause is SELF (2). -/
def Obligations.SelfReset : Prop :=
  ∀ (s : State) (a : Acc), s.mayWrite a sysChiprst → s.unpaired a sysChiprst = true →
    ∃ t, exec (.sysChiprst a) s = .next t ∧ t.rg (fltOff frSys fltSysFltRstsrc) = 0 ∧ t.rg sysRstCause = 2 ∧
      t.boot.phase = 0 ∧ t.running = false ∧ t.held = 15
end

