-- ==== Sys2Proof/Laws/Bits.lean ====
section
/-! SUPPORT. Fields of words: what is read back of a field that was set, and what stays. -/

namespace Sys2Proof.Machine

theorem bitOf_eq_testBit (w i : Nat) : bitOf w i = w.testBit i := by
  simp only [bitOf, Nat.testBit_eq_decide_div_mod_eq]

theorem bitsOf_lt (w hi lo : Nat) : bitsOf w hi lo < 2 ^ (hi + 1 - lo) := Nat.mod_lt _ (Nat.two_pow_pos _)

theorem testBit_bitsOf (w hi lo i : Nat) : (bitsOf w hi lo).testBit i = (decide (i < hi + 1 - lo) && w.testBit (lo + i)) := by
  simp [bitsOf, Nat.testBit_mod_two_pow, Nat.testBit_div_two_pow, Nat.add_comm]

theorem State.rg_lt (s : State) (o : Nat) : s.rg o < 4294967296 := (tget regReset s.regs o).isLt

theorem State.rg_mod (s : State) (o : Nat) : s.rg o % 4294967296 = s.rg o := Nat.mod_eq_of_lt (s.rg_lt o)

/-- The bits of a word with the field `hi` down to `lo` replaced. -/
theorem testBit_setBits (w hi lo v i : Nat) (h : lo ≤ hi) :
    (setBits w hi lo v).testBit i = if lo ≤ i ∧ i ≤ hi then v.testBit (i - lo) else w.testBit i := by
  have hk : lo + (hi + 1 - lo) = hi + 1 := by omega
  have h0 : w = w % 2 ^ lo + 2 ^ lo * (bitsOf w hi lo + 2 ^ (hi + 1 - lo) * (w / 2 ^ (hi + 1))) := by
    have h1 := Nat.div_add_mod w (2 ^ lo)
    have h2 := Nat.div_add_mod (w / 2 ^ lo) (2 ^ (hi + 1 - lo))
    rw [Nat.div_div_eq_div_mul, ← pow_add, hk] at h2
    unfold bitsOf
    rw [Nat.add_comm (w / 2 ^ lo % _), h2]; omega
  have h3 : setBits w hi lo v = w % 2 ^ lo + 2 ^ lo * (v % 2 ^ (hi + 1 - lo) + 2 ^ (hi + 1 - lo) * (w / 2 ^ (hi + 1))) := by
    unfold setBits
    have : w - bitsOf w hi lo * 2 ^ lo = w % 2 ^ lo + 2 ^ lo * (2 ^ (hi + 1 - lo) * (w / 2 ^ (hi + 1))) := by
      conv_lhs => lhs; rw [h0]
      rw [Nat.mul_add, Nat.mul_comm (2 ^ lo) (bitsOf _ _ _)]; omega
    rw [this]; ring
  have ha := Nat.mod_lt w (Nat.two_pow_pos lo)
  have hb := Nat.mod_lt v (Nat.two_pow_pos (hi + 1 - lo))
  rw [h3, Nat.add_comm, Nat.testBit_two_pow_mul_add _ ha]
  by_cases h4 : i < lo
  · rw [if_pos h4, if_neg (by omega), Nat.testBit_mod_two_pow]; simp [h4]
  · rw [if_neg h4, Nat.add_comm, Nat.testBit_two_pow_mul_add _ hb]
    by_cases h5 : i ≤ hi
    · rw [if_pos (by omega), if_pos (by omega), Nat.testBit_mod_two_pow]; simp; omega
    · rw [if_neg (by omega), if_neg (by omega), Nat.testBit_div_two_pow]
      congr 1; omega

theorem setBits_lt {w hi lo v k : Nat} (hw : w < 2 ^ k) (h : lo ≤ hi) (hk : hi < k) : setBits w hi lo v < 2 ^ k := by
  apply Nat.lt_pow_two_of_testBit
  intro i hi'
  rw [testBit_setBits _ _ _ _ _ h, if_neg (by omega)]
  exact Nat.testBit_lt_two_pow (lt_of_lt_of_le hw (Nat.pow_le_pow_right (by omega) hi'))

theorem bitsOf_setBits_same (w hi lo v : Nat) (h : lo ≤ hi) : bitsOf (setBits w hi lo v) hi lo = v % 2 ^ (hi + 1 - lo) := by
  apply Nat.eq_of_testBit_eq
  intro i
  rw [testBit_bitsOf, testBit_setBits _ _ _ _ _ h, Nat.testBit_mod_two_pow]
  by_cases hi' : i < hi + 1 - lo
  · rw [if_pos (by omega)]; simp
  · simp [hi']

theorem bitsOf_setBits_out (w hi lo v a b : Nat) (h : lo ≤ hi) (hd : a < lo ∨ hi < b) :
    bitsOf (setBits w hi lo v) a b = bitsOf w a b := by
  apply Nat.eq_of_testBit_eq
  intro i
  rw [testBit_bitsOf, testBit_bitsOf, testBit_setBits _ _ _ _ _ h]
  by_cases hi' : i < a + 1 - b
  · rw [if_neg (by omega)]
  · simp [hi']

theorem bitOf_setBits (w hi lo v i : Nat) (h : lo ≤ hi) :
    bitOf (setBits w hi lo v) i = if lo ≤ i ∧ i ≤ hi then bitOf v (i - lo) else bitOf w i := by
  simp only [bitOf_eq_testBit, testBit_setBits _ _ _ _ _ h]

theorem leNat_leBytes (n v : Nat) : leNat (leBytes n v) = v % 256 ^ n := by
  induction n generalizing v with
  | zero => simp [leNat, leBytes, Nat.mod_one]
  | succ n ih =>
    rw [leBytes, leNat, ih, pow_succ, Nat.mul_comm (256 ^ n), Nat.mod_mul]
    simp

theorem leBytes_length (n v : Nat) : (leBytes n v).length = n := by
  induction n generalizing v with
  | zero => rfl
  | succ n ih => simp [leBytes, ih]

theorem leNat_leBytes_word (v : Word) : leNat (leBytes 4 v.toNat) = v.toNat := by
  rw [leNat_leBytes]; exact Nat.mod_eq_of_lt v.isLt

end Sys2Proof.Machine
end

