-- ==== Sys2Proof/Laws/Table.lean ====
section
/-! SUPPORT. What reading, writing and removing do to the sparse maps, for maps in any form, and that writing keeps the
canonical form. -/

namespace Sys2Proof.Machine

variable {α : Type} [DecidableEq α] (d : Nat → α)

omit [DecidableEq α] in
theorem tget_tdel_same (t : Tbl α) (k : Nat) : tget d (tdel t k) k = d k := by
  induction t with
  | nil => rfl
  | cons p r ih => obtain ⟨j, w⟩ := p; simp only [tdel]; split <;> simp_all [tget]

omit [DecidableEq α] in
theorem tget_tdel_ne (t : Tbl α) {k l : Nat} (h : l ≠ k) : tget d (tdel t k) l = tget d t l := by
  induction t with
  | nil => rfl
  | cons p r ih =>
    obtain ⟨j, w⟩ := p
    simp only [tdel]
    split
    · subst_vars; simp [tget, Ne.symm h, ih]
    · simp [tget, ih]

@[simp] theorem tget_tput_same (t : Tbl α) (k : Nat) (v : α) : tget d (tput d t k v) k = v := by
  induction t with
  | nil => simp only [tput]; split <;> simp_all [tget]
  | cons p r ih =>
    obtain ⟨j, w⟩ := p
    simp only [tput]
    split
    · exact ih
    · split
      · simp_all [tget]
      · split <;> simp_all [tget, tget_tdel_same]

theorem tget_tput_ne (t : Tbl α) {k l : Nat} (v : α) (h : l ≠ k) : tget d (tput d t k v) l = tget d t l := by
  induction t with
  | nil => simp only [tput]; split <;> simp [tget, Ne.symm h]
  | cons p r ih =>
    obtain ⟨j, w⟩ := p
    simp only [tput]
    split
    · subst_vars; simp [tget, Ne.symm h, ih]
    · split
      · simp [tget, ih]
      · split <;> simp [tget, tget_tdel_ne d r h, Ne.symm h]

theorem tget_tput (t : Tbl α) (k l : Nat) (v : α) : tget d (tput d t k v) l = if l = k then v else tget d t l := by
  split
  · subst_vars; simp
  · exact tget_tput_ne d t v ‹_›

omit [DecidableEq α] in
theorem tdel_tdel (t : Tbl α) (k : Nat) : tdel (tdel t k) k = tdel t k := by
  induction t with
  | nil => rfl
  | cons p r ih =>
    obtain ⟨j, w⟩ := p
    by_cases h : j = k <;> simp [tdel, h, ih]

/-- Of two writes of one key the second stands. -/
@[simp] theorem tput_tput (t : Tbl α) (k : Nat) (v w : α) : tput d (tput d t k v) k w = tput d t k w := by
  induction t with
  | nil =>
    by_cases h : v = d k <;> simp [tput, h]
  | cons p r ih =>
    obtain ⟨j, u⟩ := p
    by_cases h : j = k
    · simp [tput, h, ih]
    · by_cases h2 : j < k
      · simp [tput, h, h2, ih]
      · by_cases h3 : v = d k <;> simp [tput, h, h2, h3, tdel_tdel]

theorem tok_mono {t : Tbl α} {a b : Nat} (h : tok d b t = true) (hab : a ≤ b) : tok d a t = true := by
  cases t with
  | nil => rfl
  | cons p r => obtain ⟨j, w⟩ := p; simp only [tok, Bool.and_eq_true, decide_eq_true_eq] at *; exact ⟨⟨by omega, h.1.2⟩, h.2⟩

theorem tok_tdel_above {t : Tbl α} {a k : Nat} (h : tok d a t = true) (hk : k < a) : tdel t k = t := by
  induction t generalizing a with
  | nil => rfl
  | cons p r ih =>
    obtain ⟨j, w⟩ := p
    simp only [tok, Bool.and_eq_true, decide_eq_true_eq] at h
    simp only [tdel, show j ≠ k by omega, if_false, ih h.2 (by omega)]

theorem tok_tput {t : Tbl α} {a k : Nat} (v : α) (h : tok d a t = true) (hk : a ≤ k) : tok d a (tput d t k v) = true := by
  induction t generalizing a with
  | nil => simp only [tput]; split <;> simp_all [tok]
  | cons p r ih =>
    obtain ⟨j, w⟩ := p
    simp only [tok, Bool.and_eq_true, decide_eq_true_eq] at h
    simp only [tput]
    split
    · exact ih (tok_mono d h.2 (by omega)) (by omega)
    · split
      · simp only [tok, Bool.and_eq_true, decide_eq_true_eq]; exact ⟨h.1, ih h.2 (by omega)⟩
      · split
        · simp only [tok, Bool.and_eq_true, decide_eq_true_eq, tok_tdel_above d h.2 (by omega : k < j + 1)]; exact h
        · simp only [tok, Bool.and_eq_true, decide_eq_true_eq, tok_tdel_above d h.2 (by omega : k < j + 1)]
          exact ⟨⟨hk, by assumption⟩, ⟨by omega, h.1.2⟩, h.2⟩

/-- Writing keeps the canonical form. -/
theorem twf_tput {t : Tbl α} (k : Nat) (v : α) (h : twf d t = true) : twf d (tput d t k v) = true :=
  tok_tput d v h (Nat.zero_le k)

/-- Writing several values keeps it. -/
theorem twf_tputs (t : Tbl α) (k : Nat) (vs : List α) (h : twf d t = true) : twf d (tputs d t k vs) = true := by
  induction vs generalizing t k with
  | nil => exact h
  | cons v r ih => exact ih _ _ (twf_tput d k v h)

/-- A key outside those written keeps its value. -/
theorem tget_tputs_out (t : Tbl α) (k l : Nat) (vs : List α) (h : l < k ∨ k + vs.length ≤ l) :
    tget d (tputs d t k vs) l = tget d t l := by
  induction vs generalizing t k with
  | nil => rfl
  | cons v r ih =>
    simp only [List.length_cons] at h
    rw [tputs, ih _ _ (by omega), tget_tput_ne d t v (by omega)]

/-- What was written is read back. -/
theorem tslice_tputs (t : Tbl α) (k : Nat) (vs : List α) : tslice d (tputs d t k vs) k vs.length = vs := by
  induction vs generalizing t k with
  | nil => rfl
  | cons v r ih =>
    have h : tslice d (tputs d t k (v :: r)) k (r.length + 1) =
        tget d (tputs d t k (v :: r)) k :: tslice d (tputs d t k (v :: r)) (k + 1) r.length := by
      simp only [tslice, List.range_succ_eq_map, List.map_cons, List.map_map, Nat.add_zero]
      refine congrArg _ (List.map_congr_left fun i _ => ?_)
      simp only [Function.comp, Nat.succ_eq_add_one]
      congr 1
      omega
    rw [List.length_cons, h, tputs, ih, tget_tputs_out d _ _ _ _ (by omega), tget_tput_same]

end Sys2Proof.Machine
end

