-- ==== Sys2Proof/Laws/State.lean ====
section
/-! SUPPORT. What the updates of the state leave, field by field, and what is read back after them. -/

namespace Sys2Proof.Machine

/-! `State.setRg` changes `regs` alone. -/

@[simp] theorem State.setRg_pending (s : State) (o v : Nat) : (s.setRg o v).pending = s.pending := rfl
@[simp] theorem State.setRg_tick (s : State) (o v : Nat) : (s.setRg o v).tick = s.tick := rfl
@[simp] theorem State.setRg_cyc (s : State) (o v : Nat) : (s.setRg o v).cyc = s.cyc := rfl
@[simp] theorem State.setRg_running (s : State) (o v : Nat) : (s.setRg o v).running = s.running := rfl
@[simp] theorem State.setRg_shadow (s : State) (o v : Nat) : (s.setRg o v).shadow = s.shadow := rfl
@[simp] theorem State.setRg_voteErr (s : State) (o v : Nat) : (s.setRg o v).voteErr = s.voteErr := rfl
@[simp] theorem State.setRg_seqRun (s : State) (o v : Nat) : (s.setRg o v).seqRun = s.seqRun := rfl
@[simp] theorem State.setRg_seqAt (s : State) (o v : Nat) : (s.setRg o v).seqAt = s.seqAt := rfl
@[simp] theorem State.setRg_mem (s : State) (o v : Nat) : (s.setRg o v).mem = s.mem := rfl
@[simp] theorem State.setRg_memUE (s : State) (o v : Nat) : (s.setRg o v).memUE = s.memUE := rfl
@[simp] theorem State.setRg_memCE (s : State) (o v : Nat) : (s.setRg o v).memCE = s.memCE := rfl
@[simp] theorem State.setRg_chans (s : State) (o v : Nat) : (s.setRg o v).chans = s.chans := rfl
@[simp] theorem State.setRg_fenced (s : State) (o v : Nat) : (s.setRg o v).fenced = s.fenced := rfl
@[simp] theorem State.setRg_fenceAt (s : State) (o v : Nat) : (s.setRg o v).fenceAt = s.fenceAt := rfl
@[simp] theorem State.setRg_held (s : State) (o v : Nat) : (s.setRg o v).held = s.held := rfl
@[simp] theorem State.setRg_calSel (s : State) (o v : Nat) : (s.setRg o v).calSel = s.calSel := rfl
@[simp] theorem State.setRg_calBad (s : State) (o v : Nat) : (s.setRg o v).calBad = s.calBad := rfl
@[simp] theorem State.setRg_calFlip (s : State) (o v : Nat) : (s.setRg o v).calFlip = s.calFlip := rfl
@[simp] theorem State.setRg_calHold (s : State) (o v : Nat) : (s.setRg o v).calHold = s.calHold := rfl
@[simp] theorem State.setRg_calKeep (s : State) (o v : Nat) : (s.setRg o v).calKeep = s.calKeep := rfl
@[simp] theorem State.setRg_tileT (s : State) (o v : Nat) : (s.setRg o v).tileT = s.tileT := rfl
@[simp] theorem State.setRg_tileTUse (s : State) (o v : Nat) : (s.setRg o v).tileTUse = s.tileTUse := rfl
@[simp] theorem State.setRg_tiles (s : State) (o v : Nat) : (s.setRg o v).tiles = s.tiles := rfl
@[simp] theorem State.setRg_pscs (s : State) (o v : Nat) : (s.setRg o v).pscs = s.pscs := rfl
@[simp] theorem State.setRg_auxPh (s : State) (o v : Nat) : (s.setRg o v).auxPh = s.auxPh := rfl
@[simp] theorem State.setRg_contribs (s : State) (o v : Nat) : (s.setRg o v).contribs = s.contribs := rfl
@[simp] theorem State.setRg_evcLast (s : State) (o v : Nat) : (s.setRg o v).evcLast = s.evcLast := rfl
@[simp] theorem State.setRg_loopCnt (s : State) (o v : Nat) : (s.setRg o v).loopCnt = s.loopCnt := rfl
@[simp] theorem State.setRg_fired (s : State) (o v : Nat) : (s.setRg o v).fired = s.fired := rfl
@[simp] theorem State.setRg_trig (s : State) (o v : Nat) : (s.setRg o v).trig = s.trig := rfl
@[simp] theorem State.setRg_alive (s : State) (o v : Nat) : (s.setRg o v).alive = s.alive := rfl
@[simp] theorem State.setRg_fltReg (s : State) (o v : Nat) : (s.setRg o v).fltReg = s.fltReg := rfl
@[simp] theorem State.setRg_causes (s : State) (o v : Nat) : (s.setRg o v).causes = s.causes := rfl
@[simp] theorem State.setRg_later (s : State) (o v : Nat) : (s.setRg o v).later = s.later := rfl
@[simp] theorem State.setRg_linkBad (s : State) (o v : Nat) : (s.setRg o v).linkBad = s.linkBad := rfl
@[simp] theorem State.setRg_linkGood (s : State) (o v : Nat) : (s.setRg o v).linkGood = s.linkGood := rfl
@[simp] theorem State.setRg_guards (s : State) (o v : Nat) : (s.setRg o v).guards = s.guards := rfl
@[simp] theorem State.setRg_holds (s : State) (o v : Nat) : (s.setRg o v).holds = s.holds := rfl
@[simp] theorem State.setRg_latches (s : State) (o v : Nat) : (s.setRg o v).latches = s.latches := rfl
@[simp] theorem State.setRg_strobes (s : State) (o v : Nat) : (s.setRg o v).strobes = s.strobes := rfl
@[simp] theorem State.setRg_crc (s : State) (o v : Nat) : (s.setRg o v).crc = s.crc := rfl
@[simp] theorem State.setRg_refillAt (s : State) (o v : Nat) : (s.setRg o v).refillAt = s.refillAt := rfl
@[simp] theorem State.setRg_lines (s : State) (o v : Nat) : (s.setRg o v).lines = s.lines := rfl
@[simp] theorem State.setRg_lineOn (s : State) (o v : Nat) : (s.setRg o v).lineOn = s.lineOn := rfl
@[simp] theorem State.setRg_updDue (s : State) (o v : Nat) : (s.setRg o v).updDue = s.updDue := rfl
@[simp] theorem State.setRg_updAt (s : State) (o v : Nat) : (s.setRg o v).updAt = s.updAt := rfl
@[simp] theorem State.setRg_boot (s : State) (o v : Nat) : (s.setRg o v).boot = s.boot := rfl
@[simp] theorem State.setRg_fab (s : State) (o v : Nat) : (s.setRg o v).fab = s.fab := rfl
@[simp] theorem State.setRg_fwq (s : State) (o v : Nat) : (s.setRg o v).fwq = s.fwq := rfl
@[simp] theorem State.setRg_nextDtag (s : State) (o v : Nat) : (s.setRg o v).nextDtag = s.nextDtag := rfl
@[simp] theorem State.setRg_cpu (s : State) (o v : Nat) : (s.setRg o v).cpu = s.cpu := rfl
@[simp] theorem State.setRg_hostp (s : State) (o v : Nat) : (s.setRg o v).hostp = s.hostp := rfl
@[simp] theorem State.setRg_clk (s : State) (o v : Nat) : (s.setRg o v).clk = s.clk := rfl
@[simp] theorem State.setRg_jtag (s : State) (o v : Nat) : (s.setRg o v).jtag = s.jtag := rfl
@[simp] theorem State.setRg_out (s : State) (o v : Nat) : (s.setRg o v).out = s.out := rfl

/-! `State.setSh` changes `shadow` alone. -/

@[simp] theorem State.setSh_pending (s : State) (o v : Nat) : (s.setSh o v).pending = s.pending := rfl
@[simp] theorem State.setSh_tick (s : State) (o v : Nat) : (s.setSh o v).tick = s.tick := rfl
@[simp] theorem State.setSh_cyc (s : State) (o v : Nat) : (s.setSh o v).cyc = s.cyc := rfl
@[simp] theorem State.setSh_running (s : State) (o v : Nat) : (s.setSh o v).running = s.running := rfl
@[simp] theorem State.setSh_regs (s : State) (o v : Nat) : (s.setSh o v).regs = s.regs := rfl
@[simp] theorem State.setSh_voteErr (s : State) (o v : Nat) : (s.setSh o v).voteErr = s.voteErr := rfl
@[simp] theorem State.setSh_seqRun (s : State) (o v : Nat) : (s.setSh o v).seqRun = s.seqRun := rfl
@[simp] theorem State.setSh_seqAt (s : State) (o v : Nat) : (s.setSh o v).seqAt = s.seqAt := rfl
@[simp] theorem State.setSh_mem (s : State) (o v : Nat) : (s.setSh o v).mem = s.mem := rfl
@[simp] theorem State.setSh_memUE (s : State) (o v : Nat) : (s.setSh o v).memUE = s.memUE := rfl
@[simp] theorem State.setSh_memCE (s : State) (o v : Nat) : (s.setSh o v).memCE = s.memCE := rfl
@[simp] theorem State.setSh_chans (s : State) (o v : Nat) : (s.setSh o v).chans = s.chans := rfl
@[simp] theorem State.setSh_fenced (s : State) (o v : Nat) : (s.setSh o v).fenced = s.fenced := rfl
@[simp] theorem State.setSh_fenceAt (s : State) (o v : Nat) : (s.setSh o v).fenceAt = s.fenceAt := rfl
@[simp] theorem State.setSh_held (s : State) (o v : Nat) : (s.setSh o v).held = s.held := rfl
@[simp] theorem State.setSh_calSel (s : State) (o v : Nat) : (s.setSh o v).calSel = s.calSel := rfl
@[simp] theorem State.setSh_calBad (s : State) (o v : Nat) : (s.setSh o v).calBad = s.calBad := rfl
@[simp] theorem State.setSh_calFlip (s : State) (o v : Nat) : (s.setSh o v).calFlip = s.calFlip := rfl
@[simp] theorem State.setSh_calHold (s : State) (o v : Nat) : (s.setSh o v).calHold = s.calHold := rfl
@[simp] theorem State.setSh_calKeep (s : State) (o v : Nat) : (s.setSh o v).calKeep = s.calKeep := rfl
@[simp] theorem State.setSh_tileT (s : State) (o v : Nat) : (s.setSh o v).tileT = s.tileT := rfl
@[simp] theorem State.setSh_tileTUse (s : State) (o v : Nat) : (s.setSh o v).tileTUse = s.tileTUse := rfl
@[simp] theorem State.setSh_tiles (s : State) (o v : Nat) : (s.setSh o v).tiles = s.tiles := rfl
@[simp] theorem State.setSh_pscs (s : State) (o v : Nat) : (s.setSh o v).pscs = s.pscs := rfl
@[simp] theorem State.setSh_auxPh (s : State) (o v : Nat) : (s.setSh o v).auxPh = s.auxPh := rfl
@[simp] theorem State.setSh_contribs (s : State) (o v : Nat) : (s.setSh o v).contribs = s.contribs := rfl
@[simp] theorem State.setSh_evcLast (s : State) (o v : Nat) : (s.setSh o v).evcLast = s.evcLast := rfl
@[simp] theorem State.setSh_loopCnt (s : State) (o v : Nat) : (s.setSh o v).loopCnt = s.loopCnt := rfl
@[simp] theorem State.setSh_fired (s : State) (o v : Nat) : (s.setSh o v).fired = s.fired := rfl
@[simp] theorem State.setSh_trig (s : State) (o v : Nat) : (s.setSh o v).trig = s.trig := rfl
@[simp] theorem State.setSh_alive (s : State) (o v : Nat) : (s.setSh o v).alive = s.alive := rfl
@[simp] theorem State.setSh_fltReg (s : State) (o v : Nat) : (s.setSh o v).fltReg = s.fltReg := rfl
@[simp] theorem State.setSh_causes (s : State) (o v : Nat) : (s.setSh o v).causes = s.causes := rfl
@[simp] theorem State.setSh_later (s : State) (o v : Nat) : (s.setSh o v).later = s.later := rfl
@[simp] theorem State.setSh_linkBad (s : State) (o v : Nat) : (s.setSh o v).linkBad = s.linkBad := rfl
@[simp] theorem State.setSh_linkGood (s : State) (o v : Nat) : (s.setSh o v).linkGood = s.linkGood := rfl
@[simp] theorem State.setSh_guards (s : State) (o v : Nat) : (s.setSh o v).guards = s.guards := rfl
@[simp] theorem State.setSh_holds (s : State) (o v : Nat) : (s.setSh o v).holds = s.holds := rfl
@[simp] theorem State.setSh_latches (s : State) (o v : Nat) : (s.setSh o v).latches = s.latches := rfl
@[simp] theorem State.setSh_strobes (s : State) (o v : Nat) : (s.setSh o v).strobes = s.strobes := rfl
@[simp] theorem State.setSh_crc (s : State) (o v : Nat) : (s.setSh o v).crc = s.crc := rfl
@[simp] theorem State.setSh_refillAt (s : State) (o v : Nat) : (s.setSh o v).refillAt = s.refillAt := rfl
@[simp] theorem State.setSh_lines (s : State) (o v : Nat) : (s.setSh o v).lines = s.lines := rfl
@[simp] theorem State.setSh_lineOn (s : State) (o v : Nat) : (s.setSh o v).lineOn = s.lineOn := rfl
@[simp] theorem State.setSh_updDue (s : State) (o v : Nat) : (s.setSh o v).updDue = s.updDue := rfl
@[simp] theorem State.setSh_updAt (s : State) (o v : Nat) : (s.setSh o v).updAt = s.updAt := rfl
@[simp] theorem State.setSh_boot (s : State) (o v : Nat) : (s.setSh o v).boot = s.boot := rfl
@[simp] theorem State.setSh_fab (s : State) (o v : Nat) : (s.setSh o v).fab = s.fab := rfl
@[simp] theorem State.setSh_fwq (s : State) (o v : Nat) : (s.setSh o v).fwq = s.fwq := rfl
@[simp] theorem State.setSh_nextDtag (s : State) (o v : Nat) : (s.setSh o v).nextDtag = s.nextDtag := rfl
@[simp] theorem State.setSh_cpu (s : State) (o v : Nat) : (s.setSh o v).cpu = s.cpu := rfl
@[simp] theorem State.setSh_hostp (s : State) (o v : Nat) : (s.setSh o v).hostp = s.hostp := rfl
@[simp] theorem State.setSh_clk (s : State) (o v : Nat) : (s.setSh o v).clk = s.clk := rfl
@[simp] theorem State.setSh_jtag (s : State) (o v : Nat) : (s.setSh o v).jtag = s.jtag := rfl
@[simp] theorem State.setSh_out (s : State) (o v : Nat) : (s.setSh o v).out = s.out := rfl

/-! `State.setCh` changes `chans` alone. -/

@[simp] theorem State.setCh_pending (s : State) (n : Nat) (c : Chan) : (s.setCh n c).pending = s.pending := rfl
@[simp] theorem State.setCh_tick (s : State) (n : Nat) (c : Chan) : (s.setCh n c).tick = s.tick := rfl
@[simp] theorem State.setCh_cyc (s : State) (n : Nat) (c : Chan) : (s.setCh n c).cyc = s.cyc := rfl
@[simp] theorem State.setCh_running (s : State) (n : Nat) (c : Chan) : (s.setCh n c).running = s.running := rfl
@[simp] theorem State.setCh_regs (s : State) (n : Nat) (c : Chan) : (s.setCh n c).regs = s.regs := rfl
@[simp] theorem State.setCh_shadow (s : State) (n : Nat) (c : Chan) : (s.setCh n c).shadow = s.shadow := rfl
@[simp] theorem State.setCh_voteErr (s : State) (n : Nat) (c : Chan) : (s.setCh n c).voteErr = s.voteErr := rfl
@[simp] theorem State.setCh_seqRun (s : State) (n : Nat) (c : Chan) : (s.setCh n c).seqRun = s.seqRun := rfl
@[simp] theorem State.setCh_seqAt (s : State) (n : Nat) (c : Chan) : (s.setCh n c).seqAt = s.seqAt := rfl
@[simp] theorem State.setCh_mem (s : State) (n : Nat) (c : Chan) : (s.setCh n c).mem = s.mem := rfl
@[simp] theorem State.setCh_memUE (s : State) (n : Nat) (c : Chan) : (s.setCh n c).memUE = s.memUE := rfl
@[simp] theorem State.setCh_memCE (s : State) (n : Nat) (c : Chan) : (s.setCh n c).memCE = s.memCE := rfl
@[simp] theorem State.setCh_fenced (s : State) (n : Nat) (c : Chan) : (s.setCh n c).fenced = s.fenced := rfl
@[simp] theorem State.setCh_fenceAt (s : State) (n : Nat) (c : Chan) : (s.setCh n c).fenceAt = s.fenceAt := rfl
@[simp] theorem State.setCh_held (s : State) (n : Nat) (c : Chan) : (s.setCh n c).held = s.held := rfl
@[simp] theorem State.setCh_calSel (s : State) (n : Nat) (c : Chan) : (s.setCh n c).calSel = s.calSel := rfl
@[simp] theorem State.setCh_calBad (s : State) (n : Nat) (c : Chan) : (s.setCh n c).calBad = s.calBad := rfl
@[simp] theorem State.setCh_calFlip (s : State) (n : Nat) (c : Chan) : (s.setCh n c).calFlip = s.calFlip := rfl
@[simp] theorem State.setCh_calHold (s : State) (n : Nat) (c : Chan) : (s.setCh n c).calHold = s.calHold := rfl
@[simp] theorem State.setCh_calKeep (s : State) (n : Nat) (c : Chan) : (s.setCh n c).calKeep = s.calKeep := rfl
@[simp] theorem State.setCh_tileT (s : State) (n : Nat) (c : Chan) : (s.setCh n c).tileT = s.tileT := rfl
@[simp] theorem State.setCh_tileTUse (s : State) (n : Nat) (c : Chan) : (s.setCh n c).tileTUse = s.tileTUse := rfl
@[simp] theorem State.setCh_tiles (s : State) (n : Nat) (c : Chan) : (s.setCh n c).tiles = s.tiles := rfl
@[simp] theorem State.setCh_pscs (s : State) (n : Nat) (c : Chan) : (s.setCh n c).pscs = s.pscs := rfl
@[simp] theorem State.setCh_auxPh (s : State) (n : Nat) (c : Chan) : (s.setCh n c).auxPh = s.auxPh := rfl
@[simp] theorem State.setCh_contribs (s : State) (n : Nat) (c : Chan) : (s.setCh n c).contribs = s.contribs := rfl
@[simp] theorem State.setCh_evcLast (s : State) (n : Nat) (c : Chan) : (s.setCh n c).evcLast = s.evcLast := rfl
@[simp] theorem State.setCh_loopCnt (s : State) (n : Nat) (c : Chan) : (s.setCh n c).loopCnt = s.loopCnt := rfl
@[simp] theorem State.setCh_fired (s : State) (n : Nat) (c : Chan) : (s.setCh n c).fired = s.fired := rfl
@[simp] theorem State.setCh_trig (s : State) (n : Nat) (c : Chan) : (s.setCh n c).trig = s.trig := rfl
@[simp] theorem State.setCh_alive (s : State) (n : Nat) (c : Chan) : (s.setCh n c).alive = s.alive := rfl
@[simp] theorem State.setCh_fltReg (s : State) (n : Nat) (c : Chan) : (s.setCh n c).fltReg = s.fltReg := rfl
@[simp] theorem State.setCh_causes (s : State) (n : Nat) (c : Chan) : (s.setCh n c).causes = s.causes := rfl
@[simp] theorem State.setCh_later (s : State) (n : Nat) (c : Chan) : (s.setCh n c).later = s.later := rfl
@[simp] theorem State.setCh_linkBad (s : State) (n : Nat) (c : Chan) : (s.setCh n c).linkBad = s.linkBad := rfl
@[simp] theorem State.setCh_linkGood (s : State) (n : Nat) (c : Chan) : (s.setCh n c).linkGood = s.linkGood := rfl
@[simp] theorem State.setCh_guards (s : State) (n : Nat) (c : Chan) : (s.setCh n c).guards = s.guards := rfl
@[simp] theorem State.setCh_holds (s : State) (n : Nat) (c : Chan) : (s.setCh n c).holds = s.holds := rfl
@[simp] theorem State.setCh_latches (s : State) (n : Nat) (c : Chan) : (s.setCh n c).latches = s.latches := rfl
@[simp] theorem State.setCh_strobes (s : State) (n : Nat) (c : Chan) : (s.setCh n c).strobes = s.strobes := rfl
@[simp] theorem State.setCh_crc (s : State) (n : Nat) (c : Chan) : (s.setCh n c).crc = s.crc := rfl
@[simp] theorem State.setCh_refillAt (s : State) (n : Nat) (c : Chan) : (s.setCh n c).refillAt = s.refillAt := rfl
@[simp] theorem State.setCh_lines (s : State) (n : Nat) (c : Chan) : (s.setCh n c).lines = s.lines := rfl
@[simp] theorem State.setCh_lineOn (s : State) (n : Nat) (c : Chan) : (s.setCh n c).lineOn = s.lineOn := rfl
@[simp] theorem State.setCh_updDue (s : State) (n : Nat) (c : Chan) : (s.setCh n c).updDue = s.updDue := rfl
@[simp] theorem State.setCh_updAt (s : State) (n : Nat) (c : Chan) : (s.setCh n c).updAt = s.updAt := rfl
@[simp] theorem State.setCh_boot (s : State) (n : Nat) (c : Chan) : (s.setCh n c).boot = s.boot := rfl
@[simp] theorem State.setCh_fab (s : State) (n : Nat) (c : Chan) : (s.setCh n c).fab = s.fab := rfl
@[simp] theorem State.setCh_fwq (s : State) (n : Nat) (c : Chan) : (s.setCh n c).fwq = s.fwq := rfl
@[simp] theorem State.setCh_nextDtag (s : State) (n : Nat) (c : Chan) : (s.setCh n c).nextDtag = s.nextDtag := rfl
@[simp] theorem State.setCh_cpu (s : State) (n : Nat) (c : Chan) : (s.setCh n c).cpu = s.cpu := rfl
@[simp] theorem State.setCh_hostp (s : State) (n : Nat) (c : Chan) : (s.setCh n c).hostp = s.hostp := rfl
@[simp] theorem State.setCh_clk (s : State) (n : Nat) (c : Chan) : (s.setCh n c).clk = s.clk := rfl
@[simp] theorem State.setCh_jtag (s : State) (n : Nat) (c : Chan) : (s.setCh n c).jtag = s.jtag := rfl
@[simp] theorem State.setCh_out (s : State) (n : Nat) (c : Chan) : (s.setCh n c).out = s.out := rfl

/-! `State.setPsc` changes `pscs` alone. -/

@[simp] theorem State.setPsc_pending (s : State) (m : Nat) (v : Psc) : (s.setPsc m v).pending = s.pending := rfl
@[simp] theorem State.setPsc_tick (s : State) (m : Nat) (v : Psc) : (s.setPsc m v).tick = s.tick := rfl
@[simp] theorem State.setPsc_cyc (s : State) (m : Nat) (v : Psc) : (s.setPsc m v).cyc = s.cyc := rfl
@[simp] theorem State.setPsc_running (s : State) (m : Nat) (v : Psc) : (s.setPsc m v).running = s.running := rfl
@[simp] theorem State.setPsc_regs (s : State) (m : Nat) (v : Psc) : (s.setPsc m v).regs = s.regs := rfl
@[simp] theorem State.setPsc_shadow (s : State) (m : Nat) (v : Psc) : (s.setPsc m v).shadow = s.shadow := rfl
@[simp] theorem State.setPsc_voteErr (s : State) (m : Nat) (v : Psc) : (s.setPsc m v).voteErr = s.voteErr := rfl
@[simp] theorem State.setPsc_seqRun (s : State) (m : Nat) (v : Psc) : (s.setPsc m v).seqRun = s.seqRun := rfl
@[simp] theorem State.setPsc_seqAt (s : State) (m : Nat) (v : Psc) : (s.setPsc m v).seqAt = s.seqAt := rfl
@[simp] theorem State.setPsc_mem (s : State) (m : Nat) (v : Psc) : (s.setPsc m v).mem = s.mem := rfl
@[simp] theorem State.setPsc_memUE (s : State) (m : Nat) (v : Psc) : (s.setPsc m v).memUE = s.memUE := rfl
@[simp] theorem State.setPsc_memCE (s : State) (m : Nat) (v : Psc) : (s.setPsc m v).memCE = s.memCE := rfl
@[simp] theorem State.setPsc_chans (s : State) (m : Nat) (v : Psc) : (s.setPsc m v).chans = s.chans := rfl
@[simp] theorem State.setPsc_fenced (s : State) (m : Nat) (v : Psc) : (s.setPsc m v).fenced = s.fenced := rfl
@[simp] theorem State.setPsc_fenceAt (s : State) (m : Nat) (v : Psc) : (s.setPsc m v).fenceAt = s.fenceAt := rfl
@[simp] theorem State.setPsc_held (s : State) (m : Nat) (v : Psc) : (s.setPsc m v).held = s.held := rfl
@[simp] theorem State.setPsc_calSel (s : State) (m : Nat) (v : Psc) : (s.setPsc m v).calSel = s.calSel := rfl
@[simp] theorem State.setPsc_calBad (s : State) (m : Nat) (v : Psc) : (s.setPsc m v).calBad = s.calBad := rfl
@[simp] theorem State.setPsc_calFlip (s : State) (m : Nat) (v : Psc) : (s.setPsc m v).calFlip = s.calFlip := rfl
@[simp] theorem State.setPsc_calHold (s : State) (m : Nat) (v : Psc) : (s.setPsc m v).calHold = s.calHold := rfl
@[simp] theorem State.setPsc_calKeep (s : State) (m : Nat) (v : Psc) : (s.setPsc m v).calKeep = s.calKeep := rfl
@[simp] theorem State.setPsc_tileT (s : State) (m : Nat) (v : Psc) : (s.setPsc m v).tileT = s.tileT := rfl
@[simp] theorem State.setPsc_tileTUse (s : State) (m : Nat) (v : Psc) : (s.setPsc m v).tileTUse = s.tileTUse := rfl
@[simp] theorem State.setPsc_tiles (s : State) (m : Nat) (v : Psc) : (s.setPsc m v).tiles = s.tiles := rfl
@[simp] theorem State.setPsc_auxPh (s : State) (m : Nat) (v : Psc) : (s.setPsc m v).auxPh = s.auxPh := rfl
@[simp] theorem State.setPsc_contribs (s : State) (m : Nat) (v : Psc) : (s.setPsc m v).contribs = s.contribs := rfl
@[simp] theorem State.setPsc_evcLast (s : State) (m : Nat) (v : Psc) : (s.setPsc m v).evcLast = s.evcLast := rfl
@[simp] theorem State.setPsc_loopCnt (s : State) (m : Nat) (v : Psc) : (s.setPsc m v).loopCnt = s.loopCnt := rfl
@[simp] theorem State.setPsc_fired (s : State) (m : Nat) (v : Psc) : (s.setPsc m v).fired = s.fired := rfl
@[simp] theorem State.setPsc_trig (s : State) (m : Nat) (v : Psc) : (s.setPsc m v).trig = s.trig := rfl
@[simp] theorem State.setPsc_alive (s : State) (m : Nat) (v : Psc) : (s.setPsc m v).alive = s.alive := rfl
@[simp] theorem State.setPsc_fltReg (s : State) (m : Nat) (v : Psc) : (s.setPsc m v).fltReg = s.fltReg := rfl
@[simp] theorem State.setPsc_causes (s : State) (m : Nat) (v : Psc) : (s.setPsc m v).causes = s.causes := rfl
@[simp] theorem State.setPsc_later (s : State) (m : Nat) (v : Psc) : (s.setPsc m v).later = s.later := rfl
@[simp] theorem State.setPsc_linkBad (s : State) (m : Nat) (v : Psc) : (s.setPsc m v).linkBad = s.linkBad := rfl
@[simp] theorem State.setPsc_linkGood (s : State) (m : Nat) (v : Psc) : (s.setPsc m v).linkGood = s.linkGood := rfl
@[simp] theorem State.setPsc_guards (s : State) (m : Nat) (v : Psc) : (s.setPsc m v).guards = s.guards := rfl
@[simp] theorem State.setPsc_holds (s : State) (m : Nat) (v : Psc) : (s.setPsc m v).holds = s.holds := rfl
@[simp] theorem State.setPsc_latches (s : State) (m : Nat) (v : Psc) : (s.setPsc m v).latches = s.latches := rfl
@[simp] theorem State.setPsc_strobes (s : State) (m : Nat) (v : Psc) : (s.setPsc m v).strobes = s.strobes := rfl
@[simp] theorem State.setPsc_crc (s : State) (m : Nat) (v : Psc) : (s.setPsc m v).crc = s.crc := rfl
@[simp] theorem State.setPsc_refillAt (s : State) (m : Nat) (v : Psc) : (s.setPsc m v).refillAt = s.refillAt := rfl
@[simp] theorem State.setPsc_lines (s : State) (m : Nat) (v : Psc) : (s.setPsc m v).lines = s.lines := rfl
@[simp] theorem State.setPsc_lineOn (s : State) (m : Nat) (v : Psc) : (s.setPsc m v).lineOn = s.lineOn := rfl
@[simp] theorem State.setPsc_updDue (s : State) (m : Nat) (v : Psc) : (s.setPsc m v).updDue = s.updDue := rfl
@[simp] theorem State.setPsc_updAt (s : State) (m : Nat) (v : Psc) : (s.setPsc m v).updAt = s.updAt := rfl
@[simp] theorem State.setPsc_boot (s : State) (m : Nat) (v : Psc) : (s.setPsc m v).boot = s.boot := rfl
@[simp] theorem State.setPsc_fab (s : State) (m : Nat) (v : Psc) : (s.setPsc m v).fab = s.fab := rfl
@[simp] theorem State.setPsc_fwq (s : State) (m : Nat) (v : Psc) : (s.setPsc m v).fwq = s.fwq := rfl
@[simp] theorem State.setPsc_nextDtag (s : State) (m : Nat) (v : Psc) : (s.setPsc m v).nextDtag = s.nextDtag := rfl
@[simp] theorem State.setPsc_cpu (s : State) (m : Nat) (v : Psc) : (s.setPsc m v).cpu = s.cpu := rfl
@[simp] theorem State.setPsc_hostp (s : State) (m : Nat) (v : Psc) : (s.setPsc m v).hostp = s.hostp := rfl
@[simp] theorem State.setPsc_clk (s : State) (m : Nat) (v : Psc) : (s.setPsc m v).clk = s.clk := rfl
@[simp] theorem State.setPsc_jtag (s : State) (m : Nat) (v : Psc) : (s.setPsc m v).jtag = s.jtag := rfl
@[simp] theorem State.setPsc_out (s : State) (m : Nat) (v : Psc) : (s.setPsc m v).out = s.out := rfl

/-! `State.setTile` changes `tiles` alone. -/

@[simp] theorem State.setTile_pending (s : State) (t : Nat) (v : Tile) : (s.setTile t v).pending = s.pending := rfl
@[simp] theorem State.setTile_tick (s : State) (t : Nat) (v : Tile) : (s.setTile t v).tick = s.tick := rfl
@[simp] theorem State.setTile_cyc (s : State) (t : Nat) (v : Tile) : (s.setTile t v).cyc = s.cyc := rfl
@[simp] theorem State.setTile_running (s : State) (t : Nat) (v : Tile) : (s.setTile t v).running = s.running := rfl
@[simp] theorem State.setTile_regs (s : State) (t : Nat) (v : Tile) : (s.setTile t v).regs = s.regs := rfl
@[simp] theorem State.setTile_shadow (s : State) (t : Nat) (v : Tile) : (s.setTile t v).shadow = s.shadow := rfl
@[simp] theorem State.setTile_voteErr (s : State) (t : Nat) (v : Tile) : (s.setTile t v).voteErr = s.voteErr := rfl
@[simp] theorem State.setTile_seqRun (s : State) (t : Nat) (v : Tile) : (s.setTile t v).seqRun = s.seqRun := rfl
@[simp] theorem State.setTile_seqAt (s : State) (t : Nat) (v : Tile) : (s.setTile t v).seqAt = s.seqAt := rfl
@[simp] theorem State.setTile_mem (s : State) (t : Nat) (v : Tile) : (s.setTile t v).mem = s.mem := rfl
@[simp] theorem State.setTile_memUE (s : State) (t : Nat) (v : Tile) : (s.setTile t v).memUE = s.memUE := rfl
@[simp] theorem State.setTile_memCE (s : State) (t : Nat) (v : Tile) : (s.setTile t v).memCE = s.memCE := rfl
@[simp] theorem State.setTile_chans (s : State) (t : Nat) (v : Tile) : (s.setTile t v).chans = s.chans := rfl
@[simp] theorem State.setTile_fenced (s : State) (t : Nat) (v : Tile) : (s.setTile t v).fenced = s.fenced := rfl
@[simp] theorem State.setTile_fenceAt (s : State) (t : Nat) (v : Tile) : (s.setTile t v).fenceAt = s.fenceAt := rfl
@[simp] theorem State.setTile_held (s : State) (t : Nat) (v : Tile) : (s.setTile t v).held = s.held := rfl
@[simp] theorem State.setTile_calSel (s : State) (t : Nat) (v : Tile) : (s.setTile t v).calSel = s.calSel := rfl
@[simp] theorem State.setTile_calBad (s : State) (t : Nat) (v : Tile) : (s.setTile t v).calBad = s.calBad := rfl
@[simp] theorem State.setTile_calFlip (s : State) (t : Nat) (v : Tile) : (s.setTile t v).calFlip = s.calFlip := rfl
@[simp] theorem State.setTile_calHold (s : State) (t : Nat) (v : Tile) : (s.setTile t v).calHold = s.calHold := rfl
@[simp] theorem State.setTile_calKeep (s : State) (t : Nat) (v : Tile) : (s.setTile t v).calKeep = s.calKeep := rfl
@[simp] theorem State.setTile_tileT (s : State) (t : Nat) (v : Tile) : (s.setTile t v).tileT = s.tileT := rfl
@[simp] theorem State.setTile_tileTUse (s : State) (t : Nat) (v : Tile) : (s.setTile t v).tileTUse = s.tileTUse := rfl
@[simp] theorem State.setTile_pscs (s : State) (t : Nat) (v : Tile) : (s.setTile t v).pscs = s.pscs := rfl
@[simp] theorem State.setTile_auxPh (s : State) (t : Nat) (v : Tile) : (s.setTile t v).auxPh = s.auxPh := rfl
@[simp] theorem State.setTile_contribs (s : State) (t : Nat) (v : Tile) : (s.setTile t v).contribs = s.contribs := rfl
@[simp] theorem State.setTile_evcLast (s : State) (t : Nat) (v : Tile) : (s.setTile t v).evcLast = s.evcLast := rfl
@[simp] theorem State.setTile_loopCnt (s : State) (t : Nat) (v : Tile) : (s.setTile t v).loopCnt = s.loopCnt := rfl
@[simp] theorem State.setTile_fired (s : State) (t : Nat) (v : Tile) : (s.setTile t v).fired = s.fired := rfl
@[simp] theorem State.setTile_trig (s : State) (t : Nat) (v : Tile) : (s.setTile t v).trig = s.trig := rfl
@[simp] theorem State.setTile_alive (s : State) (t : Nat) (v : Tile) : (s.setTile t v).alive = s.alive := rfl
@[simp] theorem State.setTile_fltReg (s : State) (t : Nat) (v : Tile) : (s.setTile t v).fltReg = s.fltReg := rfl
@[simp] theorem State.setTile_causes (s : State) (t : Nat) (v : Tile) : (s.setTile t v).causes = s.causes := rfl
@[simp] theorem State.setTile_later (s : State) (t : Nat) (v : Tile) : (s.setTile t v).later = s.later := rfl
@[simp] theorem State.setTile_linkBad (s : State) (t : Nat) (v : Tile) : (s.setTile t v).linkBad = s.linkBad := rfl
@[simp] theorem State.setTile_linkGood (s : State) (t : Nat) (v : Tile) : (s.setTile t v).linkGood = s.linkGood := rfl
@[simp] theorem State.setTile_guards (s : State) (t : Nat) (v : Tile) : (s.setTile t v).guards = s.guards := rfl
@[simp] theorem State.setTile_holds (s : State) (t : Nat) (v : Tile) : (s.setTile t v).holds = s.holds := rfl
@[simp] theorem State.setTile_latches (s : State) (t : Nat) (v : Tile) : (s.setTile t v).latches = s.latches := rfl
@[simp] theorem State.setTile_strobes (s : State) (t : Nat) (v : Tile) : (s.setTile t v).strobes = s.strobes := rfl
@[simp] theorem State.setTile_crc (s : State) (t : Nat) (v : Tile) : (s.setTile t v).crc = s.crc := rfl
@[simp] theorem State.setTile_refillAt (s : State) (t : Nat) (v : Tile) : (s.setTile t v).refillAt = s.refillAt := rfl
@[simp] theorem State.setTile_lines (s : State) (t : Nat) (v : Tile) : (s.setTile t v).lines = s.lines := rfl
@[simp] theorem State.setTile_lineOn (s : State) (t : Nat) (v : Tile) : (s.setTile t v).lineOn = s.lineOn := rfl
@[simp] theorem State.setTile_updDue (s : State) (t : Nat) (v : Tile) : (s.setTile t v).updDue = s.updDue := rfl
@[simp] theorem State.setTile_updAt (s : State) (t : Nat) (v : Tile) : (s.setTile t v).updAt = s.updAt := rfl
@[simp] theorem State.setTile_boot (s : State) (t : Nat) (v : Tile) : (s.setTile t v).boot = s.boot := rfl
@[simp] theorem State.setTile_fab (s : State) (t : Nat) (v : Tile) : (s.setTile t v).fab = s.fab := rfl
@[simp] theorem State.setTile_fwq (s : State) (t : Nat) (v : Tile) : (s.setTile t v).fwq = s.fwq := rfl
@[simp] theorem State.setTile_nextDtag (s : State) (t : Nat) (v : Tile) : (s.setTile t v).nextDtag = s.nextDtag := rfl
@[simp] theorem State.setTile_cpu (s : State) (t : Nat) (v : Tile) : (s.setTile t v).cpu = s.cpu := rfl
@[simp] theorem State.setTile_hostp (s : State) (t : Nat) (v : Tile) : (s.setTile t v).hostp = s.hostp := rfl
@[simp] theorem State.setTile_clk (s : State) (t : Nat) (v : Tile) : (s.setTile t v).clk = s.clk := rfl
@[simp] theorem State.setTile_jtag (s : State) (t : Nat) (v : Tile) : (s.setTile t v).jtag = s.jtag := rfl
@[simp] theorem State.setTile_out (s : State) (t : Nat) (v : Tile) : (s.setTile t v).out = s.out := rfl

/-! `State.setStrobe` changes `strobes` alone. -/

@[simp] theorem State.setStrobe_pending (s : State) (g : Nat) (v : Option Strobe) : (s.setStrobe g v).pending = s.pending := rfl
@[simp] theorem State.setStrobe_tick (s : State) (g : Nat) (v : Option Strobe) : (s.setStrobe g v).tick = s.tick := rfl
@[simp] theorem State.setStrobe_cyc (s : State) (g : Nat) (v : Option Strobe) : (s.setStrobe g v).cyc = s.cyc := rfl
@[simp] theorem State.setStrobe_running (s : State) (g : Nat) (v : Option Strobe) : (s.setStrobe g v).running = s.running := rfl
@[simp] theorem State.setStrobe_regs (s : State) (g : Nat) (v : Option Strobe) : (s.setStrobe g v).regs = s.regs := rfl
@[simp] theorem State.setStrobe_shadow (s : State) (g : Nat) (v : Option Strobe) : (s.setStrobe g v).shadow = s.shadow := rfl
@[simp] theorem State.setStrobe_voteErr (s : State) (g : Nat) (v : Option Strobe) : (s.setStrobe g v).voteErr = s.voteErr := rfl
@[simp] theorem State.setStrobe_seqRun (s : State) (g : Nat) (v : Option Strobe) : (s.setStrobe g v).seqRun = s.seqRun := rfl
@[simp] theorem State.setStrobe_seqAt (s : State) (g : Nat) (v : Option Strobe) : (s.setStrobe g v).seqAt = s.seqAt := rfl
@[simp] theorem State.setStrobe_mem (s : State) (g : Nat) (v : Option Strobe) : (s.setStrobe g v).mem = s.mem := rfl
@[simp] theorem State.setStrobe_memUE (s : State) (g : Nat) (v : Option Strobe) : (s.setStrobe g v).memUE = s.memUE := rfl
@[simp] theorem State.setStrobe_memCE (s : State) (g : Nat) (v : Option Strobe) : (s.setStrobe g v).memCE = s.memCE := rfl
@[simp] theorem State.setStrobe_chans (s : State) (g : Nat) (v : Option Strobe) : (s.setStrobe g v).chans = s.chans := rfl
@[simp] theorem State.setStrobe_fenced (s : State) (g : Nat) (v : Option Strobe) : (s.setStrobe g v).fenced = s.fenced := rfl
@[simp] theorem State.setStrobe_fenceAt (s : State) (g : Nat) (v : Option Strobe) : (s.setStrobe g v).fenceAt = s.fenceAt := rfl
@[simp] theorem State.setStrobe_held (s : State) (g : Nat) (v : Option Strobe) : (s.setStrobe g v).held = s.held := rfl
@[simp] theorem State.setStrobe_calSel (s : State) (g : Nat) (v : Option Strobe) : (s.setStrobe g v).calSel = s.calSel := rfl
@[simp] theorem State.setStrobe_calBad (s : State) (g : Nat) (v : Option Strobe) : (s.setStrobe g v).calBad = s.calBad := rfl
@[simp] theorem State.setStrobe_calFlip (s : State) (g : Nat) (v : Option Strobe) : (s.setStrobe g v).calFlip = s.calFlip := rfl
@[simp] theorem State.setStrobe_calHold (s : State) (g : Nat) (v : Option Strobe) : (s.setStrobe g v).calHold = s.calHold := rfl
@[simp] theorem State.setStrobe_calKeep (s : State) (g : Nat) (v : Option Strobe) : (s.setStrobe g v).calKeep = s.calKeep := rfl
@[simp] theorem State.setStrobe_tileT (s : State) (g : Nat) (v : Option Strobe) : (s.setStrobe g v).tileT = s.tileT := rfl
@[simp] theorem State.setStrobe_tileTUse (s : State) (g : Nat) (v : Option Strobe) : (s.setStrobe g v).tileTUse = s.tileTUse := rfl
@[simp] theorem State.setStrobe_tiles (s : State) (g : Nat) (v : Option Strobe) : (s.setStrobe g v).tiles = s.tiles := rfl
@[simp] theorem State.setStrobe_pscs (s : State) (g : Nat) (v : Option Strobe) : (s.setStrobe g v).pscs = s.pscs := rfl
@[simp] theorem State.setStrobe_auxPh (s : State) (g : Nat) (v : Option Strobe) : (s.setStrobe g v).auxPh = s.auxPh := rfl
@[simp] theorem State.setStrobe_contribs (s : State) (g : Nat) (v : Option Strobe) : (s.setStrobe g v).contribs = s.contribs := rfl
@[simp] theorem State.setStrobe_evcLast (s : State) (g : Nat) (v : Option Strobe) : (s.setStrobe g v).evcLast = s.evcLast := rfl
@[simp] theorem State.setStrobe_loopCnt (s : State) (g : Nat) (v : Option Strobe) : (s.setStrobe g v).loopCnt = s.loopCnt := rfl
@[simp] theorem State.setStrobe_fired (s : State) (g : Nat) (v : Option Strobe) : (s.setStrobe g v).fired = s.fired := rfl
@[simp] theorem State.setStrobe_trig (s : State) (g : Nat) (v : Option Strobe) : (s.setStrobe g v).trig = s.trig := rfl
@[simp] theorem State.setStrobe_alive (s : State) (g : Nat) (v : Option Strobe) : (s.setStrobe g v).alive = s.alive := rfl
@[simp] theorem State.setStrobe_fltReg (s : State) (g : Nat) (v : Option Strobe) : (s.setStrobe g v).fltReg = s.fltReg := rfl
@[simp] theorem State.setStrobe_causes (s : State) (g : Nat) (v : Option Strobe) : (s.setStrobe g v).causes = s.causes := rfl
@[simp] theorem State.setStrobe_later (s : State) (g : Nat) (v : Option Strobe) : (s.setStrobe g v).later = s.later := rfl
@[simp] theorem State.setStrobe_linkBad (s : State) (g : Nat) (v : Option Strobe) : (s.setStrobe g v).linkBad = s.linkBad := rfl
@[simp] theorem State.setStrobe_linkGood (s : State) (g : Nat) (v : Option Strobe) : (s.setStrobe g v).linkGood = s.linkGood := rfl
@[simp] theorem State.setStrobe_guards (s : State) (g : Nat) (v : Option Strobe) : (s.setStrobe g v).guards = s.guards := rfl
@[simp] theorem State.setStrobe_holds (s : State) (g : Nat) (v : Option Strobe) : (s.setStrobe g v).holds = s.holds := rfl
@[simp] theorem State.setStrobe_latches (s : State) (g : Nat) (v : Option Strobe) : (s.setStrobe g v).latches = s.latches := rfl
@[simp] theorem State.setStrobe_crc (s : State) (g : Nat) (v : Option Strobe) : (s.setStrobe g v).crc = s.crc := rfl
@[simp] theorem State.setStrobe_refillAt (s : State) (g : Nat) (v : Option Strobe) : (s.setStrobe g v).refillAt = s.refillAt := rfl
@[simp] theorem State.setStrobe_lines (s : State) (g : Nat) (v : Option Strobe) : (s.setStrobe g v).lines = s.lines := rfl
@[simp] theorem State.setStrobe_lineOn (s : State) (g : Nat) (v : Option Strobe) : (s.setStrobe g v).lineOn = s.lineOn := rfl
@[simp] theorem State.setStrobe_updDue (s : State) (g : Nat) (v : Option Strobe) : (s.setStrobe g v).updDue = s.updDue := rfl
@[simp] theorem State.setStrobe_updAt (s : State) (g : Nat) (v : Option Strobe) : (s.setStrobe g v).updAt = s.updAt := rfl
@[simp] theorem State.setStrobe_boot (s : State) (g : Nat) (v : Option Strobe) : (s.setStrobe g v).boot = s.boot := rfl
@[simp] theorem State.setStrobe_fab (s : State) (g : Nat) (v : Option Strobe) : (s.setStrobe g v).fab = s.fab := rfl
@[simp] theorem State.setStrobe_fwq (s : State) (g : Nat) (v : Option Strobe) : (s.setStrobe g v).fwq = s.fwq := rfl
@[simp] theorem State.setStrobe_nextDtag (s : State) (g : Nat) (v : Option Strobe) : (s.setStrobe g v).nextDtag = s.nextDtag := rfl
@[simp] theorem State.setStrobe_cpu (s : State) (g : Nat) (v : Option Strobe) : (s.setStrobe g v).cpu = s.cpu := rfl
@[simp] theorem State.setStrobe_hostp (s : State) (g : Nat) (v : Option Strobe) : (s.setStrobe g v).hostp = s.hostp := rfl
@[simp] theorem State.setStrobe_clk (s : State) (g : Nat) (v : Option Strobe) : (s.setStrobe g v).clk = s.clk := rfl
@[simp] theorem State.setStrobe_jtag (s : State) (g : Nat) (v : Option Strobe) : (s.setStrobe g v).jtag = s.jtag := rfl
@[simp] theorem State.setStrobe_out (s : State) (g : Nat) (v : Option Strobe) : (s.setStrobe g v).out = s.out := rfl

/-! `State.setPin` changes `trig` alone. -/

@[simp] theorem State.setPin_pending (s : State) (p : Nat) (v : Trig) : (s.setPin p v).pending = s.pending := rfl
@[simp] theorem State.setPin_tick (s : State) (p : Nat) (v : Trig) : (s.setPin p v).tick = s.tick := rfl
@[simp] theorem State.setPin_cyc (s : State) (p : Nat) (v : Trig) : (s.setPin p v).cyc = s.cyc := rfl
@[simp] theorem State.setPin_running (s : State) (p : Nat) (v : Trig) : (s.setPin p v).running = s.running := rfl
@[simp] theorem State.setPin_regs (s : State) (p : Nat) (v : Trig) : (s.setPin p v).regs = s.regs := rfl
@[simp] theorem State.setPin_shadow (s : State) (p : Nat) (v : Trig) : (s.setPin p v).shadow = s.shadow := rfl
@[simp] theorem State.setPin_voteErr (s : State) (p : Nat) (v : Trig) : (s.setPin p v).voteErr = s.voteErr := rfl
@[simp] theorem State.setPin_seqRun (s : State) (p : Nat) (v : Trig) : (s.setPin p v).seqRun = s.seqRun := rfl
@[simp] theorem State.setPin_seqAt (s : State) (p : Nat) (v : Trig) : (s.setPin p v).seqAt = s.seqAt := rfl
@[simp] theorem State.setPin_mem (s : State) (p : Nat) (v : Trig) : (s.setPin p v).mem = s.mem := rfl
@[simp] theorem State.setPin_memUE (s : State) (p : Nat) (v : Trig) : (s.setPin p v).memUE = s.memUE := rfl
@[simp] theorem State.setPin_memCE (s : State) (p : Nat) (v : Trig) : (s.setPin p v).memCE = s.memCE := rfl
@[simp] theorem State.setPin_chans (s : State) (p : Nat) (v : Trig) : (s.setPin p v).chans = s.chans := rfl
@[simp] theorem State.setPin_fenced (s : State) (p : Nat) (v : Trig) : (s.setPin p v).fenced = s.fenced := rfl
@[simp] theorem State.setPin_fenceAt (s : State) (p : Nat) (v : Trig) : (s.setPin p v).fenceAt = s.fenceAt := rfl
@[simp] theorem State.setPin_held (s : State) (p : Nat) (v : Trig) : (s.setPin p v).held = s.held := rfl
@[simp] theorem State.setPin_calSel (s : State) (p : Nat) (v : Trig) : (s.setPin p v).calSel = s.calSel := rfl
@[simp] theorem State.setPin_calBad (s : State) (p : Nat) (v : Trig) : (s.setPin p v).calBad = s.calBad := rfl
@[simp] theorem State.setPin_calFlip (s : State) (p : Nat) (v : Trig) : (s.setPin p v).calFlip = s.calFlip := rfl
@[simp] theorem State.setPin_calHold (s : State) (p : Nat) (v : Trig) : (s.setPin p v).calHold = s.calHold := rfl
@[simp] theorem State.setPin_calKeep (s : State) (p : Nat) (v : Trig) : (s.setPin p v).calKeep = s.calKeep := rfl
@[simp] theorem State.setPin_tileT (s : State) (p : Nat) (v : Trig) : (s.setPin p v).tileT = s.tileT := rfl
@[simp] theorem State.setPin_tileTUse (s : State) (p : Nat) (v : Trig) : (s.setPin p v).tileTUse = s.tileTUse := rfl
@[simp] theorem State.setPin_tiles (s : State) (p : Nat) (v : Trig) : (s.setPin p v).tiles = s.tiles := rfl
@[simp] theorem State.setPin_pscs (s : State) (p : Nat) (v : Trig) : (s.setPin p v).pscs = s.pscs := rfl
@[simp] theorem State.setPin_auxPh (s : State) (p : Nat) (v : Trig) : (s.setPin p v).auxPh = s.auxPh := rfl
@[simp] theorem State.setPin_contribs (s : State) (p : Nat) (v : Trig) : (s.setPin p v).contribs = s.contribs := rfl
@[simp] theorem State.setPin_evcLast (s : State) (p : Nat) (v : Trig) : (s.setPin p v).evcLast = s.evcLast := rfl
@[simp] theorem State.setPin_loopCnt (s : State) (p : Nat) (v : Trig) : (s.setPin p v).loopCnt = s.loopCnt := rfl
@[simp] theorem State.setPin_fired (s : State) (p : Nat) (v : Trig) : (s.setPin p v).fired = s.fired := rfl
@[simp] theorem State.setPin_alive (s : State) (p : Nat) (v : Trig) : (s.setPin p v).alive = s.alive := rfl
@[simp] theorem State.setPin_fltReg (s : State) (p : Nat) (v : Trig) : (s.setPin p v).fltReg = s.fltReg := rfl
@[simp] theorem State.setPin_causes (s : State) (p : Nat) (v : Trig) : (s.setPin p v).causes = s.causes := rfl
@[simp] theorem State.setPin_later (s : State) (p : Nat) (v : Trig) : (s.setPin p v).later = s.later := rfl
@[simp] theorem State.setPin_linkBad (s : State) (p : Nat) (v : Trig) : (s.setPin p v).linkBad = s.linkBad := rfl
@[simp] theorem State.setPin_linkGood (s : State) (p : Nat) (v : Trig) : (s.setPin p v).linkGood = s.linkGood := rfl
@[simp] theorem State.setPin_guards (s : State) (p : Nat) (v : Trig) : (s.setPin p v).guards = s.guards := rfl
@[simp] theorem State.setPin_holds (s : State) (p : Nat) (v : Trig) : (s.setPin p v).holds = s.holds := rfl
@[simp] theorem State.setPin_latches (s : State) (p : Nat) (v : Trig) : (s.setPin p v).latches = s.latches := rfl
@[simp] theorem State.setPin_strobes (s : State) (p : Nat) (v : Trig) : (s.setPin p v).strobes = s.strobes := rfl
@[simp] theorem State.setPin_crc (s : State) (p : Nat) (v : Trig) : (s.setPin p v).crc = s.crc := rfl
@[simp] theorem State.setPin_refillAt (s : State) (p : Nat) (v : Trig) : (s.setPin p v).refillAt = s.refillAt := rfl
@[simp] theorem State.setPin_lines (s : State) (p : Nat) (v : Trig) : (s.setPin p v).lines = s.lines := rfl
@[simp] theorem State.setPin_lineOn (s : State) (p : Nat) (v : Trig) : (s.setPin p v).lineOn = s.lineOn := rfl
@[simp] theorem State.setPin_updDue (s : State) (p : Nat) (v : Trig) : (s.setPin p v).updDue = s.updDue := rfl
@[simp] theorem State.setPin_updAt (s : State) (p : Nat) (v : Trig) : (s.setPin p v).updAt = s.updAt := rfl
@[simp] theorem State.setPin_boot (s : State) (p : Nat) (v : Trig) : (s.setPin p v).boot = s.boot := rfl
@[simp] theorem State.setPin_fab (s : State) (p : Nat) (v : Trig) : (s.setPin p v).fab = s.fab := rfl
@[simp] theorem State.setPin_fwq (s : State) (p : Nat) (v : Trig) : (s.setPin p v).fwq = s.fwq := rfl
@[simp] theorem State.setPin_nextDtag (s : State) (p : Nat) (v : Trig) : (s.setPin p v).nextDtag = s.nextDtag := rfl
@[simp] theorem State.setPin_cpu (s : State) (p : Nat) (v : Trig) : (s.setPin p v).cpu = s.cpu := rfl
@[simp] theorem State.setPin_hostp (s : State) (p : Nat) (v : Trig) : (s.setPin p v).hostp = s.hostp := rfl
@[simp] theorem State.setPin_clk (s : State) (p : Nat) (v : Trig) : (s.setPin p v).clk = s.clk := rfl
@[simp] theorem State.setPin_jtag (s : State) (p : Nat) (v : Trig) : (s.setPin p v).jtag = s.jtag := rfl
@[simp] theorem State.setPin_out (s : State) (p : Nat) (v : Trig) : (s.setPin p v).out = s.out := rfl

/-! `State.setPort` changes `fab` alone. -/

@[simp] theorem State.setPort_pending (s : State) (p : Nat) (v : Port) : (s.setPort p v).pending = s.pending := rfl
@[simp] theorem State.setPort_tick (s : State) (p : Nat) (v : Port) : (s.setPort p v).tick = s.tick := rfl
@[simp] theorem State.setPort_cyc (s : State) (p : Nat) (v : Port) : (s.setPort p v).cyc = s.cyc := rfl
@[simp] theorem State.setPort_running (s : State) (p : Nat) (v : Port) : (s.setPort p v).running = s.running := rfl
@[simp] theorem State.setPort_regs (s : State) (p : Nat) (v : Port) : (s.setPort p v).regs = s.regs := rfl
@[simp] theorem State.setPort_shadow (s : State) (p : Nat) (v : Port) : (s.setPort p v).shadow = s.shadow := rfl
@[simp] theorem State.setPort_voteErr (s : State) (p : Nat) (v : Port) : (s.setPort p v).voteErr = s.voteErr := rfl
@[simp] theorem State.setPort_seqRun (s : State) (p : Nat) (v : Port) : (s.setPort p v).seqRun = s.seqRun := rfl
@[simp] theorem State.setPort_seqAt (s : State) (p : Nat) (v : Port) : (s.setPort p v).seqAt = s.seqAt := rfl
@[simp] theorem State.setPort_mem (s : State) (p : Nat) (v : Port) : (s.setPort p v).mem = s.mem := rfl
@[simp] theorem State.setPort_memUE (s : State) (p : Nat) (v : Port) : (s.setPort p v).memUE = s.memUE := rfl
@[simp] theorem State.setPort_memCE (s : State) (p : Nat) (v : Port) : (s.setPort p v).memCE = s.memCE := rfl
@[simp] theorem State.setPort_chans (s : State) (p : Nat) (v : Port) : (s.setPort p v).chans = s.chans := rfl
@[simp] theorem State.setPort_fenced (s : State) (p : Nat) (v : Port) : (s.setPort p v).fenced = s.fenced := rfl
@[simp] theorem State.setPort_fenceAt (s : State) (p : Nat) (v : Port) : (s.setPort p v).fenceAt = s.fenceAt := rfl
@[simp] theorem State.setPort_held (s : State) (p : Nat) (v : Port) : (s.setPort p v).held = s.held := rfl
@[simp] theorem State.setPort_calSel (s : State) (p : Nat) (v : Port) : (s.setPort p v).calSel = s.calSel := rfl
@[simp] theorem State.setPort_calBad (s : State) (p : Nat) (v : Port) : (s.setPort p v).calBad = s.calBad := rfl
@[simp] theorem State.setPort_calFlip (s : State) (p : Nat) (v : Port) : (s.setPort p v).calFlip = s.calFlip := rfl
@[simp] theorem State.setPort_calHold (s : State) (p : Nat) (v : Port) : (s.setPort p v).calHold = s.calHold := rfl
@[simp] theorem State.setPort_calKeep (s : State) (p : Nat) (v : Port) : (s.setPort p v).calKeep = s.calKeep := rfl
@[simp] theorem State.setPort_tileT (s : State) (p : Nat) (v : Port) : (s.setPort p v).tileT = s.tileT := rfl
@[simp] theorem State.setPort_tileTUse (s : State) (p : Nat) (v : Port) : (s.setPort p v).tileTUse = s.tileTUse := rfl
@[simp] theorem State.setPort_tiles (s : State) (p : Nat) (v : Port) : (s.setPort p v).tiles = s.tiles := rfl
@[simp] theorem State.setPort_pscs (s : State) (p : Nat) (v : Port) : (s.setPort p v).pscs = s.pscs := rfl
@[simp] theorem State.setPort_auxPh (s : State) (p : Nat) (v : Port) : (s.setPort p v).auxPh = s.auxPh := rfl
@[simp] theorem State.setPort_contribs (s : State) (p : Nat) (v : Port) : (s.setPort p v).contribs = s.contribs := rfl
@[simp] theorem State.setPort_evcLast (s : State) (p : Nat) (v : Port) : (s.setPort p v).evcLast = s.evcLast := rfl
@[simp] theorem State.setPort_loopCnt (s : State) (p : Nat) (v : Port) : (s.setPort p v).loopCnt = s.loopCnt := rfl
@[simp] theorem State.setPort_fired (s : State) (p : Nat) (v : Port) : (s.setPort p v).fired = s.fired := rfl
@[simp] theorem State.setPort_trig (s : State) (p : Nat) (v : Port) : (s.setPort p v).trig = s.trig := rfl
@[simp] theorem State.setPort_alive (s : State) (p : Nat) (v : Port) : (s.setPort p v).alive = s.alive := rfl
@[simp] theorem State.setPort_fltReg (s : State) (p : Nat) (v : Port) : (s.setPort p v).fltReg = s.fltReg := rfl
@[simp] theorem State.setPort_causes (s : State) (p : Nat) (v : Port) : (s.setPort p v).causes = s.causes := rfl
@[simp] theorem State.setPort_later (s : State) (p : Nat) (v : Port) : (s.setPort p v).later = s.later := rfl
@[simp] theorem State.setPort_linkBad (s : State) (p : Nat) (v : Port) : (s.setPort p v).linkBad = s.linkBad := rfl
@[simp] theorem State.setPort_linkGood (s : State) (p : Nat) (v : Port) : (s.setPort p v).linkGood = s.linkGood := rfl
@[simp] theorem State.setPort_guards (s : State) (p : Nat) (v : Port) : (s.setPort p v).guards = s.guards := rfl
@[simp] theorem State.setPort_holds (s : State) (p : Nat) (v : Port) : (s.setPort p v).holds = s.holds := rfl
@[simp] theorem State.setPort_latches (s : State) (p : Nat) (v : Port) : (s.setPort p v).latches = s.latches := rfl
@[simp] theorem State.setPort_strobes (s : State) (p : Nat) (v : Port) : (s.setPort p v).strobes = s.strobes := rfl
@[simp] theorem State.setPort_crc (s : State) (p : Nat) (v : Port) : (s.setPort p v).crc = s.crc := rfl
@[simp] theorem State.setPort_refillAt (s : State) (p : Nat) (v : Port) : (s.setPort p v).refillAt = s.refillAt := rfl
@[simp] theorem State.setPort_lines (s : State) (p : Nat) (v : Port) : (s.setPort p v).lines = s.lines := rfl
@[simp] theorem State.setPort_lineOn (s : State) (p : Nat) (v : Port) : (s.setPort p v).lineOn = s.lineOn := rfl
@[simp] theorem State.setPort_updDue (s : State) (p : Nat) (v : Port) : (s.setPort p v).updDue = s.updDue := rfl
@[simp] theorem State.setPort_updAt (s : State) (p : Nat) (v : Port) : (s.setPort p v).updAt = s.updAt := rfl
@[simp] theorem State.setPort_boot (s : State) (p : Nat) (v : Port) : (s.setPort p v).boot = s.boot := rfl
@[simp] theorem State.setPort_fwq (s : State) (p : Nat) (v : Port) : (s.setPort p v).fwq = s.fwq := rfl
@[simp] theorem State.setPort_nextDtag (s : State) (p : Nat) (v : Port) : (s.setPort p v).nextDtag = s.nextDtag := rfl
@[simp] theorem State.setPort_cpu (s : State) (p : Nat) (v : Port) : (s.setPort p v).cpu = s.cpu := rfl
@[simp] theorem State.setPort_hostp (s : State) (p : Nat) (v : Port) : (s.setPort p v).hostp = s.hostp := rfl
@[simp] theorem State.setPort_clk (s : State) (p : Nat) (v : Port) : (s.setPort p v).clk = s.clk := rfl
@[simp] theorem State.setPort_jtag (s : State) (p : Nat) (v : Port) : (s.setPort p v).jtag = s.jtag := rfl
@[simp] theorem State.setPort_out (s : State) (p : Nat) (v : Port) : (s.setPort p v).out = s.out := rfl

/-! `State.setDma` changes `hostp` alone. -/

@[simp] theorem State.setDma_pending (s : State) (e : Nat) (v : Dma) : (s.setDma e v).pending = s.pending := rfl
@[simp] theorem State.setDma_tick (s : State) (e : Nat) (v : Dma) : (s.setDma e v).tick = s.tick := rfl
@[simp] theorem State.setDma_cyc (s : State) (e : Nat) (v : Dma) : (s.setDma e v).cyc = s.cyc := rfl
@[simp] theorem State.setDma_running (s : State) (e : Nat) (v : Dma) : (s.setDma e v).running = s.running := rfl
@[simp] theorem State.setDma_regs (s : State) (e : Nat) (v : Dma) : (s.setDma e v).regs = s.regs := rfl
@[simp] theorem State.setDma_shadow (s : State) (e : Nat) (v : Dma) : (s.setDma e v).shadow = s.shadow := rfl
@[simp] theorem State.setDma_voteErr (s : State) (e : Nat) (v : Dma) : (s.setDma e v).voteErr = s.voteErr := rfl
@[simp] theorem State.setDma_seqRun (s : State) (e : Nat) (v : Dma) : (s.setDma e v).seqRun = s.seqRun := rfl
@[simp] theorem State.setDma_seqAt (s : State) (e : Nat) (v : Dma) : (s.setDma e v).seqAt = s.seqAt := rfl
@[simp] theorem State.setDma_mem (s : State) (e : Nat) (v : Dma) : (s.setDma e v).mem = s.mem := rfl
@[simp] theorem State.setDma_memUE (s : State) (e : Nat) (v : Dma) : (s.setDma e v).memUE = s.memUE := rfl
@[simp] theorem State.setDma_memCE (s : State) (e : Nat) (v : Dma) : (s.setDma e v).memCE = s.memCE := rfl
@[simp] theorem State.setDma_chans (s : State) (e : Nat) (v : Dma) : (s.setDma e v).chans = s.chans := rfl
@[simp] theorem State.setDma_fenced (s : State) (e : Nat) (v : Dma) : (s.setDma e v).fenced = s.fenced := rfl
@[simp] theorem State.setDma_fenceAt (s : State) (e : Nat) (v : Dma) : (s.setDma e v).fenceAt = s.fenceAt := rfl
@[simp] theorem State.setDma_held (s : State) (e : Nat) (v : Dma) : (s.setDma e v).held = s.held := rfl
@[simp] theorem State.setDma_calSel (s : State) (e : Nat) (v : Dma) : (s.setDma e v).calSel = s.calSel := rfl
@[simp] theorem State.setDma_calBad (s : State) (e : Nat) (v : Dma) : (s.setDma e v).calBad = s.calBad := rfl
@[simp] theorem State.setDma_calFlip (s : State) (e : Nat) (v : Dma) : (s.setDma e v).calFlip = s.calFlip := rfl
@[simp] theorem State.setDma_calHold (s : State) (e : Nat) (v : Dma) : (s.setDma e v).calHold = s.calHold := rfl
@[simp] theorem State.setDma_calKeep (s : State) (e : Nat) (v : Dma) : (s.setDma e v).calKeep = s.calKeep := rfl
@[simp] theorem State.setDma_tileT (s : State) (e : Nat) (v : Dma) : (s.setDma e v).tileT = s.tileT := rfl
@[simp] theorem State.setDma_tileTUse (s : State) (e : Nat) (v : Dma) : (s.setDma e v).tileTUse = s.tileTUse := rfl
@[simp] theorem State.setDma_tiles (s : State) (e : Nat) (v : Dma) : (s.setDma e v).tiles = s.tiles := rfl
@[simp] theorem State.setDma_pscs (s : State) (e : Nat) (v : Dma) : (s.setDma e v).pscs = s.pscs := rfl
@[simp] theorem State.setDma_auxPh (s : State) (e : Nat) (v : Dma) : (s.setDma e v).auxPh = s.auxPh := rfl
@[simp] theorem State.setDma_contribs (s : State) (e : Nat) (v : Dma) : (s.setDma e v).contribs = s.contribs := rfl
@[simp] theorem State.setDma_evcLast (s : State) (e : Nat) (v : Dma) : (s.setDma e v).evcLast = s.evcLast := rfl
@[simp] theorem State.setDma_loopCnt (s : State) (e : Nat) (v : Dma) : (s.setDma e v).loopCnt = s.loopCnt := rfl
@[simp] theorem State.setDma_fired (s : State) (e : Nat) (v : Dma) : (s.setDma e v).fired = s.fired := rfl
@[simp] theorem State.setDma_trig (s : State) (e : Nat) (v : Dma) : (s.setDma e v).trig = s.trig := rfl
@[simp] theorem State.setDma_alive (s : State) (e : Nat) (v : Dma) : (s.setDma e v).alive = s.alive := rfl
@[simp] theorem State.setDma_fltReg (s : State) (e : Nat) (v : Dma) : (s.setDma e v).fltReg = s.fltReg := rfl
@[simp] theorem State.setDma_causes (s : State) (e : Nat) (v : Dma) : (s.setDma e v).causes = s.causes := rfl
@[simp] theorem State.setDma_later (s : State) (e : Nat) (v : Dma) : (s.setDma e v).later = s.later := rfl
@[simp] theorem State.setDma_linkBad (s : State) (e : Nat) (v : Dma) : (s.setDma e v).linkBad = s.linkBad := rfl
@[simp] theorem State.setDma_linkGood (s : State) (e : Nat) (v : Dma) : (s.setDma e v).linkGood = s.linkGood := rfl
@[simp] theorem State.setDma_guards (s : State) (e : Nat) (v : Dma) : (s.setDma e v).guards = s.guards := rfl
@[simp] theorem State.setDma_holds (s : State) (e : Nat) (v : Dma) : (s.setDma e v).holds = s.holds := rfl
@[simp] theorem State.setDma_latches (s : State) (e : Nat) (v : Dma) : (s.setDma e v).latches = s.latches := rfl
@[simp] theorem State.setDma_strobes (s : State) (e : Nat) (v : Dma) : (s.setDma e v).strobes = s.strobes := rfl
@[simp] theorem State.setDma_crc (s : State) (e : Nat) (v : Dma) : (s.setDma e v).crc = s.crc := rfl
@[simp] theorem State.setDma_refillAt (s : State) (e : Nat) (v : Dma) : (s.setDma e v).refillAt = s.refillAt := rfl
@[simp] theorem State.setDma_lines (s : State) (e : Nat) (v : Dma) : (s.setDma e v).lines = s.lines := rfl
@[simp] theorem State.setDma_lineOn (s : State) (e : Nat) (v : Dma) : (s.setDma e v).lineOn = s.lineOn := rfl
@[simp] theorem State.setDma_updDue (s : State) (e : Nat) (v : Dma) : (s.setDma e v).updDue = s.updDue := rfl
@[simp] theorem State.setDma_updAt (s : State) (e : Nat) (v : Dma) : (s.setDma e v).updAt = s.updAt := rfl
@[simp] theorem State.setDma_boot (s : State) (e : Nat) (v : Dma) : (s.setDma e v).boot = s.boot := rfl
@[simp] theorem State.setDma_fab (s : State) (e : Nat) (v : Dma) : (s.setDma e v).fab = s.fab := rfl
@[simp] theorem State.setDma_fwq (s : State) (e : Nat) (v : Dma) : (s.setDma e v).fwq = s.fwq := rfl
@[simp] theorem State.setDma_nextDtag (s : State) (e : Nat) (v : Dma) : (s.setDma e v).nextDtag = s.nextDtag := rfl
@[simp] theorem State.setDma_cpu (s : State) (e : Nat) (v : Dma) : (s.setDma e v).cpu = s.cpu := rfl
@[simp] theorem State.setDma_clk (s : State) (e : Nat) (v : Dma) : (s.setDma e v).clk = s.clk := rfl
@[simp] theorem State.setDma_jtag (s : State) (e : Nat) (v : Dma) : (s.setDma e v).jtag = s.jtag := rfl
@[simp] theorem State.setDma_out (s : State) (e : Nat) (v : Dma) : (s.setDma e v).out = s.out := rfl

/-! `State.setHv` changes `fab` alone. -/

@[simp] theorem State.setHv_pending (s : State) (h : Hv) : (s.setHv h).pending = s.pending := rfl
@[simp] theorem State.setHv_tick (s : State) (h : Hv) : (s.setHv h).tick = s.tick := rfl
@[simp] theorem State.setHv_cyc (s : State) (h : Hv) : (s.setHv h).cyc = s.cyc := rfl
@[simp] theorem State.setHv_running (s : State) (h : Hv) : (s.setHv h).running = s.running := rfl
@[simp] theorem State.setHv_regs (s : State) (h : Hv) : (s.setHv h).regs = s.regs := rfl
@[simp] theorem State.setHv_shadow (s : State) (h : Hv) : (s.setHv h).shadow = s.shadow := rfl
@[simp] theorem State.setHv_voteErr (s : State) (h : Hv) : (s.setHv h).voteErr = s.voteErr := rfl
@[simp] theorem State.setHv_seqRun (s : State) (h : Hv) : (s.setHv h).seqRun = s.seqRun := rfl
@[simp] theorem State.setHv_seqAt (s : State) (h : Hv) : (s.setHv h).seqAt = s.seqAt := rfl
@[simp] theorem State.setHv_mem (s : State) (h : Hv) : (s.setHv h).mem = s.mem := rfl
@[simp] theorem State.setHv_memUE (s : State) (h : Hv) : (s.setHv h).memUE = s.memUE := rfl
@[simp] theorem State.setHv_memCE (s : State) (h : Hv) : (s.setHv h).memCE = s.memCE := rfl
@[simp] theorem State.setHv_chans (s : State) (h : Hv) : (s.setHv h).chans = s.chans := rfl
@[simp] theorem State.setHv_fenced (s : State) (h : Hv) : (s.setHv h).fenced = s.fenced := rfl
@[simp] theorem State.setHv_fenceAt (s : State) (h : Hv) : (s.setHv h).fenceAt = s.fenceAt := rfl
@[simp] theorem State.setHv_held (s : State) (h : Hv) : (s.setHv h).held = s.held := rfl
@[simp] theorem State.setHv_calSel (s : State) (h : Hv) : (s.setHv h).calSel = s.calSel := rfl
@[simp] theorem State.setHv_calBad (s : State) (h : Hv) : (s.setHv h).calBad = s.calBad := rfl
@[simp] theorem State.setHv_calFlip (s : State) (h : Hv) : (s.setHv h).calFlip = s.calFlip := rfl
@[simp] theorem State.setHv_calHold (s : State) (h : Hv) : (s.setHv h).calHold = s.calHold := rfl
@[simp] theorem State.setHv_calKeep (s : State) (h : Hv) : (s.setHv h).calKeep = s.calKeep := rfl
@[simp] theorem State.setHv_tileT (s : State) (h : Hv) : (s.setHv h).tileT = s.tileT := rfl
@[simp] theorem State.setHv_tileTUse (s : State) (h : Hv) : (s.setHv h).tileTUse = s.tileTUse := rfl
@[simp] theorem State.setHv_tiles (s : State) (h : Hv) : (s.setHv h).tiles = s.tiles := rfl
@[simp] theorem State.setHv_pscs (s : State) (h : Hv) : (s.setHv h).pscs = s.pscs := rfl
@[simp] theorem State.setHv_auxPh (s : State) (h : Hv) : (s.setHv h).auxPh = s.auxPh := rfl
@[simp] theorem State.setHv_contribs (s : State) (h : Hv) : (s.setHv h).contribs = s.contribs := rfl
@[simp] theorem State.setHv_evcLast (s : State) (h : Hv) : (s.setHv h).evcLast = s.evcLast := rfl
@[simp] theorem State.setHv_loopCnt (s : State) (h : Hv) : (s.setHv h).loopCnt = s.loopCnt := rfl
@[simp] theorem State.setHv_fired (s : State) (h : Hv) : (s.setHv h).fired = s.fired := rfl
@[simp] theorem State.setHv_trig (s : State) (h : Hv) : (s.setHv h).trig = s.trig := rfl
@[simp] theorem State.setHv_alive (s : State) (h : Hv) : (s.setHv h).alive = s.alive := rfl
@[simp] theorem State.setHv_fltReg (s : State) (h : Hv) : (s.setHv h).fltReg = s.fltReg := rfl
@[simp] theorem State.setHv_causes (s : State) (h : Hv) : (s.setHv h).causes = s.causes := rfl
@[simp] theorem State.setHv_later (s : State) (h : Hv) : (s.setHv h).later = s.later := rfl
@[simp] theorem State.setHv_linkBad (s : State) (h : Hv) : (s.setHv h).linkBad = s.linkBad := rfl
@[simp] theorem State.setHv_linkGood (s : State) (h : Hv) : (s.setHv h).linkGood = s.linkGood := rfl
@[simp] theorem State.setHv_guards (s : State) (h : Hv) : (s.setHv h).guards = s.guards := rfl
@[simp] theorem State.setHv_holds (s : State) (h : Hv) : (s.setHv h).holds = s.holds := rfl
@[simp] theorem State.setHv_latches (s : State) (h : Hv) : (s.setHv h).latches = s.latches := rfl
@[simp] theorem State.setHv_strobes (s : State) (h : Hv) : (s.setHv h).strobes = s.strobes := rfl
@[simp] theorem State.setHv_crc (s : State) (h : Hv) : (s.setHv h).crc = s.crc := rfl
@[simp] theorem State.setHv_refillAt (s : State) (h : Hv) : (s.setHv h).refillAt = s.refillAt := rfl
@[simp] theorem State.setHv_lines (s : State) (h : Hv) : (s.setHv h).lines = s.lines := rfl
@[simp] theorem State.setHv_lineOn (s : State) (h : Hv) : (s.setHv h).lineOn = s.lineOn := rfl
@[simp] theorem State.setHv_updDue (s : State) (h : Hv) : (s.setHv h).updDue = s.updDue := rfl
@[simp] theorem State.setHv_updAt (s : State) (h : Hv) : (s.setHv h).updAt = s.updAt := rfl
@[simp] theorem State.setHv_boot (s : State) (h : Hv) : (s.setHv h).boot = s.boot := rfl
@[simp] theorem State.setHv_fwq (s : State) (h : Hv) : (s.setHv h).fwq = s.fwq := rfl
@[simp] theorem State.setHv_nextDtag (s : State) (h : Hv) : (s.setHv h).nextDtag = s.nextDtag := rfl
@[simp] theorem State.setHv_cpu (s : State) (h : Hv) : (s.setHv h).cpu = s.cpu := rfl
@[simp] theorem State.setHv_hostp (s : State) (h : Hv) : (s.setHv h).hostp = s.hostp := rfl
@[simp] theorem State.setHv_clk (s : State) (h : Hv) : (s.setHv h).clk = s.clk := rfl
@[simp] theorem State.setHv_jtag (s : State) (h : Hv) : (s.setHv h).jtag = s.jtag := rfl
@[simp] theorem State.setHv_out (s : State) (h : Hv) : (s.setHv h).out = s.out := rfl

/-! Reading back. -/

@[simp] theorem State.rg_setRg_same (s : State) (o v : Nat) : (s.setRg o v).rg o = v % 4294967296 := by
  simp [State.rg, State.setRg]

theorem State.rg_setRg_ne (s : State) {o p : Nat} (v : Nat) (h : p ≠ o) : (s.setRg o v).rg p = s.rg p := by
  simp [State.rg, State.setRg, tget_tput_ne _ _ _ h]

theorem State.rg_setRg (s : State) (o p v : Nat) : (s.setRg o v).rg p = if p = o then v % 4294967296 else s.rg p := by
  split
  · subst_vars; simp
  · exact State.rg_setRg_ne s v ‹_›

theorem State.sh_setSh (s : State) (o p v : Nat) : (s.setSh o v).sh p = if p = o then v % 4294967296 else s.sh p := by
  simp only [State.sh, State.setSh, tget_tput]; split <;> simp

@[simp] theorem State.ch_setCh_same (s : State) (n : Nat) (c : Chan) : (s.setCh n c).ch n = c := by
  simp [State.ch, State.setCh]

theorem State.ch_setCh_ne (s : State) {n m : Nat} (c : Chan) (h : m ≠ n) : (s.setCh n c).ch m = s.ch m := by
  simp [State.ch, State.setCh, tget_tput_ne _ _ _ h]

@[simp] theorem State.ch_updCh_same (s : State) (n : Nat) (f : Chan → Chan) : (s.updCh n f).ch n = f (s.ch n) := by
  simp [State.updCh]

theorem State.ch_updCh_ne (s : State) {n m : Nat} (f : Chan → Chan) (h : m ≠ n) : (s.updCh n f).ch m = s.ch m :=
  State.ch_setCh_ne s _ h

theorem State.psc_setPsc (s : State) (m j : Nat) (v : Psc) : (s.setPsc m v).psc j = if j = m then v else s.psc j := by
  simp only [State.psc, State.setPsc, tget_tput]

theorem State.tile_setTile (s : State) (t j : Nat) (v : Tile) : (s.setTile t v).tile j = if j = t then v else s.tile j := by
  simp only [State.tile, State.setTile, tget_tput]

theorem State.strobe_setStrobe (s : State) (g j : Nat) (v : Option Strobe) :
    (s.setStrobe g v).strobe j = if j = g then v else s.strobe j := by
  simp only [State.strobe, State.setStrobe, tget_tput]

theorem State.pin_setPin (s : State) (p j : Nat) (v : Trig) : (s.setPin p v).pin j = if j = p then v else s.pin j := by
  simp only [State.pin, State.setPin, tget_tput]

theorem State.port_setPort (s : State) (p j : Nat) (v : Port) : (s.setPort p v).port j = if j = p then v else s.port j := by
  simp only [State.port, State.setPort, tget_tput]

theorem State.dma_setDma (s : State) (e j : Nat) (v : Dma) : (s.setDma e v).dma j = if j = e then v else s.dma j := by
  simp only [State.dma, State.setDma, tget_tput]

/-! What a reader depends on. -/

theorem State.rg_congr {s t : State} (h : t.regs = s.regs) (o : Nat) : t.rg o = s.rg o := by simp [State.rg, h]
theorem State.sh_congr {s t : State} (h : t.shadow = s.shadow) (o : Nat) : t.sh o = s.sh o := by simp [State.sh, h]
theorem State.ch_congr {s t : State} (h : t.chans = s.chans) (n : Nat) : t.ch n = s.ch n := by simp [State.ch, h]
theorem State.byte_congr {s t : State} (h : t.mem = s.mem) (a : Nat) : t.byte a = s.byte a := by simp [State.byte, h]
theorem State.bytes_congr {s t : State} (h : t.mem = s.mem) (a n : Nat) : t.bytes a n = s.bytes a n := by simp [State.bytes, h]

/-! A register write that has a row of its own. -/

theorem State.viaReg_next {s : State} {a : Acc} {o v : Nat} (eff : State → State) (h : s.regCause a o true v = none) :
    s.viaReg a o v eff = .next (eff s) := by simp [State.viaReg, h]

theorem State.mayWrite_next {s : State} {a : Acc} {o : Nat} (h : s.mayWrite a o) (v : Nat) (eff : State → State) :
    s.viaReg a o v eff = .next (eff s) := State.viaReg_next eff (h v)

/-- A command always answers a next state. -/
theorem State.viaReg_answers (s : State) (a : Acc) (o v : Nat) (eff : State → State) : ∃ t, s.viaReg a o v eff = .next t := by
  unfold State.viaReg; split <;> exact ⟨_, rfl⟩

end Sys2Proof.Machine
end

