-- ==== Sys2Proof/Laws/Ops.lean ====
section
/-! SUPPORT. What the shared operations over registers, memory and fault frames can do. -/

namespace Sys2Proof.Machine

/-! Flags (R627): the flags of an STS register and its SEQ, nothing else. -/

theorem State.flag_cases (s : State) (o m : Nat) : s.flag o m = s ∨ ∃ q v, s.flag o m = State.setRg { s with seqRun := q } o v := by
  unfold State.flag
  dsimp only
  split
  · exact .inl rfl
  · right
    split
    · exact ⟨s.seqRun, _, rfl⟩
    · split
      · exact ⟨s.seqRun, _, rfl⟩
      · exact ⟨_, _, rfl⟩

@[simp] theorem State.flag_pending (s : State) (o m : Nat) : (s.flag o m).pending = s.pending := by
  obtain h | ⟨q, v, h⟩ := s.flag_cases o m <;> (rw [h]; try rfl)
@[simp] theorem State.flag_tick (s : State) (o m : Nat) : (s.flag o m).tick = s.tick := by
  obtain h | ⟨q, v, h⟩ := s.flag_cases o m <;> (rw [h]; try rfl)
@[simp] theorem State.flag_cyc (s : State) (o m : Nat) : (s.flag o m).cyc = s.cyc := by
  obtain h | ⟨q, v, h⟩ := s.flag_cases o m <;> (rw [h]; try rfl)
@[simp] theorem State.flag_running (s : State) (o m : Nat) : (s.flag o m).running = s.running := by
  obtain h | ⟨q, v, h⟩ := s.flag_cases o m <;> (rw [h]; try rfl)
@[simp] theorem State.flag_shadow (s : State) (o m : Nat) : (s.flag o m).shadow = s.shadow := by
  obtain h | ⟨q, v, h⟩ := s.flag_cases o m <;> (rw [h]; try rfl)
@[simp] theorem State.flag_voteErr (s : State) (o m : Nat) : (s.flag o m).voteErr = s.voteErr := by
  obtain h | ⟨q, v, h⟩ := s.flag_cases o m <;> (rw [h]; try rfl)
@[simp] theorem State.flag_mem (s : State) (o m : Nat) : (s.flag o m).mem = s.mem := by
  obtain h | ⟨q, v, h⟩ := s.flag_cases o m <;> (rw [h]; try rfl)
@[simp] theorem State.flag_memUE (s : State) (o m : Nat) : (s.flag o m).memUE = s.memUE := by
  obtain h | ⟨q, v, h⟩ := s.flag_cases o m <;> (rw [h]; try rfl)
@[simp] theorem State.flag_memCE (s : State) (o m : Nat) : (s.flag o m).memCE = s.memCE := by
  obtain h | ⟨q, v, h⟩ := s.flag_cases o m <;> (rw [h]; try rfl)
@[simp] theorem State.flag_chans (s : State) (o m : Nat) : (s.flag o m).chans = s.chans := by
  obtain h | ⟨q, v, h⟩ := s.flag_cases o m <;> (rw [h]; try rfl)
@[simp] theorem State.flag_fenced (s : State) (o m : Nat) : (s.flag o m).fenced = s.fenced := by
  obtain h | ⟨q, v, h⟩ := s.flag_cases o m <;> (rw [h]; try rfl)
@[simp] theorem State.flag_held (s : State) (o m : Nat) : (s.flag o m).held = s.held := by
  obtain h | ⟨q, v, h⟩ := s.flag_cases o m <;> (rw [h]; try rfl)
@[simp] theorem State.flag_calSel (s : State) (o m : Nat) : (s.flag o m).calSel = s.calSel := by
  obtain h | ⟨q, v, h⟩ := s.flag_cases o m <;> (rw [h]; try rfl)
@[simp] theorem State.flag_calBad (s : State) (o m : Nat) : (s.flag o m).calBad = s.calBad := by
  obtain h | ⟨q, v, h⟩ := s.flag_cases o m <;> (rw [h]; try rfl)
@[simp] theorem State.flag_calFlip (s : State) (o m : Nat) : (s.flag o m).calFlip = s.calFlip := by
  obtain h | ⟨q, v, h⟩ := s.flag_cases o m <;> (rw [h]; try rfl)
@[simp] theorem State.flag_calHold (s : State) (o m : Nat) : (s.flag o m).calHold = s.calHold := by
  obtain h | ⟨q, v, h⟩ := s.flag_cases o m <;> (rw [h]; try rfl)
@[simp] theorem State.flag_calKeep (s : State) (o m : Nat) : (s.flag o m).calKeep = s.calKeep := by
  obtain h | ⟨q, v, h⟩ := s.flag_cases o m <;> (rw [h]; try rfl)
@[simp] theorem State.flag_tileT (s : State) (o m : Nat) : (s.flag o m).tileT = s.tileT := by
  obtain h | ⟨q, v, h⟩ := s.flag_cases o m <;> (rw [h]; try rfl)
@[simp] theorem State.flag_tileTUse (s : State) (o m : Nat) : (s.flag o m).tileTUse = s.tileTUse := by
  obtain h | ⟨q, v, h⟩ := s.flag_cases o m <;> (rw [h]; try rfl)
@[simp] theorem State.flag_tiles (s : State) (o m : Nat) : (s.flag o m).tiles = s.tiles := by
  obtain h | ⟨q, v, h⟩ := s.flag_cases o m <;> (rw [h]; try rfl)
@[simp] theorem State.flag_pscs (s : State) (o m : Nat) : (s.flag o m).pscs = s.pscs := by
  obtain h | ⟨q, v, h⟩ := s.flag_cases o m <;> (rw [h]; try rfl)
@[simp] theorem State.flag_auxPh (s : State) (o m : Nat) : (s.flag o m).auxPh = s.auxPh := by
  obtain h | ⟨q, v, h⟩ := s.flag_cases o m <;> (rw [h]; try rfl)
@[simp] theorem State.flag_contribs (s : State) (o m : Nat) : (s.flag o m).contribs = s.contribs := by
  obtain h | ⟨q, v, h⟩ := s.flag_cases o m <;> (rw [h]; try rfl)
@[simp] theorem State.flag_evcLast (s : State) (o m : Nat) : (s.flag o m).evcLast = s.evcLast := by
  obtain h | ⟨q, v, h⟩ := s.flag_cases o m <;> (rw [h]; try rfl)
@[simp] theorem State.flag_loopCnt (s : State) (o m : Nat) : (s.flag o m).loopCnt = s.loopCnt := by
  obtain h | ⟨q, v, h⟩ := s.flag_cases o m <;> (rw [h]; try rfl)
@[simp] theorem State.flag_fired (s : State) (o m : Nat) : (s.flag o m).fired = s.fired := by
  obtain h | ⟨q, v, h⟩ := s.flag_cases o m <;> (rw [h]; try rfl)
@[simp] theorem State.flag_trig (s : State) (o m : Nat) : (s.flag o m).trig = s.trig := by
  obtain h | ⟨q, v, h⟩ := s.flag_cases o m <;> (rw [h]; try rfl)
@[simp] theorem State.flag_alive (s : State) (o m : Nat) : (s.flag o m).alive = s.alive := by
  obtain h | ⟨q, v, h⟩ := s.flag_cases o m <;> (rw [h]; try rfl)
@[simp] theorem State.flag_fltReg (s : State) (o m : Nat) : (s.flag o m).fltReg = s.fltReg := by
  obtain h | ⟨q, v, h⟩ := s.flag_cases o m <;> (rw [h]; try rfl)
@[simp] theorem State.flag_causes (s : State) (o m : Nat) : (s.flag o m).causes = s.causes := by
  obtain h | ⟨q, v, h⟩ := s.flag_cases o m <;> (rw [h]; try rfl)
@[simp] theorem State.flag_later (s : State) (o m : Nat) : (s.flag o m).later = s.later := by
  obtain h | ⟨q, v, h⟩ := s.flag_cases o m <;> (rw [h]; try rfl)
@[simp] theorem State.flag_linkBad (s : State) (o m : Nat) : (s.flag o m).linkBad = s.linkBad := by
  obtain h | ⟨q, v, h⟩ := s.flag_cases o m <;> (rw [h]; try rfl)
@[simp] theorem State.flag_linkGood (s : State) (o m : Nat) : (s.flag o m).linkGood = s.linkGood := by
  obtain h | ⟨q, v, h⟩ := s.flag_cases o m <;> (rw [h]; try rfl)
@[simp] theorem State.flag_guards (s : State) (o m : Nat) : (s.flag o m).guards = s.guards := by
  obtain h | ⟨q, v, h⟩ := s.flag_cases o m <;> (rw [h]; try rfl)
@[simp] theorem State.flag_holds (s : State) (o m : Nat) : (s.flag o m).holds = s.holds := by
  obtain h | ⟨q, v, h⟩ := s.flag_cases o m <;> (rw [h]; try rfl)
@[simp] theorem State.flag_latches (s : State) (o m : Nat) : (s.flag o m).latches = s.latches := by
  obtain h | ⟨q, v, h⟩ := s.flag_cases o m <;> (rw [h]; try rfl)
@[simp] theorem State.flag_strobes (s : State) (o m : Nat) : (s.flag o m).strobes = s.strobes := by
  obtain h | ⟨q, v, h⟩ := s.flag_cases o m <;> (rw [h]; try rfl)
@[simp] theorem State.flag_crc (s : State) (o m : Nat) : (s.flag o m).crc = s.crc := by
  obtain h | ⟨q, v, h⟩ := s.flag_cases o m <;> (rw [h]; try rfl)
@[simp] theorem State.flag_refillAt (s : State) (o m : Nat) : (s.flag o m).refillAt = s.refillAt := by
  obtain h | ⟨q, v, h⟩ := s.flag_cases o m <;> (rw [h]; try rfl)
@[simp] theorem State.flag_lines (s : State) (o m : Nat) : (s.flag o m).lines = s.lines := by
  obtain h | ⟨q, v, h⟩ := s.flag_cases o m <;> (rw [h]; try rfl)
@[simp] theorem State.flag_lineOn (s : State) (o m : Nat) : (s.flag o m).lineOn = s.lineOn := by
  obtain h | ⟨q, v, h⟩ := s.flag_cases o m <;> (rw [h]; try rfl)
@[simp] theorem State.flag_updDue (s : State) (o m : Nat) : (s.flag o m).updDue = s.updDue := by
  obtain h | ⟨q, v, h⟩ := s.flag_cases o m <;> (rw [h]; try rfl)
@[simp] theorem State.flag_updAt (s : State) (o m : Nat) : (s.flag o m).updAt = s.updAt := by
  obtain h | ⟨q, v, h⟩ := s.flag_cases o m <;> (rw [h]; try rfl)
@[simp] theorem State.flag_boot (s : State) (o m : Nat) : (s.flag o m).boot = s.boot := by
  obtain h | ⟨q, v, h⟩ := s.flag_cases o m <;> (rw [h]; try rfl)
@[simp] theorem State.flag_fab (s : State) (o m : Nat) : (s.flag o m).fab = s.fab := by
  obtain h | ⟨q, v, h⟩ := s.flag_cases o m <;> (rw [h]; try rfl)
@[simp] theorem State.flag_fwq (s : State) (o m : Nat) : (s.flag o m).fwq = s.fwq := by
  obtain h | ⟨q, v, h⟩ := s.flag_cases o m <;> (rw [h]; try rfl)
@[simp] theorem State.flag_nextDtag (s : State) (o m : Nat) : (s.flag o m).nextDtag = s.nextDtag := by
  obtain h | ⟨q, v, h⟩ := s.flag_cases o m <;> (rw [h]; try rfl)
@[simp] theorem State.flag_cpu (s : State) (o m : Nat) : (s.flag o m).cpu = s.cpu := by
  obtain h | ⟨q, v, h⟩ := s.flag_cases o m <;> (rw [h]; try rfl)
@[simp] theorem State.flag_hostp (s : State) (o m : Nat) : (s.flag o m).hostp = s.hostp := by
  obtain h | ⟨q, v, h⟩ := s.flag_cases o m <;> (rw [h]; try rfl)
@[simp] theorem State.flag_clk (s : State) (o m : Nat) : (s.flag o m).clk = s.clk := by
  obtain h | ⟨q, v, h⟩ := s.flag_cases o m <;> (rw [h]; try rfl)
@[simp] theorem State.flag_jtag (s : State) (o m : Nat) : (s.flag o m).jtag = s.jtag := by
  obtain h | ⟨q, v, h⟩ := s.flag_cases o m <;> (rw [h]; try rfl)
@[simp] theorem State.flag_out (s : State) (o m : Nat) : (s.flag o m).out = s.out := by
  obtain h | ⟨q, v, h⟩ := s.flag_cases o m <;> (rw [h]; try rfl)

theorem State.flag_rg_ne (s : State) {o p : Nat} (m : Nat) (h : p ≠ o) : (s.flag o m).rg p = s.rg p := by
  obtain e | ⟨q, v, e⟩ := s.flag_cases o m
  · rw [e]
  · rw [e, State.rg_setRg_ne _ _ h]; rfl

/-- The flags of a register after `flag`: those it had and those set. -/
theorem State.flag_flags (s : State) (o m : Nat) (hm : m < 16777216) :
    (s.flag o m).rg o % 16777216 = s.rg o % 16777216 ||| m := by
  have h1 : s.rg o % 16777216 < 2 ^ 24 := Nat.mod_lt _ (by norm_num)
  have h2 : s.rg o % 16777216 ||| m < 16777216 := Nat.or_lt_two_pow h1 (by simpa using hm)
  unfold State.flag
  dsimp only
  split
  · exact (by assumption : _ = _).symm
  · split
    · rw [State.rg_setRg_same]; omega
    · split <;> rw [State.rg_setRg_same] <;> omega

theorem bitOf_mod (w i : Nat) (h : i < 24) : bitOf (w % 16777216) i = bitOf w i := by
  rw [bitOf_eq_testBit, bitOf_eq_testBit, show (16777216 : Nat) = 2 ^ 24 from rfl, Nat.testBit_mod_two_pow]; simp [h]

/-- A flag bit after `flag`. -/
theorem State.flag_bit (s : State) (o m i : Nat) (hm : m < 16777216) (hi : i < 24) :
    bitOf ((s.flag o m).rg o) i = (bitOf (s.rg o) i || bitOf m i) := by
  rw [← bitOf_mod _ i hi, State.flag_flags s o m hm, bitOf_eq_testBit, Nat.testBit_or, ← bitOf_eq_testBit, ← bitOf_eq_testBit,
    bitOf_mod _ i hi]

/-! Counters. -/

theorem State.rg_count_same (s : State) (o k : Nat) : (s.count o k).rg o = holdAdd (s.rg o) k := by
  rw [State.count, State.rg_setRg_same]
  have := s.rg_lt o
  unfold holdAdd; split <;> omega

theorem State.rg_count_ne (s : State) {o p : Nat} (k : Nat) (h : p ≠ o) : (s.count o k).rg p = s.rg p :=
  State.rg_setRg_ne _ _ h

theorem State.rg_countWrap_same (s : State) (o k : Nat) : (s.countWrap o k).rg o = wrapAdd (s.rg o) k := by
  rw [State.countWrap, State.rg_setRg_same]; unfold wrapAdd; omega

theorem State.rg_countWrap_ne (s : State) {o p : Nat} (k : Nat) (h : p ≠ o) : (s.countWrap o k).rg p = s.rg p :=
  State.rg_setRg_ne _ _ h

/-! Memory: a store changes the bytes it names, error marks, and under injection FLT_INJ of MEMC. -/

theorem State.store_cases (s : State) (a : Nat) (bs : List Byte) :
    ∃ r u c, s.store a bs = { s with regs := r, mem := tputs memDef s.mem a bs, memUE := u, memCE := c } ∧
      ∀ o, o ≠ frameOff 17 + fltInj → tget regReset r o = tget regReset s.regs o := by
  have h : ∃ r, (s.storeRaw a bs).injUse 17 = { s.storeRaw a bs with regs := r } ∧
      ∀ o, o ≠ frameOff 17 + fltInj → tget regReset r o = tget regReset s.regs o := by
    unfold State.injUse
    dsimp only
    split
    · exact ⟨_, rfl, fun o ho => tget_tput_ne _ _ _ ho⟩
    · exact ⟨s.regs, rfl, fun _ _ => rfl⟩
  obtain ⟨r, h, hr⟩ := h
  unfold State.store State.memInj
  dsimp only
  generalize (if a < ddrBase then (s.storeRaw a bs).injHit 17 1 none
    else (s.storeRaw a bs).injHit 17 2 (some (ddrOf (a - ddrBase)))) = hit
  cases hit
  · exact ⟨s.regs, _, _, rfl, fun _ _ => rfl⟩
  · simp only [not_true, if_false, h]
    split <;> exact ⟨r, _, _, rfl, hr⟩

/-- Without an injection a store writes its bytes and takes away the error marks of the words they lie in. -/
theorem State.store_plain (s : State) (a : Nat) (bs : List Byte) (h : (if a < ddrBase then s.injHit 17 1 none
    else s.injHit 17 2 (some (ddrOf (a - ddrBase)))) = false) : s.store a bs = s.storeRaw a bs := by
  unfold State.store State.memInj
  have : (if a < ddrBase then (s.storeRaw a bs).injHit 17 1 none
    else (s.storeRaw a bs).injHit 17 2 (some (ddrOf (a - ddrBase)))) = false := h
  simp [this]

@[simp] theorem State.store_pending (s : State) (a : Nat) (bs : List Byte) : (s.store a bs).pending = s.pending := by
  obtain ⟨r, u, c, h, -⟩ := s.store_cases a bs; rw [h]
@[simp] theorem State.store_tick (s : State) (a : Nat) (bs : List Byte) : (s.store a bs).tick = s.tick := by
  obtain ⟨r, u, c, h, -⟩ := s.store_cases a bs; rw [h]
@[simp] theorem State.store_cyc (s : State) (a : Nat) (bs : List Byte) : (s.store a bs).cyc = s.cyc := by
  obtain ⟨r, u, c, h, -⟩ := s.store_cases a bs; rw [h]
@[simp] theorem State.store_running (s : State) (a : Nat) (bs : List Byte) : (s.store a bs).running = s.running := by
  obtain ⟨r, u, c, h, -⟩ := s.store_cases a bs; rw [h]
@[simp] theorem State.store_shadow (s : State) (a : Nat) (bs : List Byte) : (s.store a bs).shadow = s.shadow := by
  obtain ⟨r, u, c, h, -⟩ := s.store_cases a bs; rw [h]
@[simp] theorem State.store_voteErr (s : State) (a : Nat) (bs : List Byte) : (s.store a bs).voteErr = s.voteErr := by
  obtain ⟨r, u, c, h, -⟩ := s.store_cases a bs; rw [h]
@[simp] theorem State.store_seqRun (s : State) (a : Nat) (bs : List Byte) : (s.store a bs).seqRun = s.seqRun := by
  obtain ⟨r, u, c, h, -⟩ := s.store_cases a bs; rw [h]
@[simp] theorem State.store_chans (s : State) (a : Nat) (bs : List Byte) : (s.store a bs).chans = s.chans := by
  obtain ⟨r, u, c, h, -⟩ := s.store_cases a bs; rw [h]
@[simp] theorem State.store_fenced (s : State) (a : Nat) (bs : List Byte) : (s.store a bs).fenced = s.fenced := by
  obtain ⟨r, u, c, h, -⟩ := s.store_cases a bs; rw [h]
@[simp] theorem State.store_held (s : State) (a : Nat) (bs : List Byte) : (s.store a bs).held = s.held := by
  obtain ⟨r, u, c, h, -⟩ := s.store_cases a bs; rw [h]
@[simp] theorem State.store_calSel (s : State) (a : Nat) (bs : List Byte) : (s.store a bs).calSel = s.calSel := by
  obtain ⟨r, u, c, h, -⟩ := s.store_cases a bs; rw [h]
@[simp] theorem State.store_calBad (s : State) (a : Nat) (bs : List Byte) : (s.store a bs).calBad = s.calBad := by
  obtain ⟨r, u, c, h, -⟩ := s.store_cases a bs; rw [h]
@[simp] theorem State.store_calFlip (s : State) (a : Nat) (bs : List Byte) : (s.store a bs).calFlip = s.calFlip := by
  obtain ⟨r, u, c, h, -⟩ := s.store_cases a bs; rw [h]
@[simp] theorem State.store_calHold (s : State) (a : Nat) (bs : List Byte) : (s.store a bs).calHold = s.calHold := by
  obtain ⟨r, u, c, h, -⟩ := s.store_cases a bs; rw [h]
@[simp] theorem State.store_calKeep (s : State) (a : Nat) (bs : List Byte) : (s.store a bs).calKeep = s.calKeep := by
  obtain ⟨r, u, c, h, -⟩ := s.store_cases a bs; rw [h]
@[simp] theorem State.store_tileT (s : State) (a : Nat) (bs : List Byte) : (s.store a bs).tileT = s.tileT := by
  obtain ⟨r, u, c, h, -⟩ := s.store_cases a bs; rw [h]
@[simp] theorem State.store_tileTUse (s : State) (a : Nat) (bs : List Byte) : (s.store a bs).tileTUse = s.tileTUse := by
  obtain ⟨r, u, c, h, -⟩ := s.store_cases a bs; rw [h]
@[simp] theorem State.store_tiles (s : State) (a : Nat) (bs : List Byte) : (s.store a bs).tiles = s.tiles := by
  obtain ⟨r, u, c, h, -⟩ := s.store_cases a bs; rw [h]
@[simp] theorem State.store_pscs (s : State) (a : Nat) (bs : List Byte) : (s.store a bs).pscs = s.pscs := by
  obtain ⟨r, u, c, h, -⟩ := s.store_cases a bs; rw [h]
@[simp] theorem State.store_auxPh (s : State) (a : Nat) (bs : List Byte) : (s.store a bs).auxPh = s.auxPh := by
  obtain ⟨r, u, c, h, -⟩ := s.store_cases a bs; rw [h]
@[simp] theorem State.store_contribs (s : State) (a : Nat) (bs : List Byte) : (s.store a bs).contribs = s.contribs := by
  obtain ⟨r, u, c, h, -⟩ := s.store_cases a bs; rw [h]
@[simp] theorem State.store_evcLast (s : State) (a : Nat) (bs : List Byte) : (s.store a bs).evcLast = s.evcLast := by
  obtain ⟨r, u, c, h, -⟩ := s.store_cases a bs; rw [h]
@[simp] theorem State.store_loopCnt (s : State) (a : Nat) (bs : List Byte) : (s.store a bs).loopCnt = s.loopCnt := by
  obtain ⟨r, u, c, h, -⟩ := s.store_cases a bs; rw [h]
@[simp] theorem State.store_fired (s : State) (a : Nat) (bs : List Byte) : (s.store a bs).fired = s.fired := by
  obtain ⟨r, u, c, h, -⟩ := s.store_cases a bs; rw [h]
@[simp] theorem State.store_trig (s : State) (a : Nat) (bs : List Byte) : (s.store a bs).trig = s.trig := by
  obtain ⟨r, u, c, h, -⟩ := s.store_cases a bs; rw [h]
@[simp] theorem State.store_alive (s : State) (a : Nat) (bs : List Byte) : (s.store a bs).alive = s.alive := by
  obtain ⟨r, u, c, h, -⟩ := s.store_cases a bs; rw [h]
@[simp] theorem State.store_fltReg (s : State) (a : Nat) (bs : List Byte) : (s.store a bs).fltReg = s.fltReg := by
  obtain ⟨r, u, c, h, -⟩ := s.store_cases a bs; rw [h]
@[simp] theorem State.store_causes (s : State) (a : Nat) (bs : List Byte) : (s.store a bs).causes = s.causes := by
  obtain ⟨r, u, c, h, -⟩ := s.store_cases a bs; rw [h]
@[simp] theorem State.store_later (s : State) (a : Nat) (bs : List Byte) : (s.store a bs).later = s.later := by
  obtain ⟨r, u, c, h, -⟩ := s.store_cases a bs; rw [h]
@[simp] theorem State.store_linkBad (s : State) (a : Nat) (bs : List Byte) : (s.store a bs).linkBad = s.linkBad := by
  obtain ⟨r, u, c, h, -⟩ := s.store_cases a bs; rw [h]
@[simp] theorem State.store_linkGood (s : State) (a : Nat) (bs : List Byte) : (s.store a bs).linkGood = s.linkGood := by
  obtain ⟨r, u, c, h, -⟩ := s.store_cases a bs; rw [h]
@[simp] theorem State.store_guards (s : State) (a : Nat) (bs : List Byte) : (s.store a bs).guards = s.guards := by
  obtain ⟨r, u, c, h, -⟩ := s.store_cases a bs; rw [h]
@[simp] theorem State.store_holds (s : State) (a : Nat) (bs : List Byte) : (s.store a bs).holds = s.holds := by
  obtain ⟨r, u, c, h, -⟩ := s.store_cases a bs; rw [h]
@[simp] theorem State.store_latches (s : State) (a : Nat) (bs : List Byte) : (s.store a bs).latches = s.latches := by
  obtain ⟨r, u, c, h, -⟩ := s.store_cases a bs; rw [h]
@[simp] theorem State.store_strobes (s : State) (a : Nat) (bs : List Byte) : (s.store a bs).strobes = s.strobes := by
  obtain ⟨r, u, c, h, -⟩ := s.store_cases a bs; rw [h]
@[simp] theorem State.store_crc (s : State) (a : Nat) (bs : List Byte) : (s.store a bs).crc = s.crc := by
  obtain ⟨r, u, c, h, -⟩ := s.store_cases a bs; rw [h]
@[simp] theorem State.store_refillAt (s : State) (a : Nat) (bs : List Byte) : (s.store a bs).refillAt = s.refillAt := by
  obtain ⟨r, u, c, h, -⟩ := s.store_cases a bs; rw [h]
@[simp] theorem State.store_lines (s : State) (a : Nat) (bs : List Byte) : (s.store a bs).lines = s.lines := by
  obtain ⟨r, u, c, h, -⟩ := s.store_cases a bs; rw [h]
@[simp] theorem State.store_lineOn (s : State) (a : Nat) (bs : List Byte) : (s.store a bs).lineOn = s.lineOn := by
  obtain ⟨r, u, c, h, -⟩ := s.store_cases a bs; rw [h]
@[simp] theorem State.store_updDue (s : State) (a : Nat) (bs : List Byte) : (s.store a bs).updDue = s.updDue := by
  obtain ⟨r, u, c, h, -⟩ := s.store_cases a bs; rw [h]
@[simp] theorem State.store_updAt (s : State) (a : Nat) (bs : List Byte) : (s.store a bs).updAt = s.updAt := by
  obtain ⟨r, u, c, h, -⟩ := s.store_cases a bs; rw [h]
@[simp] theorem State.store_boot (s : State) (a : Nat) (bs : List Byte) : (s.store a bs).boot = s.boot := by
  obtain ⟨r, u, c, h, -⟩ := s.store_cases a bs; rw [h]
@[simp] theorem State.store_fab (s : State) (a : Nat) (bs : List Byte) : (s.store a bs).fab = s.fab := by
  obtain ⟨r, u, c, h, -⟩ := s.store_cases a bs; rw [h]
@[simp] theorem State.store_fwq (s : State) (a : Nat) (bs : List Byte) : (s.store a bs).fwq = s.fwq := by
  obtain ⟨r, u, c, h, -⟩ := s.store_cases a bs; rw [h]
@[simp] theorem State.store_nextDtag (s : State) (a : Nat) (bs : List Byte) : (s.store a bs).nextDtag = s.nextDtag := by
  obtain ⟨r, u, c, h, -⟩ := s.store_cases a bs; rw [h]
@[simp] theorem State.store_cpu (s : State) (a : Nat) (bs : List Byte) : (s.store a bs).cpu = s.cpu := by
  obtain ⟨r, u, c, h, -⟩ := s.store_cases a bs; rw [h]
@[simp] theorem State.store_hostp (s : State) (a : Nat) (bs : List Byte) : (s.store a bs).hostp = s.hostp := by
  obtain ⟨r, u, c, h, -⟩ := s.store_cases a bs; rw [h]
@[simp] theorem State.store_clk (s : State) (a : Nat) (bs : List Byte) : (s.store a bs).clk = s.clk := by
  obtain ⟨r, u, c, h, -⟩ := s.store_cases a bs; rw [h]
@[simp] theorem State.store_jtag (s : State) (a : Nat) (bs : List Byte) : (s.store a bs).jtag = s.jtag := by
  obtain ⟨r, u, c, h, -⟩ := s.store_cases a bs; rw [h]
@[simp] theorem State.store_out (s : State) (a : Nat) (bs : List Byte) : (s.store a bs).out = s.out := by
  obtain ⟨r, u, c, h, -⟩ := s.store_cases a bs; rw [h]

theorem State.store_bytes (s : State) (a : Nat) (bs : List Byte) : (s.store a bs).bytes a bs.length = bs := by
  obtain ⟨r, u, c, h, -⟩ := s.store_cases a bs
  rw [h]; exact tslice_tputs memDef s.mem a bs

theorem State.store_byte_out (s : State) (a b : Nat) (bs : List Byte) (hb : b < a ∨ a + bs.length ≤ b) :
    (s.store a bs).byte b = s.byte b := by
  obtain ⟨r, u, c, h, -⟩ := s.store_cases a bs
  rw [h]; exact tget_tputs_out memDef s.mem a b bs hb

theorem State.store_rg (s : State) (a o : Nat) (bs : List Byte) (h : o ≠ frameOff 17 + fltInj) : (s.store a bs).rg o = s.rg o := by
  obtain ⟨r, u, c, e, hr⟩ := s.store_cases a bs
  rw [e, State.rg, State.rg]; exact congrArg _ (hr o h)

/-- A store keeps the memory's canonical form. -/
theorem State.storeRaw_memWf (s : State) (a : Nat) (bs : List Byte) (h : s.memWf = true) : (s.storeRaw a bs).memWf = true :=
  twf_tputs memDef s.mem a bs h

theorem State.store_memWf (s : State) (a : Nat) (bs : List Byte) (h : s.memWf = true) : (s.store a bs).memWf = true := by
  obtain ⟨r, u, c, e, -⟩ := s.store_cases a bs
  rw [e]; exact twf_tputs memDef s.mem a bs h

theorem tok_filter {α : Type} [DecidableEq α] (d : Nat → α) (t : Tbl α) (k : Nat) (p : Nat × α → Bool) (h : tok d k t = true) :
    tok d k (t.filter p) = true := by
  induction t generalizing k with
  | nil => rfl
  | cons x r ih =>
    obtain ⟨j, v⟩ := x
    simp only [tok, Bool.and_eq_true, decide_eq_true_eq] at h
    rw [List.filter_cons]
    split
    · simp only [tok, Bool.and_eq_true, decide_eq_true_eq]; exact ⟨h.1, ih _ h.2⟩
    · exact tok_mono d (ih _ h.2) (by omega)

/-- The memory at reset is in its canonical form. -/
theorem State.reset_memWf : State.reset.memWf = true := rfl

/-! Reports of a fault frame whose reaction table names neither NMI nor FENCE nor CHIPRST (R582 to R588). -/

/-- No reaction of a mild frame fences, sends an NMI or resets. -/
theorem State.mild_react (s : State) {f : Nat} (h : s.mild f = true) {k : Nat} (hk : k < 4) :
    bitsOf (s.rg (fltOff f fltReact)) (8 * k + 3) (8 * k + 1) = 0 := by
  simp only [State.mild, Bool.and_eq_true, List.all_eq_true, List.mem_range, decide_eq_true_eq] at h
  exact h.2 k hk

/-- A report of a mild frame votes on no copy that differs. -/
theorem State.mild_votes (s : State) {f : Nat} (h : s.mild f = true) (is : List Nat) : s.reactVotes f is = s := by
  simp only [State.mild, Bool.and_eq_true, List.all_eq_true, decide_eq_true_eq] at h
  have : s.voteErr.filter (reactRegs f is).contains = [] := by
    rw [List.filter_eq_nil_iff]
    intro o ho hc
    have hm : o ∈ reactRegs f is := by simpa using hc
    unfold reactRegs at hm
    have := h.1 o ho
    split at hm
    · simp at hm
    · simp only [List.mem_cons, List.mem_append] at hm
      obtain rfl | hm | hm := hm
      · exact this.1 rfl
      · split at hm
        · exact this.2.1 (List.mem_singleton.1 hm)
        · simp at hm
      · split at hm
        · exact this.2.2 (List.mem_singleton.1 hm)
        · simp at hm
  rw [State.reactVotes, this]; rfl

theorem judge_mild (s : State) (f sts : Nat) (h : s.mild f = true) (rs : List (Nat × Nat)) :
    ∀ seen, ∀ g ∈ s.judge f sts seen rs, bitOf g.byte 1 = false ∧ bitOf g.byte 2 = false ∧ bitOf g.byte 3 = false := by
  induction rs with
  | nil => intro seen g hg; simp [State.judge] at hg
  | cons p r ih =>
    intro seen g hg
    rw [State.judge, List.mem_cons] at hg
    obtain rfl | hg := hg
    · dsimp only
      generalize hk : min 3 (s.sevOf f p.1 + b2n (s.classSet f sts p.2 || seen.contains p.2)) = k
      have h1 := s.mild_react h (k := k) (by omega)
      have h2 : ∀ j, j < 3 → (bitsOf (s.rg (fltOff f fltReact)) (8 * k + 3) (8 * k + 1)).testBit j = false := by
        intro j hj; rw [h1]; simp
      simp only [testBit_bitsOf] at h2
      have h3 : ∀ j, 1 ≤ j → j ≤ 3 → (s.rg (fltOff f fltReact)).testBit (8 * k + j) = false := by
        intro j h4 h5
        have := h2 (j - 1) (by omega)
        rw [show 8 * k + 1 + (j - 1) = 8 * k + j by omega] at this
        rw [decide_eq_true (by omega), Bool.true_and] at this; exact this
      simp only [bitOf_eq_testBit, testBit_bitsOf]
      exact ⟨by rw [h3 1 (by omega) (by omega)]; simp, by rw [h3 2 (by omega) (by omega)]; simp,
        by rw [h3 3 (by omega) (by omega)]; simp⟩
    · exact ih _ g hg

theorem fltOff_ne (f : Nat) {a b : Nat} (h : a ≠ b) : fltOff f a ≠ fltOff f b := by unfold fltOff; omega

/-- Registration of faults none of which names NMI, FENCE or CHIPRST. -/
theorem State.register_mild (s : State) (f : Nat) (gs : List Regd)
    (h : ∀ g ∈ gs, bitOf g.byte 1 = false ∧ bitOf g.byte 2 = false ∧ bitOf g.byte 3 = false)
    (h20 : ∀ g ∈ gs, g.src < 20) :
    ∃ r q fr al, s.register f gs = { s with regs := r, seqRun := q, fltReg := fr, alive := al } ∧
      (∀ o, o ∉ reportRegs f → tget regReset r o = tget regReset s.regs o) ∧
      (∀ i, i < 20 → (bitOf (tget regReset r (fltOff f fltSts)).toNat i = true ↔
        bitOf (s.rg (fltOff f fltSts)) i = true ∨ ∃ g ∈ gs, g.src = i)) ∧
      (gs ≠ [] → (tget regReset r (fltOff f fltCnt)).toNat = holdAdd (s.rg (fltOff f fltCnt)) gs.length) := by
  have key : ∀ (gs : List Regd) (s : State), ∃ r fr, gs.foldl (fun s g =>
      let e := s.rg (fltOff f fltEsc)
      let e := if g.esc then e ||| 2 ^ g.src else if bitOf e g.src then e - 2 ^ g.src else e
      let s := s.setRg (fltOff f fltEsc) e
      { s with fltReg := tput (fun _ => 0) s.fltReg (f * 32 + g.src) (g.byte + 256 * g.cls + 4096) }) s =
        { s with regs := r, fltReg := fr } ∧ ∀ o, o ≠ fltOff f fltEsc → tget regReset r o = tget regReset s.regs o := by
    intro gs
    induction gs with
    | nil => intro s; exact ⟨s.regs, s.fltReg, rfl, fun _ _ => rfl⟩
    | cons g gs ih =>
      intro s
      rw [List.foldl_cons]
      obtain ⟨r, fr, e, hr⟩ := ih (let e := s.rg (fltOff f fltEsc)
        let e := if g.esc then e ||| 2 ^ g.src else if bitOf e g.src then e - 2 ^ g.src else e
        let s := s.setRg (fltOff f fltEsc) e
        { s with fltReg := tput (fun _ => 0) s.fltReg (f * 32 + g.src) (g.byte + 256 * g.cls + 4096) })
      exact ⟨r, fr, e, fun o ho => (hr o ho).trans (tget_tput_ne _ _ _ ho)⟩
  have mask : ∀ (gs : List Regd) (m i : Nat), (gs.foldl (fun m g => m ||| 2 ^ g.src) m).testBit i =
      (m.testBit i || gs.any fun g => decide (g.src = i)) := by
    intro gs
    induction gs with
    | nil => intro m i; simp
    | cons g gs ih => intro m i; rw [List.foldl_cons, ih, Nat.testBit_or, Nat.testBit_two_pow]; simp [Bool.or_assoc]
  cases gs with
  | nil => exact ⟨s.regs, s.seqRun, s.fltReg, s.alive, rfl, fun _ _ => rfl, by simp [State.rg], by simp⟩
  | cons g0 gs0 =>
    unfold State.register
    dsimp only
    generalize hgs : g0 :: gs0 = gs at *
    generalize hm : gs.foldl (fun m g => m ||| 2 ^ g.src) 0 = m
    generalize hs0 : ((s.flag (fltOff f fltSts) m).count (fltOff f fltCnt) gs.length).setRg (fltOff f fltLast) (lastWord g0) = s0
    obtain ⟨r, fr, e, hr⟩ := key gs s0
    dsimp only at e
    rw [e]
    have hn : ((List.range 8).filter fun x => gs.any fun g => bitOf g.byte 1 && decide (g.byte / 32 = x)) = [] := by
      rw [List.filter_eq_nil_iff]
      intro x _ hx
      rw [List.any_eq_true] at hx
      obtain ⟨g, hg, hx⟩ := hx
      rw [(h g hg).1] at hx; simp at hx
    have hf : gs.find? (fun g => bitOf g.byte 3) = none := by
      rw [List.find?_eq_none]
      intro g hg; rw [(h g hg).2.2]; simp
    rw [hn, hf]
    clear key e hn hf
    have hd : fltOff f fltSts ≠ fltOff f fltCnt ∧ fltOff f fltSts ≠ fltOff f fltLast ∧ fltOff f fltSts ≠ fltOff f fltEsc ∧
        fltOff f fltCnt ≠ fltOff f fltLast ∧ fltOff f fltCnt ≠ fltOff f fltEsc :=
      ⟨fltOff_ne f (by decide), fltOff_ne f (by decide), fltOff_ne f (by decide), fltOff_ne f (by decide), fltOff_ne f (by decide)⟩
    have hsrc : ∀ i, i < 20 → (bitOf m i = true ↔ ∃ g ∈ gs, g.src = i) := by
      intro i hi
      rw [← hm, bitOf_eq_testBit, mask]; simp
    have hrg : ∀ o, o ∉ reportRegs f → tget regReset r o = tget regReset s.regs o := by
      intro o ho
      simp only [reportRegs, List.mem_cons, not_or, List.not_mem_nil, not_false_eq_true, and_true] at ho
      rw [hr o ho.2.2.2.1, ← hs0]
      have := (((s.flag (fltOff f fltSts) m).count (fltOff f fltCnt) gs.length).rg_setRg_ne (lastWord g0) ho.2.2.1).trans
        (((s.flag (fltOff f fltSts) m).rg_count_ne gs.length ho.2.1).trans (s.flag_rg_ne m ho.1))
      exact BitVec.eq_of_toNat_eq this
    have hmlt : m < 16777216 := by
      rw [← hm, show (16777216 : Nat) = 2 ^ 24 from rfl]
      apply Nat.lt_pow_two_of_testBit
      intro i hi
      rw [mask]
      simp only [Nat.zero_testBit, Bool.false_or, List.any_eq_false, decide_eq_true_eq]
      intro g hg; have := h20 g hg; omega
    have hsts : ∀ i, i < 20 → (bitOf (tget regReset r (fltOff f fltSts)).toNat i = true ↔
        bitOf (s.rg (fltOff f fltSts)) i = true ∨ ∃ g ∈ gs, g.src = i) := by
      intro i hi
      have e1 : (tget regReset r (fltOff f fltSts)).toNat = (s.flag (fltOff f fltSts) m).rg (fltOff f fltSts) := by
        rw [hr _ hd.2.2.1, ← hs0]
        exact (State.rg_setRg_ne _ _ hd.2.1).trans (State.rg_count_ne _ _ hd.1)
      rw [e1, State.flag_bit s _ m i hmlt (by omega), Bool.or_eq_true, hsrc i hi]
    have hcnt : gs ≠ [] → (tget regReset r (fltOff f fltCnt)).toNat = holdAdd (s.rg (fltOff f fltCnt)) gs.length := by
      intro _
      rw [hr _ hd.2.2.2.2, ← hs0]
      refine (State.rg_setRg_ne _ _ hd.2.2.2.1).trans ?_
      rw [State.rg_count_same, s.flag_rg_ne m hd.1.symm]
    have near : ∃ q, s0 = { s with regs := s0.regs, seqRun := q } := by
      obtain e | ⟨q, v, e⟩ := s.flag_cases (fltOff f fltSts) m
      · rw [e] at hs0; exact ⟨s.seqRun, by rw [← hs0]; rfl⟩
      · rw [e] at hs0; exact ⟨q, by rw [← hs0]; rfl⟩
    obtain ⟨q, near⟩ := near
    have fences : ∀ (F : State → Regd → State), (∀ s, ∀ g ∈ gs, F s g = s) → ∀ s, gs.foldl F s = s := by
      clear * -
      intro F
      induction gs with
      | nil => intro _ _; rfl
      | cons g l ih =>
        intro hF s
        rw [List.foldl_cons, hF s g (List.mem_cons_self ..)]
        exact ih (fun s x hx => hF s x (List.mem_cons_of_mem _ hx)) s
    dsimp only [State.nmis]
    rw [fences _ (by intro s g hg; rw [(h g hg).2.1]; rfl), near]
    split
    · exact ⟨r, q, fr, _, rfl, hrg, hsts, hcnt⟩
    · exact ⟨r, q, fr, _, rfl, hrg, hsts, hcnt⟩

/-- A report of sources of a frame whose reaction table names neither NMI nor FENCE nor CHIPRST: it writes the registers of
the frame, and nothing else of the device but what the model keeps of set faults and of ALIVE. -/
theorem State.report_mild (s : State) (f : Nat) (rs : List (Nat × Nat)) (h : s.mild f = true) (hl : s.later = [])
    (h20 : ∀ p ∈ rs, p.1 < 20) :
    ∃ r q fr al, s.report f rs = { s with regs := r, seqRun := q, fltReg := fr, alive := al } ∧
      (∀ o, o ∉ reportRegs f → tget regReset r o = tget regReset s.regs o) ∧
      (∀ i, i < 20 → (bitOf (tget regReset r (fltOff f fltSts)).toNat i = true ↔
        bitOf (s.rg (fltOff f fltSts)) i = true ∨ ∃ p ∈ rs, p.1 = i)) ∧
      (∀ i c, rs = [(i, c)] → bitOf (s.rg (fltOff f fltSts)) i = false →
        (tget regReset r (fltOff f fltCnt)).toNat = holdAdd (s.rg (fltOff f fltCnt)) 1) := by
  have srcs : ∀ (l : List (Nat × Nat)) (s : State) (sts : Nat) (seen : List Nat), (s.judge f sts seen l).map (·.src) = l.map (·.1) := by
    intro l
    induction l with
    | nil => intros; rfl
    | cons p l ih => intro s sts seen; simp [State.judge, ih]
  generalize hs1 : (if (rs.filter fun p => bitOf (s.rg (fltOff f fltSts)) p.1).length = 0 then s
    else s.count (fltOff f fltRepeats) (rs.filter fun p => bitOf (s.rg (fltOff f fltSts)) p.1).length) = s1
  have hd : fltOff f fltSts ≠ fltOff f fltRepeats ∧ fltOff f fltReact ≠ fltOff f fltRepeats ∧ fltOff f fltCnt ≠ fltOff f fltRepeats :=
    ⟨fltOff_ne f (by decide), fltOff_ne f (by decide), fltOff_ne f (by decide)⟩
  have h1 : s1 = { s with regs := s1.regs } ∧ ∀ o, o ≠ fltOff f fltRepeats → tget regReset s1.regs o = tget regReset s.regs o := by
    rw [← hs1]; split
    · exact ⟨rfl, fun _ _ => rfl⟩
    · exact ⟨rfl, fun o ho => tget_tput_ne _ _ _ ho⟩
  obtain ⟨e1, r1⟩ := h1
  have hm1 : s1.mild f = true := by
    have : s1.rg (fltOff f fltReact) = s.rg (fltOff f fltReact) := congrArg BitVec.toNat (r1 _ hd.2.1)
    have hv : s1.voteErr = s.voteErr := by rw [e1]
    unfold State.mild; rw [this, hv]; exact h
  generalize hrs : (rs.filter fun p => !bitOf (s.rg (fltOff f fltSts)) p.1) = new
  have hnew : ∀ p ∈ new, p.1 < 20 := fun p hp => h20 p (List.mem_of_mem_filter (hrs ▸ hp))
  have hsrc := srcs new s1 (s.rg (fltOff f fltSts)) []
  have hmem : ∀ i, (∃ g ∈ s1.judge f (s.rg (fltOff f fltSts)) [] new, g.src = i) ↔ ∃ p ∈ new, p.1 = i := by
    intro i
    have := congrArg (i ∈ ·) hsrc
    simpa only [List.mem_map] using iff_of_eq this
  obtain ⟨r, q, fr, al, e, hr, hsts, hcnt⟩ := State.register_mild s1 f (s1.judge f (s.rg (fltOff f fltSts)) [] new)
    (judge_mild s1 f _ hm1 new [])
    (by intro g hg; obtain ⟨p, hp, h⟩ := (hmem g.src).1 ⟨g, hg, rfl⟩; rw [← h]; exact hnew p hp)
  have e2 : s.report f rs = s1.register f (s1.judge f (s.rg (fltOff f fltSts)) [] new) := by
    unfold State.report State.report0
    dsimp only
    rw [hs1, hrs, s1.mild_votes hm1, e, State.settleFaults, State.drain, e1]
    simp only [hl]
  refine ⟨r, q, fr, al, by rw [e2, e, e1], ?_, ?_, ?_⟩
  · intro o ho
    rw [hr o ho, r1]
    rintro rfl; exact ho (by simp [reportRegs])
  · intro i hi
    rw [hsts i hi, hmem, show s1.rg (fltOff f fltSts) = s.rg (fltOff f fltSts) from congrArg BitVec.toNat (r1 _ hd.1), ← hrs]
    constructor
    · rintro (h | ⟨p, hp, h⟩)
      · exact .inl h
      · exact .inr ⟨p, List.mem_of_mem_filter hp, h⟩
    · rintro (h | ⟨p, hp, h⟩)
      · exact .inl h
      · by_cases hb : bitOf (s.rg (fltOff f fltSts)) i = true
        · exact .inl hb
        · exact .inr ⟨p, List.mem_filter.2 ⟨hp, by subst h; simp [hb]⟩, h⟩
  · rintro i c rfl hb
    have hn : new = [(i, c)] := by rw [← hrs]; simp [hb]
    have hlen : (s1.judge f (s.rg (fltOff f fltSts)) [] new).length = 1 := by
      have := congrArg List.length hsrc; simpa [hn] using this
    rw [hcnt (by intro h0; rw [h0] at hlen; simp at hlen), hlen,
      show s1.rg (fltOff f fltCnt) = s.rg (fltOff f fltCnt) from congrArg BitVec.toNat (r1 _ hd.2.2)]

/-- The same of one event of one source. -/
theorem State.fault_mild (s : State) (f i : Nat) (h : s.mild f = true) (hl : s.later = []) (hi : i < 20) :
    ∃ r q fr al, s.fault f i = { s with regs := r, seqRun := q, fltReg := fr, alive := al } ∧
      (∀ o, o ∉ reportRegs f → tget regReset r o = tget regReset s.regs o) ∧
      bitOf (tget regReset r (fltOff f fltSts)).toNat i = true ∧
      (bitOf (s.rg (fltOff f fltSts)) i = false →
        (tget regReset r (fltOff f fltCnt)).toNat = holdAdd (s.rg (fltOff f fltCnt)) 1) := by
  obtain ⟨r, q, fr, al, e, hr, hb, hc⟩ := s.report_mild f [(i, srcCls f i)] h hl (by simpa using hi)
  exact ⟨r, q, fr, al, e, hr, (hb i hi).2 (.inr ⟨_, List.mem_singleton.2 rfl, rfl⟩), hc i _ rfl⟩

/-! Times known to a tick (log 110). -/

/-- What has surely lasted can have lasted. -/
theorem State.canHaveLasted_of_hasLasted (s : State) {a n : Nat} (h : hasLasted a n = true) : s.canHaveLasted a n = true := by
  simp only [hasLasted, decide_eq_true_eq] at h
  simp only [State.canHaveLasted, Bool.or_eq_true, decide_eq_true_eq]
  exact .inl (by omega)

/-! A channel, a converter or a tile written twice holds what was written last. -/

@[simp] theorem State.setCh_setCh (s : State) (n : Nat) (c d : Chan) : (s.setCh n c).setCh n d = s.setCh n d := by
  simp [State.setCh]

@[simp] theorem State.setPsc_setPsc (s : State) (m : Nat) (p q : Psc) : (s.setPsc m p).setPsc m q = s.setPsc m q := by
  simp [State.setPsc]

@[simp] theorem State.setTile_setTile (s : State) (t : Nat) (a b : Tile) : (s.setTile t a).setTile t b = s.setTile t b := by
  simp [State.setTile]

/-! The cycle that has been reached in the tick, and a frame on the wire. -/

/-- `State.passed` changes nothing but the cycle reached. -/
theorem State.passed_only (s : State) (c : Nat) : ∃ k, s.passed c = { s with cyc := k } := ⟨_, rfl⟩

/-- A frame goes out whole where no injection is due. -/
theorem State.wire_plain (s : State) (p q : Nat) (f : Frame) (h : s.injHit 15 4 (some p) = false) :
    s.wire p q f true = { s with out := s.out ++ [frameOut p q f] } := by
  simp [State.wire, frameOut, h, State.injGen]

end Sys2Proof.Machine
end

