-- ==== Sys2Proof/Tests/Slice0.lean ====
section
/-! SUPPORT. Tests of single steps with results taken from the spec, the checks of well-formedness, and for every statement a
state and operands that meet its hypotheses. -/

namespace Sys2Proof.Tests

open Sys2Proof.Machine

set_option Elab.async false

/-- The host through the privileged view. -/
def hA : Acc := ⟨.host, .priv⟩

/-- A write by the host through the privileged view is no bus error, whatever its value, if it is none with the value 0. -/
theorem hostWrites {s : State} {o : Nat} (h : s.regCause hA o true 0 = none) : s.mayWrite hA o := by
  intro v
  simpa [State.regCause, hA] using h

/-- A device that runs, with its tiles released. -/
def wOn : State := { running := true, held := 0 }

/-- Register values put into a state. -/
def wRegs (l : List (Nat × Word)) (s : State) : State := { s with regs := l }

/-- Channel 0 alone differs from reset. -/
def wCh (c : Chan) : State := { wOn with chans := [(0, c)] }

/-- Channel 0 in a state. -/
def wSt (st : ChState) : State := wCh { state := st }

/-- DDR5 channel 0 is installed and READY. -/
def ddrUp : List (Nat × Word) := [(ddrOff 0 memcDdrCfg, 1), (ddrOff 0 memcDdrSts, 2)]

/-! Well-formed commands, and one ill-formed command for each check. -/

/-- A sample of channel `n`. -/
def tSample (n : ChanId) : ChanIn := { chan := n, v := 0, ia := 0, ib := 0, coefEcc := false, lateU := false }

/-- A frame of `n` bytes that announces `len`. -/
def tFrame (typ : BitVec 4) (len : BitVec 10) (n : Nat) : Frame :=
  { typ := typ, dst := 5, src := 7, len := len, hops := 0, priv := false, tag := 9, w2 := 0, w3 := 0, data := List.replicate n 0 }

def tRx (f : Frame) : Rx := { port := 0, frame := f, lseq := 0, crc := frameCrc f 0, endOk := true }

def tDesc : List Word := [0, 0, 0x5400008, 0, 8, 0, 0, 0]

theorem test_wf_baseTick :
    (Instr.baseTick ⟨[tSample 0, tSample 1], 0, 0, 0, []⟩).wf = true ∧ (Instr.baseTick ⟨[tSample 1, tSample 1], 0, 0, 0, []⟩).wf = false := by
  decide

theorem test_wf_access :
    (Instr.registerWrite .host 0 [1, 2, 3, 4]).wf = true ∧ (Instr.registerWrite .host 0 [1, 2, 3]).wf = false ∧
    (Instr.coefSetWrite .host 0 0 0 []).wf = false ∧ (Instr.descriptorTableWrite .host 0 0 [1, 2, 3, 4, 5]).wf = false ∧
    (Instr.calObjectWrite .host 0 [1, 2, 3, 4, 5, 6]).wf = false := by
  decide

theorem test_wf_temperatures :
    (Instr.calCoefUpdate (List.replicate 16 0) 0).wf = true ∧ (Instr.calCoefUpdate [0, 0, 0, 0] 0).wf = false := by
  decide

theorem test_wf_frames :
    (Instr.write (tRx (tFrame 2 4 4))).wf = true ∧ (Instr.write (tRx (tFrame 2 4 3))).wf = false ∧
    (Instr.frameForward (tRx (tFrame 2 4 3))).wf = false ∧ (Instr.reply (tRx (tFrame 3 4 3))).wf = false ∧
    (Instr.bcastWrite (tRx (tFrame 4 4 3))).wf = false ∧ (Instr.discover (tRx (tFrame 8 4 3))).wf = false ∧
    (Instr.dictResult (tRx (tFrame 11 4 3))).wf = false ∧ (Instr.harvestDn (tRx (tFrame 6 4 3)) 0).wf = false ∧
    (Instr.harvestUp (tRx (tFrame 5 4 3)) 0).wf = false ∧ (Instr.time (tRx (tFrame 7 4 3)) 0 0 0 0).wf = false := by
  decide

theorem test_wf_no_payload :
    (Instr.read ⟨tRx (tFrame 1 0 0), false⟩).wf = true ∧ (Instr.read ⟨tRx (tFrame 1 4 4), false⟩).wf = false ∧
    (Instr.topo (tRx (tFrame 9 0 0))).wf = true ∧ (Instr.topo (tRx (tFrame 9 4 4))).wf = false := by
  decide

theorem test_wf_host :
    (Instr.dmaDescriptor 0 tDesc (List.replicate 8 0) false).wf = true ∧
    (Instr.dmaDescriptor 0 tDesc (List.replicate 7 0) false).wf = false ∧
    (Instr.tlp .bar4 0 true 15 0 [1]).wf = true ∧ (Instr.tlp .bar4 0 true 15 0 []).wf = false := by
  decide

/-! One step, with the result that the spec gives. -/

/-- A claim about the state that a command leads to. -/
def after (c : Instr) (s : State) (p : State → Bool) : Bool :=
  match exec c s with
  | .next t => p t
  | _ => false

/-- The table gives no row a word. -/
theorem test_no_word : decodeTableWord 32 0x12345678 = none := rfl

/-- R74: ENABLE (code 2) of a channel in OFF is refused with WRONG_STATE (1). -/
theorem test_enable_refused : after (.enable hA 0) wOn (fun t => decide (t.cr 0 chRefuse = 2 + 16 * 1)) = true := by decide +kernel

/-- R837: IDCODE of core die B1. -/
theorem test_idcode : after .idcode State.reset (fun t => decide (t.out = [.jtag 0 [0x2646474B]])) = true := by decide +kernel

/-- R642: key 2 leaves the service state, key 1 enters it. -/
theorem test_service :
    after (.svcLeave hA) wOn (fun t => decide (t.rg sysSvcSts = 0)) = true ∧
    after (.svcEnter hA) (wRegs [(sysSvcSts, 0)] wOn) (fun t => decide (t.rg sysSvcSts = 1)) = true := by decide +kernel

/-- R29: one base tick more. -/
theorem test_base_tick :
    after (.baseTick ⟨[], 0, 0, 0, []⟩) { running := true, tick := 6 } (fun t => decide (t.tick = 7)) = true := by decide +kernel

/-- R110: the range of a 32-bit value is symmetric; R118: a tie rounds to the even neighbour. -/
theorem test_arithmetic :
    sat32 (-2147483648) = -2147483647 ∧ rne 5 2 = 2 ∧ rne 7 2 = 4 ∧ rne (-5) 2 = -2 ∧ rne (-7) 2 = -4 := by decide

/-- R112: mantissa 2^30 with exponent 1 is the coefficient 1, in an accumulator of weight 2^-31 (R118). -/
theorem test_unit_coefficient : shiftProd unitCoef 1234567 = (1234567 * 2147483648, false) := by decide +kernel

/-- Writing what an unlisted byte reads as removes its entry. -/
theorem test_store_canonical : (({ mem := [(0x5400000, 5)] } : State).store 0x5400000 [0, 0, 9]).mem = [(0x5400002, 9)] := by
  decide +kernel

/-- R827: the Vendor and Device IDs, and the Revision ID with the Class Code, as the configuration space answers them. -/
theorem test_pcie_config :
    let s : State := { wOn with hostp := { linkUp := true } }
    after (.tlp .config 0 false 15 0 [0]) s (fun t => decide (t.out = [.cpl (some [0xB7, 0x1F, 0x64, 0x64])])) = true ∧
    after (.tlp .config 8 false 15 0 [0]) s (fun t => decide (t.out = [.cpl (some [0xB1, 0x00, 0x80, 0x11])])) = true := by
  decide +kernel


/-- A channel configured to be armed: one range, two sets, a committed safety set. -/
def wArm : State :=
  { wCh { valid := 3 } with
    regs := [(chOff 0 chCfg, 0), (chOff 0 chIfs, 0x3F800000), (chOff 0 chVfs, 0x3F800000), (chOff 0 chSmap, 0x10)]
    mem := [(setAddr 0 0, 2), (setAddr 0 1, 0x12)], crc := { flipped := [0] } }

/-- The same channel with a lane that has no room: every other slot is reserved at order 8. -/
def wFull : State :=
  { wArm with chans := (0, ({ valid := 3 } : Chan)) :: (List.range 15).map fun i => (i + 1, { slot := true, resOrd := 8 }) }

/-- ARMED with a tracking supply whose rails are not settled. -/
def wRails : State := { wCh { state := .armed, rail := { ok := false } } with regs := [(chOff 0 chPwmCtl, 2)] }

/-- SERVICE while a calibration step runs on the channel. -/
def wCalOn : State := { wSt .service with tiles := [(0, { cal := { st := .measure, step := 1 } })] }

def wVfy : State := wCh { vfy := some ⟨3, false⟩ }

/-- Set 3 stands in memory with its CRC. -/
def wSet : State :=
  { wVfy with mem := [(setAddr 0 3, 2), (setAddr 0 3 + 4, 100), (setAddr 0 3 + 1020, 86), (setAddr 0 3 + 1021, 0), (setAddr 0 3 + 1022, 190), (setAddr 0 3 + 1023, 77)] }
/-- A range without a set that is valid. -/
def wNoSet : State := { wArm with chans := [] }
/-- A committed safety set and no implemented range. -/
def wNoRng : State := { wOn with crc := { flipped := [0] } }

/-- The state that an ARM of channel 0 finds: the strobes of earlier cycles have come. -/
def wPast (s : State) : State := s.catchTo (s.at_ s.wcyc - 1)

/-- For `Obligations.ChannelCommands`: states and operands that meet its hypotheses on channel command latched. -/
theorem witness_ChannelCommandLatched :
    (wArm.mayWrite hA (chOff 0 chCtl) ∧ ((wPast wArm).ch 0).state = .off ∧ (wPast wArm).awake 0 = true ∧ (wPast wArm).committed 0 = true ∧
      armRanges (wPast wArm).accepted 0 = true ∧ (wPast wArm).armAdmits 0 = true ∧ (wPast wArm).armConfig 0 = true) ∧
    (wNoRng.mayWrite hA (chOff 0 chCtl) ∧ (wNoRng.ch 0).state = .off ∧ wNoRng.awake 0 = true ∧ wNoRng.committed 0 = true) ∧
    ((wSt .armed).mayWrite hA (chOff 0 chCtl) ∧ (wSt .armed).railsOk 0 = true) ∧
    ((wSt .active).mayWrite hA (chOff 0 chCtl) ∧ ((wSt .active).ch 0).state = .active) ∧
    ((wSt .service).mayWrite hA (chOff 0 chCtl) ∧ ((wSt .service).ch 0).state = .service ∧ (wSt .service).calOn 0 = false) :=
  ⟨⟨hostWrites (by decide +kernel), by decide +kernel⟩, ⟨hostWrites (by decide +kernel), by decide +kernel⟩,
    ⟨hostWrites (by decide +kernel), by decide +kernel⟩, ⟨hostWrites (by decide +kernel), by decide +kernel⟩,
    hostWrites (by decide +kernel), by decide +kernel⟩

/-- For `Obligations.ChannelCommands`: states and operands that meet its hypotheses on channel command refused. -/
theorem witness_ChannelCommandRefused :
    ((wSt .active).mayWrite hA (chOff 0 chCtl) ∧ ((wPast (wSt .active)).ch 0).state = .active) ∧
    (wOn.mayWrite hA (chOff 0 chCtl) ∧ (wPast wOn).awake 0 = true ∧ (wPast wOn).committed 0 = false ∧ wOn.awake 0 = true ∧
      wOn.committed 0 = false) ∧
    (wNoRng.mayWrite hA (chOff 0 chCtl) ∧ (wPast wNoRng).awake 0 = true ∧ (wPast wNoRng).committed 0 = true ∧ armRanges (wPast wNoRng).accepted 0 = false) ∧
    (wFull.mayWrite hA (chOff 0 chCtl) ∧ (wPast wFull).awake 0 = true ∧ (wPast wFull).committed 0 = true ∧ armRanges (wPast wFull).accepted 0 = true ∧
      (wPast wFull).armAdmits 0 = false) ∧
    (wNoSet.mayWrite hA (chOff 0 chCtl) ∧ (wPast wNoSet).awake 0 = true ∧ (wPast wNoSet).committed 0 = true ∧ armRanges (wPast wNoSet).accepted 0 = true ∧ (wPast wNoSet).armAdmits 0 = true ∧
      (wPast wNoSet).armConfig 0 = false) ∧
    (wRails.mayWrite hA (chOff 0 chCtl) ∧ (wRails.ch 0).state = .armed ∧ wRails.railsOk 0 = false) ∧
    (wCalOn.mayWrite hA (chOff 0 chCtl) ∧ (wCalOn.ch 0).state = .service ∧ wCalOn.calOn 0 = true) ∧ 7 ≤ (7 : BitVec 4).toNat :=
  ⟨⟨hostWrites (by decide +kernel), by decide +kernel⟩, ⟨hostWrites (by decide +kernel), by decide +kernel⟩,
    ⟨hostWrites (by decide +kernel), by decide +kernel⟩, ⟨hostWrites (by decide +kernel), by decide +kernel⟩,
    ⟨hostWrites (by decide +kernel), by decide +kernel⟩, ⟨hostWrites (by decide +kernel), by decide +kernel⟩,
    ⟨hostWrites (by decide +kernel), by decide +kernel⟩, by decide⟩

set_option maxRecDepth 100000 in
/-- For `Obligations.CoefficientSetCommands`: states and operands that meet its hypotheses. -/
theorem witness_CoefficientSetCommands :
    (wOn.mayWrite hA (chOff 0 chSetCmd) ∧ (wOn.ch 0).vfy = none ∧ wOn.setProt 0 15 = false) ∧
    (wVfy.mayWrite hA (chOff 0 chSetCmd) ∧ (wVfy.ch 0).vfy ≠ none) ∧
    (wSet.mayWrite hA (chOff 0 chSetCmd) ∧ (wSet.ch 0).vfy = some ⟨3, false⟩ ∧ wSet.ue (setAddr 0 3) 1024 = false ∧
      wSet.vfyReason 0 3 = 0) :=
  ⟨⟨hostWrites (by decide +kernel), by decide +kernel⟩, ⟨hostWrites (by decide +kernel), by decide +kernel⟩,
    hostWrites (by decide +kernel), by decide +kernel⟩

/-- For `Obligations.ChannelReset`: states and operands that meet its hypotheses. -/
theorem witness_ChannelReset :
    ((wSt .fenced).mayWrite hA (chOff 0 chRst) ∧ (wSt .fenced).unpaired hA (chOff 0 chRst) = true ∧ ((wSt .fenced).ch 0).state = .fenced) ∧
    ((wSt .active).mayWrite hA (chOff 0 chRst) ∧ (wSt .active).unpaired hA (chOff 0 chRst) = true ∧ (wSt .active).chIdle 0 = false ∧ ((wSt .active).ch 0).state ≠ .fenced) :=
  ⟨⟨hostWrites (by decide +kernel), by decide +kernel⟩, hostWrites (by decide +kernel), by decide +kernel⟩

/-! Supervision. -/

/-- ACTIVE with a chip and a repeat of one; the largest values at the second place. -/
def wLe (c : Chan) : State := { wCh c with regs := [(chOff 0 chLeCfg, 0x101)] }
/-- No chip length. -/
def wLeNo : State := { wCh { state := .active, disp := .loop } with regs := [(chOff 0 chLeCfg, 0x100)] }
def wLeA : State := wLe { state := .active, disp := .loop }
def wLeOff : State := wLe {}
def wLeRamp : State := wLe { state := .active, disp := .loop, sup := { ramp := true } }
def wLeFull : State := { wLeA with chans := [(0, { state := .active, disp := .loop }), (1, { le := { run := true } }), (15, { le := { start := true } })] }
def wLeZv : State := wLe { state := .active, disp := .zeroV }
def wLeRun : State := wLe { state := .active, disp := .loop, le := { run := true, idx := 3, total := 3 } }
def wLeFit : State := wLe { state := .active, le := { fit := some ⟨[4, 2, 2, 3, 5, 9], 0x3F800000, 0x3F800000, 1, 0⟩ } }
def wOscWin : State := { wCh { state := .active, sup := { oscN := 4, oscCnt := 2 } } with regs := [(chOff 0 chOscWin, 4)] }

/-- The end of a window whose mean difference is `e` above the tolerance of 1 code of 2^14. -/
def wHo (e : Int) : State :=
  let f := f32v 0x3F800000
  { wCh { state := .active, ho := { st := .window, frm := 0, dst := 1, win := 2, j := 2, tol := 1, cnt := 2, sum := (16384 + e) * (2 * f) } } with
    regs := [(chOff 0 chIfs, 0x3F800000), (chOff 0 (chIfs + 4), 0x3F800000)] }

/-- Autoranging between two ranges of 1 A and 2 A, with a count of one. -/
def wAr (i up dn : Nat) : State :=
  { wCh { state := .active, rng := ⟨i, 0⟩, sup := { arUp := up, arDn := dn } } with
    regs := [(chOff 0 chIfs, 0x3F800000), (chOff 0 (chIfs + 4), 0x40000000), (chOff 0 chArMask, 0x10FFF)] }

/-- For `Obligations.LoadEstimator`: states and operands that meet its hypotheses. -/
theorem witness_LoadEstimator :
    (wLeA.mayWrite hA (chOff 0 chLeCtl) ∧ (wLeA.ch 0).state = .active ∧ (wLeA.ch 0).disp = .loop ∧
      bitsOf (wLeA.cr 0 chLeCfg) 7 0 = 1 ∧ bitsOf (wLeA.cr 0 chLeCfg) 15 8 = 1 ∧ wLeA.leRuns 0 = 0) ∧
    (wLeOff.mayWrite hA (chOff 0 chLeCtl) ∧ (wLeOff.ch 0).state ≠ .active) ∧
    (wLeZv.mayWrite hA (chOff 0 chLeCtl) ∧ (wLeZv.ch 0).state = .active ∧ (wLeZv.ch 0).disp ≠ .loop) ∧
    (wLeRamp.mayWrite hA (chOff 0 chLeCtl) ∧ (wLeRamp.ch 0).state = .active ∧ (wLeRamp.ch 0).sup.ramp = true) ∧
    (wLeNo.mayWrite hA (chOff 0 chLeCtl) ∧ (wLeNo.ch 0).state = .active ∧ bitsOf (wLeNo.cr 0 chLeCfg) 7 0 = 0) ∧
    (wLeFull.mayWrite hA (chOff 0 chLeCtl) ∧ (wLeFull.ch 0).state = .active ∧ wLeFull.leRuns 0 = 2) ∧
    (wLeRun.mayWrite hA (chOff 0 chLeCtl) ∧ (wLeRun.ch 0).le.run = true ∧ (wLeRun.ch 0).le.total ≤ (wLeRun.ch 0).le.idx) ∧
    (wLeFit.ch 0).le.fit.isSome = true :=
  ⟨⟨hostWrites (by decide +kernel), by decide +kernel⟩, ⟨hostWrites (by decide +kernel), by decide +kernel⟩, ⟨hostWrites (by decide +kernel), by decide +kernel⟩,
    ⟨hostWrites (by decide +kernel), by decide +kernel⟩, ⟨hostWrites (by decide +kernel), by decide +kernel⟩,
    ⟨hostWrites (by decide +kernel), by decide +kernel⟩, ⟨hostWrites (by decide +kernel), by decide +kernel⟩, by decide +kernel⟩

/-- For `Obligations.SupervisionEvents`: states and operands that meet its hypotheses. -/
theorem witness_SupervisionEvents :
    bitsOf (wOscWin.cr 0 chOscWin) 15 0 ≤ (wOscWin.ch 0).sup.oscN ∧
    (∀ e ∈ [0, 1], ((wHo e).ch 0).ho.st = .window ∧ ((wHo e).ch 0).ho.win ≤ ((wHo e).ch 0).ho.j ∧ ((wHo e).ch 0).ho.abandon = none ∧
      rne ((wHo e).ch 0).ho.sum (f32v 0x3F800000 * 2) = 16384 + e ∧ f32v (wHo e |>.ifs 0 0) = f32v 0x3F800000) ∧
    (((wAr 0 1 0).ch 0).state = .active ∧ bitsOf ((wAr 0 1 0).cr 0 chArMask) 23 16 = 1 ∧ (wAr 0 0 0).arUpRange 0 = some 1) ∧
    (((wAr 1 0 1).ch 0).sup.arUp < 1 ∧ bitsOf ((wAr 1 0 1).cr 0 chArMask) 23 16 = 1 ∧ (wAr 1 0 0).arDnRange 0 = some 0) := by
  decide +kernel

/-! Measurement. -/

def wApEnd : State := wCh { meas := { ap := { st := .integ, n := 4, done := 4, time := some 7 } } }
def wApDly (m : Bool) : State := wCh { meas := { ap := { st := .delay, dly := 3, k := 3 }, cur := { miss := m } } }
/-- A start at the line crossing of tick 7. -/
def wApLine : State := { wCh { meas := { ap := { st := .delay, dly := 33554435, k := 3, crossed := some 7 } } } with tick := 8 }
def wRec : Rec := { time := 5, sweep := 2, flags := 0, v := 3, i := -4, aux := 1 }
/-- A ring of four records of which three are taken; its last place is the next. -/
def wPans : State :=
  { wCh { meas := { recs := [wRec] } } with
    regs := [(chOff 0 chMeasCfg, 0x40), (chOff 0 chPansSize, 4), (chOff 0 chPansWptr, 3)] }
def wSpill : State :=
  { wOn with
    regs := ddrUp ++ [(chOff 0 chMeasCfg, 0xC0), (chOff 0 chPansSize, 4), (chOff 0 chPansWptr, 5), (chOff 0 chPansSptr, 4),
      (chOff 0 chSpillDsize, 8)]
    mem := [(0x4000000, 7)] }
/-- The record to be moved cannot be read. -/
def wSpillUE : State := { wSpill with memUE := [codeword (wSpill.pansAddr 0 4)] }
def wLineNew : State := { wOn with regs := [(tileOff 0 tileLineCfg, 8)] }
def wBrn : State :=
  { wCh { meas := { brine := { line := [{ w := 5 }], first := 0 } } } with
    tick := 1024, regs := ddrUp ++ [(chOff 0 chBrnDsize, 1)] }
def wPtr : State := { wOn with regs := [(chOff 0 chPansWptr, 3), (chOff 0 chBrnWptr, 3)] }
def wLine : State := { wOn with lineOn := [0], regs := [(tileOff 0 tileLineCfg, 8)], lines := [(0, List.replicate 7 2857143)] }

/-- For `Obligations.Apertures`: states and operands that meet its hypotheses. -/
theorem witness_Apertures :
    ((wApEnd.ch 0).meas.ap.st = .integ ∧ (wApEnd.ch 0).meas.ap.n ≤ (wApEnd.ch 0).meas.ap.done) ∧
    (∀ m, ((wApDly m).ch 0).meas.ap.st = .delay ∧ bitsOf ((wApDly m).ch 0).meas.ap.dly 23 0 = ((wApDly m).ch 0).meas.ap.k ∧
      bitOf ((wApDly m).ch 0).meas.ap.dly 25 = false ∧ (wApDly m).own 0 = true ∧ ((wApDly m).ch 0).meas.cur.miss = m) ∧
    ((wApLine.ch 0).meas.ap.st = .delay ∧ bitsOf (wApLine.ch 0).meas.ap.dly 23 0 = 3 ∧ bitOf (wApLine.ch 0).meas.ap.dly 25 = true ∧
      (wApLine.ch 0).meas.ap.crossed = some 7 ∧ 7 < wApLine.tick ∧ wApLine.own 0 = true) ∧
    (wSt .active).mayWrite hA (chOff 0 chMeasCtl) :=
  ⟨by decide +kernel, by decide +kernel, by decide +kernel, hostWrites (by decide +kernel)⟩

/-- For `Obligations.MeasurementRecords`: states and operands that meet its hypotheses. -/
theorem witness_MeasurementRecords :
    ((wPans.ch 0).meas.recs = [wRec] ∧ bitOf (wPans.cr 0 chMeasCfg) 6 = true ∧ wPans.pansSpace 0 = true ∧
      (wPans.ch 0).meas.dropped = 0 ∧ wPans.spill 0 = false) ∧
    (wSpill.spill 0 = true ∧ bitOf (wSpill.cr 0 chMeasCfg) 6 = true ∧ wSpill.cr 0 chPansSptr ≠ wSpill.cr 0 chPansWptr ∧
      wrapSub (wSpill.cr 0 chPansSptr) (wSpill.cr 0 chPansRptr) < wSpill.spillSize 0 ∧
      wSpill.ddrOk (wSpill.dbase 0 chSpillDbaseLo + 32 * (wSpill.cr 0 chPansSptr % max 1 (wSpill.spillSize 0))) 32 = true ∧ wSpill.memUE = []) ∧
    (wSpillUE.spill 0 = true ∧ wSpillUE.cr 0 chPansSptr = 4 ∧ wSpillUE.ue (wSpillUE.pansAddr 0 4) 32 = true ∧
      wSpillUE.ddrOk (wSpillUE.dbase 0 chSpillDbaseLo + 32 * (4 % max 1 (wSpillUE.spillSize 0))) 32 = true) := by
  decide +kernel

/-- For `Obligations.BrineAndPointers`: states and operands that meet its hypotheses. -/
theorem witness_BrineAndPointers :
    ((wBrn.ch 0).meas.brine.line ≠ [] ∧ (wBrn.ch 0).meas.brine.line.length < 8 ∧
      (wBrn.ch 0).meas.brine.first + 1024 ≤ wBrn.tick ∧ wBrn.brnSpace 0 = true ∧ wBrn.memUE = []) ∧
    (wPtr.mayWrite hA (chOff 0 chPansRptr) ∧ wrapSub 3 (wPtr.cr 0 chPansRptr) = wrapSub (wPtr.cr 0 chPansWptr) (wPtr.cr 0 chPansRptr) ∧
      wrapSub (wPtr.cr 0 chPansWptr) (wPtr.cr 0 chPansRptr) < wrapSub 4 (wPtr.cr 0 chPansRptr)) ∧
    (wPtr.mayWrite hA (chOff 0 chBrnRptr) ∧ wrapSub 3 (wPtr.cr 0 chBrnRptr) = wrapSub (wPtr.cr 0 chBrnWptr) (wPtr.cr 0 chBrnRptr) ∧
      wrapSub (wPtr.cr 0 chBrnWptr) (wPtr.cr 0 chBrnRptr) < wrapSub 4 (wPtr.cr 0 chBrnRptr)) ∧
    (bitOf (wLineNew.rg (tileOff 0 tileLineCfg)) 3 = true ∧ wLineNew.isFenced (unTile 0) = false ∧ wLineNew.lineOn.contains 0 = false) ∧
    (bitOf (wLine.rg (tileOff 0 tileLineCfg)) 3 = true ∧ wLine.isFenced (unTile 0) = false ∧ wLine.lineOn.contains 0 = true ∧
      ((2857143 : Nat) :: tget (fun _ => []) wLine.lines 0).length = 8) :=
  ⟨by decide +kernel, ⟨hostWrites (by decide +kernel), by decide +kernel⟩, ⟨hostWrites (by decide +kernel), by decide +kernel⟩,
    by decide +kernel, by decide +kernel⟩

/-! The Rake. -/

def wJump : State := wCh { state := .active, rake := { jlatch := true } }
def wRun : State := wCh { state := .active, rake := { st := .running } }
/-- CHECK of a table of no segment, and of one whose only segment has no granule. -/
def wChk (cnt : Nat) : State :=
  { wCh { rake := { checking := true } } with regs := [(chOff 0 chRakeCfg, 1), (chOff 0 chRakeLen, 64), (chOff 0 chRakeSegcfg, BitVec.ofNat 32 (256 * cnt))] }
/-- A table outside the region. -/
def wChkOut : State := { wCh { rake := { checking := true } } with regs := [(chOff 0 chRakeSegcfg, 256)] }
/-- A POINT in force before another POINT at entry 1, the last of the region. -/
def wPoint : State :=
  { wCh { state := .active, rake := { st := .running, left := 1 } } with regs := [(chOff 0 chRakeLen, 2)], mem := [(24, 1), (27, 15)] }
def wWait : State := { wPoint with chans := [(0, { state := .active, rake := { st := .waiting, wHit := true, wait := [0, 0, 0, 2] } })] }
def wTime : State := { wPoint with chans := [(0, { state := .active, rake := { st := .waiting, left := 1, wait := [256, 0, 0, 2] } })] }
/-- The end of the last repetition of segment 0, of one granule, with SEG_STOP, and without it before a second repetition. -/
def wSeg (w0 : Nat) (rep : Nat) (gi : Nat) (len : Nat) : State :=
  let s : State := { wCh { state := .active, rake := { st := .running, gi := gi, si := 63, repLeft := rep } } with
    regs := [(chOff 0 chRakeCfg, 2), (chOff 0 chRakeLen, 64), (chOff 0 chRakeSegtab, 32)] }
  s.storeRaw (s.rakeAddr 0 32) (leBytes 4 w0 ++ leBytes 4 len)
/-- A ring of two granules in DDR5, and one of two slots on chip. -/
def wStr : State :=
  { wCh { state := .active, rake := { st := .running } } with
    regs := ddrUp ++ [(chOff 0 chStrCfg, 1), (chOff 0 chStrDsize, 2), (chOff 0 chStrRlen, 2), (chOff 0 chStrWptr, 1)]
    mem := [(ddrBase, 9)] }
def wFlush : State := { wStr with chans := [(0, { str := { buf := some ⟨[], none⟩ } })] }
def wGap : State :=
  { wStr with tick := 63, chans := [(0, { state := .active, rake := { st := .starved, strOk := true, gapB := 0 }, str := { buf := some ⟨[], none⟩ } })] }

/-- For `Obligations.RakeCommands`: states and operands that meet its hypotheses. -/
theorem witness_RakeCommands :
    ((wSt .active).mayWrite hA (chOff 0 chRakeCtl) ∧ ((wSt .active).ch 0).state ≠ .fenced ∧ ((wSt .active).ch 0).rake.jlatch = false) ∧
    (wJump.mayWrite hA (chOff 0 chRakeCtl) ∧ (wJump.ch 0).state ≠ .fenced ∧ (wJump.ch 0).rake.jlatch = true) :=
  ⟨⟨hostWrites (by decide +kernel), by decide +kernel⟩, hostWrites (by decide +kernel), by decide +kernel⟩

/-- For `Obligations.SegmentCheck`: states and operands that meet its hypotheses. -/
theorem witness_SegmentCheck :
    ((wSt .active).mayWrite hA (chOff 0 chRakeCtl) ∧ ((wSt .active).ch 0).state ≠ .fenced ∧ ((wSt .active).ch 0).rake.st = .stopped) ∧
    (wRun.ch 0).rake.st ≠ .stopped ∧ ((wChkOut.ch 0).rake.checking = true ∧ wChkOut.rkLen 0 < 0 + 1) ∧
    (∀ k ∈ [0, 1], bitOf ((wChk k).cr 0 chRakeCfg) 0 = true) ∧
    ((wChk 0).ch 0).rake.checking = true ∧ bitsOf ((wChk 0).cr 0 chRakeSegcfg) 16 8 = 0 ∧
    ((wChk 1).ch 0).rake.checking = true ∧ bitsOf ((wChk 1).cr 0 chRakeSegcfg) 16 8 = 1 ∧ 1 ≤ (wChk 1).rkLen 0 ∧
    (wChk 1).segReason 0 0 = 18 :=
  ⟨⟨hostWrites (by decide +kernel), by decide +kernel⟩, by decide +kernel⟩

/-- For `Obligations.RakeBoundaries`: states and operands that meet its hypotheses. -/
theorem witness_RakeBoundaries :
    ((wPoint.ch 0).rake.st = .running ∧ wPoint.wave 0 = false ∧ (wPoint.ch 0).rake.next = none ∧ wPoint.own 0 = true ∧
      (wPoint.ch 0).rake.left ≤ 1 ∧ (wPoint.ch 0).rake.je = false ∧ 1 < wPoint.rkLen 0 ∧ wPoint.entryUE 0 1 = false ∧
      wPoint.entryReason 0 (wPoint.entry 0 1) 0 0 = 0 ∧ ew (wPoint.entry 0 1) 3 % 4 = 0) ∧
    ((wWait.ch 0).rake.st = .waiting ∧ (wWait.ch 0).rake.next = none ∧ wWait.entryUE 0 1 = false ∧ 1 < wWait.rkLen 0 ∧ wWait.own 0 = true ∧ (wWait.ch 0).rake.wHit = true ∧
      wWait.entryReason 0 (wWait.entry 0 1) 0 0 = 0) ∧
    ((wTime.ch 0).rake.st = .waiting ∧ (wTime.ch 0).rake.next = none ∧ wTime.own 0 = true ∧ (wTime.ch 0).rake.wHit = false ∧ (wTime.ch 0).rake.left ≤ 1 ∧
      bitsOf (ew (wTime.ch 0).rake.wait 0) 9 7 = 2) ∧
    (∀ s ∈ [wSeg 0x40000000 1 0 1, wSeg 0 2 0 1, wSeg 0 1 0 2], (s.ch 0).rake.st = .running ∧ s.wave 0 = true ∧
      (s.ch 0).rake.next = none ∧ s.own 0 = true ∧ (s.ch 0).rake.si = 63 ∧ (s.ch 0).jump = false ∧ s.streamed 0 0 = false) ∧
    ((wSeg 0x40000000 1 0 1).segLen 0 0 = 1 ∧ bitOf (ew ((wSeg 0x40000000 1 0 1).segDesc 0 0) 0) 30 = true) ∧
    ((wSeg 0 2 0 1).segLen 0 0 = 1 ∧ ((wSeg 0 2 0 1).segGran 0 0 0).bad = none ∧ ((wSeg 0 2 0 1).ch 0).rake.repLeft = 2 ∧
      (wSeg 0 2 0 1).entryUE 0 (bitsOf ((wSeg 0 2 0 1).cr 0 chRakeSegtab) 21 0 + 0) = false ∧ bitOf (ew ((wSeg 0 2 0 1).segDesc 0 0) 0) 31 = false) ∧
    ((wSeg 0 1 0 2).ch 0).rake.pre = none ∧ 0 + 1 < (wSeg 0 1 0 2).segLen 0 0 := by
  decide +kernel

/-- For `Obligations.StreamRing`: states and operands that meet its hypotheses. -/
theorem witness_StreamRing :
    (wStr.mayWrite hA (chOff 0 chStrWptr) ∧ wrapSub 2 1 + wrapSub (wStr.cr 0 chStrWptr) (wStr.cr 0 chStrRptr) = wStr.strSize 0 ∧
      wStr.strSize 0 < wrapSub 3 1 + wrapSub (wStr.cr 0 chStrWptr) (wStr.cr 0 chStrRptr)) ∧
    (wFlush.mayWrite hA (chOff 0 chStrCtl) ∧ (wFlush.ch 0).rake.st = .stopped) ∧
    (wStr.mayWrite hA (chOff 0 chStrCtl) ∧ (wStr.ch 0).rake.st ≠ .stopped) ∧
    ((wGap.ch 0).rake.st = .starved ∧ (wGap.ch 0).rake.next = none ∧ wGap.own 0 = true ∧ (wGap.ch 0).rake.strOk = true ∧
      (wGap.tick + wGap.srDiv 0 - (wGap.ch 0).rake.gapB) % (64 * wGap.srDiv 0) = 0 ∧ (wGap.ch 0).str.buf.isSome = true) ∧
    (wStr.decideAll.refillNext = some 0 ∧ wStr.decideAll.refillAt = none ∧
      wStr.decideAll.ue (ddrBase + wStr.dbase 0 chStrDbaseLo + 256 * (wStr.cr 0 chStrRptr % wStr.strSize 0)) 256 = false) :=
  ⟨⟨hostWrites (by decide +kernel), by decide +kernel⟩, ⟨hostWrites (by decide +kernel), by decide +kernel⟩,
    ⟨hostWrites (by decide +kernel), by decide +kernel⟩, by decide +kernel⟩

/-! Converters. -/

def wPsc (p : Psc) (trig : Word) : State := { wOn with pscs := [(0, p)], regs := [(pscOff 0 pscTrig, trig)] }
def wSeq : State := { wOn with pscs := [(0, { own := 1 })], regs := [(pscOff 0 pscCfg, 0x100)] }
def wTmr (p : Psc) (trig : Word) : State := wPsc { p with own := 1, tmr := some 0 } trig
/-- A duty edge of channel 0, ARMED, that the converter watches. -/
def wEdge (st : PscSt) (trig : Word) : State :=
  { wPsc { own := 1, st := st, due := 60, settled := true, edges := [(5, 0)] } trig with chans := [(0, { state := .armed })] }
/-- The same with the gate open. -/
def wGate : State := { wEdge .idle 3 with pscs := [(0, { own := 1, gate := true, edges := [(5, 0)] })] }
def wDly : State := wPsc { own := 1, dly := [49] } 2
def wPass : State := wPsc { own := 1, st := .regular, settled := true, regLen := 2, ent := [0x240, 16, 0, 0] } 0
def wSettle : State := wPsc { own := 1, st := .regular, regLen := 2, setAt := 32, due := 544 } 0

/-- The state that a command of a converter finds: what was told for earlier cycles has come about. -/
def wNow (s : State) : State := s.catchTo (s.at_ s.wcyc)

/-- For `Obligations.Converters`: states and operands that meet its hypotheses on converter commands. -/
theorem witness_ConverterCommands :
    (wSeq.mayWrite hA (pscOff 0 pscCtl) ∧ ((wNow wSeq).psc 0).seq = true ∧ (wNow wSeq).pscUp 0 = true ∧ 0 < (wNow wSeq).injLen 0) ∧
    ((wPsc { own := 1 } 0).mayWrite hA (pscOff 0 pscCtl) ∧ ((wNow (wPsc { own := 1 } 0)).psc 0).seq = true ∧
      (wNow (wPsc { own := 1 } 0)).pscUp 0 = true ∧ (wNow (wPsc { own := 1 } 0)).injLen 0 = 0) ∧
    (wOn.mayWrite hA (pscOff 0 pscCtl) ∧ ((wNow wOn).psc 0).seq = false) :=
  ⟨⟨hostWrites (by decide +kernel), by decide +kernel⟩, ⟨hostWrites (by decide +kernel), by decide +kernel⟩,
    hostWrites (by decide +kernel), by decide +kernel⟩

/-- For `Obligations.Converters`: states and operands that meet its hypotheses on converter triggers. -/
theorem witness_ConverterTriggers :
    (((wTmr {} 1).psc 0).seq = true ∧ (wTmr {} 1).pscUp 0 = true ∧ 0 ≤ (wTmr {} 1).at_ 49 ∧ ((wTmr {} 1).psc 0).tmr = some 0 ∧
      (wTmr {} 1).pscFirst 0 0 5 = none ∧ bitsOf ((wTmr {} 1).pr 0 pscTrig) 1 0 = 1) ∧
    (((wTmr {} 3).psc 0).seq = true ∧ (wTmr {} 3).pscUp 0 = true ∧ ((wTmr {} 3).psc 0).tmr = some 0 ∧
      (wTmr {} 3).pscFirst 0 0 5 = none ∧ ((wTmr {} 3).psc 0).gate = false ∧ bitsOf ((wTmr {} 3).pr 0 pscTrig) 1 0 = 3) ∧
    (((wTmr { gate := true } 3).psc 0).seq = true ∧ (wTmr { gate := true } 3).pscUp 0 = true ∧
      (wTmr { gate := true } 3).pscFirst 0 0 5 = none ∧ ((wTmr { gate := true } 3).psc 0).gate = true) := by
  decide +kernel

/-- The state in which the edges of a tick are seen: after the falls of the outputs. -/
def wSeen (t : State) : State := t.pwmFalls (t.at_ 49) ((List.range 16).map (16 * (0 / 4) + ·))

/-- For `Obligations.Converters`: states and operands that meet its hypotheses on converter triggers. -/
theorem witness_ConverterEdges :
    (((wSeen (wEdge .idle 2)).psc 0).seq = true ∧ (wSeen (wEdge .idle 2)).pscUp 0 = true ∧ ((wSeen (wEdge .idle 2)).psc 0).edges = [(5, 0)] ∧
      5 ≤ (wSeen (wEdge .idle 2)).at_ 49 ∧ (wSeen (wEdge .idle 2)).pscFirst 0 5 3 = none ∧ bitsOf ((wSeen (wEdge .idle 2)).pr 0 pscTrig) 1 0 = 2 ∧
      ((wSeen (wEdge .idle 2)).psc 0).busy 5 = false ∧ (wSeen (wEdge .idle 2)).pscHears 0 0 = true) ∧
    ((wSeen (wEdge .idle 6)).pscHears 0 0 = false ∧ bitsOf ((wSeen (wEdge .idle 6)).pr 0 pscTrig) 1 0 = 2) ∧
    (((wSeen wGate).psc 0).seq = true ∧ ((wSeen wGate).psc 0).gate = true ∧ (wSeen wGate).pscFirst 0 5 3 = none ∧ (wSeen wGate).pscHears 0 0 = true ∧
      bitsOf ((wSeen wGate).pr 0 pscTrig) 1 0 = 3) ∧
    (((wSeen (wEdge .regular 2)).psc 0).busy 5 = true ∧ (wSeen (wEdge .regular 2)).pscFirst 0 5 3 = none) ∧
    ((wDly.psc 0).seq = true ∧ wDly.pscUp 0 = true ∧ (wDly.psc 0).dly = [49] ∧ 49 ≤ wDly.at_ 49 ∧ wDly.pscFirst 0 49 4 = none) := by
  decide +kernel

/-- For `Obligations.ConverterResults`: states and operands that meet its hypotheses on converter result. -/
theorem witness_ConverterResult :
    (wSettle.pscUp 0 = true ∧ (wSettle.psc 0).st = .regular ∧ (wSettle.psc 0).settled = false ∧
      (wSettle.psc 0).setAt ≤ wSettle.at_ 49 ∧ wSettle.pscFirst 0 (wSettle.psc 0).setAt 1 = none) ∧
    (wPass.pscUp 0 = true ∧ (wPass.psc 0).st = .regular ∧ wPass.at_ 0 = (wPass.psc 0).due ∧
      wPass.pscFirst 0 (wPass.psc 0).due 0 = none ∧ (wPass.psc 0).row + 1 < (wPass.psc 0).regLen ∧
      bitOf ((wPass.psc 0).ent.getD 0 0) 20 = false ∧ (wPass.pscOutput 0 (some (List.replicate 16 5, none))).1 = 5 ∧
      (wPass.pscOutput 0 (some (List.replicate 16 5, some true))).2.2.isSome = true) := by
  decide +kernel

/-! Comparators. -/

/-- Comparator 0 of an armed channel, continuous or sampled, on both edges. -/
def wCmp (smp : Bool) : State :=
  { wCh { state := .armed, comp := { smpAt := some 0 } } with tick := 1, regs := [(cmpOff 0 cmpCfg, if smp then 0x1111 else 0x1), (cmpOff 0 cmpEdge, 3)] }
/-- The clamp of an armed channel drives on comparator 0; its frame reacts with an interrupt only. -/
def wClamp (c : Comp) (latch : Word) : State :=
  { wCh { state := .armed, comp := c } with
    regs := [(cmpOff 0 cmpClamp, 1 + latch), (cmpOff 0 cmpClhold, 5), (fltOff (frCh 0) fltReact, 0x01010101)] }

/-- For `Obligations.Comparators`: states and operands that meet its hypotheses on comparator edge. -/
theorem witness_ComparatorEdge :
    ∀ b, (wCmp b).cmpRuns 0 0 = true ∧ (wCmp b).cmpEn 0 0 = true ∧ (wCmp b).isClamp 0 0 = false ∧
      bitOf ((wCmp b).ch 0).comp.out 0 ≠ (wCmp b).cmpNext 0 0 (-5000000) ∧ (wCmp b).cmpNext 0 0 (-5000000) = true ∧
      (wCmp b).smpEnd 0 = some 11 ∧ bitOf ((wCmp b).rg (cmpOff 0 cmpWake)) 9 = false ∧
      (wCmp b).capWatch 0 0 true = [] ∧ (wCmp b).cmpSampled 0 0 = b := by
  decide +kernel

/-- For `Obligations.Comparators`: states and operands that meet its hypotheses on clamp trip. -/
theorem witness_FastClamp :
    ((wClamp { driven := true } 0).mild (frCh 0) = true ∧ (wClamp { driven := true } 0).later = [] ∧
      (wClamp { driven := true } 0).cmpRuns 0 0 = true ∧ (wClamp { driven := true } 0).isClamp 0 0 = true ∧
      ((wClamp { driven := true } 0).ch 0).comp.driven = true ∧ ((wClamp { driven := true } 0).ch 0).comp.trip = false ∧
      (wClamp { driven := true } 0).cmpJudge 0 0 false (-5000000) = true) ∧
    (((wClamp { trip := true, zero := 4 } 0).ch 0).comp.trip = true ∧
      ((wClamp { trip := true, zero := 4 } 0).tick + 1) % (wClamp { trip := true, zero := 4 } 0).srDiv 0 = 0 ∧
      (wClamp { trip := true, zero := 4 } 0).clampClear 0 = true ∧ (wClamp { trip := true, zero := 4 } 0).clampLatch 0 = false ∧
      bitsOf ((wClamp { trip := true, zero := 4 } 0).rg (cmpOff 0 cmpClhold)) 15 0 = 4 + 1) ∧
    ((wClamp { trip := true, relKey := true } 16).clampClear 0 = true ∧ (wClamp { trip := true, relKey := true } 16).clampLatch 0 = true ∧
      ((wClamp { trip := true, relKey := true } 16).ch 0).comp.relKey = true) ∧
    (wClamp { trip := true, raw := 1 } 0).clampClear 0 = false ∧
    ((wClamp { trip := true } 16).mayWrite hA (cmpOff 0 cmpClrel) ∧ (wClamp { trip := true } 16).unpaired hA (cmpOff 0 cmpClrel) = true ∧
      (wClamp { trip := true } 16).clampLatch 0 = true) :=
  ⟨by decide +kernel, by decide +kernel, by decide +kernel, by decide +kernel, hostWrites (by decide +kernel), by decide +kernel⟩

/-! Calibration. -/

def wCal (st : Word) (c : CalStep) : State :=
  { wOn with tiles := [(0, { cal := c })], regs := [(fltOff (frTile 0) fltReact, 0x01010101), (calOff 0 calStep, st)] }
/-- A step with a valid standard: kind 0 asks for the bus, kind 4 of a channel in SERVICE measures at once. -/
def wGo (st : Word) : State :=
  { wSt .service with regs := [(fltOff (frTile 0) fltReact, 0x01010101), (calOff 0 calStep, st), (caldOff calStdV, 0x40000000)] }
def stepOf (s : State) : CalStep := { step := s.rg (calOff 0 calStep), cfg := s.rg (calOff 0 calCfg), time := s.rg (calOff 0 calTime) }
/-- A reading of a step of kind `k` at point `pt`, of two readings a point, with a filter of order 1 and decimation 16. -/
def wRead (k pt : Nat) (rd : List (Int × Int)) : State :=
  wCal 4 { st := .measure, settled := true, step := k, pt := pt, cfg := 0x01100010, rd := rd }
def wCommit : State := { wCal 0 { st := .commit, m := 6, slot := 1 } with tick := 5 }

/-- Copy B of object 0 with its CRC. -/
def wObj : State := { wOn with mem := [(0x51003FC + 0, 195), (0x51003FC + 1, 169), (0x51003FC + 2, 87), (0x51003FC + 3, 236)] }

/-- For `Obligations.CalibrationRuns`: states and operands that meet its hypotheses on calibration go. -/
theorem witness_CalibrationGo :
    ((wGo 9).mayWrite hA (calOff 0 calCtl) ∧ (wNow (wGo 9)).voteErr = [] ∧
      (wNow (wGo 9)).calRefusal 0 (stepOf (wNow (wGo 9))) false = 35) ∧
    ((wGo 0).mayWrite hA (calOff 0 calCtl) ∧ (wNow (wGo 0)).voteErr = [] ∧
      (wNow (wGo 0)).calRefusal 0 (stepOf (wNow (wGo 0))) false = 0 ∧
      calBusOf (calKind (stepOf (wNow (wGo 0)))) = 1) ∧
    ((wGo 4).mayWrite hA (calOff 0 calCtl) ∧ (wNow (wGo 4)).voteErr = [] ∧
      (wNow (wGo 4)).calRefusal 0 (stepOf (wNow (wGo 4))) false = 0 ∧
      calBusOf (calKind (stepOf (wNow (wGo 4)))) = 0) :=
  ⟨⟨hostWrites (by decide +kernel), by decide +kernel⟩, ⟨hostWrites (by decide +kernel), by decide +kernel⟩,
    hostWrites (by decide +kernel), by decide +kernel⟩

/-- For `Obligations.CalibrationRuns`: states and operands that meet its hypotheses on calibration step. -/
theorem witness_CalibrationStep :
    (wCal 0 { st := .bus, bus := 1 }).mayWrite hA (calOff 0 calCtl) ∧ (wCal 0 { st := .bus, bus := 1 }).mild (frTile 0) = true ∧
    (wCal 0 { st := .bus, bus := 1 }).later = [] ∧ ((wCal 0 { st := .bus, bus := 1 }).tile 0).cal.st = .bus ∧ (wCal 0 { st := .bus, bus := 1 }).tick = 0 ∧
    ((wCal 0 { st := .measure }).tile 0).cal.st = .measure ∧ ((wCal 0 { st := .measure }).tile 0).cal.settled = false ∧
    ((wCal 0 { st := .measure }).tile 0).cal.time = 0 :=
  ⟨hostWrites (by decide +kernel), by decide +kernel⟩

/-- For `Obligations.CalibrationResults`: states and operands that meet its hypotheses on calibration reading. -/
theorem witness_CalibrationReading :
    (∀ s ∈ [wRead 4 0 [], wRead 2 1 [(7, 20480)], wRead 0 0 [(7, 20480)], wRead 2 2 [(7, 20480)]],
      (s.tile 0).cal.st = .measure ∧ (s.tile 0).cal.settled = true ∧ (s.tile 0).cal.due ≤ s.at_ 49 ∧ s.voteErr = [] ∧
      ((s.tile 0).cal.flt ++ (List.replicate 16 7)).length = calK (s.tile 0).cal * calD (s.tile 0).cal ∧
      fastFits (s.tile 0).cal (List.replicate 10 5) = true) ∧
    100 * (fastMean (List.replicate 10 5)).natAbs ≤ 99 * 2147483648 ∧ bitsOf 0x01100010 26 23 = 2 ∧
    calNpts ((wRead 2 1 []).tile 0).cal = 3 ∧ calNpts ((wRead 0 0 []).tile 0).cal = 4 := by
  decide +kernel

set_option maxRecDepth 100000 in
/-- For `Obligations.CalibrationResults`: states and operands that meet its hypotheses. -/
theorem witness_CalibrationResults :
    ((wCommit.tile 0).cal.st = .commit ∧ (wCommit.tile 0).cal.m = wCommit.tick + 1 ∧ calKind (wCommit.tile 0).cal ≤ 4 ∧
      wCommit.calFlip = []) ∧
    (((wCal 0 { st := .commit, m := 6 }).tile 0).cal.m = 6 ∧ (wCal 0 { st := .commit, m := 6 }).tick = 0) ∧
    (wObj.mayWrite hA (caldOff calObjCmd) ∧ objExists 0 = true ∧ wObj.calRuns 0 = false ∧ wObj.selOk 0 = true ∧
      (wObj.calFlip.any fun p => p.1 = 0) = false) ∧
    wOn.tileUp 0 = true ∧ ({} : State).tileUp 0 = false :=
  ⟨by decide +kernel, by decide +kernel, ⟨hostWrites (by decide +kernel), by decide +kernel⟩, by decide +kernel, by decide +kernel⟩

/-! The Bramble. -/

/-- One contribution of event channel 5, in the last cycle of the tick before; `sub` is the subscription of the last core task. -/
def wContrib (tag : Option Nat) (sub : Word) : State :=
  { wOn with tick := 1, contribs := [{ evc := 5, cyc := 49, slot := 0, tag := tag }], regs := [(subOff 695, sub)] }
/-- The event of that cycle has passed. -/
def wPassed : State := { wContrib none 0 with evcLast := [(5, some ⟨50, false⟩)] }
/-- An event has fired the last core task in the next cycle. -/
def wFired : State := { wOn with fired := [(695, [(wOn.at_ 49, 1)])] }
/-- Event channel 0 armed and owned by the host, channel 1 owned by the host. -/
def wEvc : State := { wOn with regs := [(brmOff brmArmed, 1), (evcOff 0 evcCfg, 0x48), (evcOff 1 evcCfg, 0x48)] }
/-- Event channel 1 in the secure set, which is not committed. -/
def wSec (f : List Nat) : State := { wOn with regs := [(evcOff 1 evcCfg, 0x58)], crc := { flipped := f } }
def wSubSec : State := { (wSec []) with regs := [(subOff 695, 0x81), (evcOff 1 evcCfg, 0x58)] }
def wPin (w : Word) (v : Trig) : State := { wOn with regs := [(brmOff brmTrigCfg, w)], trig := [(0, v)] }

/-- For `Obligations.EventsAndFires`: states and operands that meet its hypotheses on event dispatch. -/
theorem witness_EventDispatch :
    (∀ s ∈ [wContrib none 0, wContrib none 0x85, wPassed, wContrib (some 5) 0], s.evcCyc 5 = some 49 ∧ s.toCycle 49 = s) ∧
    (((49 : Nat) + 1) / 50 ≤ (wContrib none 0).tick ∧ tget (fun _ => none) (wContrib none 0).evcLast 5 = none ∧ (wContrib none 0).updDue = [] ∧ (wContrib none 0).listeners 5 = []) ∧
    ((wContrib none 0x85).listeners 5 = [632 + 63] ∧ (wContrib none 0x85).isFenced (unCore (63 / 8)) = false ∧
      tget (fun _ => []) (wContrib none 0x85).fired (632 + 63) = []) ∧
    (wPassed.contribs = (wContrib none 0).contribs ∧ tget (fun _ => none) wPassed.evcLast 5 = some ⟨49 + 1, false⟩) ∧
    (bitOf ((wContrib (some 5) 0).rg (evcOff 5 evcCfg)) 5 = false) := by
  decide +kernel

/-- For `Obligations.EventsAndFires`: states and operands that meet its hypotheses on software fires. -/
theorem witness_SoftwareFires :
    wOn.regCause hA (brmOff brmFire) true (0x07FF0400 + 696) = none ∧
    wOn.regCause hA (brmOff brmFire) true (0x07FF0400 + 695) = none ∧ wOn.isFenced (unCore ((695 - 632) / 8)) = false ∧
    (wOn.setRg (brmOff brmFire) 695).waits (wOn.at_ 48 + 1) = false ∧ (wFired.setRg (brmOff brmFire) 695).waits (wFired.at_ 48 + 1) = false ∧
    wOn.updDue = [] ∧ wFired.updDue = [] ∧ wFired.contribs = [] ∧ tget (fun _ => []) wOn.fired 695 = [] ∧ wOn.contribs = [] ∧
    (wFired.regCause hA (brmOff brmFire) true (0x07FF0400 + 695) = none ∧
      tget (fun _ => []) wFired.fired 695 = [(wFired.at_ (48 + 1), 1)]) ∧
    (wEvc.regCause hA (evcOff 0 evcCtl) true 0x40004 = none ∧ wEvc.armed 0 = true) ∧
    (wEvc.regCause hA (evcOff 1 evcCtl) true 0x40004 = none ∧ wEvc.armed 1 = false) := by
  decide +kernel

/-- For `Obligations.BrambleConfiguration`: states and operands that meet its hypotheses. -/
theorem witness_BrambleConfiguration :
    (∀ s ∈ [wOn, wEvc, wSec [65], wSec [], wSubSec], s.catchUp = s) ∧
    (wOn.regCause hA (evcOff 1 evcCtl) true 0x10001 = none ∧ wOn.evcOwner 1 ≠ reqCode .host) ∧
    (wEvc.regCause hA (evcOff 1 evcCtl) true 0x10001 = none ∧ wEvc.evcOwner 1 = reqCode .host ∧ wEvc.secEvc 1 = false) ∧
    (∀ f ∈ [[65], []], (wSec f).regCause hA (evcOff 1 evcCtl) true 0x10001 = none ∧ (wSec f).evcOwner 1 = reqCode .host ∧
      (wSec f).secEvc 1 = true ∧ (wSec f).committed 65 = decide (f = [])) ∧
    (wEvc.regCause hA (evcOff 0 evcCtl) true 0x20002 = none ∧ wEvc.evcOwner 0 = reqCode .host) ∧
    (wEvc.regCause ⟨.core 2, .unpriv⟩ (evcOff 0 evcCtl) true 0x20002 = none ∧ wEvc.evcOwner 0 ≠ reqCode (.core 2)) ∧
    (∀ j : Fin 9, wEvc.regCause hA (slotOff 0 j.val) true 0xFFFF0048 = none ∧ wEvc.armed 0 = true ∧ wEvc.armed 1 = false) ∧
    (wEvc.regCause hA (slotOff 1 8) true 0xFFFF0049 = none ∧ bitsOf (ctlNew (wEvc.sh (slotOff 1 8)) 0xFFFF0049 0x3FFF) 3 0 = 9 ∧
      bitsOf (ctlNew (wEvc.sh (slotOff 1 8)) 0xFFFF004A 0x3FFF) 3 0 = 10 ∧ wEvc.secEvc 1 = false) ∧
    (wEvc.regCause hA (slotOff 1 0) true 0xFFFF9003 = none ∧ bitsOf (ctlNew (wEvc.sh (slotOff 1 0)) 0xFFFF9003 0xFFFF) 14 8 = 16 ∧ instMax 3 = some 15) ∧
    ((wSec []).regCause hA (slotOff 1 8) true 0xFFFF0049 = none ∧ (wSec []).secEvc 1 = true ∧ (wSec []).setOpen 65 = false) ∧
    (wEvc.regCause hA (subOff 695) true 0xFF0081 = none ∧ wEvc.secSub 695 = false ∧ subEvc (ctlNew (wEvc.sh (subOff 695)) 0xFF0081 0xFF) = some 1 ∧ wEvc.secEvc 1 = false) ∧
    (wSubSec.regCause hA (subOff 695) true 0xFF0000 = none ∧ wSubSec.secSub 695 = true ∧ wSubSec.setOpen 65 = false) := by
  decide +kernel

/-- For `Obligations.BrambleConfiguration`: states and operands that meet its hypotheses on trig pins. -/
theorem witness_TrigPins :
    ((wPin 5 { level := true }).pin 0).level = true ∧
    (((wPin 5 {}).pin 0).level ≠ true ∧ bitsOf ((wPin 5 {}).pinCfg 0) 1 0 = 1 ∧ edgeSel (bitsOf ((wPin 5 {}).pinCfg 0) 3 2) true = true) ∧
    (((wPin 0 {}).pin 0).level ≠ true ∧ bitsOf ((wPin 0 {}).pinCfg 0) 1 0 ≠ 1) ∧
    (((wPin 0x42 { till := some 49 }).pin 0).till = some 49 ∧ 49 ≤ (wPin 0x42 {}).at_ 49) ∧
    (((wPin 0x42 { till := some 50 }).pin 0).till = some 50 ∧ (wPin 0x42 {}).at_ 49 < 50) := by
  decide +kernel

/-! Faults, voting, register space, covered sets, update groups, memory areas. -/

/-- Registers below an interrupt-only reaction of the SYS frame. -/
def wSys (l : List (Nat × Word)) : State := { wOn with regs := l ++ [(fltOff frSys fltReact, 0x01010101)] }
/-- Two source flags, of which the second's cause is present. -/
def wFlt : State := { wSys [(fltOff frSys fltSts, 0x05000003)] with causes := [1] }
def wSts : State := { wOn with regs := [(chOff 0 chFlags, 0x01000007)] }
/-- Core 7 is fenced, by the fault given. -/
def wFen (fr : List (Nat × Nat)) : State := { wOn with fenced := [unCore 7], fltReg := fr }
/-- Channel 0 is fenced with its tile, or alone. -/
def wUnder (l : List Nat) : State := { wSt .fenced with fenced := l }
def wAlive (a : Alive) (f : List (Nat × Nat)) : State := { wOn with alive := a, fltReg := f }
/-- Core 2 is the requester, and its frame too reacts with an interrupt only. -/
def wSysCore : State := wSys [(fltOff (frCore 2) fltReact, 0x01010101)]
def wNoSvc : State := { wOn with regs := [(sysSvcSts, 0)] }
/-- The host has written the first half of the pairs of SYS_SVC and of a release key. -/
def wHalf : State := { wSys [] with guards := [⟨.host, sysSvc, 1, 2⟩, ⟨.host, cmpOff 0 cmpClrel, 1, 2⟩] }
def wGuard : State := { wSys [] with guards := [⟨.host, chOff 0 chRst, 1, 2⟩], holds := [⟨.host, 0, 1, 2⟩] }
def wPass66 : State := { wOn with crc := { pass := true }, regs := [(sysCfgcrcSel, 66)] }
/-- The safety set of channel 0 with contents that obey R88. -/
def wSafe : State :=
  { wOn with shadow := [(chOff 0 chSafeVpos, 1), (chOff 0 chSafeVneg, 0x80000001), (chOff 0 chSafeIpos, 1), (chOff 0 chSafeIneg, 0x80000001)] }
def wCommitRun (r : Nat) : State := { wSafe with crc := { run := some (0, r) } }
/-- Set 0 alone is committed, with another reference than its contents give. -/
def wScan : State :=
  { wOn with regs := [(fltOff (crcSource 0).1 fltReact, 0x01010101)], crc := { flipped := [0, 64, 65, 66], refs := [(0, some 1)] } }
/-- Group 7, to which converter 0 belongs, with a shadow to bring into force, and a strobe of it that waits. -/
def wGrp (st : List (Nat × Option Strobe)) : State :=
  { wOn with regs := [(pscOff 0 pscGrp, 7)], shadow := [(pscOff 0 pscTmr, 5)], strobes := st, tick := 5 }
def wStb (at_ : Nat) (us : List Nat) : Strobe := { vals := [(pscOff 0 pscTmr, 5), (chOff 0 chSp, 9)], at_ := at_, undo := [], mine := [0], units := us }
/-- Group 7 has latched a strobe in the very cycle. -/
def wMerge : State := { wGrp [] with updAt := [(7, some 250)] }
def wWaits (at_ : Nat) : State := wGrp [(7, some (wStb at_ []))]
/-- The converter's tile of a waiting strobe is fenced. -/
def wWaitsFen : State := { wGrp [(7, some (wStb 6 [tileOff 0 (0x1000 + pscCfg)]))] with fenced := [0] }
/-- The group's converter is of a fenced tile. -/
def wBadGrp : State := { wGrp [] with fenced := [0] }
/-- ACTIVE with set 15 in use. -/
def wProt : State := wCh { state := .active, law := { act := 15 }, valid := 0xFFFF }
/-- A descriptor table of one segment at the start of the Rake memory. -/
def wTab : State :=
  { wOn with
    regs := [(chOff 0 chRakeCfg, 1), (chOff 0 chRakeLen, 64), (chOff 0 chRakeSegcfg, 0x100)], chans := [(0, { rake := { segOk := true } })] }

/-- For `Obligations.StatusClears`: states and operands that meet its hypotheses. -/
theorem witness_StatusClears :
    (wFlt.mayWrite hA (fltOff (blockFrame .sys) fltSts) ∧ (∀ v ∈ [0x05000003, 0x06000003], wFlt.stsMeets (fltOff (blockFrame .sys) fltSts) v = wFlt) ∧
      0x05000003 / 16777216 = wFlt.rg (fltOff (blockFrame .sys) fltSts) / 16777216 ∧
      ((srcsOf 0).getD 1 ⟨15, false, 0⟩).lvl = true ∧ wFlt.causes.contains (0 * 32 + 1) = true ∧
      0x06000003 / 16777216 ≠ wFlt.rg (fltOff (blockFrame .sys) fltSts) / 16777216) ∧
    (wSts.mayWrite hA (chOff 0 chFlags) ∧ locate (chOff 0 chFlags) = some ⟨.ch, 0, chFlags⟩ ∧
      (rowAt ⟨.ch, 0, chFlags⟩).any (fun r => decide (r.1.cls = .sts)) = true ∧
      (wSts.lineSee ⟨.ch, 0, chFlags⟩).stsMeets (chOff 0 chFlags) 0x01000003 = wSts ∧
      0x01000003 / 16777216 = wSts.rg (chOff 0 chFlags) / 16777216) :=
  ⟨⟨hostWrites (by decide +kernel), by decide +kernel⟩, hostWrites (by decide +kernel), by decide +kernel⟩

/-- For `Obligations.UnfenceAndInject`: states and operands that meet its hypotheses. -/
theorem witness_UnfenceAndInject :
    ((wFen []).mayWrite hA (unfenceReg (.core 7)).1 ∧ (wFen []).unpaired hA (unfenceReg (.core 7)).1 = true ∧ (wFen []).fenceFlag (unitCode (.core 7)) = false ∧
      (wFen []).unitFenced (unitCode (.core 7)) = true) ∧
    (wFen [(32 * frCore 7, 4100)]).fenceFlag (unitCode (.core 7)) = true ∧
    (wOn.mayWrite hA (unfenceReg (.chan 63)).1 ∧ wOn.unpaired hA (unfenceReg (.chan 63)).1 = true ∧ wOn.unitFenced (unitCode (.chan 63)) = false) ∧
    (∀ l ∈ [[unTile 0], []], (wUnder l).mayWrite hA (unfenceReg (.chan 0)).1 ∧ (wUnder l).unpaired hA (unfenceReg (.chan 0)).1 = true ∧
      (wUnder l).fenceFlag (unitCode (.chan 0)) = false ∧ (wUnder l).unitFenced (unitCode (.chan 0)) = true ∧
      (wUnder l).isFenced (unTile (tileOf (unitCode (.chan 0) - 64))) = decide (l ≠ [])) ∧
    (wOn.mayWrite hA (fltOff (blockFrame .sys) fltInj) ∧ wOn.unpaired hA (fltOff (blockFrame .sys) fltInj) = true ∧ injHolds (blockFrame .sys) (bitsOf 0x1C5 3 0) = true ∧ bitsOf 0x1C5 5 4 = 0 ∧
      injHolds (blockFrame .sys) 4 = false ∧ bitsOf 0x1F5 5 4 = 3) :=
  ⟨⟨hostWrites (by decide +kernel), by decide +kernel⟩, by decide +kernel, ⟨hostWrites (by decide +kernel), by decide +kernel⟩,
    fun l h => by
      rcases List.mem_cons.1 h with rfl | h
      · exact ⟨hostWrites (by decide +kernel), by decide +kernel⟩
      · rw [List.mem_singleton.1 h]; exact ⟨hostWrites (by decide +kernel), by decide +kernel⟩,
    hostWrites (by decide +kernel), by decide +kernel⟩

/-- For `Obligations.VoteScrubAndAlive`: states and operands that meet its hypotheses. -/
theorem witness_VoteScrubAndAlive :
    ((wSys []).voteErr = [] ∧ isVoted (fltOff frSys fltReact) = true ∧ locate (fltOff frSys fltReact) = some ⟨.flt, 0, fltReact⟩ ∧
      (wSys []).mild (voteSource ⟨.flt, 0, fltReact⟩).1 = true ∧ (wSys []).later = [] ∧
      bitOf ((wSys []).rg (fltOff (voteSource ⟨.flt, 0, fltReact⟩).1 fltSts)) (voteSource ⟨.flt, 0, fltReact⟩).2 = false) ∧
    ((wAlive { on := true } []).aliveStop = false ∧ (wAlive { on := true } []).alive.left = 0 ∧ (wAlive { on := true } []).alive.held = false) ∧
    ((wAlive { on := true, held := true } []).aliveStop = false ∧ (wAlive { on := true, held := true } []).alive.left = 0) ∧
    (wAlive { on := true, held := true, soon := 4 } [(0, 4096 + 16)]).aliveStop = true ∧
    (wAlive { on := true } [(0, 4096 + 16)]).aliveStop = true := by
  decide +kernel

/-- For `Obligations.BusErrors`: states and operands that meet its hypotheses. -/
theorem witness_BusErrors :
    (wSys []).mild frSys = true ∧ (wSys []).later = [] ∧ 0x19FFFFFD % 4 ≠ 0 ∧ 0x19FFFFFD < 0x1A000000 ∧
    (wSysCore.mild frSys = true ∧ wSysCore.later = [] ∧ wSysCore.mild (frCore 2) = true) ∧
    (wGuard.guards.find? (fun h => decide (h.req = .host) && wGuard.windowOver h) = some ⟨.host, chOff 0 chRst, 1, 2⟩ ∧ wGuard.mild frSys = true ∧ wGuard.later = []) ∧
    wGuard.holds.find? (fun h => decide (h.req = .host) && wGuard.windowOver h) = some ⟨.host, 0, 1, 2⟩ ∧ wOn.mayWrite hA sysSvc ∧ wOn.unpaired hA sysSvc = true :=
  ⟨by decide +kernel, by decide +kernel, by decide, by decide, by decide +kernel, by decide +kernel, by decide +kernel, hostWrites (by decide +kernel), by decide +kernel⟩

/-- For `Obligations.RegisterWrites`: states and operands that meet its hypotheses. -/
theorem witness_RegisterWrites :
    (∀ s ∈ [wOn, wNoSvc], s.mayWrite hA (chOff 0 chSp)) ∧ locate (chOff 0 chSp) = some ⟨.ch, 0, chSp⟩ ∧
    (rowAt ⟨.ch, 0, chSp⟩).any (fun r => decide (r.1.cls = .dat) && decide (r.1.wm ≠ 0) && r.1.buf) = true ∧
    chOff 0 chSp < 0x2000000 ∧ chOff 0 chSp % 4 = 0 ∧ wOn.injHit (voteFrame ⟨.ch, 0, chSp⟩) 5 none = false ∧
    wOn.svc = true ∧ wOn.peek (chOff 0 chSp) = 0 ∧ wNoSvc.svc = false ∧
    ((wOn.lineSee ⟨.ch, 0, chSp⟩).shMeets = wOn ∧ (wOn.lineSee ⟨.sys, 0, sysUpdMerges⟩).cntMeets = wOn) ∧
    (wOn.mayWrite hA (chOff 0 chCfg) ∧ locate (chOff 0 chCfg) = some ⟨.ch, 0, chCfg⟩ ∧
      (rowAt ⟨.ch, 0, chCfg⟩).any (fun r => decide (r.1.cls = .ctl) && r.1.buf) = true ∧ wOn.injHit (voteFrame ⟨.ch, 0, chCfg⟩) 5 none = false) ∧
    (wOn.mayWrite hA (coreOff 0 coreVec) ∧ locate (coreOff 0 coreVec) = some ⟨.core, 0, coreVec⟩ ∧
      (rowAt ⟨.core, 0, coreVec⟩).any (fun r => decide (r.1.cls = .dat) && decide (r.1.wm ≠ 0) && !r.1.buf && !r.1.cov) = true ∧
      plainDat ⟨.core, 0, coreVec⟩ = true ∧ wOn.injHit (voteFrame ⟨.core, 0, coreVec⟩) 5 none = false) ∧
    (wOn.mayWrite hA sysUpdMerges ∧ locate sysUpdMerges = some ⟨.sys, 0, sysUpdMerges⟩ ∧
      (rowAt ⟨.sys, 0, sysUpdMerges⟩).any (fun r => decide (r.1.cls = .cnt)) = true) :=
  ⟨fun s h => by
      rcases List.mem_cons.1 h with rfl | h
      · exact hostWrites (by decide +kernel)
      · rw [List.mem_singleton.1 h]; exact hostWrites (by decide +kernel), by decide +kernel, by decide +kernel, by decide, by decide,
    by decide +kernel, by decide +kernel, by decide +kernel, by decide +kernel, by decide +kernel,
    ⟨hostWrites (by decide +kernel), by decide +kernel⟩, ⟨hostWrites (by decide +kernel), by decide +kernel⟩,
    hostWrites (by decide +kernel), by decide +kernel⟩

/-- For `Obligations.RegisterWrites`: states and operands that meet its hypotheses on guarded pairs. -/
theorem witness_GuardedPairs :
    (wOn.mayWrite hA sysSvc ∧ wOn.mayWrite hA (sysSvc + 4) ∧ locate sysSvc = some ⟨.sys, 0, sysSvc⟩ ∧
      (rowAt ⟨.sys, 0, sysSvc⟩).any (fun r => decide (r.1.cls = .grd) && decide (r.1.off = sysSvc)) = true ∧
      wOn.unpaired hA sysSvc = true) ∧
    (wHalf.mayWrite hA sysSvc ∧ wHalf.mayWrite hA (sysSvc + 4) ∧ wHalf.unpaired hA sysSvc = false ∧ wHalf.mild frSys = true ∧
      wHalf.later = []) ∧
    (wHalf.mayWrite hA (cmpOff 0 cmpClrel) ∧ wHalf.mayWrite hA (cmpOff 0 cmpClrel + 4) ∧
      wHalf.unpaired hA (cmpOff 0 cmpClrel) = false ∧ (rowAt ⟨.cmp, 0, cmpClrel⟩).any (fun r => decide (r.1.cls = .grd)) = true) :=
  ⟨⟨hostWrites (by decide +kernel), hostWrites (by decide +kernel), by decide +kernel⟩,
    ⟨hostWrites (by decide +kernel), hostWrites (by decide +kernel), by decide +kernel⟩,
    hostWrites (by decide +kernel), hostWrites (by decide +kernel), by decide +kernel⟩

set_option maxRecDepth 100000 in
/-- For `Obligations.CoveredSets`: states and operands that meet its hypotheses. -/
theorem witness_CoveredSets :
    wOn.mayWrite hA sysCfgcrcSel ∧ (wPass66.mayWrite hA sysCfgcrcCmd ∧ wPass66.crc.pass = true ∧ wPass66.crcSel = 66 ∧ wPass66.voteErr = [] ∧
      wPass66.committed 66 = true ∧ wPass66.crc.run = none) ∧
    (wOn.mayWrite hA sysCfgcrcCmd ∧ wOn.crcSel < 67 ∧ wOn.committed wOn.crcSel = false) ∧
    ((wCommitRun 1).commitReason 0 1 = 1 ∧ (wCommitRun 1).voteErr = [] ∧ (wCommitRun (wSafe.crcWork 0)).committed 0 = false ∧
      wSafe.crcWork 0 = (wCommitRun (wSafe.crcWork 0)).crcWork 0 ∧ (wCommitRun (wSafe.crcWork 0)).safeReason 0 = 0) ∧
    (wScan.crc.late = [] ∧ (∀ k, k < 67 → wScan.injHit (crcSource k).1 6 none = false) ∧ wScan.committed 0 = true ∧ (∀ j, j < 67 → j ≠ 0 → wScan.committed j = false) ∧
      wScan.crcForce 0 ≠ wScan.refOf 0 ∧ wScan.mild (crcSource 0).1 = true ∧ wScan.later = [] ∧
      wScan.causes.contains ((crcSource 0).1 * 32 + (crcSource 0).2) = false) :=
  ⟨hostWrites (by decide +kernel), ⟨hostWrites (by decide +kernel), by decide +kernel⟩,
    ⟨hostWrites (by decide +kernel), by decide +kernel⟩, by decide +kernel, by decide +kernel⟩

/-- For `Obligations.UpdateGroups`: states and operands that meet its hypotheses. -/
theorem witness_UpdateGroups :
    ((wWaits 6).mayWrite hA sysUpdCtl ∧ ((wWaits 6).strobe 7).isSome = true) ∧
    ((wGrp []).mayWrite hA sysUpdCtl ∧ (wGrp []).strobe 7 = none ∧ firstFail ((wGrp []).strobeFails 7 ((wGrp []).capture 7)) = none ∧
      (wGrp []).capture 7 = [(pscOff 0 pscTmr, 5)]) ∧
    (wBadGrp.mayWrite hA sysUpdCtl ∧ wBadGrp.strobe 7 = none ∧
      firstFail (wBadGrp.strobeFails 7 (wBadGrp.capture 7)) = some { off := tileOff 0 (0x1000 + pscCfg), reason := 11 }) ∧
    (wOn.mayWrite hA sysUpdCtl ∧ wMerge.mayWrite hA sysUpdCtl ∧
      tget (fun _ => none) (wMerge.catchHold (wMerge.at_ wMerge.wcyc)).updAt 7 = some (wMerge.at_ wMerge.wcyc)) ∧
    ({ wGrp [] with updDue := [7] }.catchHold ((wGrp []).at_ 0)).updDue = [7] ∧
    ∀ s ∈ [wWaits 6, wGrp [], wBadGrp], s.catchHold (s.at_ s.wcyc) = s ∧ s.updDue = [] ∧ tget (fun _ => none) s.updAt 7 = none :=
  ⟨⟨hostWrites (by decide +kernel), by decide +kernel⟩, ⟨hostWrites (by decide +kernel), by decide +kernel⟩,
    ⟨hostWrites (by decide +kernel), by decide +kernel⟩, ⟨hostWrites (by decide +kernel), hostWrites (by decide +kernel), by decide +kernel⟩,
    by decide +kernel⟩

/-- The failures of a strobe that waits, at its boundary. -/
def wFails (s : State) (b : Strobe) : List Fail :=
  let v := s.settleTick.setStrobe 7 none
  v.fencedFails b.mine b.units ++ v.bankBusy b.mine b.vals

/-- What a strobe that waits brings into force. -/
def wCaps (s : State) (b : Strobe) : List (Nat × Word) := (s.settleTick.setStrobe 7 none).captured b

set_option maxRecDepth 100000 in
/-- For `Obligations.UpdateGroups`: states and operands that meet its hypotheses on strobe applied. -/
theorem witness_StrobeApplied :
    ((wWaits 7).settleTick.strobe 7 = some (wStb 7 []) ∧ (wWaits 7).settleTick.tick + 1 < (wStb 7 []).at_) ∧
    ((wWaits 6).settleTick.strobe 7 = some (wStb 6 []) ∧ (wStb 6 []).at_ ≤ (wWaits 6).settleTick.tick + 1 ∧
      firstFail (wFails (wWaits 6) (wStb 6 [])) = none ∧ ((wCaps (wWaits 6) (wStb 6 [])).map (·.1)).Nodup ∧
      ∀ p ∈ wCaps (wWaits 6) (wStb 6 []), p.1 ∉ [updOff 7 updSts, updOff 7 updApplied]) ∧
    (wWaitsFen.settleTick.strobe 7 = some (wStb 6 [tileOff 0 (0x1000 + pscCfg)]) ∧
      firstFail (wFails wWaitsFen (wStb 6 [tileOff 0 (0x1000 + pscCfg)])) = some ⟨tileOff 0 (0x1000 + pscCfg), 11, 0⟩) := by
  decide +kernel

/-- For `Obligations.MemoryAreas`: states and operands that meet its hypotheses. -/
theorem witness_MemoryAreas :
    (wOn.memUE = [] ∧ wOn.memCE = [] ∧ wOn.injHit 17 1 none = false ∧ (1016 : BitVec 10).toNat + 8 ≤ 1024 ∧ wOn.setProt 0 15 = false) ∧
    wProt.setProt 0 15 = true ∧
    (wTab.rakeAddr 0 (bitsOf (wTab.cr 0 chRakeSegtab) 21 0) + 15 + 1 ≤ 0x4000000 ∧
      wTab.tableHit 0 (wTab.rakeAddr 0 (bitsOf (wTab.cr 0 chRakeSegtab) 21 0) + 15) 1 = true ∧ (wTab.ch 0).rake.st = .stopped) ∧
    memPriv .host = true ∧ wOn.calProt 0x5100200 = false ∧ memPriv (.core 2) = false ∧ 0x5323FFF + 1 ≤ 0x5324000 := by
  decide +kernel

/-! Reset, start-up, boot. -/

/-- The sequence with SYS_RST_STS as given. -/
def wStage (n : Nat) (b : Boot) (l : List (Nat × Word)) : State := { boot := b, regs := (sysRstSts, BitVec.ofNat 32 n) :: l }
def softR (f : Nat) : List (Nat × Word) := [(fltOff f fltReact, 0x01010101)]
def wTrim : State := wStage 0x74 { phase := 2 } [(sysTrimSts, 0x155)]
/-- The smallest image: one word of code, in the staging area. -/
def wHdr : Tbl Byte :=
  [(bootStage, 0x45), (bootStage + 1, 0x4D), (bootStage + 2, 0x4D), (bootStage + 3, 0x4E), (bootStage + 4, 1), (bootStage + 8, 4),
    (bootStage + 13, 1)]
def wImg (src n : Nat) (ok : Bool) : State :=
  { wStage n { phase := 2, busy := !ok, src := src, ok := ok, pcie := true } [] with mem := wHdr }
def wDoor : State := wStage 7 { phase := 2, pcie := true } []
def wBlk : State := { wOn with regs := [(coreOff 7 coreSts, 3), (fabOff fabPortSts, 1)] }

/-- Core 7 has been fenced in the very cycle. -/
def wBlkFen : State := { wOn with fenced := [unCore 7], fenceAt := some (0, [unCore 7]) }

/-- For `Obligations.ChipReset`: states and operands that meet its hypotheses. -/
theorem witness_ChipReset :
    (wStage 6 { phase := 2 } []).boot.phase = 2 ∧ State.reset.boot.phase ≠ 2 ∧ (wStage 6 { phase := 2 } []).mayWrite hA sysChiprst ∧
    (wStage 6 { phase := 2 } []).unpaired hA sysChiprst = true :=
  ⟨by decide, by decide, hostWrites (by decide +kernel), by decide +kernel⟩

/-- For `Obligations.ResetSequence`: states and operands that meet its hypotheses. -/
theorem witness_ResetSequence :
    State.reset.boot.phase = 0 ∧ (wStage 0 { phase := 1 } []).boot.phase = 1 ∧ (wStage 1 { phase := 2 } []).stageNo = 1 ∧
    ((wStage 2 { phase := 2 } []).stageNo = 2 ∧ (∀ d, d < 5 → (wStage 2 { phase := 2 } []).trimResult d = 0)) ∧
    (∀ k ∈ [2, 3], (wStage 2 { phase := 2, tries := [(0, k)] } []).trimResult 0 = 0 ∧
      tget (fun _ => 0) (wStage 2 { phase := 2, tries := [(0, k)] } []).boot.tries 0 = k) ∧
    (wStage 3 { phase := 2 } []).stageNo = 3 := by
  decide +kernel

/-- For `Obligations.DomainRelease`: states and operands that meet its hypotheses. -/
theorem witness_DomainRelease :
    (4 ≤ (wStage 4 { phase := 2, ports := 15 } []).stageNo ∧ (wStage 4 { phase := 2, ports := 15 } []).rel 0 = false ∧
      (wStage 4 { phase := 2, ports := 15 } []).portSt 3 = 0) ∧
    ((wStage 0x14 { phase := 2 } []).rel 1 = false ∧ (wStage 0x14 { phase := 2 } []).rel 0 = true) ∧
    ((wStage 0x34 { phase := 2 } []).rel 2 = false ∧ (wStage 0x34 { phase := 2 } []).rel 1 = true) ∧
    (wTrim.rel 2 = true ∧ 4 ≤ wTrim.stageNo ∧ wTrim.tileReady 3 = true ∧ wTrim.running = false) ∧
    ((wStage 0x20074 { phase := 2 } (softR (frTile 3))).clkWait (3 + 3) = true ∧
      (wStage 0x20074 { phase := 2 } (softR (frTile 3))).mild (frTile 3) = true) ∧
    ((wStage 0x814 { phase := 2, ports := 15 } (softR frFab)).clkWait 0 = true ∧
      (wStage 0x814 { phase := 2, ports := 15 } (softR frFab)).mild frFab = true ∧
      (wStage 0x814 { phase := 2, ports := 15 } (softR frFab)).portSt 3 ≠ 3 ∧
      (wStage 0x814 { phase := 2, ports := 15 } (softR frFab)).isFenced (unPort 3) = false) ∧
    ((wStage 0x814 { phase := 2, pcie := true } (softR frHost)).clkWait 0 = true ∧
      (wStage 0x814 { phase := 2, pcie := true } (softR frHost)).mild frHost = true) ∧
    ((wStage 0x1034 { phase := 2 } (softR frMemc)).clkWait 1 = true ∧ (wStage 0x1034 { phase := 2 } (softR frMemc)).mild frMemc = true ∧
      (wStage 0x1034 { phase := 2 } (softR frMemc)).isFenced (unDdr 1) = false) := by
  decide +kernel

/-- For `Obligations.ImageBoot`: states and operands that meet its hypotheses. -/
theorem witness_ImageBoot :
    ((wImg 1 5 false).boot.busy = true ∧ (wImg 1 5 false).imageWhy bootStage 0x800000 .pass = 0 ∧
      (wImg 1 5 false).imageWhy bootStage 0x800000 .sig = 4 ∧ (wImg 1 5 false).stageNo = 5 ∧ (wImg 1 5 false).svcHold = false) ∧
    ((wImg 0 5 false).boot.src = 0 ∧ ((wImg 0 5 false).store bootStage [0x45]).imageWhy bootStage 0x800000 .pass = 0) ∧
    ((wImg 1 5 true).boot.ok = true ∧ (wImg 1 5 true).stageNo = 5) ∧
    (wDoor.mayWrite hA sysBootDoor ∧ wDoor.boot.pcie = true ∧ wDoor.stageNo = 7 ∧ wDoor.boot.busy = false ∧ wDoor.boot.ok = false) :=
  ⟨by decide +kernel, by decide +kernel, by decide +kernel, hostWrites (by decide +kernel), by decide +kernel⟩

/-- For `Obligations.BlockReset`: states and operands that meet its hypotheses. -/
theorem witness_BlockReset :
    (wBlk.mayWrite hA sysBlkrst ∧ wBlk.unpaired hA sysBlkrst = true) ∧ (blockCount (bitsOf 0x45 3 0) ≤ bitsOf 0x45 9 4) ∧
    (wBlk.unitIdle (bitsOf 0x72 3 0) (bitsOf 0x72 9 4) = true ∧ wBlk.isFenced (unCore 7) = false ∧ wBlk.cpu.upd = none ∧ wBlk.fencedNow (blockUnit 2 7) = false) ∧
    (wBlkFen.mayWrite hA sysBlkrst ∧ wBlkFen.unpaired hA sysBlkrst = true ∧ wBlkFen.isFenced (blockUnit 2 7) = true ∧
      wBlkFen.fencedNow (blockUnit 2 7) = true) ∧
    (wBlk.unitIdle (bitsOf 0x3 3 0) (bitsOf 0x3 9 4) = true ∧ wBlk.portSt 0 ≠ 0) ∧
    wBlk.unitIdle (bitsOf 0x4 3 0) (bitsOf 0x4 9 4) = true ∧ wBlk.unitIdle (bitsOf 0x31 3 0) (bitsOf 0x31 9 4) = true ∧
    (wOn.mayWrite hA sysBlkrst ∧ wOn.unpaired hA sysBlkrst = true ∧ ({ wOn with regs := [(coreOff 7 coreSts, 1)] } : State).unitIdle 2 7 = false) :=
  ⟨⟨hostWrites (by decide +kernel), by decide +kernel⟩, by decide +kernel, by decide +kernel, ⟨hostWrites (by decide +kernel), by decide +kernel⟩,
    by decide +kernel, by decide +kernel, by decide +kernel, hostWrites (by decide +kernel), by decide +kernel⟩

/-! Clocks and power. -/

def wR (l : List (Nat × Word)) : State := { wOn with regs := l }
/-- A member whose UP_PORT is in step. -/
def wMem : State := wR [(sysClkSts, 1), (sysStrap, 0x200)]
def wClk (v c : Word) : State := wR [(sysClkCfg, c), (sysClkSts, v), (fltOff frSys fltReact, 0x01010101)]
def wLost : State := { wClk 0 0 with boot := { phase := 2 } }
def wHold : State := { wClk 7 1 with clk := { hold := 100000000 } }
def wDroop : State := wR [(sysRstSts, 0x20), (sysDroopCfg, 0x10), (fltOff frSys fltReact, 0x01010101)]
def wTemp : State :=
  wR [(sysRstSts, 0x3F0), (sysThermTh, 0x6450), (fltOff frSys fltReact, 0x01010101), (tileOff 0 tileThermTh, 0x6450), (fltOff (frTile 0) fltReact, 0x01010101)]
def wRest : State := { wR [(sysPwrSts, 2), (ddrOff 1 memcDdrSts, 2)] with clk := { ddr := [0, 40] } }

/-- For `Obligations.ReferenceAndThrottle`: states and operands that meet its hypotheses. -/
theorem witness_ReferenceAndThrottle :
    (wMem.mayWrite hA sysClkCfg ∧ wOn.mayWrite hA sysClkCfg) ∧
    (wMem.isMember = true ∧ bitOf (wMem.rg (fltOff frFab fltSts)) (ffSync wMem.upPort) = false ∧ wMem.rgBit sysClkSts 1 = false) ∧
    wOn.isMember = false ∧
    (wLost.boot.phase = 2 ∧ wLost.mild frSys = true ∧ wLost.later = [] ∧ wLost.causes.contains (frSys * 32 + fsRefclkLost) = false) ∧
    ((wClk 1 0).rgBit sysClkSts 0 = true ∧ (wClk 1 0).mild frSys = true ∧ (wClk 1 0).later = [] ∧
      (wClk 1 0).causes.contains (frSys * 32 + fsPllUnlock) = false) ∧
    ((wClk 7 1).rgBit sysClkCfg 0 = true ∧ (wClk 7 1).rgBit sysClkSts 1 = true ∧ (wClk 7 1).rgBit sysClkSts 2 = true ∧
      (wHold.canHaveLasted wHold.clk.hold (200000 * bitsOf (wHold.rg sysClkHoldto) 15 0) = true ∧ wHold.rgBit sysClkSts 2 = true)) ∧
    (wDroop.voteErr = [] ∧ wDroop.clocked = true ∧ bitsOf (wDroop.rg sysDroopSts) 15 0 = 0 ∧ wDroop.mild frSys = true ∧ wDroop.later = [] ∧ wDroop.voteErr = [] ∧
      wDroop.clk.throttle = false ∧ wDroop.canHaveLasted wDroop.clk.quiet (2 * bitsOf (wDroop.rg sysDroopCfg) 23 8) = true) :=
  ⟨⟨hostWrites (by decide +kernel), hostWrites (by decide +kernel)⟩, by decide +kernel, by decide +kernel, by decide +kernel,
    by decide +kernel, by decide +kernel, by decide +kernel⟩

/-- For `Obligations.Monitors`: states and operands that meet its hypotheses. -/
theorem witness_Monitors :
    (wTemp.later = [] ∧ wTemp.voteErr = [] ∧ wTemp.released 0 = true ∧ wTemp.mild (frTile 0) = true ∧ wTemp.clocked = true ∧ wTemp.mild frSys = true) ∧
    ((bitsOf (wTemp.rg (tileOff 0 tileThermTh)) 7 0 : Int) * 256 ≤ (0x5000 : BitVec 16).toInt ∧
      wTemp.causes.contains (frTile 0 * 32 + ftTempHi) = false) ∧
    ((0x4AFF : BitVec 16).toInt < ((bitsOf (wTemp.rg (tileOff 0 tileThermTh)) 7 0 : Int) - 5) * 256) ∧
    ((bitsOf (wTemp.rg sysThermTh) 15 8 : Int) * 256 ≤ (0x6400 : BitVec 16).toInt ∧
      wTemp.causes.contains (frSys * 32 + fsTempCrit) = false) ∧
    (wTemp.causes.contains (frTile 0 * 32 + ftSupply) = false ∧ wTemp.causes.contains (frSys * 32 + fsCoreSupply) = false ∧
      wTemp.causes.contains (frTile 0 * 32 + ftClkQual) = false) := by
  decide +kernel

/-- For `Obligations.PowerStates`: states and operands that meet its hypotheses. -/
theorem witness_PowerStates :
    (wOn.mayWrite hA sysPwrCtl ∧ (wSt .active).mayWrite hA sysPwrCtl ∧ (wR [(sysPwrSts, 2)]).mayWrite hA sysPwrCtl) ∧
    (wOn.mayStandby = true ∧ (wSt .active).mayStandby = false ∧ wOn.pwrSt ≠ 2 ∧ (wR [(sysPwrSts, 2)]).pwrSt = 2 ∧
      (wR [(sysPwrSts, 3)]).pwrSt = 3) ∧
    ((wR [(sysPwrSts, 1), (coreOff 7 coreSts, 1)]).pwrSt = 1 ∧ (wR [(sysPwrSts, 1), (coreOff 7 coreSts, 1)]).clk.wakeChans = [] ∧
      (wR [(sysPwrSts, 1), (coreOff 7 coreSts, 1)]).clk.wakeCores = [] ∧ (wR [(sysPwrSts, 1), (coreOff 7 coreSts, 1)]).coreSt 7 = 1) ∧
    (wRest.pwrSt = 2 ∧ bitsOf (wRest.rg (ddrOff 1 memcDdrSts)) 2 0 = 2 ∧ wRest.canHaveLasted (wRest.ddrAge 1) 2000 = true) ∧
    (wOn.mayWrite hA (tileOff 0 tilePwrCtl) ∧ (wSt .active).mayWrite hA (tileOff 0 tilePwrCtl) ∧
      (wR [(tileOff 0 tilePwrSts, 1)]).mayWrite hA (tileOff 0 tilePwrCtl)) ∧
    (wOn.keepOn 0 = false ∧ wOn.tileQuiet 0 = true ∧ wOn.pscsIdle 0 = true ∧ wOn.tileOn 0 = true) ∧
    (wSt .active).tileQuiet 0 = false ∧
    bitsOf ((wR [(tileOff 0 tilePwrSts, 1)]).rg (tileOff 0 tilePwrSts)) 1 0 = 1 ∧
    bitsOf ((wR [(tileOff 0 tilePwrSts, 2)]).rg (tileOff 0 tilePwrSts)) 1 0 = 2 :=
  ⟨⟨hostWrites (by decide +kernel), hostWrites (by decide +kernel), hostWrites (by decide +kernel)⟩, by decide +kernel,
    by decide +kernel, by decide +kernel, ⟨hostWrites (by decide +kernel), hostWrites (by decide +kernel),
    hostWrites (by decide +kernel)⟩, by decide +kernel, by decide +kernel, by decide +kernel, by decide +kernel⟩

/-! The fabric. -/

/-- Registers over a running device. -/
def wFr (l : List (Nat × Word)) : State := { wOn with regs := l }
/-- Port 0 in a state, the others UP. -/
def wPort (st : Word) (l : List (Nat × Word)) : State :=
  { wFr ((fabOff fabPortSts, 0x6D8 + st) :: (fltOff frFab fltReact, 0x01010101) :: (fltOff frMemc fltReact, 0x01010101) :: l) with fab := {} }
def fr0 (typ : BitVec 4) : Frame :=
  { typ := typ, dst := 5, src := 7, len := 4, hops := 0, priv := false, tag := 9, w2 := 0, w3 := 0, data := [1, 2, 3, 4] }
def sent0 (n : Nat) : Sent := { frame := fr0 10, lseq := 3, tries := n }
def wSent (n : Nat) : State := { wPort 3 [] with fab := { ports := [(0, { lseq := 5, sent := [sent0 n, { sent0 1 with lseq := 4 }] })] } }
/-- Node 1, with the routes of nodes 5 and 7 out of port 2. -/
def wNode (l : List (Nat × Word)) : State :=
  wPort 3 ((fabOff fabAddr, 0x1001) :: (fabOff (fabRt + 20), 0x12) :: (fabOff (fabRt + 28), 0x12) :: l)
def rx0 (f : Frame) : Rx := { port := 0, frame := f, lseq := 6, crc := frameCrc f 6, endOk := true }
/-- A request for a word of core memory. -/
def frq (typ : BitVec 4) (priv : Bool) (len : BitVec 10) (data : List Byte) : Frame :=
  { typ := typ, dst := 1, src := 7, len := len, hops := 0, priv := priv, tag := 9, w2 := 0x900, w3 := 0x5400010, data := data }
def rdF (priv : Bool) : Frame := frq 1 priv 0 []
def wrF (priv : Bool) : Frame := frq 2 priv 4 [1, 2, 3, 4]
def bcF : Frame := frq 4 false 4 [1, 2, 3, 4]
def wMemRd : State := { wNode [] with mem := [(0x5400010, 0xAA)] }
/-- A transaction that waits; a ring of four records; a request ring of two descriptors. -/
def txn0 : Txn := { tag := 9, op := 1, port := some 0, dst := 5, user := 0x55, dptr := 0x100, room := 8, dtag := none, held := none, age := 99999 }
def wTxn (l : List Txn) (w : Word) : State :=
  { wNode [(fabOff fabCqSize, 4), (fabOff fabCqBase, 0x40), (fabOff fabRqSize, 2), (fabOff fabRqWptr, w)] with fab := { txns := l } }
def rpF : Frame := { fr0 3 with dst := 1, tag := 9, w2 := 0x400 }
/-- A READ of four bytes of node 5. -/
def wSend : State :=
  { wTxn [] 1 with mem := [(fabBuf, 0x51), (fabBuf + 4, 0x10), (fabBuf + 6, 0x40), (fabBuf + 7, 0x05), (fabBuf + 10, 4)]
                   regs := (fabOff fabTmo, 1000) :: (wTxn [] 1).regs }
/-- A READ that has not completed for 80 base ticks. -/
def wSlow : State := { wNode [] with fab := { reads := [{ src := 7, tag := 9, age := 80 }] } }
def wTransit : State := { wPort 3 [] with fab := { transit := [⟨0, 5, 6, 20⟩] } }
def tmF : Frame := { fr0 7 with data := [] }
def dsF : Frame := { fr0 8 with w2 := 3, data := [0x08, 0, 0, 0] }
def wMbr : State := { wPort 3 [(sysStrap, 0x200)] with fab := { quiet := [20000, 0, 0, 0] } }
def wStep : State := { wPort 3 [] with tick := 1000, fab := { step := some 2500000 } }
def wLen (t : Nat) : State := { wPort 3 [(fabOff fabFrame, 20)] with tick := t, fab := { frameGo := some (0, 30) } }
def wFrame (t : Nat) (h : Hv) (l : List (Nat × Word)) : State :=
  { wNode ((fabOff fabFrame, 20) :: l) with tick := t, fab := { hv := h } }
def hvBegun : Hv := { begun := true, start := 40 }
def dnF : Frame := { fr0 5 with src := 0, w2 := 40, len := 0, data := [] }
def upF : Frame := { fr0 6 with dst := 1, w2 := 40, src := 7 }
def wUp : State := { wFrame 40 hvBegun ([(sysStrap, 0x400)] ++ ddrUp) with running := true }

/-- For `Obligations.FabricPorts`: states and operands that meet its hypotheses. -/
theorem witness_FabricPorts :
    (wPort 1 []).portSt 0 = 1 ∧ (wPort 2 []).portSt 0 = 2 ∧ (wPort 3 []).portSt 0 = 3 ∧
    ((wPort 3 []).mild frFab = true ∧ (wPort 3 []).mild frMemc = true ∧ (wPort 3 []).later = [] ∧ (wPort 3 []).mayWrite hA (fabOff fabPortCtl)) ∧
    ((wPort 0 []).portSt 0 ≠ 2 ∧ (wPort 0 []).portSt 0 ≠ 3) :=
  ⟨by decide +kernel, by decide +kernel, by decide +kernel, ⟨by decide +kernel, by decide +kernel, by decide +kernel, hostWrites (by decide +kernel)⟩,
    by decide +kernel⟩

/-- For `Obligations.FabricPorts`: states and operands that meet its hypotheses on link retry. -/
theorem witness_LinkRetry :
    (∀ n ∈ [1, 3], ((wSent n).port 0).sent = sent0 n :: [{ sent0 1 with lseq := 4 }] ∧ (sent0 n).acked = false ∧ (sent0 n).lseq < 256 ∧ (wSent n).injHit 15 4 (some 0) = false ∧
      (sent0 n).tries = n ∧ (wSent n).portSt 0 = 3 ∧ (wSent n).mild frFab = true ∧ (wSent n).mild frMemc = true ∧ (wSent n).later = []) ∧
    ((wPort 3 []).port 0).sent = [] := by
  decide +kernel

/-- For `Obligations.FabricPorts`: states and operands that meet its hypotheses on frame forwarding. -/
theorem witness_FrameForwarding :
    (wNode []).portSt (rx0 (fr0 10)).port.val = 3 ∧ (rx0 (fr0 10)).endOk = true ∧ crcHolds (rx0 (fr0 10)) = true ∧ (wNode []).assigned = true ∧
    (fr0 10).typ = 10 ∧ (fr0 10).dst.toNat ≠ (wNode []).addr ∧ (fr0 10).hops ≠ 63 ∧ (wNode []).egress 5 = 2 ∧
    (wNode []).portSt 2 = 3 ∧ (wNode []).injHit 15 4 (some 2) = false := by
  decide +kernel

/-- For `Obligations.RemoteAccess`: states and operands that meet its hypotheses. -/
theorem witness_RemoteAccess :
    (wMemRd.portSt 0 = 3 ∧ wMemRd.assigned = true ∧ wMemRd.egress 7 = 2 ∧ wMemRd.portSt 2 = 3 ∧ wMemRd.injHit 15 4 (some 2) = false ∧
      wMemRd.injHit 17 1 none = false ∧ wMemRd.memUE = [] ∧ wMemRd.memCE = [] ∧ wMemRd.addr = 1 ∧ wMemRd.isMember = false ∧
      bitsOf (wMemRd.fr fabBcast) 3 0 = 0) ∧
    (∀ f ∈ [rdF false, wrF false, rdF true, wrF true, bcF], f.src = 7 ∧ 0x5400000 ≤ frameAddr f ∧ frameAddr f < 0x5800000 ∧
      frameAddr f % 4 = 0 ∧ frameWidth f = 4 ∧ frameCount f = 4 ∧ wMemRd.reqDenied f = f.priv) ∧
    (∀ f ∈ [wrF false, wrF true, bcF], f.len = 4 ∧ f.data.length = 4) ∧
    (∀ f ∈ [rdF false, wrF false, rdF true, wrF true], f.dst = 1) := by
  decide +kernel

/-- For `Obligations.Transactions`: states and operands that meet its hypotheses. -/
theorem witness_Transactions :
    (txn0.dtag = none ∧ txn0.held = none ∧ txn0.tag < 4096 ∧ (wTxn [txn0] 0).cqFull = false ∧ (wTxn [txn0] 0).fab.txns = [txn0] ∧
      (wTxn [txn0] 0).memUE = [] ∧ (wTxn [txn0] 0).injHit 17 1 none = false ∧ (wTxn [txn0] 0).canHaveLasted 0 (wTxn [txn0] 0).fabTmoCyc = false ∧
      (wTxn [txn0] 0).canHaveLasted txn0.age (wTxn [txn0] 0).fabTmoCyc = true) ∧
    ((wTxn [txn0] 0).portSt 0 = 3 ∧ (wTxn [txn0] 0).assigned = true ∧ rpF.dst.toNat = (wTxn [txn0] 0).addr ∧ rpF.tag.toNat = txn0.tag ∧
      txn0.op = 1 ∧ rpF.data ≠ [] ∧ rpF.data.length ≤ txn0.room ∧ bitsOf rpF.w2.toNat 7 0 = 0 ∧
      fabBuf + txn0.dptr + rpF.data.length ≤ fabBuf + 32 * bitsOf ((wTxn [txn0] 0).fr fabCqBase) 15 0) ∧
    ((wTxn [] 0).fab.txns = [] ∧ (wTxn [] 0).cqFull = false ∧ (wTxn [] 0).memUE = [] ∧ (wTxn [] 0).injHit 17 1 none = false ∧ (wTxn [] 0).portSt 0 = 3 ∧ (wTxn [] 0).addr = 1) ∧
    ((wTxn [] 1).fab.txns = [] ∧ (wTxn [] 1).fab.nextTag < 4096 ∧ bitsOf ((wTxn [] 1).fr fabRqSize) 15 0 ≠ 0 ∧
      (wTxn [] 1).fr fabRqRptr ≠ (wTxn [] 1).fr fabRqWptr ∧ (wTxn [] 1).memUE = [] ∧ (wTxn [] 1).memCE = [] ∧
      ((wTxn [] 1).descAt fabBuf).bad = true ∧ (wTxn [] 1).cqFull = false ∧ (wTxn [] 1).injHit 17 1 none = false) ∧
    (wTransit.portSt 0 = 3 ∧ wTransit.targetGone (wTransit.canHaveLasted · 400) 0 = true ∧ wTransit.mild frFab = true ∧ wTransit.mild frMemc = true ∧ wTransit.later = []) ∧
    ((wSlow.fab.reads.any fun x => decide (x.src = 7) && decide (x.tag = 9) && wSlow.canHaveLasted x.age 320) = true ∧
      wSlow.egress 7 = 2 ∧ wSlow.portSt 2 = 3 ∧ wSlow.injHit 15 4 (some 2) = false) ∧
    (wTxn [] 0).mayWrite hA (fabOff fabRqWptr) :=
  ⟨by decide +kernel, by decide +kernel, by decide +kernel, by decide +kernel, by decide +kernel, by decide +kernel,
    hostWrites (by decide +kernel)⟩

/-- For `Obligations.Transactions`: states and operands that meet its hypotheses on request send. -/
theorem witness_requestSend :
    let d := wSend.descAt (fabBuf + 32 * bitsOf (wSend.fr fabRqBase) 15 0 + 32 * (wSend.fr fabRqRptr % bitsOf (wSend.fr fabRqSize) 15 0))
    bitsOf (wSend.fr fabRqSize) 15 0 ≠ 0 ∧ wSend.fr fabRqRptr ≠ wSend.fr fabRqWptr ∧ wSend.fab.txns.length < 256 ∧ wSend.cqFull = false ∧
      wSend.memUE = [] ∧ wSend.injHit 17 1 none = false ∧ wSend.memCE = [] ∧ d.bad = false ∧ wSend.tmoShort d.dst = false ∧ d.op = 1 ∧ d.dst = 5 ∧ wSend.addr = 1 ∧
      wSend.egress 5 = 2 ∧ wSend.portSt 2 = 3 ∧ wSend.injHit 15 4 (some 2) = false := by
  decide +kernel

/-- For `Obligations.FabricTime`: states and operands that meet its hypotheses. -/
theorem witness_FabricTime :
    ((wNode []).portSt 0 = 3 ∧ (wNode []).assigned = true ∧ (wNode []).addr = 1 ∧ (wNode []).isMember = false) ∧
    (bitOf dsF.w2.toNat 7 = false ∧ dsF.hops.toNat + 1 < bitsOf dsF.w2.toNat 6 0 ∧ dsF.hops.toNat ≠ 63 ∧ hopAt dsF.data 1 = 2 ∧
      (wNode []).portSt 2 = 3 ∧ (wNode []).injHit 15 4 (some 2) = false ∧ (wNode []).injHit 15 4 (some 0) = false) ∧
    (wPort 1 []).portSt 0 ≠ 3 ∧
    (wMbr.isMember = true ∧ wMbr.upPort = 0 ∧ wMbr.mild frFab = true ∧ wMbr.later = [] ∧
      wMbr.causes.contains (frFab * 32 + ffSync 0) = false ∧ wMbr.canHaveLasted (wMbr.fab.quiet.getD 0 0) 600000 = true) ∧
    (wStep.settleTick.fab.step = some 2500000 ∧ wStep.settleTick.chansQuiet = true) ∧
    ({ wStep with fab := {} } : State).settleTick.fab.step = none := by
  decide +kernel

/-- For `Obligations.HarvestExchange`: states and operands that meet its hypotheses. -/
theorem witness_HarvestExchange :
    ((wPort 3 [(fabOff fabFrameNew, 20)]).mayWrite hA (fabOff fabFrameCtl) ∧ (wPort 3 [(fabOff fabFrameNew, 19)]).mayWrite hA (fabOff fabFrameCtl)) ∧
    (bitsOf ((wPort 3 [(fabOff fabFrameNew, 19)]).fr fabFrameNew) 15 0 = 19 ∧ bitsOf ((wPort 3 [(fabOff fabFrameNew, 20)]).fr fabFrameNew) 15 0 = 20 ∧
      (wPort 3 [(fabOff fabFrameNew, 20)]).isMember = false ∧ (wPort 3 [(fabOff fabFrameNew, 20)]).isRoot = false) ∧
    ((wLen 1019).fab.frameGo = some (0, 30) ∧ frameAt (bitsOf ((wLen 1019).fr fabFrame) 15 0) 30 0 = 1019 + 1 ∧ (wLen 1018).tick = 1018) ∧
    ((wFrame 40 { due := true } []).frameDue = true ∧ (wFrame 40 { due := true } []).fab.hv.begun = false ∧ (wFrame 40 { due := true } []).isRoot = false ∧
      (wFrame 41 {} []).frameDue = false) ∧
    (let s := wFrame 40 hvBegun [(sysStrap, 0x200)]
     s.portSt 0 = 3 ∧ s.fab.hv.begun = true ∧ s.fab.hv.fired = false ∧ bitsOf dnF.w2.toNat 15 0 = s.fab.hv.start % 65536 ∧ s.isMember = true ∧
      s.fab.hv.got = [] ∧ s.fab.hv.maps.dn = [] ∧ s.fab.hv.maps.up = [] ∧ dnF.w3.toNat % 64 = 0 ∧ bitsOf dnF.w2.toNat 21 16 = 0 ∧
      bitOf (s.fr fabHvCfg) 12 = false ∧ bitsOf (s.fr fabBcast) 3 0 = 0) ∧
    (wUp.portSt 0 = 3 ∧ wUp.fab.hv.begun = true ∧ wUp.fab.hv.fired = false ∧ bitsOf upF.w2.toNat 15 0 = wUp.fab.hv.start % 65536 ∧
      wUp.isRoot = true ∧ wUp.assigned = true ∧ upF.dst.toNat = wUp.addr ∧ upF.data ≠ [] ∧ upF.data.length ≤ 128 ∧
      (wUp.fab.hv.maps.upBase + 1024 * upF.src.toNat) % 128 = 0 ∧
      wUp.ddrOk (wUp.fab.hv.maps.upBase + 1024 * upF.src.toNat) upF.data.length = true ∧ wUp.memUE = [] ∧ wUp.memCE = []) :=
  ⟨⟨hostWrites (by decide +kernel), hostWrites (by decide +kernel)⟩, by decide +kernel, by decide +kernel, by decide +kernel,
    by decide +kernel, by decide +kernel⟩

/-! The object dictionary. -/

/-- A request of node 7 that came over port 0. -/
def dq (i : BitVec 16) (sub : BitVec 8) (priv : Bool) : DictReq :=
  { index := i, sub := sub, raw := false, priv := priv, src := 7, tag := 9, link := some (0, 6), ecc := false }
/-- The dictionary engine on, node 7 trusted. -/
def wOde (l : List (Nat × Word)) : State := wNode ((odeOff odeCtl, 1) :: (fltOff frOde fltReact, 0x01010101) :: (fabOff fabTrust, 0x1007) :: l)
def dqL : DictReq := { dq 0xA200 4 true with link := none }
def wMapBad : State := { wOde [] with fab := { hv := { objs := [(256 * 0xA000 + 1, 1)] } } }
def fw0 : FwReq := { dtag := 0, slot := 0, key := 0x1203F, write := false, src := 7, loc := false, tag := 9, room := 0 }
def wFw : State := { wOde [] with fwq := [fw0] }
def txnD : Txn := { tag := 9, op := 9, port := some 0, dst := 5, user := 0x55, dptr := 0x100, room := 8, dtag := some 4, held := none, age := 99999999 }
/-- The queue entry of the request cannot be read. -/
def wFwUE : State := { wFw with memUE := [codeword (wFw.fwqAt 0)] }
/-- A local read of an object waits for the engine, with room for `n` bytes. -/
def txnL (n sub : Nat) (w : Option (List Byte)) : Txn := { txnD with dtag := none, ask := some ⟨0xA000, sub, false, w⟩, room := n }
def wLoc (n : Nat) (w : Option (List Byte)) : State := { wTxn [txnL n 0 w] 0 with regs := (odeOff odeCtl, 1) :: (wTxn [] 0).regs }
def wDef : State := wTxn [txnD] 0
def resF : Frame := { fr0 9 with dst := 1, w3 := 0x40002, data := [0, 0, 0, 0, 7, 8], len := 6 }

/-- For `Obligations.Dictionary`: states and operands that meet its hypotheses. -/
theorem witness_Dictionary :
    (∀ s ∈ [wOde [], wNode []], s.portSt 0 = 3 ∧ s.assigned = true ∧ s.egress 7 = 2 ∧ s.portSt 2 = 3 ∧ s.injHit 15 4 (some 2) = false) ∧
    (bitOf ((wOde []).rg (odeOff odeCtl)) 0 = true ∧ bitOf ((wNode []).rg (odeOff odeCtl)) 0 = false ∧ (wOde []).fabTrusted 7 = true ∧ (wOde []).fab.asks = []) ∧
    (∃ o, objAt 0xA000 0 = .inl o ∧ o.at_ = .lit [64] ∧ readBad o = false) ∧ objAt 0 0 = .inr 1 ∧ objAt 0xA000 200 = .inr 2 ∧
    ((dq 0xA200 4 true).priv = true ∧ (dq 0xA200 4 true).ecc = false ∧ (wOde []).fab.txns = [] ∧ (wOde []).mapsOk = true ∧ wMapBad.fab.txns = [] ∧ wMapBad.fab.asks = [] ∧
      wMapBad.portSt 0 = 3 ∧ wMapBad.egress 7 = 2 ∧ wMapBad.mapsOk = false) :=
  ⟨by decide +kernel, by decide +kernel, ⟨_, rfl, rfl, rfl⟩, by decide +kernel, by decide +kernel, by decide +kernel⟩

/-- For `Obligations.Dictionary`: states and operands that meet its hypotheses on local dictionary request. -/
theorem witness_LocalDictionaryRequest :
    (∀ s ∈ [wLoc 8 none, wLoc 4 none, wLoc 8 (some [1])], s.cqFull = false ∧ s.memUE = [] ∧ s.injHit 17 1 none = false ∧
      bitOf (s.rg (odeOff odeCtl)) 0 = true ∧ s.fab.asks.length < 16 ∧
      fabBuf + 0x100 + max 4 8 ≤ fabBuf + 32 * bitsOf (s.fr fabCqBase) 15 0 + 16 * (s.fr fabCqWptr % max 1 (bitsOf (s.fr fabCqSize) 15 0))) ∧
    ((wLoc 8 none).fab.txns = [txnL 8 0 none] ∧ (txnL 8 0 none).dtag = none ∧ (txnL 8 0 none).held = none ∧ (dqL.tag.toNat = 9) ∧
      dqL.link = none ∧ dqL.ecc = false ∧ (wLoc 8 (some [1])).fab.txns = [txnL 8 0 (some [1])]) ∧
    (∃ o, objAt 0xA000 0 = .inl o ∧ o.at_ = .lit [64] ∧ readBad o = false) ∧ 4 + [(64 : Byte)].length ≤ 8 ∧ 4 < 4 + [(64 : Byte)].length :=
  ⟨by decide +kernel, by decide +kernel, ⟨_, rfl, rfl, rfl⟩, by decide, by decide⟩

/-- For `Obligations.DeferredRequests`: states and operands that meet its hypotheses. -/
theorem witness_DeferredRequests :
    ((wOde []).mayWrite hA (odeOff odeFwReply1) ∧ (wOde []).fwq = []) ∧
    (wFw.mayWrite hA (odeOff odeFwReply1) ∧ wFw.fwq = [fw0] ∧ fw0.dtag = bitsOf (wFw.rg (odeOff odeFwReply0)) 15 0 ∧ fw0.loc = false ∧
      wFw.mild frOde = true ∧ wFw.ue (wFw.fwqAt 0) 16 = false ∧ wFw.egress (fw0.src % 4096) = 2 ∧ wFw.portSt 2 = 3 ∧ wFw.injHit 15 4 (some 2) = false) ∧
    (wFwUE.mayWrite hA (odeOff odeFwReply1) ∧ wFwUE.mild frOde = true ∧ wFwUE.later = [] ∧ wFwUE.ue (wFwUE.fwqAt 0) 16 = true ∧
      wFwUE.egress (fw0.src % 4096) = 2 ∧ wFwUE.portSt 2 = 3) ∧
    (txnD.next = none ∧ wDef.memUE = [] ∧ wDef.injHit 17 1 none = false ∧ wDef.canHaveLasted 0 wDef.deferred = false ∧ txnD.dtag = some 4 ∧ txnD.held = none ∧ txnD.tag < 4096 ∧ wDef.fab.txns = [txnD] ∧ wDef.cqFull = false ∧ wDef.canHaveLasted txnD.age wDef.deferred = true) ∧
    (wDef.portSt 0 = 3 ∧ wDef.assigned = true ∧ resF.dst.toNat = wDef.addr ∧ resF.tag.toNat = txnD.tag ∧ resF.w3.toNat / 65536 = 4 ∧
      resF.data = leBytes 4 0 ++ [7, 8] ∧ 4 + 2 ≤ txnD.room ∧
      fabBuf + txnD.dptr + 4 + 2 ≤ fabBuf + 32 * bitsOf (wDef.fr fabCqBase) 15 0) :=
  ⟨⟨hostWrites (by decide +kernel), by decide +kernel⟩, ⟨hostWrites (by decide +kernel), by decide +kernel⟩,
    ⟨hostWrites (by decide +kernel), by decide +kernel⟩, by decide +kernel, by decide +kernel⟩

/-! Cores and memories. -/

def wReg (l : List (Nat × Word)) : State := { wOn with regs := l }
def wCore (st : Word) : State := wReg [(coreOff 2 coreSts, st), (fltOff (frCore 2) fltReact, 0x01010101), (coreOff 2 coreVec, 0x5400100)]
def wHalting : State := { wCore 1 with cpu := { halting := [2] } }
def wWd : State := { wCore 1 with regs := (coreOff 2 coreWdog, 7) :: (wCore 1).regs }
/-- An update of core 2 from the shared memory. -/
def updRegs : List (Nat × Word) := [(sysCoreUpdCtl, 4), (sysCoreUpdSrc, 0x5800000), (coreOff 2 coreSts, 3)]
def wUpd (u : Option Upd) : State := { wReg updRegs with cpu := { upd := u } }
def updHdr : Tbl Byte :=
  [(0x5800000, 0x45), (0x5800001, 0x4D), (0x5800002, 0x4D), (0x5800003, 0x4E), (0x5800004, 1), (0x5800008, 4), (0x580000D, 1)]
def wSized : State := { wUpd none with mem := [(0x580000A, 8)] }
/-- The staged image cannot be read. -/
def wStagedUE : State := { wUpd (some ⟨2, 0x5800000⟩) with memUE := [0x5800000] }
def wStaged : State := { wUpd (some ⟨2, 0x5800000⟩) with mem := updHdr }
def wEcc : State := wReg ((fltOff frMemc fltReact, 0x01010101) :: ddrUp)
def wDdr (st : Word) : State := { wReg [(fltOff frMemc fltReact, 0x01010101), (ddrOff 0 memcDdrCfg, 1), (ddrOff 0 memcDdrSts, st)] with clk := { ddr := [400000, 0] } }

/-- For `Obligations.Cores`: states and operands that meet its hypotheses on core commands. -/
theorem witness_CoreCommands :
    (∀ st ∈ [(1 : Word), 3, 5, 4], (wCore st).mayWrite hA (coreOff 2 coreCtl)) ∧ wHalting.mayWrite hA (coreOff 2 coreCtl) ∧
    (wCore 1).mayWrite ⟨.core 0, .priv⟩ (coreOff 0 coreCtl) ∧ (coreSelf (.core 0) 0 = true ∧ coreSelf hA.req 2 = false) ∧
    ((wCore 1).coreSt 2 = 1 ∧ (wCore 1).cpu.halting.contains 2 = false ∧ (wCore 3).coreSt 2 = 3 ∧ 5 ≤ (wCore 5).coreSt 2 ∧ (wCore 4).coreSt 2 = 4) ∧
    (wHalting.cpu.halting.contains 2 = true ∧ wHalting.coreSt 2 = 1) := by
  refine ⟨?_, hostWrites (by decide +kernel), ?_, by decide +kernel, by decide +kernel, by decide +kernel⟩
  · intro st hst
    simp only [List.mem_cons, List.not_mem_nil, or_false] at hst
    rcases hst with rfl | rfl | rfl | rfl <;> exact hostWrites (by decide +kernel)
  · have h : (wCore 1).regCause ⟨.core 0, .priv⟩ (coreOff 0 coreCtl) true 0 = none := by decide +kernel
    intro v
    simpa [State.regCause] using h

/-- For `Obligations.Cores`: states and operands that meet its hypotheses on core timers. -/
theorem witness_CoreTimers :
    (wWd.wdogRuns 2 = true ∧ wWd.mild (frCore 2) = true ∧ wWd.later = [] ∧ tget (fun _ => 0) wWd.cpu.wdog 2 = 0 ∧ wWd.voteErr = [] ∧
      (wCore 1).wdogRuns 2 = false ∧ (wCore 1).voteErr = []) ∧
    wWd.mayWrite hA (coreOff 2 coreKick) :=
  ⟨by decide +kernel, hostWrites (by decide +kernel)⟩

/-- For `Obligations.FirmwareUpdate`: states and operands that meet its hypotheses. -/
theorem witness_FirmwareUpdate :
    ((wUpd none).mayWrite hA sysCoreUpdCtl ∧ (wUpd (some ⟨2, 0x5800000⟩)).mayWrite hA sysCoreUpdCtl ∧
      (wReg [(sysCoreUpdCtl, 4), (coreOff 2 coreSts, 1)]).mayWrite hA sysCoreUpdCtl) ∧
    ((wUpd none).cpu.upd = none ∧ bitsOf ((wUpd none).rg sysCoreUpdCtl) 3 1 = 2 ∧ (wUpd none).coreSt 2 = 3 ∧
      (wUpd none).rg sysCoreUpdSrc = 0x5800000 ∧ (wUpd none).w32 0x5800008 = 0) ∧
    ((wReg [(sysCoreUpdCtl, 4), (coreOff 2 coreSts, 1)]).cpu.upd = none ∧ (wReg [(sysCoreUpdCtl, 4), (coreOff 2 coreSts, 1)]).coreSt 2 = 1) ∧
    (wSized.mayWrite hA sysCoreUpdCtl ∧ wSized.cpu.upd = none ∧ wSized.coreSt 2 = 3 ∧
      0x80000 < wSized.w32 (wSized.rg sysCoreUpdSrc + 8) + 256) ∧
    (wStagedUE.cpu.upd = some ⟨2, 0x5800000⟩ ∧ wStagedUE.memCE = [] ∧ wStagedUE.ue 0x5800000 (256 + wStagedUE.w32 0x5800008) = true) ∧
    (wStaged.memUE = [] ∧ wStaged.memCE = [] ∧ wStaged.cpu.upd = some ⟨2, 0x5800000⟩ ∧ wStaged.ue 0x5800000 (256 + wStaged.w32 0x5800008) = false ∧
      wStaged.imageWhy 0x5800000 0x80000 .pass = 0 ∧ wStaged.imageWhy 0x5800000 0x80000 .sig = 4) :=
  ⟨⟨hostWrites (by decide +kernel), hostWrites (by decide +kernel), hostWrites (by decide +kernel)⟩, by decide +kernel, by decide +kernel,
    ⟨hostWrites (by decide +kernel), by decide +kernel⟩, by decide +kernel, by decide +kernel⟩

/-- For `Obligations.MemoryPatrols`: states and operands that meet its hypotheses. -/
theorem witness_MemoryPatrols :
    (wEcc.mild frMemc = true ∧ wEcc.later = [] ∧ wEcc.memUE = [] ∧ wEcc.memCE = [] ∧ wEcc.ddrReady 0 = true ∧ wEcc.ddrSize 0 ≠ 0 ∧ 0x6000000 ≤ ddrBase) ∧
    (0x5000400 < 0x6000000 ∧ 0x5000000 ≤ codeword 0x5000400 ∧ codeword 0x5000400 < 0x5100000) ∧
    ((wDdr 0).mayWrite hA (ddrOff 0 memcDdrCfg) ∧ (wDdr 0).mild frMemc = true ∧ (wDdr 0).ddrSize 0 ≠ 0 ∧
      bitsOf ((wDdr 0).rg (ddrOff 0 memcDdrSts)) 2 0 = 0) ∧
    ((wDdr 1).mild frMemc = true ∧ bitsOf ((wDdr 1).rg (ddrOff 0 memcDdrSts)) 2 0 = 1 ∧
      (wDdr 1).causes.contains (frMemc * 32 + fmDdrLink 0) = false ∧
      (wDdr 1).canHaveLasted ((wDdr 1).ddrAge 0) 20000000 = true) :=
  ⟨by decide +kernel, by decide +kernel, ⟨hostWrites (by decide +kernel), by decide +kernel⟩, by decide +kernel⟩

/-! The host port. -/

/-- The link is up and engine 0 is ready. -/
def dmaRegs : List (Nat × Word) := [(dmaOff 0 dmaCtl, 1), (dmaOff 0 dmaSize, 4), (dmaOff 0 dmaWptr, 1), (fltOff frHost fltReact, 0x01010101)]
def wDma : State := { wOn with regs := dmaRegs, hostp := { linkUp := true } }
def desc0 : DmaDesc :=
  { hostAddr := 0, devAddr := 0x5400008, toHost := false, irq := true, len := 8, postOff := 0, postVal := 0, user := 0 }
/-- The eight words of that descriptor, with its length as given. -/
def words0 (n : Word) : List Word := [0, 0, 0x5400008, 0x200, n, 0, 0, 0]
def wCur : State := wDma.setDma 0 { cur := some desc0 }
def wLink : State := { wOn with boot := { phase := 2, pcie := true }, regs := [(sysRstSts, 0x7F7)] }
def wXspi (v : Word) : State := { wOn with regs := [(hostOff hostXspiCmd, v)] }
def wTx (n : Nat) : State := { wOn with hostp := { tx := List.replicate n 0 } }
def wLoader : State := { boot := { phase := 2, loader := { on := true } } }

/-- For `Obligations.HostDma`: states and operands that meet its hypotheses. -/
theorem witness_HostDma :
    wDma.mayWrite hA (dmaOff 0 dmaWptr) ∧ wOn.dmaReady 0 = false ∧
    (wDma.dmaReady 0 = true ∧ dmaBad (dmaDesc (words0 4)) = true ∧ wDma.dmaAt 0 % 32 = 0 ∧ 32 ≤ wDma.readMax ∧ wDma.readMax % 32 = 0 ∧ wDma.mild frHost = true ∧ wDma.later = []) ∧
    (dmaDesc (words0 8) = desc0 ∧ dmaBad desc0 = false ∧ desc0.toHost = false ∧ desc0.len = 8 ∧ 0x5400000 ≤ desc0.devAddr ∧ desc0.devAddr < 0x5800000 ∧
      wDma.memUE = [] ∧ wDma.memCE = []) ∧
    ((wCur.dma 0).cur = some desc0 ∧ desc0.postOff = 0 ∧ desc0.irq = true) ∧ (wDma.dma 0).cur = none :=
  ⟨hostWrites (by decide +kernel), by decide +kernel, by decide +kernel, by decide +kernel, by decide +kernel, by decide +kernel⟩

/-- For `Obligations.HostPackets`: states and operands that meet its hypotheses. -/
theorem witness_HostPackets :
    (wDma.hostp.linkUp = true ∧ wDma.memUE = [] ∧ wDma.memCE = [] ∧ 0x57FFFFC % 4 = 0 ∧ wOn.hostp.linkUp = false) ∧
    (wLink.boot.pcie = true ∧ wLink.boot.phyHeld = false ∧ wLink.rel 0 = true ∧ wOn.boot.pcie = false) ∧
    (wDma.mild frHost = true ∧ wDma.later = [] ∧ wDma.causes.contains (frHost * 32 + fhLinkDown) = false ∧
      wDma.rgBit (dmaOff 0 dmaCtl) 0 = true) := by
  decide +kernel

/-- For `Obligations.SerialAndTestPorts`: states and operands that meet its hypotheses. -/
theorem witness_SerialAndTestPorts :
    ((wXspi 0).mayWrite hA (hostOff hostXspiCmd) ∧ (wXspi 0).xspiBusy = false) ∧
    ((wXspi 0x40000000).mayWrite hA (hostOff hostXspiCmd) ∧ (wXspi 0x40000000).xspiBusy = true) ∧
    ((wTx 15).mayWrite hA (hostOff hostUartData) ∧ (wTx 15).hostp.tx.length = 15) ∧
    ((wTx 16).mayWrite hA (hostOff hostUartData) ∧ (wTx 16).hostp.tx.length = 16) ∧
    (wOn.boot.loader.on = false ∧ wLoader.boot.loader.on = true ∧ wLoader.boot.loader.st = 0) ∧
    (wLoader.boot.phase = 2 ∧ State.reset.boot.phase ≠ 2) :=
  ⟨⟨hostWrites (by decide +kernel), by decide +kernel⟩, ⟨hostWrites (by decide +kernel), by decide +kernel⟩,
    ⟨hostWrites (by decide +kernel), by decide +kernel⟩, ⟨hostWrites (by decide +kernel), by decide +kernel⟩, by decide +kernel,
    by decide +kernel⟩

/-! Rails and the base tick. -/

def wRail (c : Chan) (l : List (Nat × Word)) : State := { wCh c with regs := l }
def wRailTime (ok : Bool) (rise : Nat) : State := wRail { rail := { ok := ok, rise := rise } } [(chOff 0 chRailSettle, 5)]
def wPwm (ctl : Word) : State :=
  wRail { state := .armed, rail := { th := 1073741824, tl := 536870912, fs := 0x40000000 } }
    [(chOff 0 chPwmCtl, ctl), (chOff 0 chGtCfg, 6), (chOff 0 chGtDuty, 0x300020), (chOff 0 chPwmPer, 0x40), (chOff 0 chRailFs, 0x40000000)]
def wOffTo (k : Nat) : State := { wRail { state := .active, sup := { offCmd := some k, offZero := true } } [] with tick := 3 }
def wOffR : State := wOffTo 3
def inp0 : TickIn := { chans := [⟨3, 5, 6, 7, true, true⟩], upCrc := 15, upLate := 15, downCrc := 15 }
def wTick : State := { running := true, tick := 7 }
/-- The watchdog of core 2 is at zero in this tick and its fault resets the device. -/
def wTickRst : State :=
  { wTick with regs := [(coreOff 2 coreSts, 1), (coreOff 2 coreWdog, 7), (fltOff (frCore 2) fltReact, 0x18181818)] }

/-- For `Obligations.RailsAndRamps`: states and operands that meet its hypotheses. -/
theorem witness_RailsAndRamps :
    (wOn.mayWrite hA (chOff 0 chLawSnap) ∧ (wOn.ch 0).law.snap = none) ∧
    ((wCh { law := { snap := some 3 } }).mayWrite hA (chOff 0 chLawSnap) ∧ ((wCh { law := { snap := some 3 } }).ch 0).law.snap ≠ none) ∧
    (bitOf (wOn.cr 0 chPwmCtl) 1 = false ∧ wOn.injHit (frCh 0) 5 none = false ∧ wOn.mayWrite hA (chOff 0 chRailFs) ∧
      wOn.mayWrite hA (chOff 0 chRailMin) ∧ wOn.mayWrite hA (chOff 0 chRailSettle)) ∧
    (let s := wRail {} [(chOff 0 chPwmCtl, 2), (chOff 0 chRailFs, 0x3F800000)]
     bitOf (s.cr 0 chPwmCtl) 1 = true ∧ s.injHit (frCh 0) 5 none = false ∧ s.mayWrite hA (chOff 0 chRailFs) ∧
      s.mayWrite hA (chOff 0 chRailMin) ∧ f32pos 0xBF800000 = false ∧
      f32le 0x40000000 (s.cr 0 chRailFs) = false ∧ f32pos 0x40000000 = true ∧ f32le (s.cr 0 chRailMin) 0x40000000 = true ∧
      f32le 0 0x3F000000 = true ∧ f32le 0x3F000000 (s.cr 0 chRailFs) = true) ∧
    (let s := { wRailTime false 0 with tick := 4 }
     (s.ch 0).rail.ok = false ∧ (s.ch 0).rail.rise + bitsOf (s.cr 0 chRailSettle) 15 0 = s.tick + 1) ∧
    ((wRailTime true 0).ch 0).rail.ok = true :=
  ⟨⟨hostWrites (by decide +kernel), by decide +kernel⟩, ⟨hostWrites (by decide +kernel), by decide +kernel⟩,
    ⟨by decide +kernel, by decide +kernel, hostWrites (by decide +kernel), hostWrites (by decide +kernel), hostWrites (by decide +kernel)⟩,
    ⟨by decide +kernel, by decide +kernel, hostWrites (by decide +kernel), hostWrites (by decide +kernel), by decide +kernel⟩,
    by decide +kernel, by decide +kernel⟩

/-- For `Obligations.RailsAndRamps`: states and operands that meet its hypotheses. -/
theorem witness_RailsAndRamps_periods :
    (((wPwm 1).ch 0).state = .armed ∧ bitOf ((wPwm 1).cr 0 chPwmCtl) 0 = true) ∧
    (bitOf ((wPwm 2).cr 0 chPwmCtl) 0 = false ∧ bitOf ((wPwm 2).cr 0 chPwmCtl) 1 = true ∧ ((wPwm 2).ch 0).state = .armed) ∧
    (bitOf ((wPwm 0).cr 0 chPwmCtl) 0 = false ∧ bitOf ((wPwm 0).cr 0 chPwmCtl) 1 = false ∧ ((wPwm 0).ch 0).state = .armed) ∧
    ((wOn.ch 0).state ≠ .armed ∧ (wOn.ch 0).state ≠ .active) ∧
    ((wOffR.ch 0).sup.offCmd = some 3 ∧ (wOffR.ch 0).state = .active ∧ (wOffR.ch 0).sup.offZero = true ∧
      (wOffR.tick + 1) % wOffR.srDiv 0 = 0) ∧
    (((wOffTo 4).ch 0).sup.offCmd = some 4 ∧ ((wOffTo 4).ch 0).state = .active ∧ ((wOffTo 4).ch 0).sup.offZero = true ∧
      ((wOffTo 4).tick + 1) % (wOffTo 4).srDiv 0 = 0) ∧
    (wOn.ch 0).sup.offCmd = none := by
  decide +kernel

/-- For `Obligations.BaseTick`: states and operands that meet its hypotheses. -/
theorem witness_BaseTick :
    State.reset.running = false ∧ (wTickRst.running = true ∧ wTickRst.settleTick.endTick.running = false) ∧
    (wTick.running = true ∧ wTick.settleTick.endTick.running = true) ∧
    (wTick.held = 15 ∧ wTick.chans = [] ∧ wTick.tiles = [] ∧ wTick.pscs = [] ∧ wTick.contribs = [] ∧ wTick.trig = [] ∧ wTick.strobes = [] ∧
      wTick.memUE = [] ∧ wTick.guards = [] ∧ wTick.crc.late = [] ∧ wTick.voteErr = [] ∧ wTick.fwq = [] ∧ wTick.fab.frameGo = none ∧
      wTick.fab.step = none ∧ wTick.fab.txns = [] ∧ wTick.fab.transit = [] ∧ wTick.fab.ports = [] ∧ wTick.frameDue = false ∧
      wTick.isMember = false ∧ (∀ x, x < 8 → wTick.wdogRuns x = false) ∧ ∀ x, x < 2 → wTick.ddrAge x < 40) := by
  decide +kernel

/-! The block as a whole. -/

def wQueue : State := { wOn with pending := [.timeStep, .bypass] }

/-- For `Obligations.StepRunsFront`: states and operands that meet its hypotheses. -/
theorem witness_StepRunsFront : State.reset.pending = [] := by decide +kernel

/-- For `Obligations.MemoryStaysCanonical`: states and operands that meet its hypotheses. -/
theorem witness_MemoryStaysCanonical :
    ({ wOn with mem := [(0x5400010, 0xAA)], pending := [.bypass] } : State).memWf = true ∧
    ∃ t, step { wOn with mem := [(0x5400010, 0xAA)], pending := [.bypass] } = .next t :=
  ⟨by decide +kernel, _, rfl⟩

/-- For `Obligations.QueueAndCompletion`: states and operands that meet its hypotheses on queue first in first out. -/
theorem witness_QueueFirstInFirstOut :
    wQueue.pending = [.timeStep, .bypass] ∧ ∃ t, step wQueue = .next t :=
  ⟨rfl, _, rfl⟩

/-- For `Obligations.AccessRights`: states and operands that meet its hypotheses. -/
theorem witness_AccessRights :
    locate 0x1FFFFFC = none ∧
    (∃ l row, locate (chOff 0 chCtl) = some l ∧ rowAt l = some row) ∧ (privCore (.core 2) = false ∧ privCore .host = true) ∧
    (((locate sysChiprst).bind rowAt).map fun row => row.1.priv) = some true ∧
    ((locate sysChiprst).map fun l => decide (l.grp ≠ .evc) && decide (l.grp ≠ .brm)) = some true ∧
    (((locate (chOff 0 chRst)).bind rowAt).map fun row => decide (row.1.cls = .grd)) = some true ∧
    ((locate (chOff 0 chRst)).map fun l => decide (l.grp ≠ .evc) && decide (l.grp ≠ .brm)) = some true :=
  ⟨by decide +kernel, ⟨_, _, rfl, rfl⟩, by decide +kernel, by decide +kernel, by decide +kernel, by decide +kernel, by decide +kernel⟩

/-! Reactions. -/

/-- Core 2 runs with a watchdog; its frame's reactions are as given. -/
def wReact (v : Word) : State :=
  { wOn with regs := [(coreOff 2 coreSts, 1), (coreOff 2 coreWdog, 7), (fltOff (frCore 2) fltReact, v)], mem := [(0x5400010, 0xAA)] }

/-- For `Obligations.FaultReactions`: states and operands that meet its hypotheses (the severity). -/
theorem witness_FaultReactions_severity :
    ((wReact 0x14141414).sevOf (frCore 2) fxWdog = 2 ∧ (wReact 0x14141414).classSet (frCore 2)
      ((wReact 0x14141414).rg (fltOff (frCore 2) fltSts)) (srcCls (frCore 2) fxWdog) = false) ∧
    ((wReact 0x18181818).sevOf (frCore 2) fxWdog = 2 ∧ (wReact 0x18181818).classSet (frCore 2)
      ((wReact 0x18181818).rg (fltOff (frCore 2) fltSts)) (srcCls (frCore 2) fxWdog) = false) :=
  ⟨⟨by decide +kernel, by decide +kernel⟩, by decide +kernel, by decide +kernel⟩

/-- For `Obligations.FaultReactions`: states and operands that meet its hypotheses (the reactions). -/
theorem witness_FaultReactions_reaction :
    (bitOf (bitsOf ((wReact 0x14141414).rg (fltOff (frCore 2) fltReact)) 23 16) 2 = true ∧
      bitOf (bitsOf ((wReact 0x14141414).rg (fltOff (frCore 2) fltReact)) 23 16) 3 = false ∧
      bitOf (bitsOf ((wReact 0x14141414).rg (fltOff (frCore 2) fltReact)) 23 16) 4 = true) ∧
    bitOf (bitsOf ((wReact 0x18181818).rg (fltOff (frCore 2) fltReact)) 23 16) 3 = true :=
  ⟨⟨by decide +kernel, by decide +kernel, by decide +kernel⟩, by decide +kernel⟩

/-- For `Obligations.FaultReactions`: states and operands that meet its hypotheses. -/
theorem witness_FaultReactions :
    ((wReact 0x14141414).wdogRuns 2 = true ∧ tget (fun _ => 0) (wReact 0x14141414).cpu.wdog 2 = 0 ∧ (wReact 0x14141414).later = [] ∧
      bitOf ((wReact 0x14141414).rg (fltOff (frCore 2) fltSts)) fxWdog = false ∧ (wReact 0x14141414).isFenced (unCore 2) = false ∧
      (wReact 0x14141414).cpu.upd = none ∧ (wReact 0x14141414).voteErr = []) ∧
    ((wReact 0x18181818).wdogRuns 2 = true ∧ tget (fun _ => 0) (wReact 0x18181818).cpu.wdog 2 = 0 ∧ (wReact 0x18181818).later = [] ∧
      bitOf ((wReact 0x18181818).rg (fltOff (frCore 2) fltSts)) fxWdog = false ∧ (wReact 0x18181818).isFenced (unCore 2) = false ∧
      (wReact 0x18181818).cpu.upd = none ∧ (wReact 0x18181818).voteErr = []) :=
  ⟨⟨by decide +kernel, by decide +kernel, rfl, by decide +kernel, by decide +kernel, rfl, rfl⟩, by decide +kernel, by decide +kernel, rfl, by decide +kernel, by decide +kernel, rfl, rfl⟩

/-- The clamp of an armed channel with its outputs on, and a tile with it: their frames have FENCE in every reaction. -/
def wFence (c : Chan) : State :=
  { wCh c with regs := [(cmpOff 0 cmpClamp, 1), (fltOff (frCh 0) fltReact, 0x05050505), (fltOff (frTile 0) fltReact, 0x05050505)] }
def wFenceOn : State := wFence { state := .armed, outEn := true, rngP := 0, comp := { driven := true } }
/-- A channel of the tile is fenced before. -/
def wFenceOff : State := wFence { state := .fenced }
/-- The reactions of a source's severity. -/
def wByte (s : State) (f i : Nat) : Nat :=
  let sev := min 3 (s.sevOf f i + b2n (s.classSet f (s.rg (fltOff f fltSts)) (srcCls f i)))
  bitsOf (s.rg (fltOff f fltReact)) (8 * sev + 7) (8 * sev)

/-- For `Obligations.FaultReactions`: states and operands that meet its hypotheses on fence reactions. -/
theorem witness_FenceReactions :
    (wFenceOn.later = [] ∧ wFenceOn.voteErr = [] ∧ wFenceOn.cmpRuns 0 0 = true ∧ wFenceOn.isClamp 0 0 = true ∧
      (wFenceOn.ch 0).comp.driven = true ∧ (wFenceOn.ch 0).comp.trip = false ∧ wFenceOn.cmpJudge 0 0 false (-5000000) = true ∧
      bitOf ((wFenceOn.ch 0).comp.raw) 0 = false ∧ bitOf (wFenceOn.rg (fltOff (frCh 0) fltSts)) fcClampTrip = false ∧
      bitOf (wByte wFenceOn (frCh 0) fcClampTrip) 2 = true ∧ bitOf (wByte wFenceOn (frCh 0) fcClampTrip) 3 = false ∧
      (wFenceOn.tile 0).cal.st = .idle) ∧
    ∀ s ∈ [wFenceOn, wFenceOff], s.later = [] ∧ s.voteErr = [] ∧ s.causes.contains (frTile 0 * 32 + ftClkQual) = false ∧
      bitOf (s.rg (fltOff (frTile 0) fltSts)) ftClkQual = false ∧ s.isFenced (unTile 0) = false ∧
      (∀ n, n < 64 → tileOf n = 0 → (s.ch n).state = .fenced → s.safePins n = true) ∧
      bitOf (wByte s (frTile 0) ftClkQual) 2 = true ∧ bitOf (wByte s (frTile 0) ftClkQual) 3 = false := by
  decide +kernel

/-! Stages of an own boundary. -/

/-- Channel 0 as given, with one implemented range, two sets of order 2, and frames that react with an interrupt only. -/
def wOwn (c : Chan) : State :=
  { wCh c with
    tick := 3, mem := [(setAddr 0 0, 2), (setAddr 0 1, 0x12)],
    regs := [(fltOff (frCh 0) fltReact, 0x01010101), (fltOff (frTile 0) fltReact, 0x01010101), (chOff 0 chCfg, 0),
      (chOff 0 chIfs, 0x3F800000), (chOff 0 chVfs, 0x3F800000), (chOff 0 chSmap, 0x10), (chOff 0 chSafeCtl, 2)] }
def wTakes (st : ChState) (l : List Nat) : State := wOwn { state := st, disp := .loop, cmds := l }
/-- The same with OFF_RAMP = 1. -/
def wRamps (k : Nat) : State := (wTakes .active [k]).setRg (chOff 0 chCtl) 16
def wLaw (l : Law) : State := wOwn { state := .active, disp := .loop, rng := ⟨0, 0⟩, law := l, valid := 2 }
def wLoop : State := wLaw { x := [1073741824, -5], z := 7, u := 9, run := true }

/-- For `Obligations.OwnBoundary`: states and operands that meet its hypotheses on boundary command. -/
theorem witness_BoundaryCommand :
    (∀ s ∈ [wTakes .armed [2], wTakes .active [3], wTakes .active [4, 3], wTakes .armed [2, 4], wRamps 3, wRamps 4, wTakes .off [5], wTakes .off [1],
        wTakes .service [6]], s.mild (frCh 0) = true ∧ s.mild (frTile (tileOf 0)) = true ∧ s.later = []) ∧
    cmdOrder.find? ([4, 3].contains ·) = some 4 ∧ cmdOrder.find? ([2, 4].contains ·) = some 4 ∧
    (∀ k, k < 7 → k ≠ 0 → cmdOrder.find? ([k].contains ·) = some k) ∧
    ((wRamps 3).ch 0).disp = .loop ∧ bitOf ((wRamps 3).cr 0 chCtl) 4 = true ∧ bitOf ((wTakes .active [3]).cr 0 chCtl) 4 = false ∧
    armRanges (wTakes .off [1]).rg 0 = true := by
  decide +kernel

/-- For `Obligations.OwnBoundary`: states and operands that meet its hypotheses on loop evaluation. -/
theorem witness_LoopEvaluation :
    (wLoop.mild (frCh 0) = true ∧ wLoop.later = [] ∧ wLoop.memUE = [] ∧ wLoop.memCE = [] ∧ (wLoop.ch 0).loopOn = true ∧
      (wLoop.ch 0).law.cold = false ∧ (wLoop.ch 0).law.owed = none ∧ (wLoop.loadSet 0 (wLoop.ch 0).law.act).order = 2 ∧
      wLoop.calDrives 0 = false) ∧
    let c := wLoop.loadSet 0 (wLoop.ch 0).law.act
    ∀ p ∈ [c.n, c.ki, c.w] ++ c.nk ++ c.gam ++ c.lv ++ c.li ++ c.phi.flatten, p.c = 0 := by
  decide +kernel

/-- For `Obligations.OwnBoundary`: states and operands that meet its hypotheses on bank swap. -/
theorem witness_BankSwap :
    (wLoop.mild (frCh 0) = true ∧ wLoop.later = [] ∧ wLoop.setValid 0 1 = true ∧ wLoop.setValid 0 0 = false ∧ (wLoop.ch 0).law.run = true ∧
      (wLoop.ch 0).law.cold = false ∧ (wLoop.ch 0).law.shdReq = none ∧ wLoop.swapReqs 0 = []) ∧
    ((wLaw { run := true, modeReq := true, swapReq := true }).swapReqs 0 ≠ [] ∧ (wLaw { run := true, swapReq := true }).swapReqs 0 = [.strobe]) := by
  decide +kernel

/-- For `Obligations.OwnBoundary`: states and operands that meet its hypotheses on safety limits. -/
theorem witness_SafetyLimits :
    (wLoop.mild (frCh 0) = true ∧ wLoop.later = [] ∧ (wLoop.ch 0).state = .active) ∧
    (wLoop.vImpl 0 (wLoop.ch 0).smpRng.v = true ∧ wLoop.iImpl 0 (wLoop.ch 0).smpRng.i = true ∧ bitsOf (wLoop.cr 0 chSafeCtl) 7 0 = 2 ∧
      (wLoop.safeLims 0 false).1 < 5 ∧ -5 < (wLoop.safeLims 0 true).2 ∧ bitOf (wLoop.cr 0 chSafeCtl) 8 = false ∧
      (5 : Int) * -5 < 0 ∧ bitsOf (wLoop.cr 0 chSafeCtl) 15 9 * 8388608 < (-5 : Int).natAbs) ∧
    (wOwn { state := .active, disp := .loop, rng := ⟨0, 0⟩, sup := { safeV := 1, safeI := 1, sink := 1 } }).causes.contains
      (frCh 0 * 32 + fcSafeLimit) = false := by
  decide +kernel

/-! The statements of single rules. -/

/-- For `Obligations.CoveredSetsAtReset`: a set of each kind. -/
theorem witness_CoveredSetsAtReset : 0 < 64 ∧ 63 < 64 ∧ 64 ≤ 64 ∧ 66 < 67 := by decide

/-- A flag of SYS is set with a past severity and persistence, and its cause has ended. -/
def wFltBoth : State := wRegs [(fltOff frSys fltSts, 0x05000021), (fltOff frSys fltEsc, 0x21), (fltOff frSys fltPers, 0x21)] wOn

/-- For `Obligations.FaultClearClearsRecord`: flags 0 and 5 of SYS written as 1 with the SEQ that FLT_STS holds. -/
theorem witness_FaultClearClearsRecord :
    wFltBoth.mayWrite hA (fltOff (blockFrame .sys) fltSts) ∧
    wFltBoth.stsMeets (fltOff (blockFrame .sys) fltSts) (0x05000021#32).toNat = wFltBoth ∧
    (0x05000021#32).toNat / 16777216 = wFltBoth.rg (fltOff (blockFrame .sys) fltSts) / 16777216 ∧
    bitOf (wFltBoth.rg (fltOff (blockFrame .sys) fltSts)) 0 = true ∧ bitOf (wFltBoth.rg (fltOff (blockFrame .sys) fltSts)) 5 = true ∧
    bitOf (0x05000021#32).toNat 0 = true ∧ bitOf (0x05000021#32).toNat 5 = true :=
  ⟨hostWrites (by decide +kernel), by decide +kernel, by decide +kernel, by decide +kernel, by decide +kernel, by decide, by decide⟩

/-- For `Obligations.SelfReset`: the host may write SYS_CHIPRST. -/
theorem witness_SelfReset : wOn.mayWrite hA sysChiprst ∧ wOn.unpaired hA sysChiprst = true :=
  ⟨hostWrites (by decide +kernel), by decide +kernel⟩

end Sys2Proof.Tests
end

section
/-! Faults cleared by software (R598 to R600): what a clear of FLT_STS leaves in FLT_STS, FLT_ESC and FLT_PERS. -/

namespace Sys2Proof.Machine

/-! Sums of disjoint words, as the model forms the masks of flags. -/

/-- Words that share no bit add without a carry. -/
theorem add_eq_or_of_and_eq_zero (a b : Nat) (h : a &&& b = 0) : a + b = a ||| b := by
  have ha := Nat.lt_two_pow_self (n := a + b)
  have h' : BitVec.ofNat (a + b) a &&& BitVec.ofNat (a + b) b = 0#(a + b) := by
    rw [← BitVec.ofNat_and, h]
  have := congrArg BitVec.toNat (BitVec.add_eq_or_of_and_eq_zero _ _ h')
  rwa [← BitVec.ofNat_add, ← BitVec.ofNat_or, BitVec.toNat_ofNat, BitVec.toNat_ofNat, Nat.mod_eq_of_lt ha,
    Nat.mod_eq_of_lt (Nat.or_lt_two_pow (by omega) (by omega))] at this

/-- Taking out of a word the bits that it shares with a mask clears those bits and no other. -/
theorem testBit_sub_and (w m i : Nat) : (w - (w &&& m)).testBit i = (w.testBit i && !m.testBit i) := by
  have hd : Nat.ldiff w m &&& (w &&& m) = 0 := by
    apply Nat.eq_of_testBit_eq
    intro j
    simp only [Nat.testBit_and, Nat.testBit_ldiff, Nat.zero_testBit]
    cases m.testBit j <;> simp
  have hw : Nat.ldiff w m ||| (w &&& m) = w := by
    apply Nat.eq_of_testBit_eq
    intro j
    simp only [Nat.testBit_or, Nat.testBit_and, Nat.testBit_ldiff]
    cases m.testBit j <;> simp
  have hs := add_eq_or_of_and_eq_zero _ _ hd
  rw [hw] at hs
  rw [show w - (w &&& m) = Nat.ldiff w m by omega, Nat.testBit_ldiff]

/-- The word whose set bits are those of `l`, as `State.fltDrop` sums it. -/
def maskOf (l : List Nat) : Nat := l.foldl (fun a i => a + 2 ^ i) 0

theorem testBit_foldl_add_two_pow (l : List Nat) (a j : Nat) (hn : l.Nodup) (ha : ∀ i ∈ l, a.testBit i = false) :
    (l.foldl (fun a i => a + 2 ^ i) a).testBit j = (a.testBit j || decide (j ∈ l)) := by
  induction l generalizing a with
  | nil => simp
  | cons i r ih =>
    obtain ⟨hir, hr⟩ := List.nodup_cons.1 hn
    have hadd : a + 2 ^ i = a ||| 2 ^ i := by
      refine add_eq_or_of_and_eq_zero _ _ ?_
      rw [Nat.and_two_pow, ha i (List.mem_cons_self ..)]; simp
    have hdis : ∀ k ∈ r, (a + 2 ^ i).testBit k = false := by
      intro k hk
      have hik : i ≠ k := fun h => hir (h ▸ hk)
      simp [hadd, ha k (List.mem_cons_of_mem _ hk), hik]
    rw [List.foldl_cons, ih _ hr hdis, hadd]
    simp [Nat.testBit_two_pow, Bool.or_assoc, eq_comm]

theorem testBit_maskOf {l : List Nat} (hn : l.Nodup) (j : Nat) : (maskOf l).testBit j = decide (j ∈ l) := by
  rw [maskOf, testBit_foldl_add_two_pow l 0 j hn (by simp)]; simp

theorem maskOf_lt {l : List Nat} {k : Nat} (hn : l.Nodup) (h : ∀ i ∈ l, i < k) : maskOf l < 2 ^ k := by
  apply Nat.lt_pow_two_of_testBit
  intro i hi
  have : i ∉ l := fun hm => absurd (h i hm) (by omega)
  simp [testBit_maskOf hn, this]

/-! Lines that rise (R814) write nothing but pending bits of MSI-X vectors. -/

theorem State.rg_msix (s : State) {v o : Nat} (hv : v < 64) (ho : o ∉ pbaRegs) : (s.msix v).rg o = s.rg o := by
  have hne : o ≠ 0xF8000 + hostHostMsixPba + 4 * (v / 32) := by
    simp only [pbaRegs, List.mem_cons, List.not_mem_nil, or_false, not_or] at ho
    omega
  unfold State.msix
  split
  · rfl
  · split
    · exact s.rg_setRg_ne _ hne
    · rfl

theorem State.msix_causes (s : State) (v : Nat) : (s.msix v).causes = s.causes := by
  unfold State.msix; split
  · rfl
  · split <;> rfl

theorem State.linesRise_keeps (s : State) :
    (∀ o, o ∉ pbaRegs → s.linesRise.rg o = s.rg o) ∧ s.linesRise.causes = s.causes := by
  have send : ∀ (l : List Nat) (u : State),
      let t := l.foldl (fun s i => s.msix (bitsOf (s.rg (sysCoreIrqrt + 4 * i)) 9 4)) u
      (∀ o, o ∉ pbaRegs → t.rg o = u.rg o) ∧ t.causes = u.causes := by
    intro l
    induction l with
    | nil => intro u; exact ⟨fun _ _ => rfl, rfl⟩
    | cons i r ih =>
      intro u
      obtain ⟨hrg, hc⟩ := ih (u.msix (bitsOf (u.rg (sysCoreIrqrt + 4 * i)) 9 4))
      exact ⟨fun o ho => (hrg o ho).trans (u.rg_msix (bitsOf_lt _ 9 4) ho), hc.trans (u.msix_causes _)⟩
  unfold State.linesRise
  dsimp only
  split
  · exact ⟨fun _ _ => rfl, rfl⟩
  · exact send _ _

/-- No register of a fault frame up to FLT_PERS is a pending bit of MSI-X. -/
theorem fltOff_not_mem_pbaRegs (f : Nat) {r : Nat} (hr : r ≤ fltPers) : fltOff f r ∉ pbaRegs := by
  have hr' : r ≤ 8 := hr
  simp only [pbaRegs, hostHostMsixPba, List.mem_cons, List.not_mem_nil, or_false, not_or, fltOff, frameOff]
  split_ifs <;> omega

/-! The sources that a clear meets. -/

/-- The source flags of frame `f` that are set and that the mask `m` of a clear names. -/
def State.fltNamed (s : State) (f m : Nat) : List Nat :=
  (List.range 20).filter fun i => bitOf (s.rg (fltOff f fltSts) % 16777216 &&& m) i

/-- R599: a clear of source `i` of frame `f` sets the flag again: it is of kind L and its cause is present. -/
def State.fltStays (s : State) (f i : Nat) : Bool :=
  ((srcsOf f).getD i ⟨15, false, 0⟩).lvl && s.causes.contains (f * 32 + i)

/-- The sources that a clear with mask `m` sets again. -/
def State.fltAgain (s : State) (f m : Nat) : List Nat := (s.fltNamed f m).filter (s.fltStays f)

/-- The sources that it leaves at 0. -/
def State.fltGone (s : State) (f m : Nat) : List Nat := (s.fltNamed f m).filter fun i => !(s.fltAgain f m).contains i

theorem State.mem_fltNamed (s : State) (f m i : Nat) :
    i ∈ s.fltNamed f m ↔ i < 20 ∧ bitOf (s.rg (fltOff f fltSts)) i = true ∧ bitOf m i = true := by
  simp only [State.fltNamed, List.mem_filter, List.mem_range, and_congr_right_iff]
  intro hi
  rw [bitOf_eq_testBit, Nat.testBit_and, ← bitOf_eq_testBit, ← bitOf_eq_testBit, bitOf_mod _ _ (by omega), Bool.and_eq_true]

theorem State.mem_fltAgain (s : State) (f m i : Nat) :
    i ∈ s.fltAgain f m ↔ i ∈ s.fltNamed f m ∧ s.fltStays f i = true := List.mem_filter

theorem State.mem_fltGone (s : State) (f m i : Nat) :
    i ∈ s.fltGone f m ↔ i ∈ s.fltNamed f m ∧ s.fltStays f i = false := by
  rw [State.fltGone, List.mem_filter, Bool.not_eq_true', List.contains_eq_mem, decide_eq_false_iff_not, s.mem_fltAgain]
  cases s.fltStays f i <;> simp

theorem State.fltNamed_nodup (s : State) (f m : Nat) : (s.fltNamed f m).Nodup := List.nodup_range.filter _

theorem State.fltAgain_nodup (s : State) (f m : Nat) : (s.fltAgain f m).Nodup := (s.fltNamed_nodup f m).filter _

theorem State.fltGone_nodup (s : State) (f m : Nat) : (s.fltGone f m).Nodup := (s.fltNamed_nodup f m).filter _

theorem State.fltGone_lt (s : State) {f m i : Nat} (h : i ∈ s.fltGone f m) : i < 20 :=
  ((s.mem_fltNamed f m i).1 ((s.mem_fltGone f m i).1 h).1).1

/-- R814: the messages of lines that rise before a clear change neither its sources nor what becomes of them. -/
theorem State.fltAgain_linesRise (s : State) (f m : Nat) : s.linesRise.fltAgain f m = s.fltAgain f m := by
  simp only [State.fltAgain, State.fltNamed, s.linesRise_keeps.1 _ (fltOff_not_mem_pbaRegs f (r := fltSts) (by decide))]
  refine List.filter_congr fun i _ => ?_
  rw [State.fltStays, s.linesRise_keeps.2]; rfl

theorem State.fltGone_linesRise (s : State) (f m : Nat) : s.linesRise.fltGone f m = s.fltGone f m := by
  simp only [State.fltGone, State.fltNamed, s.fltAgain_linesRise,
    s.linesRise_keeps.1 _ (fltOff_not_mem_pbaRegs f (r := fltSts) (by decide))]

/-! The registers after a clear. -/

/-- The three register writes of a clear, in the model's order, once the lines that have risen have sent their messages. -/
theorem State.regs_fltDrop (s : State) (f m : Nat) :
    let t := s.linesRise
    let w := t.rg (fltOff f fltSts)
    let again := t.fltAgain f m
    let rest := 1048575 - maskOf (t.fltGone f m)
    let seq := if again = [] then w / 16777216 else (w / 16777216 + 1) % 256
    let t1 := t.setRg (fltOff f fltSts) (w % 16777216 - (w % 16777216 &&& m) + maskOf again + 16777216 * seq)
    let t2 := t1.setRg (fltOff f fltPers) ((t1.rg (fltOff f fltPers) ||| maskOf again) &&& rest)
    (s.fltDrop f m).regs = (t2.setRg (fltOff f fltEsc) (t2.rg (fltOff f fltEsc) &&& rest)).regs := by
  have hite : ∀ (p : Prop) [Decidable p] (a b : State), a.regs = b.regs → (if p then a else b).regs = b.regs := by
    intro p _ a b hab
    split
    · exact hab
    · rfl
  unfold State.fltDrop
  exact hite _ _ _ rfl

/-- R599, R600: the words of FLT_STS, FLT_PERS and FLT_ESC after a clear with mask `m`. -/
theorem State.rg_fltDrop (s : State) (f m : Nat) :
    let w := s.rg (fltOff f fltSts) % 16777216
    let rest := 1048575 - maskOf (s.fltGone f m)
    (∃ seq, (s.fltDrop f m).rg (fltOff f fltSts) =
      (w - (w &&& m) + maskOf (s.fltAgain f m) + 16777216 * seq) % 4294967296) ∧
    (s.fltDrop f m).rg (fltOff f fltPers) =
      ((s.rg (fltOff f fltPers) ||| maskOf (s.fltAgain f m)) &&& rest) % 4294967296 ∧
    (s.fltDrop f m).rg (fltOff f fltEsc) = (s.rg (fltOff f fltEsc) &&& rest) % 4294967296 := by
  have hsp : fltOff f fltSts ≠ fltOff f fltPers := fltOff_ne f (by decide)
  have hse : fltOff f fltSts ≠ fltOff f fltEsc := fltOff_ne f (by decide)
  have hpe : fltOff f fltPers ≠ fltOff f fltEsc := fltOff_ne f (by decide)
  have hline : ∀ r, r ≤ fltPers → s.linesRise.rg (fltOff f r) = s.rg (fltOff f r) := fun r hr =>
    s.linesRise_keeps.1 _ (fltOff_not_mem_pbaRegs f hr)
  have hregs := s.regs_fltDrop f m
  dsimp only at hregs ⊢
  simp only [State.rg_congr hregs, State.rg_setRg, if_pos, if_neg hsp, if_neg hse, if_neg hpe, if_neg hsp.symm, if_neg hse.symm,
    if_neg hpe.symm, s.fltAgain_linesRise, s.fltGone_linesRise, hline fltSts (by decide), hline fltPers (by decide),
    hline fltEsc (by decide), and_true]
  exact ⟨_, rfl⟩

/-- R599, R600: a flag that a clear names is set after it just where its source is of kind L with its cause present. -/
theorem State.fltDrop_sts_bit (s : State) (f m i : Nat) (h : i ∈ s.fltNamed f m) :
    bitOf ((s.fltDrop f m).rg (fltOff f fltSts)) i = s.fltStays f i := by
  obtain ⟨hi, -, hm⟩ := (s.mem_fltNamed f m i).1 h
  obtain ⟨⟨seq, hsts⟩, -, -⟩ := s.rg_fltDrop f m
  generalize s.rg (fltOff f fltSts) % 16777216 = w at hsts
  have hdisjoint : (w - (w &&& m)) &&& maskOf (s.fltAgain f m) = 0 := by
    apply Nat.eq_of_testBit_eq
    intro j
    rw [Nat.testBit_and, testBit_sub_and, testBit_maskOf (s.fltAgain_nodup f m), Nat.zero_testBit]
    by_cases hj : j ∈ s.fltAgain f m
    · obtain ⟨-, -, hmj⟩ := (s.mem_fltNamed f m j).1 ((s.mem_fltAgain f m j).1 hj).1
      rw [← bitOf_eq_testBit m, hmj]; simp
    · simp [hj]
  have hlow : ∀ x, (x + 16777216 * seq) % 4294967296 % 16777216 = x % 16777216 := by omega
  rw [hsts, ← bitOf_mod _ i (by omega), hlow, bitOf_mod _ i (by omega), add_eq_or_of_and_eq_zero _ _ hdisjoint, bitOf_eq_testBit,
    Nat.testBit_or, testBit_sub_and, ← bitOf_eq_testBit m, hm, testBit_maskOf (s.fltAgain_nodup f m)]
  simp [s.mem_fltAgain, h]

/-- R600: a clear that leaves a flag at 0 clears its bits in FLT_PERS and FLT_ESC. -/
theorem State.fltDrop_record_bits (s : State) (f m i : Nat) (h : i ∈ s.fltGone f m) :
    bitOf ((s.fltDrop f m).rg (fltOff f fltEsc)) i = false ∧ bitOf ((s.fltDrop f m).rg (fltOff f fltPers)) i = false := by
  have hrest : (1048575 - maskOf (s.fltGone f m)).testBit i = false := by
    have hlt : maskOf (s.fltGone f m) < 2 ^ 20 := maskOf_lt (s.fltGone_nodup f m) fun _ => s.fltGone_lt
    rw [show 1048575 - maskOf (s.fltGone f m) = 2 ^ 20 - (maskOf (s.fltGone f m) + 1) by omega,
      Nat.testBit_two_pow_sub_succ hlt, testBit_maskOf (s.fltGone_nodup f m)]
    simp [h]
  obtain ⟨-, hpers, hesc⟩ := s.rg_fltDrop f m
  rw [hesc, hpers, show (4294967296 : Nat) = 2 ^ 32 from rfl]
  simp only [bitOf_eq_testBit, Nat.testBit_mod_two_pow, Nat.testBit_and, hrest, Bool.and_false, and_self]

/-- R600: what a write of `v` to FLT_STS leaves of a flag that it clears with the SEQ that FLT_STS holds. -/
theorem State.fltClear_record (s : State) (f v i : Nat) (hseq : v / 16777216 = s.rg (fltOff f fltSts) / 16777216) (hi : i < 20)
    (hset : bitOf (s.rg (fltOff f fltSts)) i = true) (hv : bitOf v i = true) :
    (bitOf ((s.fltClear f v).rg (fltOff f fltSts)) i = false →
      bitOf ((s.fltClear f v).rg (fltOff f fltEsc)) i = false ∧ bitOf ((s.fltClear f v).rg (fltOff f fltPers)) i = false) ∧
    (((srcsOf f).getD i ⟨15, false, 0⟩).lvl = false → bitOf ((s.fltClear f v).rg (fltOff f fltSts)) i = false) := by
  have hnamed : i ∈ s.fltNamed f (v % 16777216) := (s.mem_fltNamed f _ i).2 ⟨hi, hset, by rw [bitOf_mod _ i (by omega), hv]⟩
  rw [State.fltClear, if_pos hseq, s.fltDrop_sts_bit f _ i hnamed]
  constructor
  · intro hclear
    exact s.fltDrop_record_bits f _ i ((s.mem_fltGone f _ i).2 ⟨hnamed, hclear⟩)
  · intro hkindE
    rw [State.fltStays, hkindE, Bool.false_and]

theorem exec_faultClear (s : State) (a : Acc) (b : Block) (v : Word) :
    exec (.faultClear a b v) s = s.viaReg a (fltOff (blockFrame b) fltSts) v.toNat fun s =>
      (s.stsMeets (fltOff (blockFrame b) fltSts) v.toNat).fltClear (blockFrame b) v.toNat := rfl

end Sys2Proof.Machine

namespace Sys2Proof.Proofs

open Sys2Proof.Machine

/-- Settles O59: a flag that the clear names is either set again, being of kind L with its cause present, or gone, and the
clear takes the bits of what is gone out of FLT_ESC and FLT_PERS. -/
theorem faultClearClearsRecord : Obligations.FaultClearClearsRecord := by
  intro s a b v i hw f w hseq hi hset hv
  exact ⟨_, (exec_faultClear s a b v).trans (State.mayWrite_next hw _ _), State.fltClear_record _ f v.toNat i hseq hi hset hv⟩

end Sys2Proof.Proofs
end

section
/-! The covered sets at reset (R636): the commit states, and the references against the contents in force. -/

namespace Sys2Proof.Machine

/-! The reset state through the accessors. -/

@[simp] theorem State.rg_reset (o : Nat) : State.reset.rg o = (regReset o).toNat := rfl

@[simp] theorem State.committed_reset (k : Nat) : State.reset.committed k = decide (64 ≤ k) := by
  simp [State.committed, State.reset]

/-- R636: no reference has been committed yet, so that of a set from 64 on is formed from the reset contents. -/
theorem State.refOf_reset {k : Nat} (hk : 64 ≤ k) : State.reset.refOf k =
    crcOf State.reset.rg (if k = 64 then routeOffs else if k = 65 then [] else reactOffs) := by
  have hno : tget (fun _ => none) State.reset.crc.refs k = none := rfl
  have hrg : State.reset.rg = fun o => (regReset o).toNat := funext State.rg_reset
  rw [State.refOf, hno, hrg]
  exact if_neg (by omega)

/-! The secure Bramble set (R875) at reset. -/

/-- R655: EVC_CFG of event channel `c` stands in the block of the channel. -/
theorem locate_evcCfg {c : Nat} (hc : c < 128) : locate (evcOff c evcCfg) = some ⟨.evc, c, evcCfg⟩ := by
  have hoff : evcOff c evcCfg = 0xB1004 + 0x40 * c := by simp only [evcOff, evcCfg]; omega
  have hinst : (0xB1004 + 0x40 * c - 0xB1000) / 0x40 = c := by omega
  have hrel : (0xB1004 + 0x40 * c) % 0x40 = 4 := by omega
  rw [hoff, locate, if_neg (by omega), if_neg (by omega), if_neg (by omega), if_neg (by omega), if_neg (by omega),
    if_pos (by omega), if_neg (by omega), if_pos (by omega), hinst, hrel]

theorem regReset_evcCfg {c : Nat} (hc : c < 128) : regReset (evcOff c evcCfg) = 0x40 := by
  rw [regReset, locate_evcCfg hc]; rfl

/-- At reset SECURE of every event channel is 0. -/
theorem State.secIn_reset {c : Nat} (hc : c < 128) : State.reset.secIn c = false := by
  rw [State.secIn, State.rg_reset, regReset_evcCfg hc]; decide

theorem subEvc_lt {w c : Nat} (h : subEvc w = some c) : c < 128 := by
  unfold subEvc at h
  split at h
  · obtain rfl := Option.some.inj h
    exact Nat.mod_lt _ (by decide)
  · cases h

/-- R875: while no event channel is secure, set 65 holds no register in force. -/
theorem State.secOffs_eq_nil {s : State} (h : ∀ c, c < 128 → s.secIn c = false) : s.secOffs false = [] := by
  rw [State.secOffs, List.append_eq_nil_iff, List.flatMap_eq_nil_iff, List.map_eq_nil_iff, List.filter_eq_nil_iff]
  constructor
  · intro c hc
    obtain ⟨hr, hsec⟩ := List.mem_filter.1 hc
    exact absurd hsec (by simp [h c (List.mem_range.1 hr)])
  · intro i _
    split
    · next c hc => simp [h c (subEvc_lt hc)]
    · simp

/-- The registers in force of a set from 64 on at reset: those whose reset contents form its reference. -/
theorem State.setOffs_reset {k : Nat} (hk : 64 ≤ k) : State.reset.setOffs k false =
    if k = 64 then routeOffs else if k = 65 then [] else reactOffs := by
  rw [State.setOffs, if_neg (by omega), State.secOffs_eq_nil fun _ => State.secIn_reset]

end Sys2Proof.Machine

namespace Sys2Proof.Proofs

open Sys2Proof.Machine

/-- Settles O58: no commit state has changed at reset, and the reference of each set from 64 on is formed from the registers
that the set holds in force, none of set 65 since no event channel is secure. -/
theorem coveredSetsAtReset : Obligations.CoveredSetsAtReset := by
  intro k
  constructor
  · intro hk
    rw [State.committed_reset, decide_eq_false (by omega)]
  · intro hk _
    constructor
    · rw [State.committed_reset, decide_eq_true hk]
    · rw [State.refOf_reset hk, State.crcForce, State.setOffs_reset hk]

end Sys2Proof.Proofs
end

section
/-! Chip resets (R659 to R666): what the registers read after one, and the reset that software requests. -/

namespace Sys2Proof.Machine

/-- A sparse map of which only the entries of some keys are kept reads as before at those keys, as its default elsewhere. -/
theorem tget_filter_key {α : Type} (d : Nat → α) (t : Tbl α) (keep : Nat → Bool) (k : Nat) :
    tget d (t.filter fun p => keep p.1) k = if keep k then tget d t k else d k := by
  induction t with
  | nil => simp [tget]
  | cons p r ih =>
    obtain ⟨j, v⟩ := p
    rw [List.filter_cons]
    by_cases hjk : j = k
    · subst hjk
      cases hkeep : keep j
      · simpa [hkeep] using ih
      · simp [tget]
    · cases hkeep : keep j <;> simp [tget, hjk, ih]

/-! A chip reset. -/

@[simp] theorem State.storeRaw_regs (s : State) (a : Nat) (bs : List Byte) : (s.storeRaw a bs).regs = s.regs := rfl

@[simp] theorem State.tcmLost_regs (s : State) : s.tcmLost.regs = s.regs := by
  unfold State.tcmLost
  split
  · exact State.storeRaw_regs _ _ _
  · rfl

@[simp] theorem State.chipReset_boot (s : State) (cause : Nat) : (s.chipReset cause).boot = {} := rfl
@[simp] theorem State.chipReset_running (s : State) (cause : Nat) : (s.chipReset cause).running = false := rfl
@[simp] theorem State.chipReset_held (s : State) (cause : Nat) : (s.chipReset cause).held = 15 := rfl

/-- R573, R677: SYS_RST_CAUSE names the cause, what a reset of that cause keeps stays, the rest reads its reset value. -/
theorem State.rg_chipReset (s : State) (cause o : Nat) : (s.chipReset cause).rg o =
    if o = sysRstCause then cause % 4294967296 else if chipKeep cause o then s.rg o else (regReset o).toNat := by
  unfold State.chipReset
  dsimp only
  rw [State.rg_setRg]
  refine if_congr Iff.rfl rfl ?_
  rw [State.rg, State.tcmLost_regs, tget_filter_key, apply_ite BitVec.toNat]
  rfl

/-! The reset that software requests (R666). -/

@[simp] theorem State.swReset_rstCause (s : State) : s.swReset.rg sysRstCause = 2 := by
  rw [State.swReset, State.rg_chipReset, if_pos rfl]

/-- A reset of cause SELF keeps SYS_FLT_RSTSRC, so it reads what the request left in it. -/
@[simp] theorem State.swReset_fltRstsrc (s : State) : s.swReset.rg (fltOff frSys fltSysFltRstsrc) = 0 := by
  have hne : fltOff frSys fltSysFltRstsrc ≠ sysRstCause := by decide
  have hkeep : chipKeep 2 (fltOff frSys fltSysFltRstsrc) = true := by decide
  rw [State.swReset, State.rg_chipReset, if_neg hne, if_pos hkeep, State.rg_setRg_same]

theorem exec_sysChiprst (s : State) (a : Acc) :
    exec (.sysChiprst a) s = s.viaReg a sysChiprst 1 fun s => (s.pairDrop a.req sysChiprst).swReset := rfl

end Sys2Proof.Machine

namespace Sys2Proof.Proofs

open Sys2Proof.Machine

/-- Settles O60: an accepted write runs the software reset, which clears SYS_FLT_RSTSRC first and then resets with cause SELF,
and a reset of that cause keeps the register. -/
theorem selfReset : Obligations.SelfReset := by
  intro s a hw _
  exact ⟨_, (exec_sysChiprst s a).trans (State.mayWrite_next hw _ _), State.swReset_fltRstsrc _, State.swReset_rstCause _,
    congrArg Boot.phase (State.chipReset_boot _ _), State.chipReset_running _ _, State.chipReset_held _ _⟩

end Sys2Proof.Proofs
end

section
/-! What every step keeps: the queue of the commands that wait, and the canonical form of the memory. One lemma for each
function of the model that answers a state, named after it, says that it keeps both; its proof is the composition of the
lemmas of the functions it calls, along its own branches. `State.Keeps.exec` closes the chain. -/

namespace Sys2Proof.Machine

/-- The commands that wait are `q`, and where `w` holds the memory is in its canonical form. -/
structure State.Keeps (q : List Instr) (w : Prop) (s : State) : Prop where
  queue : s.pending = q
  canon : w → s.memWf = true

section

variable {q : List Instr} {w : Prop} {s t : State}

/-- What writes any field but the queue and the memory. -/
theorem State.Keeps.record
    {tick : Nat} {cyc : Nat} {running : Bool} {regs : Tbl Word} {shadow : Tbl Word} {voteErr : List Nat} {seqRun :
    Option (List Nat)} {seqAt : Option (Nat × List Nat)} {memUE : List Nat} {memCE : List Nat} {chans : Tbl Chan}
    {fenced : List Nat} {fenceAt : Option (Nat × List Nat)} {held : BitVec 4} {calSel : List Nat} {calBad : List
    Nat} {calFlip : List (Nat × Nat)} {calHold : Tbl (Option (Int × Int × Int))} {calKeep : List Nat} {tileT : Tbl
    Word} {tileTUse : Tbl Word} {tiles : Tbl Tile} {pscs : Tbl Psc} {auxPh : Nat} {contribs : List Contrib} {evcLast
    : Tbl (Option Passed)} {loopCnt : Tbl (Nat × Nat)} {fired : Tbl (List (Nat × Nat))} {trig : Tbl Trig} {alive :
    Alive} {fltReg : Tbl Nat} {causes : List Nat} {later : List (Nat × Nat)} {linkBad : Tbl Nat} {linkGood : Tbl
    Nat} {guards : List Held} {holds : List Held} {latches : List Held} {strobes : Tbl (Option Strobe)} {crc : Crc}
    {refillAt : Option Nat} {lines : Tbl (List Nat)} {lineOn : List Nat} {updDue : List Nat} {updAt : Tbl (Option
    Nat)} {boot : Boot} {fab : Fab} {fwq : List FwReq} {nextDtag : Nat} {cpu : Cpu} {hostp : HostP} {clk : Clk}
    {jtag : Jtag} {out : List Out}
    (h : s.Keeps q w) : State.Keeps q w {
      pending := s.pending, tick, cyc, running, regs, shadow, voteErr, seqRun, seqAt, mem := s.mem, memUE, memCE,
      chans, fenced, fenceAt, held, calSel, calBad, calFlip, calHold, calKeep, tileT, tileTUse, tiles, pscs, auxPh,
      contribs, evcLast, loopCnt, fired, trig, alive, fltReg, causes, later, linkBad, linkGood, guards, holds,
      latches, strobes, crc, refillAt, lines, lineOn, updDue, updAt, boot, fab, fwq, nextDtag, cpu, hostp, clk, jtag,
      out } :=
  ⟨h.queue, h.canon⟩

theorem State.Keeps.ite {c : Prop} [Decidable c] (hs : s.Keeps q w) (ht : t.Keeps q w) : (if c then s else t).Keeps q w := by
  split <;> assumption

/-- Of two answers the one that is given. -/
theorem State.Keeps.iteFst {α : Type} {c : Prop} [Decidable c] {x y : State × α} (hx : x.1.Keeps q w) (hy : y.1.Keeps q w) :
    (if c then x else y).1.Keeps q w := by
  split <;> assumption

/-- Of two accesses the one that is made. -/
theorem State.Keeps.iteSt {c : Prop} [Decidable c] {x y : Acs} (hx : x.st.Keeps q w) (hy : y.st.Keeps q w) :
    (if c then x else y).st.Keeps q w := by
  split <;> assumption

theorem State.Keeps.foldl {α : Type} {f : State → α → State} {l : List α} (h : s.Keeps q w)
    (hf : ∀ t x, t.Keeps q w → (f t x).Keeps q w) : (l.foldl f s).Keeps q w := by
  induction l generalizing s with
  | nil => exact h
  | cons x r ih => exact ih (hf s x h)

/-- Memory of which only some addresses keep their contents. -/
theorem State.Keeps.memFilter (h : s.Keeps q w) (keep : Nat → Bool) {u c : List Nat} :
    State.Keeps q w { s with mem := s.mem.filter fun p => keep p.1, memUE := u, memCE := c } :=
  ⟨h.queue, fun hw => tok_filter memDef _ _ _ (h.canon hw)⟩

/-- A command answers a next state that keeps the queue and the form of the memory. -/
def Answers (q : List Instr) (w : Prop) (r : Res) : Prop := ∃ t, r = .next t ∧ t.Keeps q w

theorem State.Keeps.next (h : s.Keeps q w) : Answers q w (.next s) := ⟨s, rfl, h⟩

/-! Registers, memory and events (Sys2Proof/Machine/Ops.lean). -/

theorem State.Keeps.setRg {o v : Nat} (h : s.Keeps q w) : (s.setRg o v).Keeps q w := by
  unfold State.setRg
  exact h.record

theorem State.Keeps.setSh {o v : Nat} (h : s.Keeps q w) : (s.setSh o v).Keeps q w := by
  unfold State.setSh
  exact h.record

theorem State.Keeps.setBoth {o v : Nat} (h : s.Keeps q w) : (s.setBoth o v).Keeps q w := by
  unfold State.setBoth
  exact h.setRg.setSh

theorem State.Keeps.setCr {n rel v : Nat} (h : s.Keeps q w) : (s.setCr n rel v).Keeps q w := by
  unfold State.setCr
  exact h.setRg

theorem State.Keeps.flag {o mask : Nat} (h : s.Keeps q w) : (s.flag o mask).Keeps q w := by
  unfold State.flag
  refine .ite h ?_
  split
  · exact h.setRg
  · exact .ite h.setRg h.record.setRg

theorem State.Keeps.cycleBegin (h : s.Keeps q w) : s.cycleBegin.Keeps q w := by
  unfold State.cycleBegin
  exact h.record

theorem State.Keeps.cycleEnd (h : s.Keeps q w) : s.cycleEnd.Keeps q w := by
  unfold State.cycleEnd
  exact h.record

theorem State.Keeps.cflag {n rel mask : Nat} (h : s.Keeps q w) : (s.cflag n rel mask).Keeps q w := by
  unfold State.cflag
  exact h.flag

theorem State.Keeps.count {o k : Nat} (h : s.Keeps q w) : (s.count o k).Keeps q w := by
  unfold State.count
  exact h.setRg

theorem State.Keeps.ccount {n rel k : Nat} (h : s.Keeps q w) : (s.ccount n rel k).Keeps q w := by
  unfold State.ccount
  exact h.count

theorem State.Keeps.countWrap {o k : Nat} (h : s.Keeps q w) : (s.countWrap o k).Keeps q w := by
  unfold State.countWrap
  exact h.setRg

theorem State.Keeps.count64 {o k : Nat} (h : s.Keeps q w) : (s.count64 o k).Keeps q w := by
  unfold State.count64
  exact h.setRg.setRg

theorem State.Keeps.setCh {n : Nat} {c : Chan} (h : s.Keeps q w) : (s.setCh n c).Keeps q w := by
  unfold State.setCh
  exact h.record

theorem State.Keeps.updCh {n : Nat} {f : Chan → Chan} (h : s.Keeps q w) : (s.updCh n f).Keeps q w := by
  unfold State.updCh
  exact h.setCh

theorem State.Keeps.injUse {f : Nat} (h : s.Keeps q w) : (s.injUse f).Keeps q w := by
  unfold State.injUse
  exact .ite h.setRg h

theorem State.Keeps.injGen {f chk : Nat} {unit : Option Nat} (h : s.Keeps q w) : (s.injGen f chk unit).Keeps q w := by
  unfold State.injGen
  exact .ite h.injUse h

theorem State.Keeps.memInj {a n : Nat} (h : s.Keeps q w) : (s.memInj a n).Keeps q w := by
  unfold State.memInj
  exact .ite h (.ite h.injUse.record h.injUse.record)

theorem State.Keeps.storeRaw {a : Nat} {bs : List Byte} (h : s.Keeps q w) : (s.storeRaw a bs).Keeps q w :=
  ⟨h.queue, fun hw => twf_tputs memDef s.mem a bs (h.canon hw)⟩

theorem State.Keeps.store {a : Nat} {bs : List Byte} (h : s.Keeps q w) : (s.store a bs).Keeps q w := by
  unfold State.store
  exact h.storeRaw.memInj

theorem State.Keeps.ueAt {w' : Nat} (h : s.Keeps q w) : (s.ueAt w').Keeps q w := by
  unfold State.ueAt
  exact .ite h.setRg h.setRg.setRg

theorem State.Keeps.unitRead {a n : Nat} (h : s.Keeps q w) : (s.unitRead a n).Keeps q w := by
  unfold State.unitRead
  exact .ite h.record h.record.ueAt

theorem State.Keeps.putGo {k a : Nat} {bs : List Byte} {bad : List Nat} (h : s.Keeps q w) :
    (State.putGo k s a bs bad).1.Keeps q w := by
  induction k generalizing s a bs bad with
  | zero => exact h
  | succ _ ih =>
    unfold State.putGo
    exact .iteFst h (.iteFst (ih h.ueAt) (ih h.store))

theorem State.Keeps.put {a : Nat} {bs : List Byte} (h : s.Keeps q w) : (s.put a bs).1.Keeps q w := by
  unfold State.put
  split
  · exact h.store
  · exact h.putGo

theorem State.Keeps.ddrMove {from_ to_ x : Nat} (h : s.Keeps q w) : (s.ddrMove from_ to_ x).Keeps q w := by
  unfold State.ddrMove
  exact .ite h.setRg h

theorem State.Keeps.ddrStart {x : Nat} (h : s.Keeps q w) : (s.ddrStart x).Keeps q w := by
  unfold State.ddrStart
  exact h.record

theorem State.Keeps.ddrWake {a : Nat} (h : s.Keeps q w) : (s.ddrWake a).Keeps q w := by
  unfold State.ddrWake
  exact .ite h.ddrStart.ddrMove h

theorem State.Keeps.each {f : State → Nat → State} {l : List Nat} (h : s.Keeps q w)
    (hf : ∀ t n, t.Keeps q w → (f t n).Keeps q w) : (s.each f l).Keeps q w := by
  induction l generalizing s with
  | nil => exact h
  | cons n _ ih => exact ih (hf s n h)

theorem State.Keeps.passed {c : Nat} (h : s.Keeps q w) : (s.passed c).Keeps q w := by
  unfold State.passed
  exact h.record

theorem State.Keeps.fireAt {kind inst cyc : Nat} {tag : Option Nat} (h : s.Keeps q w) : (s.fireAt kind inst cyc
    tag).Keeps q w := by
  unfold State.fireAt
  exact h.record

theorem State.Keeps.mtimeAdd {n : Nat} (h : s.Keeps q w) : (s.mtimeAdd n).Keeps q w := by
  unfold State.mtimeAdd
  exact h.setRg.setRg

theorem State.Keeps.mtimeShow (h : s.Keeps q w) : s.mtimeShow.Keeps q w := by
  unfold State.mtimeShow
  exact .ite h h.record.mtimeAdd

theorem State.Keeps.setCoreRegs {x : Nat} {r : CoreRegs} (h : s.Keeps q w) : (s.setCoreRegs x r).Keeps q w := by
  unfold State.setCoreRegs
  exact h.record

theorem State.Keeps.coreStart {x pc : Nat} (h : s.Keeps q w) : (s.coreStart x pc).Keeps q w := by
  unfold State.coreStart
  exact h.setCoreRegs.record

theorem State.Keeps.tickFires (h : s.Keeps q w) : s.tickFires.Keeps q w := by
  unfold State.tickFires
  exact .ite h.fireAt.record.fireAt h.fireAt

theorem State.Keeps.fireChAt {kind n k : Nat} (h : s.Keeps q w) : (s.fireChAt kind n k).Keeps q w := by
  unfold State.fireChAt
  exact .ite h h.fireAt

theorem State.Keeps.fireCh {kind n c : Nat} (h : s.Keeps q w) : (s.fireCh kind n c).Keeps q w := by
  unfold State.fireCh
  exact h.fireChAt

/-! Links (Sys2Proof/Machine/Link.lean). -/

theorem State.Keeps.setPortSt {p v : Nat} (h : s.Keeps q w) : (s.setPortSt p v).Keeps q w := by
  unfold State.setPortSt
  exact h.setRg

theorem State.Keeps.setPort {p : Nat} {v : Port} (h : s.Keeps q w) : (s.setPort p v).Keeps q w := by
  unfold State.setPort
  exact h.record

theorem State.Keeps.wire {p lseq : Nat} {f : Frame} {endOk : Bool} (h : s.Keeps q w) : (s.wire p lseq f endOk).Keeps q w
    := by
  unfold State.wire
  exact h.injGen.record

theorem State.Keeps.emit {p : Nat} {f : Frame} (h : s.Keeps q w) : (s.emit p f).Keeps q w := by
  unfold State.emit
  exact h.setPort.wire

theorem State.Keeps.emitBad {p : Nat} {f : Frame} (h : s.Keeps q w) : (s.emitBad p f).Keeps q w := by
  unfold State.emitBad
  exact h.setPort.wire

theorem State.Keeps.drop {p : Nat} (h : s.Keeps q w) : (s.drop p).Keeps q w := by
  unfold State.drop
  exact h.count

theorem State.Keeps.sendFrame {f : Frame} (h : s.Keeps q w) : (s.sendFrame f).Keeps q w := by
  unfold State.sendFrame
  exact .ite h.emit h

theorem State.Keeps.answer {dst tag status cause done : Nat} {data : List Byte} (h : s.Keeps q w) :
    (s.answer dst tag status cause done data).Keeps q w := by
  unfold State.answer
  exact h.sendFrame

theorem State.Keeps.topoOut {p : Nat} {up : Bool} (h : s.Keeps q w) : (s.topoOut p up).Keeps q w := by
  unfold State.topoOut
  exact .ite h.sendFrame h

theorem State.Keeps.fabPut {a : Nat} {bs : List Byte} (h : s.Keeps q w) : (s.fabPut a bs).Keeps q w := by
  unfold State.fabPut
  exact .ite h.put h.put.record

theorem State.Keeps.cqPut {tag status cause done user : Nat} (h : s.Keeps q w) : (s.cqPut tag status
    cause done user).Keeps q w := by
  unfold State.cqPut
  exact h.fabPut.setRg

theorem State.Keeps.finish {t : Txn} {status cause done : Nat} {data : List Byte} {keep : Option Nat} (h : s.Keeps q
    w) : (s.finish t status cause done data keep).Keeps q w := by
  unfold State.finish
  exact .ite h.record (State.Keeps.ite h h.fabPut).record.cqPut

theorem State.Keeps.loseTxns {p : Nat} {a : List Txn} (h : s.Keeps q w) : (s.loseTxns p a).Keeps q w := by
  induction a generalizing s p with
  | nil =>
    exact h
  | cons _ _ ih =>
    exact ih (State.Keeps.ite h.finish h)

theorem State.Keeps.loseFrame {f : Frame} (h : s.Keeps q w) : (s.loseFrame f).Keeps q w := by
  unfold State.loseFrame
  exact .ite (.ite h h.answer) h

theorem State.Keeps.loseFrames {a : List Sent} (h : s.Keeps q w) : (s.loseFrames a).Keeps q w := by
  induction a generalizing s with
  | nil =>
    exact h
  | cons _ _ ih =>
    exact ih h.loseFrame

theorem State.Keeps.linkLevel {p : Nat} (h : s.Keeps q w) : (s.linkLevel p).Keeps q w := by
  unfold State.linkLevel
  exact .ite h h.record

theorem State.Keeps.portDown {p to_ : Nat} (h : s.Keeps q w) : (s.portDown p to_).Keeps q w := by
  unfold State.portDown
  exact .ite (.ite h.setPortSt.setPort.flag.loseTxns.loseFrames.record.topoOut.record
      h.setPortSt.setPort.flag.loseTxns.loseFrames.record.topoOut.linkLevel) h.setPortSt.linkLevel

/-! Fault frames and fences (Sys2Proof/Machine/Flags.lean). -/

theorem State.Keeps.leAbort {n why : Nat} (h : s.Keeps q w) : (s.leAbort n why).Keeps q w := by
  unfold State.leAbort
  exact .ite h.setCh.setCr.cflag h

theorem State.Keeps.chanRegReset {n : Nat} (h : s.Keeps q w) : (s.chanRegReset n).Keeps q w := by
  unfold State.chanRegReset
  exact h.foldl (fun _ _ h => h.setBoth)

theorem State.Keeps.setTile {t : Nat} {v : Tile} (h : s.Keeps q w) : (s.setTile t v).Keeps q w := by
  unfold State.setTile
  exact h.record

theorem State.Keeps.setPsc {m : Nat} {v : Psc} (h : s.Keeps q w) : (s.setPsc m v).Keeps q w := by
  unfold State.setPsc
  exact h.record

theorem State.Keeps.calFree {t cyc : Nat} (h : s.Keeps q w) : (s.calFree t cyc).Keeps q w := by
  unfold State.calFree
  exact .ite (State.Keeps.ite h (.ite h.setPsc h)).setTile.fireAt (State.Keeps.ite h (.ite h.setPsc h)).setTile

theorem State.Keeps.calWhy {t why : Nat} (h : s.Keeps q w) : (s.calWhy t why).Keeps q w := by
  unfold State.calWhy
  exact h.setRg

theorem State.Keeps.calReject {t why : Nat} (h : s.Keeps q w) : (s.calReject t why).Keeps q w := by
  unfold State.calReject
  exact h.calWhy.flag.count.calFree.record

theorem State.Keeps.calAbandon {t : Nat} {n : Option Nat} (h : s.Keeps q w) : (s.calAbandon t n).Keeps q w := by
  unfold State.calAbandon
  refine .ite h ?_
  split
  · exact h.calReject
  · exact .ite h.calReject h

theorem State.Keeps.pipStep {t : Nat} (h : s.Keeps q w) : (s.pipStep t).Keeps q w := by
  unfold State.pipStep
  exact .ite h (.ite h.setTile.flag h.setTile)

theorem State.Keeps.safeEnd {n : Nat} (h : s.Keeps q w) : (s.safeEnd n).Keeps q w := by
  unfold State.safeEnd
  exact h.record

theorem State.Keeps.fenceChan {n : Nat} (h : s.Keeps q w) : (s.fenceChan n).Keeps q w := by
  unfold State.fenceChan
  exact .ite h (State.Keeps.ite (State.Keeps.ite h.ccount h.ccount.cflag.ccount).leAbort.setCr (State.Keeps.ite h.ccount
      h.ccount.cflag.ccount).leAbort).calAbandon.setCh.chanRegReset.safeEnd.pipStep

theorem State.Keeps.fenceChans {a : List Nat} (h : s.Keeps q w) : (s.fenceChans a).Keeps q w := by
  induction a generalizing s with
  | nil =>
    exact h
  | cons _ _ ih =>
    exact ih h.fenceChan

theorem State.Keeps.tileRegReset {t : Nat} (h : s.Keeps q w) : (s.tileRegReset t).Keeps q w := by
  unfold State.tileRegReset
  exact h.record

theorem State.Keeps.trimReload {n : Nat} (h : s.Keeps q w) : (s.trimReload n).Keeps q w := by
  unfold State.trimReload
  exact h.unitRead.updCh

theorem State.Keeps.trimReloads {a : List Nat} (h : s.Keeps q w) : (s.trimReloads a).Keeps q w := by
  induction a generalizing s with
  | nil =>
    exact h
  | cons _ _ ih =>
    exact ih h.trimReload

theorem State.Keeps.pscReset {a : List Nat} (h : s.Keeps q w) : (s.pscReset a).Keeps q w := by
  induction a generalizing s with
  | nil =>
    exact h
  | cons _ _ ih =>
    exact ih h.setPsc

theorem State.Keeps.tileReset {t : Nat} (h : s.Keeps q w) : (s.tileReset t).Keeps q w := by
  unfold State.tileReset
  exact (h.calAbandon.tileRegReset.setRg.pscReset.setTile.foldl (fun _ _ h => h.updCh)).record.trimReloads

theorem State.Keeps.fenceMark {u : Nat} (h : s.Keeps q w) : (s.fenceMark u).Keeps q w := by
  unfold State.fenceMark
  exact h.record

theorem State.Keeps.fenceTile {t : Nat} (h : s.Keeps q w) : (s.fenceTile t).Keeps q w := by
  unfold State.fenceTile
  exact .ite h h.fenceMark.fenceChans.tileReset

theorem State.Keeps.setCoreSt {x v : Nat} (h : s.Keeps q w) : (s.setCoreSt x v).Keeps q w := by
  unfold State.setCoreSt
  exact h.setRg

theorem State.Keeps.updFlag {mask why : Nat} (h : s.Keeps q w) : (s.updFlag mask why).Keeps q w := by
  unfold State.updFlag
  exact h.setRg.flag

theorem State.Keeps.updAbandon {x : Nat} (h : s.Keeps q w) : (s.updAbandon x).Keeps q w := by
  unfold State.updAbandon
  split
  · exact .ite h.store.updFlag.record h
  · exact h

theorem State.Keeps.blockRegReset {lo hi : Nat} {keep : List Nat} (h : s.Keeps q w) : (s.blockRegReset lo hi keep).Keeps q
    w := by
  unfold State.blockRegReset
  exact h.record

theorem State.Keeps.coreReset {x : Nat} (h : s.Keeps q w) : (s.coreReset x).Keeps q w := by
  unfold State.coreReset
  exact h.updAbandon.blockRegReset.setCoreRegs.record

/-- What a DDR5 channel held is lost, so that the bytes of other addresses stay in order. -/
theorem State.Keeps.ddrReset {x : Nat} (h : s.Keeps q w) : (s.ddrReset x).Keeps q w :=
  (h.memFilter fun a => !(decide (ddrBase + 137438953472 * x ≤ a) && decide (a < ddrBase + 137438953472 * x +
      137438953472))).blockRegReset

theorem State.Keeps.portReset {p : Nat} (h : s.Keeps q w) : (s.portReset p).Keeps q w := by
  unfold State.portReset
  exact h.setPort.setRg.record

theorem State.Keeps.fenceUnit {u : Nat} (h : s.Keeps q w) : (s.fenceUnit u).Keeps q w := by
  unfold State.fenceUnit
  exact .ite h (.ite h.fenceMark.ddrReset.setRg (.ite h.fenceMark.portDown.portReset.linkLevel
      h.fenceMark.coreReset.setCoreSt))

theorem State.Keeps.fence {u : Nat} (h : s.Keeps q w) : (s.fence u).Keeps q w := by
  unfold State.fence
  exact .ite h.fenceChan (.ite h.fenceTile h.fenceUnit)

theorem State.Keeps.coreOpen {x : Nat} (h : s.Keeps q w) : (s.coreOpen x).Keeps q w := by
  unfold State.coreOpen
  exact .ite h.setCoreSt (.ite h.setCoreSt.record h)

theorem State.Keeps.wakeCore {x : Nat} (h : s.Keeps q w) : (s.wakeCore x).Keeps q w := by
  unfold State.wakeCore
  refine .ite h.record ?_
  refine .ite ?_ h
  split
  · exact h.coreOpen
  · exact h.record

theorem State.Keeps.coresOpen (h : s.Keeps q w) : s.coresOpen.Keeps q w := by
  unfold State.coresOpen
  exact h.record.foldl (fun _ _ h => h.coreOpen)

theorem State.Keeps.wakeCores {a : List Nat} (h : s.Keeps q w) : (s.wakeCores a).Keeps q w := by
  induction a generalizing s with
  | nil =>
    exact h
  | cons _ _ ih =>
    exact ih h.wakeCore

theorem State.Keeps.coreNmi {x f : Nat} (h : s.Keeps q w) : (s.coreNmi x f).Keeps q w := by
  unfold State.coreNmi
  exact .ite h h.setCoreSt.setCoreRegs.record

theorem State.Keeps.nmis {f : Nat} {a : List Nat} (h : s.Keeps q w) : (s.nmis f a).Keeps q w := by
  induction a generalizing s f with
  | nil =>
    exact h
  | cons _ _ ih =>
    exact ih (State.Keeps.ite h.flag h.coreNmi)

theorem State.Keeps.tcmLost (h : s.Keeps q w) : s.tcmLost.Keeps q w := by
  unfold State.tcmLost
  split
  · exact h.storeRaw
  · exact h

theorem State.Keeps.chipReset {cause : Nat} (h : s.Keeps q w) : (s.chipReset cause).Keeps q w := by
  unfold State.chipReset
  exact h.tcmLost.record.setRg

theorem State.Keeps.register {f : Nat} {gs : List Regd} (h : s.Keeps q w) : (s.register f gs).Keeps q w := by
  unfold State.register
  split
  · exact h
  · dsimp only
    split
    · refine State.Keeps.chipReset ?_
      refine State.Keeps.setRg ?_
      refine State.Keeps.nmis ?_
      refine State.Keeps.foldl (.ite (h.flag.count.setRg.foldl (fun _ _ h => h.setRg.record)).record
          (h.flag.count.setRg.foldl (fun _ _ h => h.setRg.record))) (fun _ _ h => ?_)
      refine .ite ?_ h
      split
      · exact h.fence
      · exact h
    · refine State.Keeps.nmis ?_
      refine State.Keeps.foldl (.ite (h.flag.count.setRg.foldl (fun _ _ h => h.setRg.record)).record
          (h.flag.count.setRg.foldl (fun _ _ h => h.setRg.record))) (fun _ _ h => ?_)
      refine .ite ?_ h
      split
      · exact h.fence
      · exact h

theorem State.Keeps.reactVotes {f : Nat} {is : List Nat} (h : s.Keeps q w) : (s.reactVotes f is).Keeps q w := by
  unfold State.reactVotes
  exact .ite h h.record

theorem State.Keeps.report0 {f : Nat} {rs : List (Nat × Nat)} (h : s.Keeps q w) : (s.report0 f rs).Keeps q w := by
  unfold State.report0
  exact (State.Keeps.ite h h.count).reactVotes.register

theorem State.Keeps.onsets0 {f : Nat} {is : List Nat} (h : s.Keeps q w) : (s.onsets0 f is).Keeps q w := by
  unfold State.onsets0
  exact .ite h h.record.report0

theorem State.Keeps.onset0 {f i : Nat} (h : s.Keeps q w) : (s.onset0 f i).Keeps q w := by
  unfold State.onset0
  exact h.onsets0

theorem State.Keeps.drain {a : Nat} (h : s.Keeps q w) : (State.drain a s).Keeps q w := by
  induction a generalizing s with
  | zero =>
    exact h
  | succ _ ih =>
    unfold State.drain
    split
    · exact h
    · exact ih h.record.onsets0

theorem State.Keeps.settleFaults (h : s.Keeps q w) : s.settleFaults.Keeps q w := by
  unfold State.settleFaults
  exact h.drain

theorem State.Keeps.report {f : Nat} {rs : List (Nat × Nat)} (h : s.Keeps q w) : (s.report f rs).Keeps q w := by
  unfold State.report
  exact h.report0.settleFaults

theorem State.Keeps.fault {f i : Nat} (h : s.Keeps q w) : (s.fault f i).Keeps q w := by
  unfold State.fault
  exact h.report

theorem State.Keeps.cause {f i : Nat} (h : s.Keeps q w) : (s.cause f i).Keeps q w := by
  unfold State.cause
  exact .ite h h.record.fault

theorem State.Keeps.uncause {f i : Nat} (h : s.Keeps q w) : (s.uncause f i).Keeps q w := by
  unfold State.uncause
  exact h.record

theorem State.Keeps.complete {t : Txn} {status cause done : Nat} {data : List Byte} {keep : Option Nat} (h : s.Keeps
    q w) : (s.complete t status cause done data keep).Keeps q w := by
  unfold State.complete
  exact .ite h.finish h.finish.settleFaults

theorem State.Keeps.corePut {x a : Nat} {bs : List Byte} (h : s.Keeps q w) : (s.corePut x a bs).Keeps q w := by
  unfold State.corePut
  exact .ite h.put h.put.fault

theorem State.Keeps.voteFix {o : Nat} (h : s.Keeps q w) : (s.voteFix o).Keeps q w := by
  unfold State.voteFix
  split
  · exact h.record.fault
  · exact h.record

theorem State.Keeps.voteFixes {a : List Nat} (h : s.Keeps q w) : (s.voteFixes a).Keeps q w := by
  induction a generalizing s with
  | nil =>
    exact h
  | cons _ _ ih =>
    exact ih h.voteFix

theorem State.Keeps.votes {os : List Nat} (h : s.Keeps q w) : (s.votes os).Keeps q w := by
  unfold State.votes
  exact h.voteFixes

theorem State.Keeps.voteWrite {o : Nat} (h : s.Keeps q w) : (s.voteWrite o).Keeps q w := by
  unfold State.voteWrite
  split
  · exact h
  · exact .ite h.record.injGen.record h.record

/-! The law (Sys2Proof/Machine/Law.lean). -/

theorem State.Keeps.lawReads {n : Nat} (h : s.Keeps q w) : (s.lawReads n).Keeps q w := by
  unfold State.lawReads
  refine .ite h ?_
  dsimp only
  split
  · exact .ite (h.foldl (fun _ _ h => h.unitRead)) ((h.foldl (fun _ _ h => h.unitRead)).foldl (fun _ _ h => h.unitRead))
  · exact h.foldl (fun _ _ h => h.unitRead)

/-! Operands (Sys2Proof/Machine/Operands.lean). -/

theorem State.Keeps.calHolds {a : List Nat} (h : s.Keeps q w) : (s.calHolds a).Keeps q w := by
  induction a generalizing s with
  | nil =>
    exact h
  | cons _ _ ih =>
    exact ih h.record

theorem State.Keeps.askAgain {n o : Nat} (h : s.Keeps q w) : (s.askAgain n o).Keeps q w := by
  unfold State.askAgain
  exact h.record

/-! Range handover (Sys2Proof/Machine/Handover.lean). -/

theorem State.Keeps.exchange {n target : Nat} (h : s.Keeps q w) : (s.exchange n target).Keeps q w := by
  unfold State.exchange
  exact h.setCh.ccount.setCr

theorem State.Keeps.swapTo {n target why : Nat} {keepFb : Bool} (h : s.Keeps q w) : (s.swapTo n target why
    keepFb).Keeps q w := by
  unfold State.swapTo
  exact h.setCh.exchange.leAbort

theorem State.Keeps.setNotValid {n : Nat} (h : s.Keeps q w) : (s.setNotValid n).Keeps q w := by
  unfold State.setNotValid
  exact h.cflag.fault

theorem State.Keeps.hoDrop {n why : Nat} (h : s.Keeps q w) : (s.hoDrop n why).Keeps q w := by
  unfold State.hoDrop
  exact h.setCr.cflag.ccount.setCh

theorem State.Keeps.hoAbandon {n why : Nat} (h : s.Keeps q w) : (s.hoAbandon n why).Keeps q w := by
  unfold State.hoAbandon
  exact .ite h.hoDrop h.hoDrop.fault

theorem State.Keeps.hoInvalid {n : Nat} (h : s.Keeps q w) : (s.hoInvalid n).Keeps q w := by
  unfold State.hoInvalid
  exact h.cflag.hoDrop.report

theorem State.Keeps.reqRange {n : Nat} {volt : Bool} {g : Nat} (h : s.Keeps q w) : (s.reqRange n volt g).Keeps q w := by
  unfold State.reqRange
  exact h.updCh

theorem State.Keeps.hoStart {n : Nat} {volt : Bool} {g : Nat} (h : s.Keeps q w) : (s.hoStart n volt g).Keeps q w := by
  unfold State.hoStart
  exact .ite h h.setCh

theorem State.Keeps.hoTake {n : Nat} {blocked : Bool} {q' : Bool × Nat} (h : s.Keeps q w) : (s.hoTake n blocked q').Keeps q w :=
    by
  unfold State.hoTake
  exact .ite h.hoStart (.ite h (State.Keeps.ite h.ccount h).updCh)

theorem State.Keeps.hoTakeAll {n : Nat} {blocked : Bool} {a : List (Bool × Nat)} (h : s.Keeps q w) : (s.hoTakeAll n blocked
    a).Keeps q w := by
  induction a generalizing s n blocked with
  | nil =>
    exact h
  | cons _ _ ih =>
    exact ih h.hoTake

theorem State.Keeps.hoFinish {n : Nat} (h : s.Keeps q w) : (s.hoFinish n).Keeps q w := by
  unfold State.hoFinish
  exact .ite h.cflag.ccount.updCh h

theorem State.Keeps.hoEnd {n : Nat} (h : s.Keeps q w) : (s.hoEnd n).Keeps q w := by
  unfold State.hoEnd
  dsimp only
  split
  · exact .ite h h.hoAbandon
  · exact h

theorem State.Keeps.hoRequests {n : Nat} {was : HoSt} (h : s.Keeps q w) : (s.hoRequests n was).Keeps q w := by
  unfold State.hoRequests
  refine .ite h.setCh ?_
  refine State.Keeps.hoTakeAll ?_
  split
  · exact .ite h.setCh.updCh.hoStart h.setCh
  · exact h.setCh

theorem State.Keeps.endCompl {n : Nat} (h : s.Keeps q w) : (s.endCompl n).Keeps q w := by
  unfold State.endCompl
  exact .ite h.updCh.fireCh h

theorem State.Keeps.takeSwap {n : Nat} {q' : SwapReq} (h : s.Keeps q w) : (s.takeSwap n q').Keeps q w := by
  unfold State.takeSwap
  split
  · exact h
  · exact .ite h.updCh.swapTo h.updCh.setNotValid
  · exact .ite h.updCh.swapTo.updCh.cflag h.updCh.setNotValid
  · exact .ite h.swapTo.updCh h.hoInvalid
  · exact .ite h.swapTo.updCh.ccount.fireCh h.setNotValid
  · exact .ite h.swapTo.endCompl h.updCh.setNotValid
  · exact .ite h.updCh.swapTo.endCompl h.updCh.setNotValid
  · exact h.updCh.swapTo.endCompl

theorem State.Keeps.loseSwap {n : Nat} {q' : SwapReq} (h : s.Keeps q w) : (s.loseSwap n q').Keeps q w := by
  unfold State.loseSwap
  split
  · exact h
  · exact .ite h.ccount.updCh.hoAbandon h.ccount.updCh
  · exact h.ccount

theorem State.Keeps.loseAll {n : Nat} {a : List SwapReq} (h : s.Keeps q w) : (s.loseAll n a).Keeps q w := by
  induction a generalizing s n with
  | nil =>
    exact h
  | cons _ _ ih =>
    exact ih h.loseSwap

theorem State.Keeps.coldBank {n : Nat} (h : s.Keeps q w) : (s.coldBank n).Keeps q w := by
  unfold State.coldBank
  exact h.setCh

theorem State.Keeps.applyShd {n : Nat} (h : s.Keeps q w) : (s.applyShd n).Keeps q w := by
  unfold State.applyShd
  exact h.updCh

theorem State.Keeps.idleSwap {n target why : Nat} (h : s.Keeps q w) : (s.idleSwap n target why).Keeps q w := by
  unfold State.idleSwap
  exact h.updCh.exchange.leAbort

theorem State.Keeps.idleHandover {n : Nat} (h : s.Keeps q w) : (s.idleHandover n).Keeps q w := by
  unfold State.idleHandover
  exact .ite h.idleSwap.updCh h.hoInvalid

theorem State.Keeps.arbitrate {n : Nat} (h : s.Keeps q w) : (s.arbitrate n).Keeps q w := by
  unfold State.arbitrate
  refine State.Keeps.applyShd ?_
  refine State.Keeps.updCh ?_
  refine State.Keeps.updCh ?_
  refine .ite (.ite (State.Keeps.ite (.ite (State.Keeps.ite h.idleSwap.updCh h).loseSwap (State.Keeps.ite
      h.idleSwap.updCh h).idleHandover) (.ite h.idleSwap.updCh h)).ccount.coldBank (.ite (.ite (State.Keeps.ite
          h.idleSwap.updCh h).loseSwap (State.Keeps.ite h.idleSwap.updCh h).idleHandover) (.ite h.idleSwap.updCh h))) ?_
  split
  · exact h
  · exact h.takeSwap.loseAll

/-! Supervision (Sys2Proof/Machine/Supervise.lean). -/

theorem State.Keeps.clipped {n : Nat} {cur : Bool} {v : Int} (h : s.Keeps q w) : (s.clipped n cur v).1.Keeps q w := by
  unfold State.clipped
  exact .ite h.cflag h

theorem State.Keeps.rampStage {n : Nat} {y : Option Samp} (h : s.Keeps q w) : (s.rampStage n y).Keeps q w := by
  unfold State.rampStage
  exact State.Keeps.updCh (.iteFst (.ite (State.Keeps.iteFst h h.clipped).leAbort (.iteFst h h.clipped)) (.iteFst
    (State.Keeps.ite (State.Keeps.iteFst h h.clipped).leAbort (.iteFst h h.clipped)).clipped
    (.ite (State.Keeps.iteFst h h.clipped).leAbort (.iteFst h h.clipped))))

theorem State.Keeps.spStage {n : Nat} {y : Option Samp} (h : s.Keeps q w) : (s.spStage n y).Keeps q w := by
  unfold State.spStage
  exact .ite (State.Keeps.ite (State.Keeps.ite h h.rampStage).cflag (.ite h h.rampStage)).updCh (.ite h.clipped.updCh h)

theorem State.Keeps.satFlags {n : Nat} {ev : SatEv} (h : s.Keeps q w) : (s.satFlags n ev).Keeps q w := by
  unfold State.satFlags
  exact .ite h (State.Keeps.ite h.setRg h).flag.count.report

theorem State.Keeps.snapStage {n : Nat} {o : LawOut} (h : s.Keeps q w) : (s.snapStage n o).Keeps q w := by
  unfold State.snapStage
  split
  · exact h
  · exact .ite h (h.foldl (fun _ _ h => h.setCr)).setCr.setCr.setCr.setCr.updCh

theorem State.Keeps.missEval {n : Nat} (h : s.Keeps q w) : (s.missEval n).Keeps q w := by
  unfold State.missEval
  exact h.updCh

theorem State.Keeps.dropValid {n : Nat} {ks : List Nat} (h : s.Keeps q w) : (s.dropValid n ks).Keeps q w := by
  unfold State.dropValid
  exact h.updCh

theorem State.Keeps.coefEcc {n : Nat} {ks : List Nat} (h : s.Keeps q w) : (s.coefEcc n ks).Keeps q w := by
  unfold State.coefEcc
  exact h.dropValid.cflag.fault.missEval

theorem State.Keeps.evalStage {n : Nat} {b : BIn} {y : Option Samp} (h : s.Keeps q w) : (s.evalStage n b y).Keeps q w := by
  unfold State.evalStage
  refine .ite ?_ h
  split
  · exact h.missEval
  · exact .ite h.lawReads.coefEcc h.lawReads.updCh.snapStage.satFlags

theorem State.Keeps.cxStage {n : Nat} {y : Samp} (h : s.Keeps q w) : (s.cxStage n y).Keeps q w := by
  unfold State.cxStage
  exact .ite (.ite h.setCh h) (.ite (.ite h.setCh h.cflag) h)

theorem State.Keeps.offLimStage {n : Nat} {y : Samp} (h : s.Keeps q w) : (s.offLimStage n y).Keeps q w := by
  unfold State.offLimStage
  exact .ite h.cflag h

theorem State.Keeps.oscDetect {n : Nat} (h : s.Keeps q w) : (s.oscDetect n).Keeps q w := by
  unfold State.oscDetect
  refine .ite h.updCh.cflag.ccount.fault ?_
  split
  · exact .ite (.ite h.updCh.cflag.ccount.fault.fenceChan h.updCh.cflag.ccount.fault) h.updCh.cflag.ccount.fault.setCh
  · exact h.updCh.cflag.ccount.fault.fenceChan
  · exact h.updCh.cflag.ccount.fault

theorem State.Keeps.oscPass {n : Nat} (h : s.Keeps q w) : (s.oscPass n).Keeps q w := by
  unfold State.oscPass
  exact h.updCh

theorem State.Keeps.oscStage {n : Nat} {y : Samp} {blank : Bool} (h : s.Keeps q w) : (s.oscStage n y blank).Keeps q w := by
  unfold State.oscStage
  exact .ite h.setCh (.ite h.setCh.oscDetect h.setCh)

theorem State.Keeps.safeStage {n : Nat} {y : Samp} (h : s.Keeps q w) : (s.safeStage n y).Keeps q w := by
  unfold State.safeStage
  exact .ite h (.ite h.setCh.uncause h.setCh.cflag.cause)

theorem State.Keeps.leStage {n : Nat} {y : Option Samp} (h : s.Keeps q w) : (s.leStage n y).Keeps q w := by
  unfold State.leStage
  exact .ite h h.setCh

theorem State.Keeps.leBegin {n : Nat} (h : s.Keeps q w) : (s.leBegin n).Keeps q w := by
  unfold State.leBegin
  exact .ite h.setCh h

theorem State.Keeps.leRefuse {n why mask : Nat} (h : s.Keeps q w) : (s.leRefuse n why mask).Keeps q w := by
  unfold State.leRefuse
  exact h.setCr.cflag

theorem State.Keeps.leStart {n : Nat} (h : s.Keeps q w) : (s.leStart n).Keeps q w := by
  unfold State.leStart
  exact .ite h.leRefuse (.ite h.leRefuse (.ite h.leRefuse (.ite h.leRefuse h.setCh)))

theorem State.Keeps.leStop {n : Nat} (h : s.Keeps q w) : (s.leStop n).Keeps q w := by
  unfold State.leStop
  exact h.leAbort

theorem State.Keeps.leRunEnd {n : Nat} (h : s.Keeps q w) : (s.leRunEnd n).Keeps q w := by
  unfold State.leRunEnd
  exact .ite h.setCh h

theorem State.Keeps.leDone {n : Nat} (h : s.Keeps q w) : (s.leDone n).Keeps q w := by
  unfold State.leDone
  split
  · exact h
  · exact .ite h.setCr.setCr.setCr.setCr.updCh.cflag.setSh.askAgain h.setCr.setCr.setCr.setCr.updCh.cflag

theorem State.Keeps.leDue {n : Nat} (h : s.Keeps q w) : (s.leDue n).Keeps q w := by
  unfold State.leDue
  split
  · exact .ite h.leDone h
  · exact h

theorem State.Keeps.arStage {n : Nat} {y : Samp} (h : s.Keeps q w) : (s.arStage n y).Keeps q w := by
  unfold State.arStage
  exact .ite h.setCh h.setCh

theorem State.Keeps.arRequest {n : Nat} (h : s.Keeps q w) : (s.arRequest n).Keeps q w := by
  unfold State.arRequest
  refine .ite h ?_
  refine .ite ?_ ?_
  · dsimp only
    split
    · exact h.setCh.reqRange
    · exact h.setCh
  · refine .ite ?_ h
    dsimp only
    split
    · exact h.setCh.reqRange
    · exact h.setCh

theorem State.Keeps.hoSample {n : Nat} {b : BIn} {y : Option Samp} (h : s.Keeps q w) : (s.hoSample n b y).Keeps q w := by
  unfold State.hoSample
  dsimp only
  split
  · exact .ite (.ite h.setCh.updCh.updCh h.setCh.updCh) h.setCh
  · exact h.setCh
  · exact h.setCh
  · exact h

theorem State.Keeps.hoCheck {n : Nat} (h : s.Keeps q w) : (s.hoCheck n).Keeps q w := by
  unfold State.hoCheck
  exact .ite (.ite h.setCr.setCh h.setCr.setCh) h

theorem State.Keeps.oscWindow {n : Nat} (h : s.Keeps q w) : (s.oscWindow n).Keeps q w := by
  unfold State.oscWindow
  exact .ite h.setCh h

theorem State.Keeps.supStage {n : Nat} {y : Option Samp} (h : s.Keeps q w) : (s.supStage n y).Keeps q w := by
  unfold State.supStage
  split
  · exact h
  · exact .ite (State.Keeps.ite (.ite (State.Keeps.ite h.updCh.oscPass h.updCh).cxStage.oscStage (State.Keeps.ite
      h.updCh.oscPass h.updCh).cxStage) (.ite (State.Keeps.ite h.updCh.oscPass h.updCh).offLimStage (.ite h.updCh.oscPass
          h.updCh))).arStage (.ite (.ite (State.Keeps.ite h.updCh.oscPass h.updCh).cxStage.oscStage (State.Keeps.ite
          h.updCh.oscPass h.updCh).cxStage) (.ite (State.Keeps.ite h.updCh.oscPass h.updCh).offLimStage (.ite
          h.updCh.oscPass h.updCh)))

/-! The Rake (Sys2Proof/Machine/Rake.lean). -/

theorem State.Keeps.ringRead {n : Nat} (h : s.Keeps q w) : (s.ringRead n).Keeps q w := by
  unfold State.ringRead
  exact .ite h h.unitRead.setCh

theorem State.Keeps.readFirst {n : Nat} {d : Decision} (h : s.Keeps q w) : (s.readFirst n d).Keeps q w := by
  unfold State.readFirst
  split
  · exact h.ringRead
  · exact h.ringRead
  · exact h

theorem State.Keeps.rakeReads {n : Nat} {d : Decision} (h : s.Keeps q w) : (s.rakeReads n d).Keeps q w := by
  unfold State.rakeReads
  refine .ite h ?_
  split
  · split
    · exact (h.foldl (fun _ _ h => h.unitRead)).unitRead.unitRead
    · exact (h.foldl (fun _ _ h => h.unitRead)).unitRead
  · exact (h.foldl (fun _ _ h => h.unitRead)).unitRead
  · exact (h.foldl (fun _ _ h => h.unitRead)).unitRead
  · exact h.foldl (fun _ _ h => h.unitRead)

theorem State.Keeps.setDecision {n : Nat} {d : Decision} (h : s.Keeps q w) : (s.setDecision n d).Keeps q w := by
  unfold State.setDecision
  exact h.rakeReads.readFirst.updCh

theorem State.Keeps.pointEnd {n : Nat} (h : s.Keeps q w) : (s.pointEnd n).Keeps q w := by
  unfold State.pointEnd
  exact .ite (.ite (.ite h.setDecision h.setDecision) h.setDecision) h

theorem State.Keeps.waitEnd {n : Nat} (h : s.Keeps q w) : (s.waitEnd n).Keeps q w := by
  unfold State.waitEnd
  exact .ite h.setDecision h

theorem State.Keeps.waitTimeout {n : Nat} (h : s.Keeps q w) : (s.waitTimeout n).Keeps q w := by
  unfold State.waitTimeout
  refine .ite ?_ h
  split
  · exact .ite h.setDecision h.setDecision
  · exact h.setDecision
  · exact h.setDecision

theorem State.Keeps.segEnd {n : Nat} (h : s.Keeps q w) : (s.segEnd n).Keeps q w := by
  unfold State.segEnd
  exact .ite (.ite h.setDecision (.ite h.setDecision (.ite h.setDecision (.ite h.setDecision h.setDecision)))) h

theorem State.Keeps.granEnd {n : Nat} (h : s.Keeps q w) : (s.granEnd n).Keeps q w := by
  unfold State.granEnd
  refine .ite ?_ h
  refine .ite h.setDecision ?_
  refine .ite h.setDecision ?_
  split <;> exact h.setDecision

theorem State.Keeps.underrunResume {n : Nat} (h : s.Keeps q w) : (s.underrunResume n).Keeps q w := by
  unfold State.underrunResume
  exact .ite h.setDecision h

theorem State.Keeps.decideDue {n : Nat} (h : s.Keeps q w) : (s.decideDue n).Keeps q w := by
  unfold State.decideDue
  dsimp only
  split
  · exact .ite h.segEnd.granEnd h.pointEnd
  · exact h.waitEnd.waitTimeout
  · exact h.underrunResume
  · exact h

theorem State.Keeps.decideList {a : List Nat} (h : s.Keeps q w) : (s.decideList a).Keeps q w := by
  induction a generalizing s with
  | nil =>
    exact h
  | cons _ _ ih =>
    exact ih h.decideDue

theorem State.Keeps.decideAll (h : s.Keeps q w) : s.decideAll.Keeps q w := by
  unfold State.decideAll
  exact h.decideList

theorem State.Keeps.entryRange {n rc : Nat} (h : s.Keeps q w) : (s.entryRange n rc).Keeps q w := by
  unfold State.entryRange
  exact .ite h h.reqRange

theorem State.Keeps.entryMarks {n : Nat} {meas tout : Bool} {aper : Nat} (h : s.Keeps q w) : (s.entryMarks n meas tout
    aper).Keeps q w := by
  unfold State.entryMarks
  exact .ite (State.Keeps.ite h.fireCh h).updCh (.ite h.fireCh h)

theorem State.Keeps.beginEntry {n idx : Nat} {w' : List Nat} (h : s.Keeps q w) : (s.beginEntry n idx w').Keeps q w := by
  unfold State.beginEntry
  exact .ite h.setCh h.setCh.entryRange.entryMarks

theorem State.Keeps.backToRegs {n : Nat} (h : s.Keeps q w) : (s.backToRegs n).Keeps q w := by
  unfold State.backToRegs
  exact .ite (.ite (.ite h.setCh h.setCh.reqRange) (State.Keeps.ite h.setCh h.setCh.reqRange).reqRange) h

theorem State.Keeps.gapEnd {n : Nat} (h : s.Keeps q w) : (s.gapEnd n).Keeps q w := by
  unfold State.gapEnd
  exact h.count64.updCh

theorem State.Keeps.rakeStop {n why : Nat} (h : s.Keeps q w) : (s.rakeStop n why).Keeps q w := by
  unfold State.rakeStop
  exact (State.Keeps.ite h.gapEnd h).updCh.cflag.fireCh.backToRegs

theorem State.Keeps.entryFault {n idx reason : Nat} (h : s.Keeps q w) : (s.entryFault n idx reason).Keeps q w := by
  unfold State.entryFault
  exact h.setCr.cflag.rakeStop.fault

theorem State.Keeps.playGran {n : Nat} {smp : List Int} {streamed : Bool} (h : s.Keeps q w) : (s.playGran n smp streamed).Keeps
    q w := by
  unfold State.playGran
  exact (State.Keeps.ite h.setCr h).updCh

theorem State.Keeps.playRing {n : Nat} (h : s.Keeps q w) : (s.playRing n).Keeps q w := by
  unfold State.playRing
  split
  · exact h.updCh.playGran
  · exact h.entryFault
  · exact h

theorem State.Keeps.underrun {n : Nat} {first : Bool} (h : s.Keeps q w) : (s.underrun n first).Keeps q w := by
  unfold State.underrun
  exact .ite h.updCh.cflag.fireCh.ccount.fault.rakeStop h.updCh.cflag.fireCh.ccount.fault

theorem State.Keeps.repMarks {n : Nat} (h : s.Keeps q w) : (s.repMarks n).Keeps q w := by
  unfold State.repMarks
  exact h.updCh.entryMarks

theorem State.Keeps.playFirst {n : Nat} (h : s.Keeps q w) : (s.playFirst n).Keeps q w := by
  unfold State.playFirst
  split
  · exact h.repMarks.playRing
  · exact h.playRing

theorem State.Keeps.beginRep {n g : Nat} {enter : Bool} {left : Nat} {first : First} (h : s.Keeps q w) : (s.beginRep n g
    enter left first).Keeps q w := by
  unfold State.beginRep
  dsimp only
  split
  · exact (State.Keeps.ite h.setCh.entryRange h.setCh).repMarks.playGran
  · exact .ite (State.Keeps.ite h.setCh.entryRange h.setCh).underrun (State.Keeps.ite h.setCh.entryRange h.setCh).playFirst
  · exact (State.Keeps.ite h.setCh.entryRange h.setCh).underrun

theorem State.Keeps.resumePlay {n : Nat} (h : s.Keeps q w) : (s.resumePlay n).Keeps q w := by
  unfold State.resumePlay
  exact .ite h.gapEnd.playFirst h.gapEnd.updCh.playRing

theorem State.Keeps.applyDecision {n : Nat} {d : Decision} (h : s.Keeps q w) : (s.applyDecision n d).Keeps q w := by
  unfold State.applyDecision
  dsimp only
  split
  · exact (State.Keeps.ite (State.Keeps.ite (.ite h.fireCh h.fireCh.ccount) h).setCr (.ite (.ite h.fireCh h.fireCh.ccount)
      h)).updCh.beginEntry
  · exact (State.Keeps.ite (State.Keeps.ite (.ite h.fireCh h.fireCh.ccount) h).setCr (.ite (.ite h.fireCh h.fireCh.ccount)
      h)).updCh.beginRep
  · split
    · exact (State.Keeps.ite (State.Keeps.ite (.ite h.fireCh h.fireCh.ccount) h).setCr (.ite (.ite h.fireCh h.fireCh.ccount)
        h)).updCh.updCh.playGran
    · exact (State.Keeps.ite (State.Keeps.ite (.ite h.fireCh h.fireCh.ccount) h).setCr (.ite (.ite h.fireCh h.fireCh.ccount)
        h)).updCh.updCh.playRing
    · exact (State.Keeps.ite (State.Keeps.ite (.ite h.fireCh h.fireCh.ccount) h).setCr (.ite (.ite h.fireCh h.fireCh.ccount)
        h)).updCh.underrun
  · exact (State.Keeps.ite (State.Keeps.ite (.ite h.fireCh h.fireCh.ccount) h).setCr (.ite (.ite h.fireCh h.fireCh.ccount)
      h)).updCh.resumePlay
  · exact .ite (State.Keeps.ite (State.Keeps.ite (.ite h.fireCh h.fireCh.ccount) h).setCr (.ite (.ite h.fireCh
      h.fireCh.ccount) h)).updCh.rakeStop.cflag.fault (State.Keeps.ite (State.Keeps.ite (.ite h.fireCh h.fireCh.ccount)
          h).setCr (.ite (.ite h.fireCh h.fireCh.ccount) h)).updCh.rakeStop
  · exact (State.Keeps.ite (State.Keeps.ite (.ite h.fireCh h.fireCh.ccount) h).setCr (.ite (.ite h.fireCh h.fireCh.ccount)
      h)).updCh.entryFault

theorem State.Keeps.rakeRefuse {n why : Nat} (h : s.Keeps q w) : (s.rakeRefuse n why).Keeps q w := by
  unfold State.rakeRefuse
  exact h.setCr.cflag

theorem State.Keeps.rakeBegin {n : Nat} {act : Bool} (h : s.Keeps q w) : (s.rakeBegin n act).Keeps q w := by
  unfold State.rakeBegin
  exact .ite h.rakeRefuse (.ite h.rakeRefuse (.ite h.rakeRefuse (.ite h.rakeRefuse (.ite h.rakeRefuse (.ite
      h.setCr.setCh.rakeReads.readFirst.applyDecision h.setCr.setCh.rakeReads.applyDecision)))))

theorem State.Keeps.rakePause {n : Nat} {moved : Bool} (h : s.Keeps q w) : (s.rakePause n moved).Keeps q w := by
  unfold State.rakePause
  exact .ite h.updCh h.rakeRefuse

theorem State.Keeps.rakeResume {n : Nat} (h : s.Keeps q w) : (s.rakeResume n).Keeps q w := by
  unfold State.rakeResume
  exact .ite h.updCh h.rakeRefuse

theorem State.Keeps.rakeCollide {n a : Nat} (h : s.Keeps q w) : (s.rakeCollide n a).Keeps q w := by
  induction a generalizing s n with
  | zero =>
    exact h
  | succ _ ih =>
    exact ih h.rakeRefuse

theorem State.Keeps.rakeAdvance {n : Nat} (h : s.Keeps q w) : (s.rakeAdvance n).1.Keeps q w := by
  unfold State.rakeAdvance
  dsimp only
  split
  · split <;> exact h.setCh
  · exact h

theorem State.Keeps.rakeCount {n : Nat} {moved : Bool} (h : s.Keeps q w) : (s.rakeCount n moved).Keeps q w := by
  unfold State.rakeCount
  exact .ite h (.ite h.setCh h.setCh)

theorem State.Keeps.rakeLook {n : Nat} (h : s.Keeps q w) : (s.rakeLook n).Keeps q w := by
  unfold State.rakeLook
  exact (State.Keeps.ite (.ite h.ringRead (.ite h.updCh h)) h).updCh

theorem State.Keeps.rakeCheck {n : Nat} (h : s.Keeps q w) : (s.rakeCheck n).Keeps q w := by
  unfold State.rakeCheck
  exact .ite h.rakeRefuse h.setCh

theorem State.Keeps.rakeBoundary {n : Nat} {act : Bool} (h : s.Keeps q w) : (s.rakeBoundary n act).Keeps q w := by
  unfold State.rakeBoundary
  extract_lets c cmds rk s1 first s2 s3 st s4 s5 due
  have h1 : s1.Keeps q w := h.setCh
  have h2 : s2.Keeps q w := h1.rakeCollide
  have h3 : s3.Keeps q w := .ite h2.rakeStop h2
  have h4 : s4.Keeps q w := .ite h3.rakeStop h3
  have h5 : s5.Keeps q w := .ite h4.rakeResume h4
  have rest : ∀ {t : State} {m b : Bool} {c1 c3 c4 : Prop} [Decidable c1] [Decidable c3] [Decidable c4], t.Keeps q w →
      ((if c4 then (if c3 then (if c1 then t.rakePause n m else t).rakeBegin n act else if c1 then t.rakePause n m else
          t).rakeCheck n
        else if c3 then (if c1 then t.rakePause n m else t).rakeBegin n act else if c1 then t.rakePause n m else t).rakeCount
        n b).Keeps q w := by
    intro t m b c1 c3 c4 _ _ _ h6
    have h7 := State.Keeps.ite (c := c1) (h6.rakePause (n := n) (moved := m)) h6
    have h8 := State.Keeps.ite (c := c3) (h7.rakeBegin (n := n) (act := act)) h7
    exact State.Keeps.rakeCount (.ite h8.rakeCheck h8)
  clear_value due
  cases due with
  | some d => exact rest h5.applyDecision
  | none => exact rest h5.rakeAdvance

theorem State.Keeps.rakeLatch {n k : Nat} (h : s.Keeps q w) : (s.rakeLatch n k).Keeps q w := by
  unfold State.rakeLatch
  exact .ite h h.setCh

theorem State.Keeps.rakeJump {n : Nat} (h : s.Keeps q w) : (s.rakeJump n).Keeps q w := by
  unfold State.rakeJump
  exact .ite h (.ite h.ccount h.setCh)

theorem State.Keeps.checkDone {n : Nat} (h : s.Keeps q w) : (s.checkDone n).Keeps q w := by
  unfold State.checkDone
  refine .ite h ?_
  dsimp only
  split
  · exact (State.Keeps.ite h.setCh h.setCh.unitRead).setCr.cflag
  · exact (State.Keeps.ite h.setCh h.setCh.unitRead).updCh.cflag

theorem State.Keeps.segStale {n : Nat} (h : s.Keeps q w) : (s.segStale n).Keeps q w := by
  unfold State.segStale
  exact h.updCh

/-! Streaming (Sys2Proof/Machine/Stream.lean). -/

theorem State.Keeps.strLow {n old cyc : Nat} (h : s.Keeps q w) : (s.strLow n old cyc).Keeps q w := by
  unfold State.strLow
  exact .ite h.cflag.fireCh h

theorem State.Keeps.strWptr {n v : Nat} (h : s.Keeps q w) : (s.strWptr n v).Keeps q w := by
  unfold State.strWptr
  exact .ite h.setCr h.cflag

theorem State.Keeps.refillMove {n cyc : Nat} (h : s.Keeps q w) : (s.refillMove n cyc).Keeps q w := by
  unfold State.refillMove
  exact .ite (.ite h.record.ddrWake.unitRead.updCh.cflag.fault h.record.ddrWake.unitRead.store.setCr.strLow) h

theorem State.Keeps.strFlush {n : Nat} (h : s.Keeps q w) : (s.strFlush n).Keeps q w := by
  unfold State.strFlush
  exact h.setCr.updCh.strLow

theorem State.Keeps.flushCmd {n : Nat} (h : s.Keeps q w) : (s.flushCmd n).Keeps q w := by
  unfold State.flushCmd
  exact .ite h.strFlush h.cflag

theorem State.Keeps.retryCmd {n : Nat} (h : s.Keeps q w) : (s.retryCmd n).Keeps q w := by
  unfold State.retryCmd
  exact h.updCh

/-! Measurement (Sys2Proof/Machine/Measure.lean). -/

theorem State.Keeps.apWrite {n : Nat} {aborted : Bool} (h : s.Keeps q w) : (s.apWrite n aborted).Keeps q w := by
  unfold State.apWrite
  exact h.updCh

theorem State.Keeps.apSample {n : Nat} (h : s.Keeps q w) : (s.apSample n).Keeps q w := by
  unfold State.apSample
  exact h.setCh

theorem State.Keeps.apDelayEnd {n : Nat} (h : s.Keeps q w) : (s.apDelayEnd n).Keeps q w := by
  unfold State.apDelayEnd
  exact .ite h.apSample h

theorem State.Keeps.apEnd {n : Nat} (h : s.Keeps q w) : (s.apEnd n).Keeps q w := by
  unfold State.apEnd
  exact .ite h.apWrite h

theorem State.Keeps.apBegin {n desc : Nat} {rake : Bool} (h : s.Keeps q w) : (s.apBegin n desc rake).Keeps q w := by
  unfold State.apBegin
  exact h.setCh

theorem State.Keeps.apStart {n desc : Nat} {rake : Bool} (h : s.Keeps q w) : (s.apStart n desc rake).Keeps q w := by
  unfold State.apStart
  exact .ite h.cflag.ccount (.ite h.cflag.ccount h.apBegin)

theorem State.Keeps.apStarts {n : Nat} (h : s.Keeps q w) : (s.apStarts n).Keeps q w := by
  unfold State.apStarts
  dsimp only
  split
  · exact h.updCh
  · exact h.updCh.apStart.ccount

theorem State.Keeps.brnLose {n : Nat} {l : List BWord} (h : s.Keeps q w) : (s.brnLose n l).Keeps q w := by
  unfold State.brnLose
  exact (State.Keeps.ite h h.ccount.cflag).updCh

theorem State.Keeps.brnFlush {n : Nat} (h : s.Keeps q w) : (s.brnFlush n).Keeps q w := by
  unfold State.brnFlush
  exact .ite h.updCh.ddrWake.put.setCr h.updCh.brnLose

theorem State.Keeps.brnWord {n : Nat} {w' : BWord} (h : s.Keeps q w) : (s.brnWord n w').Keeps q w := by
  unfold State.brnWord
  exact .ite h.brnLose (.ite h.updCh.brnFlush h.updCh)

theorem State.Keeps.brnWords {n : Nat} {a : List BWord} (h : s.Keeps q w) : (s.brnWords n a).Keeps q w := by
  induction a generalizing s n with
  | nil =>
    exact h
  | cons _ _ ih =>
    exact ih h.brnWord

theorem State.Keeps.brnPad {n : Nat} (h : s.Keeps q w) : (s.brnPad n).Keeps q w := by
  unfold State.brnPad
  exact .ite h h.updCh.brnFlush

theorem State.Keeps.brnTimeout {n : Nat} (h : s.Keeps q w) : (s.brnTimeout n).Keeps q w := by
  unfold State.brnTimeout
  exact .ite h.brnPad h

theorem State.Keeps.brnSample {n : Nat} {v ia ib : BitVec 20} {miss : Bool} (h : s.Keeps q w) :
    (s.brnSample n v ia ib miss).Keeps q w := by
  unfold State.brnSample
  exact h.updCh.brnWords

theorem State.Keeps.brnGapOnly {n : Nat} (h : s.Keeps q w) : (s.brnGapOnly n).Keeps q w := by
  unfold State.brnGapOnly
  exact .ite h h.updCh.brnWords

theorem State.Keeps.brnEnd {n : Nat} (h : s.Keeps q w) : (s.brnEnd n).Keeps q w := by
  unfold State.brnEnd
  exact .ite h.brnPad.updCh h

theorem State.Keeps.brnStage {n : Nat} {own : Bool} {v ia ib : BitVec 20} {miss : Bool} (h :
    s.Keeps q w) : (s.brnStage n own v ia ib miss).Keeps q w := by
  unfold State.brnStage
  exact .ite h.brnEnd (.ite h.brnSample (.ite h.brnGapOnly h))

theorem State.Keeps.gapRecord {n : Nat} (h : s.Keeps q w) : (s.gapRecord n).Keeps q w := by
  unfold State.gapRecord
  dsimp only
  split
  · exact h
  · exact h.setCh

theorem State.Keeps.apBoundary {n : Nat} (h : s.Keeps q w) : (s.apBoundary n).Keeps q w := by
  unfold State.apBoundary
  exact .ite (State.Keeps.ite h.apWrite h).updCh.apStarts.apSample (.ite (State.Keeps.ite h.apWrite
      h).updCh.apStarts.apSample (State.Keeps.ite h.apWrite h).updCh.apStarts)

theorem State.Keeps.pansPut {n : Nat} {r : Rec} (h : s.Keeps q w) : (s.pansPut n r).Keeps q w := by
  unfold State.pansPut
  exact h.store.setCr.updCh

theorem State.Keeps.pansWm {n old cyc : Nat} (h : s.Keeps q w) : (s.pansWm n old cyc).Keeps q w := by
  unfold State.pansWm
  exact .ite h.cflag.fireCh h

theorem State.Keeps.pansDrop {n : Nat} {r : Rec} (h : s.Keeps q w) : (s.pansDrop n r).Keeps q w := by
  unfold State.pansDrop
  exact h.cflag.ccount.updCh

theorem State.Keeps.pansLostRec {n : Nat} (h : s.Keeps q w) : (s.pansLostRec n).Keeps q w := by
  unfold State.pansLostRec
  exact .ite h h.pansPut.updCh

theorem State.Keeps.recWrite {n cyc : Nat} (h : s.Keeps q w) : (s.recWrite n cyc).Keeps q w := by
  unfold State.recWrite
  dsimp only
  split
  · exact h
  · exact .ite h.setCh.ccount (.ite h.setCh.pansDrop (.ite h.setCh.pansLostRec.pansDrop.pansWm (.ite
      h.setCh.pansLostRec.pansPut (State.Keeps.ite h.setCh.pansLostRec.pansPut.fireCh h.setCh.pansLostRec.pansPut).pansWm)))

theorem State.Keeps.recsWrite {n : Nat} {l : List Rec} {cyc : Nat} (h : s.Keeps q w) : (s.recsWrite n l cyc).Keeps q w := by
  induction l generalizing s n cyc with
  | nil =>
    exact h
  | cons _ _ ih =>
    exact ih h.recWrite

theorem State.Keeps.recsSettle {n z : Nat} {a : List Rec} (h : s.Keeps q w) : (s.recsSettle n z a).Keeps q w := by
  induction a generalizing s n z with
  | nil =>
    exact h
  | cons _ _ ih =>
    exact .ite (ih h.recWrite) h

theorem State.Keeps.gapLate {n : Nat} (h : s.Keeps q w) : (s.gapLate n).Keeps q w := by
  unfold State.gapLate
  exact .ite h h.gapRecord.recsWrite.brnGapOnly.updCh

theorem State.Keeps.measStage {n : Nat} {v ia ib : BitVec 20} {y : Option Samp} (h : s.Keeps q w)
    : (s.measStage n v ia ib y).Keeps q w := by
  unfold State.measStage
  exact (State.Keeps.ite h.setCh.gapRecord.recsWrite h.setCh.gapRecord).apBoundary.brnStage.updCh

theorem State.Keeps.spillMove {n : Nat} (h : s.Keeps q w) : (s.spillMove n).Keeps q w := by
  unfold State.spillMove
  exact .ite (State.Keeps.ite (State.Keeps.ite h.ddrWake.unitRead h.ddrWake.unitRead.put).setCr.fireCh (State.Keeps.ite
      h.ddrWake.unitRead h.ddrWake.unitRead.put).setCr).pansWm h

theorem State.Keeps.rptrWrite {n rel top v : Nat} (h : s.Keeps q w) : (s.rptrWrite n rel top v).Keeps q w :=
    by
  unfold State.rptrWrite
  exact .ite h.setCr h.cflag

theorem State.Keeps.pansRptr {n v : Nat} (h : s.Keeps q w) : (s.pansRptr n v).Keeps q w := by
  unfold State.pansRptr
  exact h.rptrWrite

theorem State.Keeps.brnRptr {n v : Nat} (h : s.Keeps q w) : (s.brnRptr n v).Keeps q w := by
  unfold State.brnRptr
  exact h.rptrWrite

theorem State.Keeps.measGo {n desc : Nat} (h : s.Keeps q w) : (s.measGo n desc).Keeps q w := by
  unfold State.measGo
  exact h.updCh

theorem State.Keeps.measAbort {n : Nat} (h : s.Keeps q w) : (s.measAbort n).Keeps q w := by
  unfold State.measAbort
  exact h.updCh

theorem State.Keeps.crossAll {a : List Nat} (h : s.Keeps q w) : (s.crossAll a).Keeps q w := by
  induction a generalizing s with
  | nil =>
    exact h
  | cons _ _ ih =>
    exact ih (State.Keeps.ite h.updCh h)

theorem State.Keeps.lineCfg {t new : Nat} (h : s.Keeps q w) : (s.lineCfg t new).Keeps q w := by
  unfold State.lineCfg
  exact .ite h.setRg h.setRg.record.setRg

theorem State.Keeps.lineCross {t dt : Nat} (h : s.Keeps q w) : (s.lineCross t dt).Keeps q w := by
  unfold State.lineCross
  exact .ite h (.ite h.record.crossAll (State.Keeps.ite h.record h.record.setRg).crossAll)

/-! Access (Sys2Proof/Machine/Access.lean). -/

theorem State.Keeps.busErr {r : Req} {wr : Bool} {w' addr c : Nat} (h : s.Keeps q w) : (s.busErr r wr w' addr
    c).Keeps q w := by
  unfold State.busErr
  split
  · exact .ite h.setRg.setRg.setRg.fault.fault h.setRg.setRg.setRg.fault.fault.record
  · exact h.setRg.setRg.setRg.fault

theorem State.Keeps.guardErr {o : Nat} (h : s.Keeps q w) : (s.guardErr o).Keeps q w := by
  unfold State.guardErr
  exact h.setRg.fault

theorem State.Keeps.pairDrop {r : Req} {o : Nat} (h : s.Keeps q w) : (s.pairDrop r o).Keeps q w := by
  unfold State.pairDrop
  exact .ite h.record.guardErr h

theorem State.Keeps.viaReg {a : Acc} {o v : Nat} {eff : State → State} (h : s.Keeps q w) (heff : ∀ t, t.Keeps q w → (eff
    t).Keeps q w) : Answers q w (s.viaReg a o v eff) := by
  unfold State.viaReg
  split
  · exact h.busErr.next
  · exact (heff _ h).next

theorem State.Keeps.viaGrd {a : Acc} {o v : Nat} {eff : State → State} (h : s.Keeps q w) (heff : ∀ t, t.Keeps q w → (eff
    t).Keeps q w) : Answers q w (s.viaGrd a o v eff) := by
  unfold State.viaGrd
  exact h.viaReg (fun _ h => heff _ h.pairDrop)

/-! Channels (Sys2Proof/Machine/Channel.lean). -/

theorem State.Keeps.cmdRefuse {n code why : Nat} (h : s.Keeps q w) : (s.cmdRefuse n code why).Keeps q w := by
  unfold State.cmdRefuse
  exact h.setCr.cflag

theorem State.Keeps.chanCmd {n code : Nat} (h : s.Keeps q w) : (s.chanCmd n code).Keeps q w := by
  unfold State.chanCmd
  exact .ite h (.ite h.cmdRefuse h.setCr.updCh)

theorem State.Keeps.freeSlot {n : Nat} (h : s.Keeps q w) : (s.freeSlot n).Keeps q w := by
  unfold State.freeSlot
  exact h.updCh

theorem State.Keeps.pscSee {k cyc : Nat} {a : List Nat} (h : s.Keeps q w) : (s.pscSee k cyc a).Keeps q w := by
  induction a generalizing s k cyc with
  | nil =>
    exact h
  | cons _ _ ih =>
    exact ih h.setPsc

theorem State.Keeps.pwmEdge {n k : Nat} {up : Bool} {c : Nat} (h : s.Keeps q w) : (s.pwmEdge n k up c).Keeps q w := by
  unfold State.pwmEdge
  exact h.updCh.fireChAt.pscSee

theorem State.Keeps.pwmTo {n k : Nat} {up : Bool} {c : Nat} (h : s.Keeps q w) : (s.pwmTo n k up c).Keeps q w := by
  unfold State.pwmTo
  exact .ite h.updCh h.pwmEdge

theorem State.Keeps.pwmOut {n k on per c : Nat} (h : s.Keeps q w) : (s.pwmOut n k on per c).Keeps q w
    := by
  unfold State.pwmOut
  exact h.pwmTo.updCh

theorem State.Keeps.pwmFall {z n k : Nat} (h : s.Keeps q w) : (s.pwmFall z n k).Keeps q w := by
  unfold State.pwmFall
  split
  · exact .ite h.pwmEdge h
  · exact h

theorem State.Keeps.pwmFalls {z : Nat} {a : List Nat} (h : s.Keeps q w) : (s.pwmFalls z a).Keeps q w := by
  induction a generalizing s z with
  | nil =>
    exact h
  | cons _ _ ih =>
    exact ih h.pwmFall.pwmFall

theorem State.Keeps.pwmLow {n : Nat} (h : s.Keeps q w) : (s.pwmLow n).Keeps q w := by
  unfold State.pwmLow
  exact h.pwmTo.pwmTo

theorem State.Keeps.toOff {n : Nat} (h : s.Keeps q w) : (s.toOff n).Keeps q w := by
  unfold State.toOff
  exact .ite (.ite h.leAbort.endCompl.pwmLow.hoAbandon h.leAbort.endCompl.pwmLow) (State.Keeps.ite (State.Keeps.ite
      h.leAbort.endCompl.pwmLow.hoAbandon h.leAbort.endCompl.pwmLow).setCr (.ite h.leAbort.endCompl.pwmLow.hoAbandon
          h.leAbort.endCompl.pwmLow)).updCh.safeEnd.freeSlot

theorem State.Keeps.toArmed {n : Nat} (h : s.Keeps q w) : (s.toArmed n).Keeps q w := by
  unfold State.toArmed
  exact h.leAbort.endCompl.updCh

theorem State.Keeps.offRamp {n code : Nat} (h : s.Keeps q w) : (s.offRamp n code).Keeps q w := by
  unfold State.offRamp
  exact h.updCh

theorem State.Keeps.armCal {n : Nat} (h : s.Keeps q w) : (s.armCal n).Keeps q w := by
  unfold State.armCal
  exact .ite h (.ite h.calHolds.record h.calHolds.record.report)

theorem State.Keeps.cmdApply {n code : Nat} {ramp : Bool} (h : s.Keeps q w) : (s.cmdApply n code ramp).Keeps q w := by
  unfold State.cmdApply
  dsimp only
  split
  · exact .ite h.cmdRefuse h.setCh.armCal
  · exact h.setCh
  · exact .ite h.offRamp h.toArmed
  · exact .ite h.offRamp h.toOff
  · exact h.toOff
  · exact h.setCh
  · exact h.toOff
  · exact h

theorem State.Keeps.cmdsApply {n : Nat} (h : s.Keeps q w) : (s.cmdsApply n).Keeps q w := by
  unfold State.cmdsApply
  dsimp only
  split
  · exact h
  · exact .ite h.ccount.setCr.updCh.cmdApply.freeSlot h.ccount.setCr.updCh.cmdApply

theorem State.Keeps.offRampDone {n : Nat} (h : s.Keeps q w) : (s.offRampDone n).Keeps q w := by
  unfold State.offRampDone
  dsimp only
  split
  · exact .ite h.record.hoFinish.cmdApply.record h
  · exact h

theorem State.Keeps.unfenceStep {n : Nat} (h : s.Keeps q w) : (s.unfenceStep n).Keeps q w := by
  unfold State.unfenceStep
  exact .ite h.setCh h

theorem State.Keeps.chanReset {n : Nat} (h : s.Keeps q w) : (s.chanReset n).Keeps q w := by
  unfold State.chanReset
  exact .ite h.updCh.chanRegReset.strFlush.setCr.setCr.updCh h.cflag

theorem State.Keeps.offBegin {n : Nat} (h : s.Keeps q w) : (s.offBegin n).Keeps q w := by
  unfold State.offBegin
  exact h.leAbort.endCompl.updCh

theorem State.Keeps.dispStep {n : Nat} (h : s.Keeps q w) : (s.dispStep n).Keeps q w := by
  unfold State.dispStep
  exact .ite h (State.Keeps.ite h.offBegin h).ccount.setCh

theorem State.Keeps.modeStep {n : Nat} (h : s.Keeps q w) : (s.modeStep n).Keeps q w := by
  unfold State.modeStep
  exact .ite h.setCh h.setCh

theorem State.Keeps.rngStep {n : Nat} (h : s.Keeps q w) : (s.rngStep n).Keeps q w := by
  unfold State.rngStep
  exact .ite (State.Keeps.ite h.hoAbandon h).updCh h

theorem State.Keeps.pinStep {n : Nat} (h : s.Keeps q w) : (s.pinStep n).Keeps q w := by
  unfold State.pinStep
  dsimp only
  split
  · exact h
  · exact .ite h h.setCh
  · exact h.setCh
  · exact h.setCh

theorem State.Keeps.railStep {n : Nat} {y : Option Samp} (h : s.Keeps q w) : (s.railStep n y).Keeps q w := by
  unfold State.railStep
  exact .ite h.setCh h

theorem State.Keeps.railSettle {n : Nat} (h : s.Keeps q w) : (s.railSettle n).Keeps q w := by
  unfold State.railSettle
  exact .ite h.setCh h

theorem State.Keeps.pwmPeriod {n : Nat} (h : s.Keeps q w) : (s.pwmPeriod n).Keeps q w := by
  unfold State.pwmPeriod
  exact .ite h (.ite h.setCh (.ite h.setCh h.setCh))

theorem State.Keeps.pwmBegin {n cyc : Nat} (h : s.Keeps q w) : (s.pwmBegin n cyc).Keeps q w := by
  unfold State.pwmBegin
  exact .ite h h.pwmFall.pwmFall.pwmPeriod.pwmOut.pwmOut

theorem State.Keeps.gtOut {n k m : Nat} (h : s.Keeps q w) : (s.gtOut n k m).Keeps q w := by
  unfold State.gtOut
  exact .ite h.pwmTo h

theorem State.Keeps.gtLevel {n : Nat} (h : s.Keeps q w) : (s.gtLevel n).Keeps q w := by
  unfold State.gtLevel
  exact .ite h.setCh.gtOut.gtOut h

theorem State.Keeps.railWrite {n rel v : Nat} (h : s.Keeps q w) : (s.railWrite n rel v).Keeps q w := by
  unfold State.railWrite
  exact .ite h h.setCr

theorem State.Keeps.setStale {n k : Nat} {written : Bool} (h : s.Keeps q w) : (s.setStale n k written).Keeps q w := by
  unfold State.setStale
  exact h.updCh

theorem State.Keeps.verify {n k : Nat} (h : s.Keeps q w) : (s.verify n k).Keeps q w := by
  unfold State.verify
  exact .ite h.cflag h.setCh.setCr

theorem State.Keeps.invalidate {n k : Nat} (h : s.Keeps q w) : (s.invalidate n k).Keeps q w := by
  unfold State.invalidate
  exact .ite h.cflag (.ite h.setCr.cflag h.setCr.setStale)

theorem State.Keeps.verifyDone {n : Nat} (h : s.Keeps q w) : (s.verifyDone n).Keeps q w := by
  unfold State.verifyDone
  split
  · exact h
  · exact .ite h.unitRead.updCh.setCr.updCh.cflag (State.Keeps.ite h.unitRead.updCh.setCr.setStale
      h.unitRead.updCh.setCr).setCr.cflag

theorem State.Keeps.snapCmd {n : Nat} (h : s.Keeps q w) : (s.snapCmd n).Keeps q w := by
  unfold State.snapCmd
  dsimp only
  split
  · exact h
  · exact h.setCr.updCh

theorem execEnable_answers {a : Acc} {n : ChanId} (h : s.Keeps q w) : Answers q w (execEnable a n s) := by
  unfold execEnable
  exact h.viaReg (fun _ h => h.chanCmd)

theorem execDisable_answers {a : Acc} {n : ChanId} (h : s.Keeps q w) : Answers q w (execDisable a n s) := by
  unfold execDisable
  exact h.viaReg (fun _ h => h.chanCmd)

theorem execDisarm_answers {a : Acc} {n : ChanId} (h : s.Keeps q w) : Answers q w (execDisarm a n s) := by
  unfold execDisarm
  exact h.viaReg (fun _ h => h.chanCmd)

theorem execServiceEnter_answers {a : Acc} {n : ChanId} (h : s.Keeps q w) : Answers q w (execServiceEnter a n s) := by
  unfold execServiceEnter
  exact h.viaReg (fun _ h => h.chanCmd)

theorem execServiceLeave_answers {a : Acc} {n : ChanId} (h : s.Keeps q w) : Answers q w (execServiceLeave a n s) := by
  unfold execServiceLeave
  exact h.viaReg (fun _ h => h.chanCmd)

theorem execChnCmdReserved_answers {a : Acc} {n : ChanId} {code : BitVec 4} (h : s.Keeps q w) : Answers q w
    (execChnCmdReserved a n code s) := by
  unfold execChnCmdReserved
  exact h.viaReg (fun _ h => h.chanCmd)

theorem execChannelReset_answers {a : Acc} {n : ChanId} (h : s.Keeps q w) : Answers q w (execChannelReset a n s) := by
  unfold execChannelReset
  exact h.viaGrd (fun _ h => h.chanReset)

theorem execRailWrite_answers {a : Acc} {n : ChanId} {r : RailReg} {v : Word} (h : s.Keeps q w) : Answers q w (execRailWrite
    a n r v s) := by
  unfold execRailWrite
  exact h.viaReg (fun _ h => .ite h.railWrite.voteWrite h.railWrite)

theorem execVerify_answers {a : Acc} {n : ChanId} {k : SetId} (h : s.Keeps q w) : Answers q w (execVerify a n k s) := by
  unfold execVerify
  exact h.viaReg (fun _ h => h.verify)

theorem execInvalidate_answers {a : Acc} {n : ChanId} {k : SetId} (h : s.Keeps q w) : Answers q w (execInvalidate a n k s)
    := by
  unfold execInvalidate
  exact h.viaReg (fun _ h => h.invalidate)

theorem execSnap_answers {a : Acc} {n : ChanId} (h : s.Keeps q w) : Answers q w (execSnap a n s) := by
  unfold execSnap
  exact h.viaReg (fun _ h => h.snapCmd)

theorem execVerifyDone_answers {n : ChanId} (h : s.Keeps q w) : Answers q w (execVerifyDone n s) := by
  unfold execVerifyDone
  exact h.verifyDone.next

theorem execRailSettleEnd_answers {n : ChanId} (h : s.Keeps q w) : Answers q w (execRailSettleEnd n s) := by
  unfold execRailSettleEnd
  exact h.railSettle.next

theorem execPwmPeriod_answers {n : ChanId} {cyc : Cycle} (h : s.Keeps q w) : Answers q w (execPwmPeriod n cyc s) := by
  unfold execPwmPeriod
  exact h.pwmBegin.passed.next

theorem execOffRampComplete_answers {n : ChanId} (h : s.Keeps q w) : Answers q w (execOffRampComplete n s) := by
  unfold execOffRampComplete
  exact h.offRampDone.next

/-! Update groups (Sys2Proof/Machine/Update.lean). -/

theorem State.Keeps.stage {n : Nat} {f : State → State} (h : s.Keeps q w) (hf : ∀ t, t.Keeps q w → (f t).Keeps q w) : (s.stage
    n f).Keeps q w := by
  unfold State.stage
  exact .ite h (hf _ h)

theorem State.Keeps.errAct {n : Nat} (h : s.Keeps q w) : (s.errAct n).Keeps q w := by
  unfold State.errAct
  exact .ite h.updCh.cmdApply h.updCh

theorem State.Keeps.bdHead {n : Nat} (h : s.Keeps q w) : (s.bdHead n).Keeps q w := by
  unfold State.bdHead
  exact (((((((h.stage (fun _ h => h.hoFinish)).stage (fun _ h => h.cmdsApply)).stage (fun _ h => h.rakeBoundary)).stage
      (fun _ h => h.errAct)).stage (fun _ h => h.modeStep)).stage (fun _ h => h.dispStep)).stage (fun _ h =>
          h.rngStep)).stage (fun _ h => h.hoEnd)

theorem State.Keeps.selfClear {again a : List Nat} (h : s.Keeps q w) : (s.selfClear again a).Keeps q w := by
  induction a generalizing s again with
  | nil =>
    exact h
  | cons _ _ ih =>
    exact ih (State.Keeps.ite (State.Keeps.ite h.setSh h).setSh (.ite h.setSh h))

theorem State.Keeps.strobeReject {g rej res : Nat} {mine again : List Nat} (h : s.Keeps q w) :
    (s.strobeReject g rej res mine again).Keeps q w := by
  unfold State.strobeReject
  exact (State.Keeps.ite h.setRg.setRg h.setRg).flag.selfClear

theorem State.Keeps.setStrobe {g : Nat} {v : Option Strobe} (h : s.Keeps q w) : (s.setStrobe g v).Keeps q w := by
  unfold State.setStrobe
  exact h.record

theorem State.Keeps.reserve {a : List (Nat × Nat × Nat)} (h : s.Keeps q w) : (s.reserve a).Keeps q w := by
  induction a generalizing s with
  | nil =>
    exact h
  | cons _ _ ih =>
    exact ih h.updCh

theorem State.Keeps.strobeLatch {g : Nat} (h : s.Keeps q w) : (s.strobeLatch g).Keeps q w := by
  unfold State.strobeLatch
  refine .ite h.strobeReject ?_
  dsimp only
  split
  · exact h.strobeReject
  · exact h.setStrobe.reserve

theorem State.Keeps.strobeLatches {c : Nat} {a : List Nat} (h : s.Keeps q w) : (s.strobeLatches c a).Keeps q w := by
  induction a generalizing s c with
  | nil =>
    exact h
  | cons _ _ ih =>
    exact ih (State.Keeps.ite h.count h.record.strobeLatch)

theorem State.Keeps.applyVals {a : List (Nat × Word)} (h : s.Keeps q w) : (s.applyVals a).Keeps q w := by
  induction a generalizing s with
  | nil =>
    exact h
  | cons _ _ ih =>
    exact ih h.setRg

theorem State.Keeps.strobeBank {o : State} {n : Nat} {vals : List (Nat × Word)} (h : s.Keeps q w) : (s.strobeBank o n
    vals).Keeps q w := by
  unfold State.strobeBank
  split
  · exact h
  · exact h.updCh

theorem State.Keeps.strobeRng {n : Nat} (h : s.Keeps q w) : (s.strobeRng n).Keeps q w := by
  unfold State.strobeRng
  exact .ite h (.ite (State.Keeps.ite h.reqRange h).reqRange (.ite h.reqRange h))

theorem State.Keeps.strobeSmp {o : State} {n : Nat} (h : s.Keeps q w) : (s.strobeSmp o n).Keeps q w := by
  unfold State.strobeSmp
  exact .ite h h.updCh

theorem State.Keeps.strobeChan {o : State} {n : Nat} {vals : List (Nat × Word)} (h : s.Keeps q w) : (s.strobeChan o n
    vals).Keeps q w := by
  unfold State.strobeChan
  refine State.Keeps.gtLevel ?_
  refine State.Keeps.strobeSmp ?_
  refine State.Keeps.strobeRng ?_
  refine .ite ?_ ?_
  · refine State.Keeps.brnEnd ?_
    refine .ite ?_ ?_
    · refine State.Keeps.segStale ?_
      refine .ite ?_ ?_
      · refine State.Keeps.updCh ?_
        split
        · exact .ite (State.Keeps.ite h.strobeBank.updCh h.strobeBank).updCh (.ite h.strobeBank.updCh h.strobeBank)
        · exact .ite h.strobeBank.updCh h.strobeBank
      · split
        · exact .ite (State.Keeps.ite h.strobeBank.updCh h.strobeBank).updCh (.ite h.strobeBank.updCh h.strobeBank)
        · exact .ite h.strobeBank.updCh h.strobeBank
    · refine .ite ?_ ?_
      · refine State.Keeps.updCh ?_
        split
        · exact .ite (State.Keeps.ite h.strobeBank.updCh h.strobeBank).updCh (.ite h.strobeBank.updCh h.strobeBank)
        · exact .ite h.strobeBank.updCh h.strobeBank
      · split
        · exact .ite (State.Keeps.ite h.strobeBank.updCh h.strobeBank).updCh (.ite h.strobeBank.updCh h.strobeBank)
        · exact .ite h.strobeBank.updCh h.strobeBank
  · refine .ite ?_ ?_
    · refine State.Keeps.segStale ?_
      refine .ite ?_ ?_
      · refine State.Keeps.updCh ?_
        split
        · exact .ite (State.Keeps.ite h.strobeBank.updCh h.strobeBank).updCh (.ite h.strobeBank.updCh h.strobeBank)
        · exact .ite h.strobeBank.updCh h.strobeBank
      · split
        · exact .ite (State.Keeps.ite h.strobeBank.updCh h.strobeBank).updCh (.ite h.strobeBank.updCh h.strobeBank)
        · exact .ite h.strobeBank.updCh h.strobeBank
    · refine .ite ?_ ?_
      · refine State.Keeps.updCh ?_
        split
        · exact .ite (State.Keeps.ite h.strobeBank.updCh h.strobeBank).updCh (.ite h.strobeBank.updCh h.strobeBank)
        · exact .ite h.strobeBank.updCh h.strobeBank
      · split
        · exact .ite (State.Keeps.ite h.strobeBank.updCh h.strobeBank).updCh (.ite h.strobeBank.updCh h.strobeBank)
        · exact .ite h.strobeBank.updCh h.strobeBank

theorem State.Keeps.strobeChans {o : State} {vals : List (Nat × Word)} {a : List Nat} (h : s.Keeps q w) : (s.strobeChans o vals
    a).Keeps q w := by
  induction a generalizing s o vals with
  | nil =>
    exact h
  | cons _ _ ih =>
    exact ih h.strobeChan

theorem State.Keeps.strobeTimer {o : State} {m : Nat} (h : s.Keeps q w) : (s.strobeTimer o m).Keeps q w := by
  unfold State.strobeTimer
  exact .ite h h.setPsc

theorem State.Keeps.strobePsc {o : State} {a : List Nat} (h : s.Keeps q w) : (s.strobePsc o a).Keeps q w := by
  induction a generalizing s o with
  | nil =>
    exact h
  | cons _ _ ih =>
    exact ih (State.Keeps.ite h.setPsc (.ite h.setPsc h)).strobeTimer

theorem State.Keeps.setPin {p : Nat} {v : Trig} (h : s.Keeps q w) : (s.setPin p v).Keeps q w := by
  unfold State.setPin
  exact h.record

theorem State.Keeps.strobePins {o : State} {a : List Nat} (h : s.Keeps q w) : (s.strobePins o a).Keeps q w := by
  induction a generalizing s o with
  | nil =>
    exact h
  | cons _ _ ih =>
    exact ih (State.Keeps.ite h h.setPin)

theorem State.Keeps.strobeVals {mine : List Nat} {vals : List (Nat × Word)} (h : s.Keeps q w) : (s.strobeVals mine vals).Keeps q
    w := by
  unfold State.strobeVals
  exact h.applyVals.strobeChans.strobePsc.strobePins

theorem State.Keeps.strobeApply {g : Nat} (h : s.Keeps q w) : (s.strobeApply g).Keeps q w := by
  unfold State.strobeApply
  split
  · exact h
  · refine .ite h ?_
    dsimp only
    split
    · exact h.setStrobe.reserve.strobeReject
    · exact h.setStrobe.strobeVals.selfClear.flag.countWrap

theorem State.Keeps.strobesDue {a : List Nat} (h : s.Keeps q w) : (s.strobesDue a).Keeps q w := by
  induction a generalizing s with
  | nil =>
    exact h
  | cons _ _ ih =>
    exact ih h.strobeApply

/-! Comparators (Sys2Proof/Machine/Compare.lean). -/

theorem State.Keeps.capTake {i : Nat} {t : Int} (h : s.Keeps q w) : (s.capTake i t).Keeps q w := by
  unfold State.capTake
  exact .ite h.flag h.flag.setRg.setRg

theorem State.Keeps.capTakes {t : Int} {a : List Nat} (h : s.Keeps q w) : (s.capTakes t a).Keeps q w := by
  induction a generalizing s t with
  | nil =>
    exact h
  | cons _ _ ih =>
    exact ih h.capTake

theorem State.Keeps.toRun (h : s.Keeps q w) : s.toRun.Keeps q w := by
  unfold State.toRun
  exact h.setRg

theorem State.Keeps.wakeChan {n : Nat} (h : s.Keeps q w) : (s.wakeChan n).Keeps q w := by
  unfold State.wakeChan
  exact .ite h.record (.ite (State.Keeps.ite h.flag.setRg h.flag).toRun.flag (.ite h.flag.setRg h.flag))

theorem State.Keeps.wake {n k : Nat} (h : s.Keeps q w) : (s.wake n k).Keeps q w := by
  unfold State.wake
  exact .ite (.ite h.wakeCores.wakeChan h.wakeCores) h

theorem State.Keeps.trip {n : Nat} (h : s.Keeps q w) : (s.trip n).Keeps q w := by
  unfold State.trip
  exact h.updCh.flag.count.fault

theorem State.Keeps.clampHit {n k : Nat} (h : s.Keeps q w) : (s.clampHit n k).Keeps q w := by
  unfold State.clampHit
  exact .ite h.updCh.trip h.updCh

theorem State.Keeps.clampRelease {n : Nat} (h : s.Keeps q w) : (s.clampRelease n).Keeps q w := by
  unfold State.clampRelease
  exact .ite h.updCh h

theorem State.Keeps.clampKey {n : Nat} (h : s.Keeps q w) : (s.clampKey n).Keeps q w := by
  unfold State.clampKey
  exact .ite h.updCh h

theorem State.Keeps.clampStep {n : Nat} {own : Bool} (h : s.Keeps q w) : (s.clampStep n own).Keeps q w := by
  unfold State.clampStep
  exact .ite (State.Keeps.ite (State.Keeps.ite h h.setCh).flag (.ite h h.setCh)).trip (.ite (State.Keeps.ite h h.setCh).flag
      (.ite h h.setCh))

theorem State.Keeps.clampTrip {n k : Nat} {v : Int} (h : s.Keeps q w) : (s.clampTrip n k v).Keeps q w := by
  unfold State.clampTrip
  exact .ite h.clampHit h

theorem State.Keeps.cmpOutput {n k : Nat} {out : Bool} {cyc : Nat} (h : s.Keeps q w) : (s.cmpOutput n k out cyc).Keeps q w
    := by
  unfold State.cmpOutput
  exact .ite h (.ite (State.Keeps.ite h.setCh.flag.fireCh.wake h.setCh).capTakes.clampHit (State.Keeps.ite
      h.setCh.flag.fireCh.wake h.setCh).capTakes)

theorem State.Keeps.cmpWindow {n k : Nat} {v : Int} {cyc : Nat} (h : s.Keeps q w) : (s.cmpWindow n k v cyc).Keeps q w := by
  unfold State.cmpWindow
  exact .ite h.cmpOutput h

theorem State.Keeps.smpStep {n : Nat} (h : s.Keeps q w) : (s.smpStep n).Keeps q w := by
  unfold State.smpStep
  dsimp only
  split
  · exact .ite h.setCh h
  · exact h

theorem State.Keeps.cmpContinuous {n k : Nat} {v : Int} {cyc : Nat} (h : s.Keeps q w) : (s.cmpContinuous n k v cyc).Keeps q
    w := by
  unfold State.cmpContinuous
  exact .ite h h.cmpOutput

theorem State.Keeps.cmpGate {n : Nat} (h : s.Keeps q w) : (s.cmpGate n).Keeps q w := by
  unfold State.cmpGate
  exact .ite h h.setCh

theorem execComparatorEdge_answers {n : ChanId} {k : Fin 4} {v : Word} {cyc : Cycle} (h : s.Keeps q w) : Answers q w
    (execComparatorEdge n k v cyc s) := by
  unfold execComparatorEdge
  exact h.cmpContinuous.passed.next

theorem execCmpSampleWindow_answers {n : ChanId} {k : Fin 4} {v : Word} {cyc : Cycle} (h : s.Keeps q w) : Answers q w
    (execCmpSampleWindow n k v cyc s) := by
  unfold execCmpSampleWindow
  exact h.cmpWindow.next

theorem execClampTrip_answers {n : ChanId} {k : Fin 4} {v : Word} (h : s.Keeps q w) : Answers q w (execClampTrip n k v s) :=
    by
  unfold execClampTrip
  exact h.clampTrip.next

theorem execClampRelease_answers {n : ChanId} (h : s.Keeps q w) : Answers q w (execClampRelease n s) := by
  unfold execClampRelease
  exact h.clampRelease.next

theorem execClampReleaseKey_answers {a : Acc} {n : ChanId} (h : s.Keeps q w) : Answers q w (execClampReleaseKey a n s) := by
  unfold execClampReleaseKey
  exact h.viaGrd (fun _ h => h.clampKey)

/-! Precision scan (Sys2Proof/Machine/Psc.lean). -/

theorem State.Keeps.pscLatchAt {m cyc : Nat} {e : PscEv} (h : s.Keeps q w) : (s.pscLatchAt m cyc e).Keeps q w := by
  unfold State.pscLatchAt
  exact .ite h.setPsc h

theorem State.Keeps.pscLatch {m cyc : Nat} (h : s.Keeps q w) : (s.pscLatch m cyc).Keeps q w := by
  unfold State.pscLatch
  exact h.pscLatchAt

theorem State.Keeps.pscInj {m cyc : Nat} (h : s.Keeps q w) : (s.pscInj m cyc).Keeps q w := by
  unfold State.pscInj
  exact .ite h.pscLatchAt h

theorem State.Keeps.pscStopCmd {m cyc : Nat} (h : s.Keeps q w) : (s.pscStopCmd m cyc).Keeps q w := by
  unfold State.pscStopCmd
  exact h.pscLatchAt

theorem State.Keeps.pscLost {m k : Nat} (h : s.Keeps q w) : (s.pscLost m k).Keeps q w := by
  unfold State.pscLost
  exact .ite h h.flag.count

theorem State.Keeps.pscExpire {m c : Nat} (h : s.Keeps q w) : (s.pscExpire m c).Keeps q w := by
  unfold State.pscExpire
  exact .ite h.setPsc (.ite h.setPsc.pscLatch (.ite (.ite h.setPsc.pscLost h.setPsc.setPsc) h.setPsc))

theorem State.Keeps.pscPwm {m c k : Nat} (h : s.Keeps q w) : (s.pscPwm m c k).Keeps q w := by
  unfold State.pscPwm
  exact .ite h.setPsc h

theorem State.Keeps.pscEntry {m e c : Nat} {st : PscSt} (h : s.Keeps q w) : (s.pscEntry m e c st).Keeps q w := by
  unfold State.pscEntry
  exact h.setPsc

theorem State.Keeps.pscPassBegin {m c : Nat} (h : s.Keeps q w) : (s.pscPassBegin m c).Keeps q w := by
  unfold State.pscPassBegin
  exact h.setPsc.pscEntry

theorem State.Keeps.pscInjStart {m c : Nat} (h : s.Keeps q w) : (s.pscInjStart m c).Keeps q w := by
  unfold State.pscInjStart
  exact h.setPsc.pscEntry

theorem State.Keeps.pscIdle {m : Nat} (h : s.Keeps q w) : (s.pscIdle m).Keeps q w := by
  unfold State.pscIdle
  exact h.setPsc

theorem State.Keeps.pscNext {m c : Nat} (h : s.Keeps q w) : (s.pscNext m c).Keeps q w := by
  unfold State.pscNext
  exact .ite h.setPsc h.pscIdle

theorem State.Keeps.pscOffEdge {m : Nat} (h : s.Keeps q w) : (s.pscOffEdge m).Keeps q w := by
  unfold State.pscOffEdge
  exact .ite h.setPsc h

theorem State.Keeps.pscStopEdge {m : Nat} (h : s.Keeps q w) : (s.pscStopEdge m).Keeps q w := by
  unfold State.pscStopEdge
  exact .ite h.setPsc.pscIdle h.setPsc

theorem State.Keeps.pscInjEdge {m c k : Nat} (h : s.Keeps q w) : (s.pscInjEdge m c k).Keeps q w := by
  unfold State.pscInjEdge
  exact .ite h (.ite h.pscLost.setPsc.pscInjStart (.ite h.pscLost (State.Keeps.ite h.pscLost.flag.count
      h.pscLost).setPsc.pscInjStart))

theorem State.Keeps.pscRegOne {m c : Nat} (h : s.Keeps q w) : (s.pscRegOne m c).Keeps q w := by
  unfold State.pscRegOne
  exact .ite h (.ite h.pscLost (.ite h.pscPassBegin h.setPsc))

theorem State.Keeps.pscRegEdge {m c a : Nat} (h : s.Keeps q w) : (s.pscRegEdge m c a).Keeps q w := by
  induction a generalizing s m c with
  | zero =>
    exact h
  | succ _ ih =>
    exact ih h.pscRegOne

theorem State.Keeps.pscEffects {m c i g : Nat} {l : List PscEv} (h : s.Keeps q w) : (s.pscEffects m c i g l).Keeps q w := by
  induction l generalizing s i g with
  | nil => exact h.pscInjEdge.pscRegEdge
  | cons e _ ih =>
    cases e with
    | inj => exact ih h
    | reg => exact ih h
    | stop => exact ih h.pscInjEdge.pscRegEdge.pscStopEdge
    | off => exact ih h.pscInjEdge.pscRegEdge.pscOffEdge

theorem State.Keeps.pscEdge {m c : Nat} (h : s.Keeps q w) : (s.pscEdge m c).Keeps q w := by
  unfold State.pscEdge
  exact (State.Keeps.ite (.ite h.pscPassBegin h.pscIdle) h).setPsc.pscEffects

theorem State.Keeps.pscLimit {m e : Nat} {v : Int} {ent : List Nat} {cyc : Nat} (h : s.Keeps q w) : (s.pscLimit m e v ent
    cyc).Keeps q w := by
  unfold State.pscLimit
  exact .ite h (.ite h.setRg.flag.fireAt.report h.setRg)

theorem State.Keeps.pscDone {m mask cnt cyc : Nat} (h : s.Keeps q w) : (s.pscDone m mask cnt cyc).Keeps q w
    := by
  unfold State.pscDone
  exact h.flag.countWrap.setRg.setRg.fireAt

theorem State.Keeps.pscGoOn {m c : Nat} {flt : List Int} (h : s.Keeps q w) : (s.pscGoOn m c flt).Keeps q w := by
  unfold State.pscGoOn
  exact h.setPsc

theorem State.Keeps.pscAdvance {m c : Nat} {flt : List Int} (h : s.Keeps q w) : (s.pscAdvance m c flt).Keeps q w := by
  unfold State.pscAdvance
  refine .ite ?_ (.ite h.pscEntry (.ite (.ite h.pscDone.pscPassBegin.pscGoOn h.pscDone.pscPassBegin) h.pscDone.pscNext))
  refine .ite h.pscEntry ?_
  split
  · exact h.pscDone.setPsc.pscEntry
  · exact h.pscDone.pscNext

theorem State.Keeps.pscResult {m : Nat} {x : Option PscData} (h : s.Keeps q w) : (s.pscResult m x).Keeps q w := by
  unfold State.pscResult
  exact .ite h (.ite (State.Keeps.ite (State.Keeps.ite h.setRg.flag h.setRg).pscLimit (.ite h.setRg.flag
      h.setRg)).pscAdvance (.ite (State.Keeps.ite h.setRg.flag h.setRg).pscLimit (.ite h.setRg.flag h.setRg)))

theorem State.Keeps.pscDo {m c kind : Nat} {x : Option PscData} (h : s.Keeps q w) : (s.pscDo m c kind x).Keeps q w
    := by
  unfold State.pscDo
  split
  · exact h.pscResult
  · exact h.setPsc
  · exact h.pscEdge
  · exact h.setPsc.pscPwm
  · exact h.setPsc.pscLatch
  · exact h.pscExpire

theorem State.Keeps.pscRun {a a' a'' a''' : Nat} (h : s.Keeps q w) : (State.pscRun a s a' a'' a''').Keeps q
    w := by
  induction a generalizing s a' a'' a''' with
  | zero =>
    exact h
  | succ _ ih =>
    unfold State.pscRun
    split
    · exact h
    · exact ih h.pscDo

theorem State.Keeps.pscsRun {c : Nat} {a : List Nat} (h : s.Keeps q w) : (s.pscsRun c a).Keeps q w := by
  induction a generalizing s c with
  | nil =>
    exact h
  | cons _ _ ih =>
    exact ih h.pscRun

theorem State.Keeps.pscHappenAt {m kind c : Nat} {x : Option PscData} (h : s.Keeps q w) : (s.pscHappenAt m kind c
    x).Keeps q w := by
  unfold State.pscHappenAt
  exact .ite h (.ite h.pscRun.pscDo h.pscRun)

theorem State.Keeps.pscHappen {m kind : Nat} {x : Option PscData} (h : s.Keeps q w) : (s.pscHappen m kind x).Keeps q w
    := by
  unfold State.pscHappen
  split
  · exact h
  · exact h.pscHappenAt

theorem execPscTimer_answers {m : PscId} (h : s.Keeps q w) : Answers q w (execPscTimer m s) := by
  unfold execPscTimer
  exact h.pscHappen.next

theorem execPscPwmEdge_answers {m : PscId} (h : s.Keeps q w) : Answers q w (execPscPwmEdge m s) := by
  unfold execPscPwmEdge
  exact h.pwmFalls.pscHappen.next

theorem execPscEdgeDelayEnd_answers {m : PscId} (h : s.Keeps q w) : Answers q w (execPscEdgeDelayEnd m s) := by
  unfold execPscEdgeDelayEnd
  exact h.pscHappen.next

theorem execPscSettleEnd_answers {m : PscId} (h : s.Keeps q w) : Answers q w (execPscSettleEnd m s) := by
  unfold execPscSettleEnd
  exact h.pscHappen.next

theorem execPscEntryResult_answers {m : PscId} {l : List (BitVec 32)} {ovr : Option Bool} {cyc : Cycle} (h : s.Keeps q w) :
    Answers q w (execPscEntryResult m l ovr cyc s) := by
  unfold execPscEntryResult
  exact h.pscHappenAt.next

/-! Calibration (Sys2Proof/Machine/Calibrate.lean). -/

theorem State.Keeps.setCal {t : Nat} {c : CalStep} (h : s.Keeps q w) : (s.setCal t c).Keeps q w := by
  unfold State.setCal
  exact h.setTile

theorem State.Keeps.calAskBus {t cfg : Nat} (h : s.Keeps q w) : (s.calAskBus t cfg).Keeps q w := by
  unfold State.calAskBus
  exact h.setCal.fireAt

theorem State.Keeps.calPins {t : Nat} (h : s.Keeps q w) : (s.calPins t).Keeps q w := by
  unfold State.calPins
  exact .ite h h.updCh

theorem State.Keeps.calMeasure {t : Nat} (h : s.Keeps q w) : (s.calMeasure t).Keeps q w := by
  unfold State.calMeasure
  exact h.setCal.calPins

theorem State.Keeps.calGoCmd {t : Nat} {both : Bool} (h : s.Keeps q w) : (s.calGoCmd t both).Keeps q w := by
  unfold State.calGoCmd
  exact (State.Keeps.ite h.calWhy.flag (.ite (State.Keeps.ite h.setPsc h).setCal.calMeasure (State.Keeps.ite h.setPsc
      h).setCal.calAskBus)).votes

theorem State.Keeps.calAck {t : Nat} (h : s.Keeps q w) : (s.calAck t).Keeps q w := by
  unfold State.calAck
  exact .ite h.calMeasure h

theorem State.Keeps.calAbortCmd {t : Nat} (h : s.Keeps q w) : (s.calAbortCmd t).Keeps q w := by
  unfold State.calAbortCmd
  exact h.calAbandon.settleFaults

theorem State.Keeps.calFail {t why : Nat} (h : s.Keeps q w) : (s.calFail t why).Keeps q w := by
  unfold State.calFail
  exact h.calReject.settleFaults

theorem State.Keeps.calTimeout {t : Nat} (h : s.Keeps q w) : (s.calTimeout t).Keeps q w := by
  unfold State.calTimeout
  exact .ite h.calFail h

theorem State.Keeps.calSettled {t : Nat} (h : s.Keeps q w) : (s.calSettled t).Keeps q w := by
  unfold State.calSettled
  exact .ite h.setCal h

theorem State.Keeps.calWaits {t : Nat} (h : s.Keeps q w) : (s.calWaits t).Keeps q w := by
  unfold State.calWaits
  exact h.calTimeout.calSettled

theorem State.Keeps.fitRegs {t : Nat} {f : Fit} (h : s.Keeps q w) : (s.fitRegs t f).Keeps q w := by
  unfold State.fitRegs
  exact h.setRg.setRg.setRg.setRg.setRg

theorem State.Keeps.writeCopy {t : Nat} {f : Fit} {m : Nat} (h : s.Keeps q w) : (s.writeCopy t f m).1.Keeps q w := by
  unfold State.writeCopy
  exact h.store

theorem State.Keeps.writeCopies {t m : Nat} {a : List Fit} {a' : Nat} (h : s.Keeps q w) : (s.writeCopies t m a a').1.Keeps
    q w := by
  induction a generalizing s t m a' with
  | nil =>
    exact h
  | cons _ _ ih =>
    exact ih h.writeCopy

theorem State.Keeps.trimPut {n off : Nat} {bs : List Byte} (h : s.Keeps q w) : (s.trimPut n off bs).Keeps q w := by
  unfold State.trimPut
  exact h.put.put

theorem State.Keeps.trimWrite {t : Nat} {c : CalStep} (h : s.Keeps q w) : (s.trimWrite t c).Keeps q w := by
  unfold State.trimWrite
  split
  · exact h.trimPut
  · exact h.trimPut
  · exact h.trimPut
  · exact h

theorem State.Keeps.retrimChg {t : Nat} {c : CalStep} (h : s.Keeps q w) : (s.retrimChg t c).Keeps q w := by
  unfold State.retrimChg
  split
  · exact .ite h.setRg h
  · exact h

theorem State.Keeps.trimLoad {n : Nat} {which : List Nat} (h : s.Keeps q w) : (s.trimLoad n which).Keeps q w := by
  unfold State.trimLoad
  exact (State.Keeps.ite h.setRg h).updCh

theorem State.Keeps.cmpSettle {n : Nat} (h : s.Keeps q w) : (s.cmpSettle n).Keeps q w := by
  unfold State.cmpSettle
  exact h.updCh

theorem State.Keeps.calRegister {t : Nat} {c : CalStep} {m slot : Nat} (h : s.Keeps q w) : (s.calRegister t c m
    slot).Keeps q w := by
  unfold State.calRegister
  exact h.setCal

theorem State.Keeps.calCheck {t : Nat} {ecc : Bool} (h : s.Keeps q w) : (s.calCheck t ecc).Keeps q w := by
  unfold State.calCheck
  refine .ite (.ite (State.Keeps.ite (h.foldl (fun _ _ h => h.unitRead)) (.ite h.unitRead h)).retrimChg.calFail
      (State.Keeps.ite (h.foldl (fun _ _ h => h.unitRead)) (.ite h.unitRead h)).retrimChg.calRegister) ?_
  dsimp only
  split
  · refine State.Keeps.calFail ?_
    refine State.Keeps.fitRegs ?_
    split
    · exact (State.Keeps.ite (h.foldl (fun _ _ h => h.unitRead)) (.ite h.unitRead h)).fitRegs
    · exact .ite (h.foldl (fun _ _ h => h.unitRead)) (.ite h.unitRead h)
  · refine State.Keeps.calRegister ?_
    refine State.Keeps.writeCopies ?_
    split
    · exact (State.Keeps.ite (h.foldl (fun _ _ h => h.unitRead)) (.ite h.unitRead h)).fitRegs
    · exact .ite (h.foldl (fun _ _ h => h.unitRead)) (.ite h.unitRead h)

theorem State.Keeps.calNextPoint {t : Nat} {ecc : Bool} (h : s.Keeps q w) : (s.calNextPoint t ecc).Keeps q w := by
  unfold State.calNextPoint
  exact (State.Keeps.ite (.ite h.calAskBus h.calMeasure) h.calCheck).votes

theorem State.Keeps.calRead {t : Nat} {psc fast : List Int} {ovr ecc : Bool} (h : s.Keeps q w) : (s.calRead
    t psc fast ovr ecc).Keeps q w := by
  unfold State.calRead
  exact .ite h (.ite h.calFail (.ite h.setCal h.setCal.calNextPoint))

theorem State.Keeps.selFlip {j : Nat} (h : s.Keeps q w) : (s.selFlip j).Keeps q w := by
  unfold State.selFlip
  exact (State.Keeps.ite h.calHolds h).record

theorem State.Keeps.selFlips {a : List Nat} (h : s.Keeps q w) : (s.selFlips a).Keeps q w := by
  induction a generalizing s with
  | nil =>
    exact h
  | cons _ _ ih =>
    exact ih (State.Keeps.ite h.selFlip h.trimLoad)

theorem State.Keeps.stdRecord {t : Nat} {c : CalStep} (h : s.Keeps q w) : (s.stdRecord t c).Keeps q w := by
  unfold State.stdRecord
  exact h.setTile

theorem State.Keeps.calCommitStep {t : Nat} (h : s.Keeps q w) : (s.calCommitStep t).Keeps q w := by
  unfold State.calCommitStep
  exact .ite h (State.Keeps.ite (State.Keeps.ite h.selFlips (.ite h.setTile h.trimWrite.trimLoad)).stdRecord (.ite
      h.selFlips (.ite h.setTile h.trimWrite.trimLoad))).count.setRg.flag.setRg.setRg.fireAt.calFree

theorem State.Keeps.calCommitSel {t : Nat} (h : s.Keeps q w) : (s.calCommitSel t).Keeps q w := by
  unfold State.calCommitSel
  exact .ite h h.record.selFlips

theorem State.Keeps.calCommit {t : Nat} (h : s.Keeps q w) : (s.calCommit t).Keeps q w := by
  unfold State.calCommit
  exact h.calCommitStep.calCommitSel

theorem State.Keeps.calCommits {a : List Nat} (h : s.Keeps q w) : (s.calCommits a).Keeps q w := by
  induction a generalizing s with
  | nil =>
    exact h
  | cons _ _ ih =>
    exact ih h.calCommit

theorem State.Keeps.selectObj {j : Nat} (h : s.Keeps q w) : (s.selectObj j).Keeps q w := by
  unfold State.selectObj
  exact .ite (State.Keeps.ite (.ite h.setRg.unitRead h.setRg.unitRead) h.setRg).flag (.ite (.ite (.ite h.setRg.unitRead
      h.setRg.unitRead) h.setRg) (State.Keeps.ite (.ite h.setRg.unitRead h.setRg.unitRead) h.setRg).record)

theorem State.Keeps.coefUpdate {l : List (BitVec 32)} {ecc : Nat} {a : List Nat} (h : s.Keeps q w) : (s.coefUpdate l ecc
    a).Keeps q w := by
  induction a generalizing s l ecc with
  | nil =>
    exact h
  | cons _ _ ih =>
    exact ih (State.Keeps.ite h (.ite h.record.fault h.record))

theorem State.Keeps.calReads (h : s.Keeps q w) : s.calReads.Keeps q w := by
  unfold State.calReads
  exact .ite h.record h.record.ueAt

theorem State.Keeps.calEccs {js a : List Nat} (h : s.Keeps q w) : (s.calEccs js a).Keeps q w := by
  induction a generalizing s js with
  | nil =>
    exact h
  | cons _ _ ih =>
    exact ih (State.Keeps.ite h.fault h)

theorem State.Keeps.tempTake {a : List Nat} (h : s.Keeps q w) : (s.tempTake a).Keeps q w := by
  induction a generalizing s with
  | nil =>
    exact h
  | cons _ _ ih =>
    exact ih (State.Keeps.ite h h.record)

theorem State.Keeps.calForm (h : s.Keeps q w) : s.calForm.Keeps q w := by
  unfold State.calForm
  exact .ite h h.calReads.calHolds.record.tempTake.record.calEccs

theorem execBusAck_answers {a : Acc} {t : TileId} (h : s.Keeps q w) : Answers q w (execBusAck a t s) := by
  unfold execBusAck
  exact h.viaReg (fun _ h => h.calAck)

theorem execCalAbort_answers {a : Acc} {t : TileId} (h : s.Keeps q w) : Answers q w (execCalAbort a t s) := by
  unfold execCalAbort
  exact h.viaReg (fun _ h => h.calAbortCmd)

theorem execCalBusTimeout_answers {t : TileId} (h : s.Keeps q w) : Answers q w (execCalBusTimeout t s) := by
  unfold execCalBusTimeout
  exact h.calTimeout.next

theorem execCalPointSettleEnd_answers {t : TileId} (h : s.Keeps q w) : Answers q w (execCalPointSettleEnd t s) := by
  unfold execCalPointSettleEnd
  exact h.calSettled.next

theorem execCalReadingDone_answers {t : TileId} {psc : List (BitVec 32)} {fast : List (BitVec 20)} {ovr ecc : Bool}
    (h : s.Keeps q w) : Answers q w (execCalReadingDone t psc fast ovr ecc s) := by
  unfold execCalReadingDone
  exact h.calRead.next

theorem execCalCommit_answers {t : TileId} (h : s.Keeps q w) : Answers q w (execCalCommit t s) := by
  unfold execCalCommit
  exact h.calCommit.next

theorem execSelect_answers {a : Acc} {obj : BitVec 12} (h : s.Keeps q w) : Answers q w (execSelect a obj s) := by
  unfold execSelect
  exact h.viaReg (fun _ h => h.selectObj)

theorem execCalCoefUpdate_answers {temps : List (BitVec 32)} {ecc : BitVec 4} (h : s.Keeps q w) : Answers q w
    (execCalCoefUpdate temps ecc s) := by
  unfold execCalCoefUpdate
  exact h.coefUpdate.next

/-! Bramble (Sys2Proof/Machine/Bramble.lean). -/

theorem State.Keeps.brmFlag {mask : Nat} (h : s.Keeps q w) : (s.brmFlag mask).Keeps q w := by
  unfold State.brmFlag
  exact h.flag

theorem State.Keeps.trigOut {p cyc : Nat} (h : s.Keeps q w) : (s.trigOut p cyc).Keeps q w := by
  unfold State.trigOut
  exact .ite h.brmFlag (.ite h.setPin h.setPin)

theorem State.Keeps.capTask {i cyc : Nat} (h : s.Keeps q w) : (s.capTask i cyc).Keeps q w := by
  unfold State.capTask
  exact .ite h.flag h.capTake

theorem State.Keeps.rangeReq {n : Nat} (h : s.Keeps q w) : (s.rangeReq n).Keeps q w := by
  unfold State.rangeReq
  exact .ite h.reqRange h

theorem State.Keeps.taskAct {i cyc : Nat} (h : s.Keeps q w) : (s.taskAct i cyc).Keeps q w := by
  unfold State.taskAct
  exact .ite h.rakeLatch (.ite h.rakeJump (.ite h.rakeLatch (.ite h.updCh (.ite h.chanCmd (.ite h.chanCmd (.ite h.rangeReq
      (.ite h.pscLatch (.ite h.pscInj (.ite h.capTask (.ite h.record (.ite h.trigOut h.flag)))))))))))

theorem State.Keeps.tagTask {n task cyc : Nat} {tag : Option Nat} (h : s.Keeps q w) : (s.tagTask n task cyc
    tag).Keeps q w := by
  unfold State.tagTask
  exact h.updCh

theorem State.Keeps.fireTask {i cyc : Nat} {tag : Option Nat} (h : s.Keeps q w) : (s.fireTask i cyc tag).Keeps q w := by
  unfold State.fireTask
  refine .ite h ?_
  dsimp only
  split
  · exact .ite (.ite (State.Keeps.ite h.tagTask h).record.count.count (State.Keeps.ite h.tagTask h).record.count) (.ite
      h.tagTask h)
  · exact (State.Keeps.ite h.record.tagTask h.record).taskAct

theorem State.Keeps.fireTasks {cyc : Nat} {tag : Option Nat} {a : List Nat} (h : s.Keeps q w) : (s.fireTasks cyc tag a).Keeps q w
    := by
  induction a generalizing s cyc tag with
  | nil =>
    exact h
  | cons _ _ ih =>
    exact ih h.fireTask

theorem State.Keeps.loopDrop {c tick : Nat} {tag : Option Nat} (h : s.Keeps q w) : (s.loopDrop c tick tag).1.Keeps q w := by
  unfold State.loopDrop
  exact .iteFst h (.iteFst h.record h.flag.count)

theorem State.Keeps.survive {c tick : Nat} {a : List Contrib} (h : s.Keeps q w) : (s.survive c tick a).1.Keeps q w := by
  induction a generalizing s c tick with
  | nil =>
    exact h
  | cons _ _ ih =>
    exact ih h.loopDrop

theorem State.Keeps.evcPass {c : Nat} (h : s.Keeps q w) : (s.evcPass c).Keeps q w := by
  unfold State.evcPass
  split
  · exact h
  · refine .ite h ?_
    dsimp only
    split
    · exact h.record.survive
    · split
      · exact .ite h.record.survive h.record.survive.record.count
      · exact (State.Keeps.ite h.record.survive.countWrap h.record.survive.countWrap.count).record.fireTasks

theorem State.Keeps.updFlush {c : Nat} (h : s.Keeps q w) : (s.updFlush c).Keeps q w := by
  unfold State.updFlush
  exact .ite h h.record.strobeLatches

theorem State.Keeps.inCycle {k : Nat} {f : State → State} (h : s.Keeps q w) (hf : ∀ t, t.Keeps q w → (f t).Keeps q w) :
    (s.inCycle k f).Keeps q w := by
  unfold State.inCycle
  exact .ite (hf _ h) (hf _ h.record).record

theorem State.Keeps.evcAct {c k : Nat} (h : s.Keeps q w) : (s.evcAct c k).Keeps q w := by
  unfold State.evcAct
  exact .ite h.evcPass h.record.fireTask

theorem State.Keeps.evcStep {c : Nat} (h : s.Keeps q w) : (s.evcStep c).Keeps q w := by
  unfold State.evcStep
  split
  · exact h
  · exact .ite h.record (h.inCycle (fun _ h => .ite h.evcAct h.evcAct.updFlush))

theorem State.Keeps.upTo {z : Nat} (h : s.Keeps q w) : (s.upTo z).Keeps q w := by
  unfold State.upTo
  exact h.pwmFalls.pscsRun

/-! The recursion of `State.runTo`, stated without an evaluation of the event it looks at. -/

theorem State.runTo_succ_some (f : Nat) (s : State) (z : Nat) {c e k : Nat} (hc : ((s.evcNext z).map (·.2)).getD z = c)
    (he : (s.upTo c).evcNext c = some (e, k)) : State.runTo (f + 1) s z = State.runTo f ((s.upTo c).evcStep e) z := by
  subst hc
  delta State.runTo
  delta State.runTo._f
  dsimp only [Nat.brecOn, Nat.brecOn.go, Nat.rec_add_one]
  rw [he]

theorem State.runTo_succ_none (f : Nat) (s : State) (z : Nat) {c : Nat} (hc : ((s.evcNext z).map (·.2)).getD z = c)
    (he : (s.upTo c).evcNext c = none) :
    State.runTo (f + 1) s z = if c = z then s.upTo c else State.runTo f (s.upTo c) z := by
  subst hc
  delta State.runTo
  delta State.runTo._f
  dsimp only [Nat.brecOn, Nat.brecOn.go, Nat.rec_add_one]
  rw [he]

theorem State.Keeps.runTo {f z : Nat} (h : s.Keeps q w) : (State.runTo f s z).Keeps q w := by
  induction f generalizing s with
  | zero => exact h
  | succ f ih =>
    generalize hc : ((s.evcNext z).map (·.2)).getD z = c
    cases he : (s.upTo c).evcNext c with
    | some p =>
      rw [State.runTo_succ_some f s z hc he]
      exact ih h.upTo.evcStep
    | none =>
      rw [State.runTo_succ_none f s z hc he]
      exact .ite h.upTo (ih h.upTo)

theorem State.Keeps.headTo {z : Nat} (h : s.Keeps q w) : (s.headTo z).Keeps q w := by
  unfold State.headTo
  exact .ite h (h.decideAll.each (fun _ _ h => h.recsSettle))

theorem State.Keeps.catchTo {z : Nat} (h : s.Keeps q w) : (s.catchTo z).Keeps q w := by
  unfold State.catchTo
  exact .ite h.headTo.runTo h.headTo

theorem State.Keeps.toCycle {k : Nat} (h : s.Keeps q w) : (s.toCycle k).Keeps q w := by
  unfold State.toCycle
  exact h.catchTo.upTo

theorem State.Keeps.catchHold {z : Nat} (h : s.Keeps q w) : (s.catchHold z).Keeps q w := by
  unfold State.catchHold
  exact .ite h.catchTo.record.runTo h.catchTo

theorem State.Keeps.goLatch {c mask : Nat} (h : s.Keeps q w) : (s.goLatch c mask).Keeps q w := by
  unfold State.goLatch
  exact (State.Keeps.ite h.record h.record.count).strobeLatches

theorem State.Keeps.catchUp (h : s.Keeps q w) : s.catchUp.Keeps q w := by
  unfold State.catchUp
  exact h.catchTo

theorem State.Keeps.latchNow {eff : State → Nat → State} (h : s.Keeps q w) (heff : ∀ t y1, t.Keeps q w → (eff t y1).Keeps q w)
    : (s.latchNow eff).Keeps q w := by
  unfold State.latchNow
  exact (heff _ _ h.catchTo).passed

theorem State.Keeps.stsMeets {o v : Nat} (h : s.Keeps q w) : (s.stsMeets o v).Keeps q w := by
  unfold State.stsMeets
  exact .ite h.catchTo.catchTo.setRg h.catchTo.catchTo

theorem State.Keeps.cntMeets (h : s.Keeps q w) : s.cntMeets.Keeps q w := by
  unfold State.cntMeets
  exact h.catchTo

theorem State.Keeps.shMeets (h : s.Keeps q w) : s.shMeets.Keeps q w := by
  unfold State.shMeets
  exact h.catchTo

theorem State.Keeps.armCmd {n : Nat} (h : s.Keeps q w) : (s.armCmd n).Keeps q w := by
  unfold State.armCmd
  exact h.catchTo.chanCmd

theorem State.Keeps.updGo {mask : Nat} (h : s.Keeps q w) : (s.updGo mask).Keeps q w := by
  unfold State.updGo
  exact h.catchHold.goLatch.passed

theorem State.Keeps.dispatchEvc {c : Nat} (h : s.Keeps q w) : (s.dispatchEvc c).Keeps q w := by
  unfold State.dispatchEvc
  split
  · exact h
  · exact h.toCycle.evcStep

theorem State.Keeps.calGoNow {t : Nat} {both : Bool} (h : s.Keeps q w) : (s.calGoNow t both).Keeps q w := by
  unfold State.calGoNow
  exact h.latchNow (fun _ _ h => h.calGoCmd)

theorem State.Keeps.pscGoCmd {m : Nat} (h : s.Keeps q w) : (s.pscGoCmd m).Keeps q w := by
  unfold State.pscGoCmd
  exact h.latchNow (fun _ _ h => h.pscLatch)

theorem State.Keeps.pscInjCmd {m : Nat} (h : s.Keeps q w) : (s.pscInjCmd m).Keeps q w := by
  unfold State.pscInjCmd
  exact h.latchNow (fun _ _ h => h.pscInj)

theorem State.Keeps.pscStopNow {m : Nat} (h : s.Keeps q w) : (s.pscStopNow m).Keeps q w := by
  unfold State.pscStopNow
  exact h.latchNow (fun _ _ h => h.pscStopCmd)

theorem State.Keeps.carried (h : s.Keeps q w) : s.carried.Keeps q w := by
  unfold State.carried
  exact .ite h.runTo h

theorem State.Keeps.brmFireCmd {task cyc : Nat} (h : s.Keeps q w) : (s.brmFireCmd task cyc).Keeps q w := by
  unfold State.brmFireCmd
  exact .ite h.brmFlag (.ite h.record (.ite h.record.runTo (h.inCycle (fun _ h => h.fireTask.updFlush))))

theorem State.Keeps.swFireCmd {c cyc : Nat} (h : s.Keeps q w) : (s.swFireCmd c cyc).Keeps q w := by
  unfold State.swFireCmd
  exact .ite h.record h

theorem State.Keeps.setArmed {c : Nat} {b : Bool} (h : s.Keeps q w) : (s.setArmed c b).Keeps q w := by
  unfold State.setArmed
  exact h.setRg

theorem State.Keeps.evcArmCmd {c : Nat} {r : Req} (h : s.Keeps q w) : (s.evcArmCmd c r).Keeps q w := by
  unfold State.evcArmCmd
  exact .ite h.catchUp.brmFlag (.ite h.catchUp.brmFlag h.catchUp.setArmed)

theorem State.Keeps.evcDisarmCmd {c : Nat} {a : Acc} (h : s.Keeps q w) : (s.evcDisarmCmd c a).Keeps q w := by
  unfold State.evcDisarmCmd
  exact .ite h.catchUp.setArmed h.catchUp.brmFlag

theorem State.Keeps.crcTouch {k : Nat} (h : s.Keeps q w) : (s.crcTouch k).Keeps q w := by
  unfold State.crcTouch
  exact .ite h.record h

theorem State.Keeps.brmPut {o w' : Nat} {inSet : Bool} (h : s.Keeps q w) : (s.brmPut o w' inSet).Keeps q w := by
  unfold State.brmPut
  exact .ite h.setBoth (.ite h.setSh.crcTouch h.brmFlag)

theorem State.Keeps.evcPut {c slot w' : Nat} (h : s.Keeps q w) : (s.evcPut c slot w').Keeps q w := by
  unfold State.evcPut
  exact .ite h.catchUp.brmFlag (.ite h.catchUp.brmFlag h.catchUp.brmPut)

theorem State.Keeps.evcWrite {c slot v : Nat} (h : s.Keeps q w) : (s.evcWrite c slot v).Keeps q w := by
  unfold State.evcWrite
  exact .ite h h.evcPut

theorem State.Keeps.subPut {i w' : Nat} (h : s.Keeps q w) : (s.subPut i w').Keeps q w := by
  unfold State.subPut
  exact h.catchUp.brmPut

theorem State.Keeps.subWrite {i v : Nat} (h : s.Keeps q w) : (s.subWrite i v).Keeps q w := by
  unfold State.subWrite
  exact .ite h h.subPut

theorem State.Keeps.trigEdge {p : Nat} {level : Bool} {cyc : Nat} (h : s.Keeps q w) : (s.trigEdge p level cyc).Keeps q w := by
  unfold State.trigEdge
  exact .ite h (.ite h.setPin.fireAt h.setPin)

theorem State.Keeps.trigEnd {p : Nat} (h : s.Keeps q w) : (s.trigEnd p).Keeps q w := by
  unfold State.trigEnd
  dsimp only
  split
  · exact .ite h.setPin h
  · exact h

theorem State.Keeps.trigEnds {a : List Nat} (h : s.Keeps q w) : (s.trigEnds a).Keeps q w := by
  induction a generalizing s with
  | nil =>
    exact h
  | cons _ _ ih =>
    exact ih h.trigEnd

theorem execArm_answers {a : Acc} {n : ChanId} (h : s.Keeps q w) : Answers q w (execArm a n s) := by
  unfold execArm
  exact h.viaReg (fun _ h => h.armCmd)

theorem execUpdGo_answers {a : Acc} {mask : BitVec 8} (h : s.Keeps q w) : Answers q w (execUpdGo a mask s) := by
  unfold execUpdGo
  exact h.viaReg (fun _ h => h.updGo)

theorem execPscGo_answers {a : Acc} {m : PscId} (h : s.Keeps q w) : Answers q w (execPscGo a m s) := by
  unfold execPscGo
  exact h.viaReg (fun _ h => h.pscGoCmd)

theorem execPscInjGo_answers {a : Acc} {m : PscId} (h : s.Keeps q w) : Answers q w (execPscInjGo a m s) := by
  unfold execPscInjGo
  exact h.viaReg (fun _ h => h.pscInjCmd)

theorem execPscStop_answers {a : Acc} {m : PscId} (h : s.Keeps q w) : Answers q w (execPscStop a m s) := by
  unfold execPscStop
  exact h.viaReg (fun _ h => h.pscStopNow)

theorem execEventDispatch_answers {c : EvcId} (h : s.Keeps q w) : Answers q w (execEventDispatch c s) := by
  unfold execEventDispatch
  exact h.dispatchEvc.next

theorem execCalGo_answers {a : Acc} {t : TileId} (h : s.Keeps q w) : Answers q w (execCalGo a t s) := by
  unfold execCalGo
  exact h.viaReg (fun _ h => h.calGoNow)

theorem execBrmFire_answers {a : Acc} {task : BitVec 10} {cyc : Cycle} (h : s.Keeps q w) : Answers q w (execBrmFire a task
    cyc s) := by
  unfold execBrmFire
  exact h.viaReg (fun _ h => h.setRg.brmFireCmd.passed)

theorem execSwfire_answers {a : Acc} {c : EvcId} {cyc : Cycle} (h : s.Keeps q w) : Answers q w (execSwfire a c cyc s) := by
  unfold execSwfire
  exact h.viaReg (fun _ h => h.swFireCmd.passed)

theorem execEvcArm_answers {a : Acc} {c : EvcId} (h : s.Keeps q w) : Answers q w (execEvcArm a c s) := by
  unfold execEvcArm
  exact h.viaReg (fun _ h => h.evcArmCmd)

theorem execEvcDisarm_answers {a : Acc} {c : EvcId} (h : s.Keeps q w) : Answers q w (execEvcDisarm a c s) := by
  unfold execEvcDisarm
  exact h.viaReg (fun _ h => h.evcDisarmCmd)

theorem execEvcConfigWrite_answers {a : Acc} {c : EvcId} {slot : Fin 9} {v : Word} (h : s.Keeps q w) : Answers q w
    (execEvcConfigWrite a c slot v s) := by
  unfold execEvcConfigWrite
  exact h.viaReg (fun _ h => h.evcWrite)

theorem execSubscriptionWrite_answers {a : Acc} {i : Fin 696} {v : Word} (h : s.Keeps q w) : Answers q w
    (execSubscriptionWrite a i v s) := by
  unfold execSubscriptionWrite
  exact h.viaReg (fun _ h => h.subWrite)

theorem execTrigIn_answers {p : PinId} {level : Bool} {cyc : Cycle} (h : s.Keeps q w) : Answers q w (execTrigIn p level cyc
    s) := by
  unfold execTrigIn
  exact h.trigEdge.passed.next

theorem execTrigPulseEnd_answers {p : PinId} (h : s.Keeps q w) : Answers q w (execTrigPulseEnd p s) := by
  unfold execTrigPulseEnd
  exact h.trigEnd.next

/-! Covered sets (Sys2Proof/Machine/CfgCrc.lean). -/

theorem State.Keeps.refWrite {v : Nat} (h : s.Keeps q w) : (s.refWrite v).Keeps q w := by
  unfold State.refWrite
  exact h.record

theorem State.Keeps.crcSelect {k : Nat} (h : s.Keeps q w) : (s.crcSelect k).Keeps q w := by
  unfold State.crcSelect
  exact h.setRg.record

theorem State.Keeps.crcPassEnd (h : s.Keeps q w) : s.crcPassEnd.Keeps q w := by
  unfold State.crcPassEnd
  exact .ite h.votes.setRg.setRg.record h

theorem State.Keeps.crcFlip {k : Nat} (h : s.Keeps q w) : (s.crcFlip k).Keeps q w := by
  unfold State.crcFlip
  exact h.record

theorem State.Keeps.uncommitCmd (h : s.Keeps q w) : s.uncommitCmd.Keeps q w := by
  unfold State.uncommitCmd
  exact .ite h.crcFlip h

theorem State.Keeps.commitCmd (h : s.Keeps q w) : s.commitCmd.Keeps q w := by
  unfold State.commitCmd
  split
  · exact h
  · exact h.record

theorem State.Keeps.bringIn {a : List Nat} (h : s.Keeps q w) : (s.bringIn a).Keeps q w := by
  induction a generalizing s with
  | nil =>
    exact h
  | cons _ _ ih =>
    exact ih h.setRg

theorem State.Keeps.commitEnd (h : s.Keeps q w) : s.commitEnd.Keeps q w := by
  unfold State.commitEnd
  split
  · exact h
  · exact .ite (State.Keeps.ite h.catchUp h).votes.record.setRg.flag (State.Keeps.ite (State.Keeps.ite h.catchUp
      h).votes.record.crcFlip.record (State.Keeps.ite h.catchUp h).votes.record.crcFlip.record.bringIn).uncause.flag

theorem State.Keeps.bringVals {a : List (Nat × Nat)} (h : s.Keeps q w) : (s.bringVals a).Keeps q w := by
  induction a generalizing s with
  | nil =>
    exact h
  | cons _ _ ih =>
    exact ih h.setRg

theorem State.Keeps.commitLate {n : Nat} (h : s.Keeps q w) : (s.commitLate n).Keeps q w := by
  unfold State.commitLate
  exact h.bringVals.record

theorem State.Keeps.commitsLate {a : List Nat} (h : s.Keeps q w) : (s.commitsLate a).Keeps q w := by
  induction a generalizing s with
  | nil =>
    exact h
  | cons _ _ ih =>
    exact ih (State.Keeps.ite h.commitLate h)

theorem State.Keeps.scanSet {k : Nat} (h : s.Keeps q w) : (s.scanSet k).Keeps q w := by
  unfold State.scanSet
  exact .ite h (.ite h.injGen.cause h.injGen.uncause)

theorem State.Keeps.scanSets {a : List Nat} (h : s.Keeps q w) : (s.scanSets a).Keeps q w := by
  induction a generalizing s with
  | nil =>
    exact h
  | cons _ _ ih =>
    exact ih h.scanSet

theorem execCfgcrcSelWrite_answers {a : Acc} {k : BitVec 7} (h : s.Keeps q w) : Answers q w (execCfgcrcSelWrite a k s) := by
  unfold execCfgcrcSelWrite
  exact h.viaReg (fun _ h => h.crcSelect)

theorem execCrcPassDone_answers (h : s.Keeps q w) : Answers q w (execCrcPassDone s) := by
  unfold execCrcPassDone
  exact h.crcPassEnd.next

theorem execUncommit_answers {a : Acc} (h : s.Keeps q w) : Answers q w (execUncommit a s) := by
  unfold execUncommit
  exact h.viaReg (fun _ h => h.uncommitCmd)

theorem execCommit_answers {a : Acc} (h : s.Keeps q w) : Answers q w (execCommit a s) := by
  unfold execCommit
  exact h.viaReg (fun _ h => h.commitCmd)

theorem execCommitDone_answers (h : s.Keeps q w) : Answers q w (execCommitDone s) := by
  unfold execCommitDone
  exact h.commitEnd.next

theorem execCfgCrcScan_answers (h : s.Keeps q w) : Answers q w (execCfgCrcScan s) := by
  unfold execCfgCrcScan
  exact h.scanSets.next

/-! Fault commands (Sys2Proof/Machine/FaultCmd.lean). -/

theorem State.Keeps.putRg {o i : Nat} {b : Bool} (h : s.Keeps q w) : (s.putRg o i b).Keeps q w := by
  unfold State.putRg
  exact h.setRg

theorem State.Keeps.stsDrop {o m : Nat} (h : s.Keeps q w) : (s.stsDrop o m).Keeps q w := by
  unfold State.stsDrop
  exact h.setRg

theorem State.Keeps.msix {v : Nat} (h : s.Keeps q w) : (s.msix v).Keeps q w := by
  unfold State.msix
  exact .ite h (.ite h.putRg h.record)

theorem State.Keeps.linesRise (h : s.Keeps q w) : s.linesRise.Keeps q w := by
  unfold State.linesRise
  exact .ite h (h.record.foldl (fun _ _ h => h.msix))

theorem State.Keeps.fltDrop {f m : Nat} (h : s.Keeps q w) : (s.fltDrop f m).Keeps q w := by
  unfold State.fltDrop
  exact .ite h.linesRise.setRg.setRg.setRg.record.record h.linesRise.setRg.setRg.setRg.record

theorem State.Keeps.fltClear {f v : Nat} (h : s.Keeps q w) : (s.fltClear f v).Keeps q w := by
  unfold State.fltClear
  exact .ite h.fltDrop h.flag

theorem State.Keeps.coreLeaves {x : Nat} (h : s.Keeps q w) : (s.coreLeaves x).Keeps q w := by
  unfold State.coreLeaves
  exact .ite h.setCoreSt.record h.setCoreSt

theorem State.Keeps.unfenceUnit {u : Nat} (h : s.Keeps q w) : (s.unfenceUnit u).Keeps q w := by
  unfold State.unfenceUnit
  exact .ite h.updCh (.ite h.record.setRg (.ite h.record.setPortSt.linkLevel (.ite h.record.coreLeaves h.record)))

theorem State.Keeps.unfenceCmd {u f : Nat} (h : s.Keeps q w) : (s.unfenceCmd u f).Keeps q w := by
  unfold State.unfenceCmd
  exact .ite h.flag (.ite h.unfenceUnit h)

theorem State.Keeps.injectCmd {f v : Nat} (h : s.Keeps q w) : (s.injectCmd f v).Keeps q w := by
  unfold State.injectCmd
  exact .ite h.setRg h.flag

theorem State.Keeps.scrub {upsets : List Nat} (h : s.Keeps q w) : (s.scrub upsets).Keeps q w := by
  unfold State.scrub
  exact h.voteFixes

theorem State.Keeps.aliveToggle (h : s.Keeps q w) : s.aliveToggle.Keeps q w := by
  unfold State.aliveToggle
  exact .ite h.record (.ite h.record h)

theorem State.Keeps.aliveResume (h : s.Keeps q w) : s.aliveResume.Keeps q w := by
  unfold State.aliveResume
  exact .ite h.record h

theorem State.Keeps.aliveTick (h : s.Keeps q w) : s.aliveTick.Keeps q w := by
  unfold State.aliveTick
  exact h.record

theorem execFaultClear_answers {a : Acc} {b : Block} {v : Word} (h : s.Keeps q w) : Answers q w (execFaultClear a b v s) :=
    by
  unfold execFaultClear
  exact h.viaReg (fun _ h => h.stsMeets.fltClear)

theorem execUnfence_answers {a : Acc} {u : FenceUnit} (h : s.Keeps q w) : Answers q w (execUnfence a u s) := by
  unfold execUnfence
  exact h.viaGrd (fun _ h => h.unfenceCmd)

theorem execFaultInject_answers {a : Acc} {b : Block} {v : Word} (h : s.Keeps q w) : Answers q w (execFaultInject a b v s)
    := by
  unfold execFaultInject
  exact h.viaGrd (fun _ h => h.injectCmd)

theorem execVoteScrub_answers {upsets : List Nat} (h : s.Keeps q w) : Answers q w (execVoteScrub upsets s) := by
  unfold execVoteScrub
  exact h.scrub.next

theorem execAliveToggle_answers (h : s.Keeps q w) : Answers q w (execAliveToggle s) := by
  unfold execAliveToggle
  exact h.aliveToggle.next

theorem execAliveResume_answers (h : s.Keeps q w) : Answers q w (execAliveResume s) := by
  unfold execAliveResume
  exact h.aliveResume.next

/-! Power and clocks (Sys2Proof/Machine/Power.lean). -/

theorem State.Keeps.causesOn {f : Nat} {is : List Nat} (h : s.Keeps q w) : (s.causesOn f is).Keeps q w := by
  unfold State.causesOn
  exact .ite h h.record.report

theorem State.Keeps.causeIs {f i : Nat} {present : Bool} (h : s.Keeps q w) : (s.causeIs f i present).Keeps q w := by
  unfold State.causeIs
  exact .ite h.cause h.uncause

theorem State.Keeps.badCfg (h : s.Keeps q w) : s.badCfg.Keeps q w := by
  unfold State.badCfg
  exact h.flag

theorem State.Keeps.refMove (h : s.Keeps q w) : s.refMove.Keeps q w := by
  unfold State.refMove
  exact .ite (.ite h.record h.record.putRg.putRg) h

theorem State.Keeps.refRecovered (h : s.Keeps q w) : s.refRecovered.Keeps q w := by
  unfold State.refRecovered
  exact .ite h.putRg.record.refMove h.badCfg

theorem State.Keeps.refLocal (h : s.Keeps q w) : s.refLocal.Keeps q w := by
  unfold State.refLocal
  exact .ite h.putRg.record.putRg.putRg h.putRg.record

theorem State.Keeps.slewEnd (h : s.Keeps q w) : s.slewEnd.Keeps q w := by
  unfold State.slewEnd
  exact h.putRg

theorem State.Keeps.refLost (h : s.Keeps q w) : s.refLost.Keeps q w := by
  unfold State.refLost
  exact .ite (State.Keeps.ite h h.record).putRg.cause h

theorem State.Keeps.refBack (h : s.Keeps q w) : s.refBack.Keeps q w := by
  unfold State.refBack
  exact h.putRg.uncause

theorem State.Keeps.holdTimeout (h : s.Keeps q w) : s.holdTimeout.Keeps q w := by
  unfold State.holdTimeout
  exact .ite h.refBack.putRg.putRg h

theorem State.Keeps.pllLocked {b : Bool} (h : s.Keeps q w) : (s.pllLocked b).Keeps q w := by
  unfold State.pllLocked
  exact h.putRg.putRg

theorem State.Keeps.pllLost (h : s.Keeps q w) : s.pllLost.Keeps q w := by
  unfold State.pllLost
  exact .ite h.pllLocked.cause h

theorem State.Keeps.droopNow {below : Nat} (h : s.Keeps q w) : (s.droopNow below).Keeps q w := by
  unfold State.droopNow
  exact .ite (.ite h.setRg h.setRg.record) (State.Keeps.ite (State.Keeps.ite h.setRg h.setRg.record).record (State.Keeps.ite
      h.setRg h.setRg.record).record.count).fault

theorem State.Keeps.throttleOver (h : s.Keeps q w) : s.throttleOver.Keeps q w := by
  unfold State.throttleOver
  exact .ite h (.ite h.setRg.record h.setRg)

theorem State.Keeps.throttleEnd (h : s.Keeps q w) : s.throttleEnd.Keeps q w := by
  unfold State.throttleEnd
  exact .ite h.record h

theorem State.Keeps.tempJudge {f hi crit th : Nat} {t : Int} (h : s.Keeps q w) : (s.tempJudge f hi crit th
    t).Keeps q w := by
  unfold State.tempJudge
  exact (h.foldl (fun _ _ h => .ite h.uncause h)).causesOn

theorem State.Keeps.tempTile {t : Nat} {hot : BitVec 16} (h : s.Keeps q w) : (s.tempTile t hot).Keeps q w := by
  unfold State.tempTile
  exact .ite h.setRg.tempJudge h

theorem State.Keeps.tempCore {hot : BitVec 16} (h : s.Keeps q w) : (s.tempCore hot).Keeps q w := by
  unfold State.tempCore
  exact .ite h.setRg.tempJudge h

theorem State.Keeps.tileSupply {t : Nat} {out : Bool} (h : s.Keeps q w) : (s.tileSupply t out).Keeps q w := by
  unfold State.tileSupply
  exact .ite h.causeIs h

theorem State.Keeps.coreSupply {out : Bool} (h : s.Keeps q w) : (s.coreSupply out).Keeps q w := by
  unfold State.coreSupply
  exact .ite h.causeIs h

theorem State.Keeps.tileClock {t : Nat} {lost : Bool} (h : s.Keeps q w) : (s.tileClock t lost).Keeps q w := by
  unfold State.tileClock
  exact h.causeIs

theorem State.Keeps.standbyCmd (h : s.Keeps q w) : s.standbyCmd.Keeps q w := by
  unfold State.standbyCmd
  exact .ite h.setRg.ddrMove.ddrMove h.flag

theorem State.Keeps.gate {x : Nat} (h : s.Keeps q w) : (s.gate x).Keeps q w := by
  unfold State.gate
  exact .ite h.setCoreSt.record h

theorem State.Keeps.ungate {x : Nat} (h : s.Keeps q w) : (s.ungate x).Keeps q w := by
  unfold State.ungate
  exact .ite h.setCoreSt.record h

theorem State.Keeps.tileSleep {t : Nat} (h : s.Keeps q w) : (s.tileSleep t).Keeps q w := by
  unfold State.tileSleep
  exact .ite h.setRg h

theorem State.Keeps.sleepCmd {t : Nat} (h : s.Keeps q w) : (s.sleepCmd t).Keeps q w := by
  unfold State.sleepCmd
  exact .ite h.tileSleep h.flag

theorem State.Keeps.wakeCmd {t : Nat} (h : s.Keeps q w) : (s.wakeCmd t).Keeps q w := by
  unfold State.wakeCmd
  exact .ite h.setRg h

theorem State.Keeps.wakingEnd {t : Nat} (h : s.Keeps q w) : (s.wakingEnd t).Keeps q w := by
  unfold State.wakingEnd
  exact .ite h.setRg h

theorem State.Keeps.standbyEnd (h : s.Keeps q w) : s.standbyEnd.Keeps q w := by
  unfold State.standbyEnd
  exact .ite h (((h.setRg.foldl (fun _ _ h => h.gate)).foldl (fun _ _ h => h.tileSleep)).record.wakeCores.foldl (fun _ _ h
      => h.wakeChan))

theorem State.Keeps.runCmd (h : s.Keeps q w) : s.runCmd.Keeps q w := by
  unfold State.runCmd
  exact .ite h.toRun h

theorem State.Keeps.applyGate {xs : List Nat} (h : s.Keeps q w) : (s.applyGate xs).Keeps q w := by
  unfold State.applyGate
  exact h.foldl (fun _ _ h => .ite h.gate h.ungate)

theorem State.Keeps.runEnd (h : s.Keeps q w) : s.runEnd.Keeps q w := by
  unfold State.runEnd
  exact .ite h h.setRg.ddrMove.ddrMove.applyGate

theorem State.Keeps.ddrRest {x : Nat} (h : s.Keeps q w) : (s.ddrRest x).Keeps q w := by
  unfold State.ddrRest
  exact .ite h.ddrMove h

theorem execRefSrc_answers {a : Acc} (h : s.Keeps q w) : Answers q w (execRefSrc a s) := by
  unfold execRefSrc
  exact h.viaReg (fun _ h => h.refRecovered)

theorem execRefclkLost_answers (h : s.Keeps q w) : Answers q w (execRefclkLost s) := by
  unfold execRefclkLost
  exact h.refLost.next

theorem execRefclkReturn_answers (h : s.Keeps q w) : Answers q w (execRefclkReturn s) := by
  unfold execRefclkReturn
  exact h.refBack.next

theorem execSlewingEnd_answers (h : s.Keeps q w) : Answers q w (execSlewingEnd s) := by
  unfold execSlewingEnd
  exact h.slewEnd.next

theorem execHoldoverTimeout_answers (h : s.Keeps q w) : Answers q w (execHoldoverTimeout s) := by
  unfold execHoldoverTimeout
  exact h.holdTimeout.next

theorem execPllUnlock_answers (h : s.Keeps q w) : Answers q w (execPllUnlock s) := by
  unfold execPllUnlock
  exact h.pllLost.next

theorem execDroop_answers {below : BitVec 16} (h : s.Keeps q w) : Answers q w (execDroop below s) := by
  unfold execDroop
  exact (State.Keeps.ite h.votes.droopNow h).next

theorem execThrottleEnd_answers (h : s.Keeps q w) : Answers q w (execThrottleEnd s) := by
  unfold execThrottleEnd
  exact h.votes.throttleOver.next

theorem execTempMonitor_answers {site : TempSite} {hottest : BitVec 16} (h : s.Keeps q w) : Answers q w (execTempMonitor
    site hottest s) := by
  unfold execTempMonitor
  split
  · exact h.votes.tempTile.next
  · exact h.votes.tempCore.next

theorem execSupplyExcursion_answers {site : SupplySite} {outside : Bool} (h : s.Keeps q w) : Answers q w
    (execSupplyExcursion site outside s) := by
  unfold execSupplyExcursion
  split
  · exact h.tileSupply.next
  · exact h.coreSupply.next

theorem execClkQual_answers {t : TileId} {lost : Bool} (h : s.Keeps q w) : Answers q w (execClkQual t lost s) := by
  unfold execClkQual
  exact h.tileClock.next

theorem execStandby_answers {a : Acc} (h : s.Keeps q w) : Answers q w (execStandby a s) := by
  unfold execStandby
  exact h.viaReg (fun _ h => h.standbyCmd)

theorem execRun_answers {a : Acc} (h : s.Keeps q w) : Answers q w (execRun a s) := by
  unfold execRun
  exact h.viaReg (fun _ h => h.runCmd)

theorem execStandbyReached_answers (h : s.Keeps q w) : Answers q w (execStandbyReached s) := by
  unfold execStandbyReached
  exact h.standbyEnd.next

theorem execRunReached_answers (h : s.Keeps q w) : Answers q w (execRunReached s) := by
  unfold execRunReached
  exact h.runEnd.next

theorem execSleep_answers {a : Acc} {t : TileId} (h : s.Keeps q w) : Answers q w (execSleep a t s) := by
  unfold execSleep
  exact h.viaReg (fun _ h => h.sleepCmd)

theorem execWake_answers {a : Acc} {t : TileId} (h : s.Keeps q w) : Answers q w (execWake a t s) := by
  unfold execWake
  exact h.viaReg (fun _ h => h.wakeCmd)

theorem execTileOn_answers {t : TileId} (h : s.Keeps q w) : Answers q w (execTileOn t s) := by
  unfold execTileOn
  exact h.wakingEnd.next

theorem execDdrSelfRefresh_answers {x : DdrId} (h : s.Keeps q w) : Answers q w (execDdrSelfRefresh x s) := by
  unfold execDdrSelfRefresh
  exact h.ddrRest.next

/-! Start-up (Sys2Proof/Machine/Startup.lean). -/

theorem State.Keeps.setStage {v : Nat} (h : s.Keeps q w) : (s.setStage v).Keeps q w := by
  unfold State.setStage
  exact h.setRg

theorem State.Keeps.setRel {d : Nat} {b : Bool} (h : s.Keeps q w) : (s.setRel d b).Keeps q w := by
  unfold State.setRel
  exact h.putRg

theorem State.Keeps.setWait {d : Nat} {b : Bool} (h : s.Keeps q w) : (s.setWait d b).Keeps q w := by
  unfold State.setWait
  exact h.putRg

theorem State.Keeps.raise {f i : Nat} (h : s.Keeps q w) : (s.raise f i).Keeps q w := by
  unfold State.raise
  exact h.onset0.settleFaults

theorem State.Keeps.pinReset (h : s.Keeps q w) : s.pinReset.Keeps q w := by
  unfold State.pinReset
  exact .ite h.chipReset h

theorem State.Keeps.driveEnd (h : s.Keeps q w) : s.driveEnd.Keeps q w := by
  unfold State.driveEnd
  exact .ite h.record h

theorem State.Keeps.seqStart (h : s.Keeps q w) : s.seqStart.Keeps q w := by
  unfold State.seqStart
  exact .ite h.record.setStage h

theorem State.Keeps.swReset (h : s.Keeps q w) : s.swReset.Keeps q w := by
  unfold State.swReset
  exact h.setRg.chipReset

theorem State.Keeps.trimStart {d : Nat} (h : s.Keeps q w) : (s.trimStart d).Keeps q w := by
  unfold State.trimStart
  exact h.count.setRg.record

theorem State.Keeps.strapSet {sum : Nat} (h : s.Keeps q w) : (s.strapSet sum).Keeps q w := by
  unfold State.strapSet
  exact .ite (h.setRg.record.setStage.foldl (fun _ _ h => h.trimStart)) h

theorem State.Keeps.setTrimResult {d v : Nat} (h : s.Keeps q w) : (s.setTrimResult d v).Keeps q w := by
  unfold State.setTrimResult
  exact h.setRg

theorem State.Keeps.objClear {t : Nat} (h : s.Keeps q w) : (s.objClear t).Keeps q w :=
  h.memFilter fun a => !objArea t a

theorem State.Keeps.storeCells {a : List (Nat × Byte)} (h : s.Keeps q w) : (s.storeCells a).Keeps q w := by
  induction a generalizing s with
  | nil =>
    exact h
  | cons _ _ ih =>
    exact ih h.storeRaw

theorem State.Keeps.trimTake {t : Nat} {img : TrimImage} (h : s.Keeps q w) : (s.trimTake t img).Keeps q w := by
  unfold State.trimTake
  exact .ite h.setTile.setRg h.setTile.setRg.objClear.storeCells.record

theorem State.Keeps.trimSettle (h : s.Keeps q w) : s.trimSettle.Keeps q w := by
  unfold State.trimSettle
  exact .ite h.setStage h

theorem State.Keeps.trimDone {d : Nat} {pass : Bool} {img : TrimImage} (h : s.Keeps q w) : (s.trimDone d pass img).Keeps q w
    := by
  unfold State.trimDone
  exact .ite h (.ite (State.Keeps.ite h.setTrimResult h.setTrimResult.trimTake.record.uncause.setWait).trimSettle (.ite
      h.trimStart (.ite h.setTrimResult.putRg h.record.setTrimResult.putRg.raise.trimSettle)))

theorem State.Keeps.pllGot (h : s.Keeps q w) : s.pllGot.Keeps q w := by
  unfold State.pllGot
  exact .ite h (.ite h.pllLocked.uncause.setStage.setWait h.pllLocked.uncause)

theorem State.Keeps.step4End (h : s.Keeps q w) : s.step4End.Keeps q w := by
  unfold State.step4End
  exact .ite (.ite h.setStage h.setStage) h

theorem State.Keeps.tileRelease {t : Nat} (h : s.Keeps q w) : (s.tileRelease t).Keeps q w := by
  unfold State.tileRelease
  exact .ite (h.record.setRel.setWait.record.foldl (fun _ _ h => h.trimLoad.cmpSettle.trimReload)) h.record.setRel.setWait

theorem State.Keeps.beginTicks (h : s.Keeps q w) : s.beginTicks.Keeps q w := by
  unfold State.beginTicks
  exact .ite h h.mtimeShow.record.tickFires.step4End

theorem State.Keeps.portsRelease (h : s.Keeps q w) : s.portsRelease.Keeps q w := by
  unfold State.portsRelease
  exact h.foldl (fun _ _ h => .ite h.setPortSt h)

theorem State.Keeps.coresRelease (h : s.Keeps q w) : s.coresRelease.Keeps q w := by
  unfold State.coresRelease
  exact .ite (h.setCoreSt.foldl (fun _ _ h => h.setCoreSt)).record (.ite (h.setCoreSt.foldl (fun _ _ h =>
      h.setCoreSt)).setRg (.ite (h.setCoreSt.foldl (fun _ _ h => h.setCoreSt)).setRg (h.setCoreSt.foldl (fun _ _ h =>
          h.setCoreSt)).record))

theorem State.Keeps.domainRelease {d : Domain} (h : s.Keeps q w) : (s.domainRelease d).Keeps q w := by
  unfold State.domainRelease
  refine .ite h ?_
  split
  · exact .ite h h.setRel.setWait.setWait.portsRelease
  · exact .ite h h.setRel.setWait.setWait
  · exact .ite h (.ite (h.setRel.setWait.coresRelease.foldl (fun _ _ h => h.setWait)).beginTicks
      (h.setRel.setWait.coresRelease.foldl (fun _ _ h => h.setWait)))
  · exact .ite h (.ite h (h.foldl (fun _ _ h => h.tileRelease)).beginTicks)

theorem State.Keeps.qualTimeout {u : QualUnit} (h : s.Keeps q w) : (s.qualTimeout u).Keeps q w := by
  unfold State.qualTimeout
  split
  · exact .ite h.fence.fault h
  · exact .ite h.record.cause h
  · exact .ite h.fence.raise h
  · exact .ite (.ite h.setWait.putRg.cause.beginTicks h.setWait.putRg.cause) h

theorem State.Keeps.bootSrc {src : Nat} {backup : Bool} (h : s.Keeps q w) : (s.bootSrc src backup).Keeps q w := by
  unfold State.bootSrc
  exact h.setRg

theorem State.Keeps.bootWait (h : s.Keeps q w) : s.bootWait.Keeps q w := by
  unfold State.bootWait
  exact .ite h.record.setStage h.record

theorem State.Keeps.bootVerdict {v : ImageVerdict} {flash : List Byte} (h : s.Keeps q w) : (s.bootVerdict v flash).Keeps q w
    := by
  unfold State.bootVerdict
  exact .ite h (.ite (State.Keeps.ite (State.Keeps.ite h.corePut h).record (.ite h.corePut h)).record (.ite (State.Keeps.ite
      h.corePut h).setRg.bootSrc (State.Keeps.ite (State.Keeps.ite h.corePut h).setRg.record (State.Keeps.ite h.corePut
          h).setRg).bootWait))

theorem State.Keeps.bootGo (h : s.Keeps q w) : s.bootGo.Keeps q w := by
  unfold State.bootGo
  exact .ite h.setStage.record.coreStart h

theorem State.Keeps.bootDoor {r : Req} {v : Nat} (h : s.Keeps q w) : (s.bootDoor r v).Keeps q w := by
  unfold State.bootDoor
  dsimp only
  split
  · exact h
  · exact .ite h.bootSrc.record.setStage h

theorem State.Keeps.pinsReset {n : Nat} (h : s.Keeps q w) : (s.pinsReset n).Keeps q w := by
  unfold State.pinsReset
  exact h.pwmLow.updCh

theorem State.Keeps.tileBlockReset {t : Nat} (h : s.Keeps q w) : (s.tileBlockReset t).Keeps q w := by
  unfold State.tileBlockReset
  exact (h.foldl (fun _ _ h => h.chanReset.pinsReset)).tileReset.uncause.record.setRel.setWait.putRg.record.trimStart

theorem State.Keeps.coreBlockReset {x : Nat} (h : s.Keeps q w) : (s.coreBlockReset x).Keeps q w := by
  unfold State.coreBlockReset
  exact .ite h.coreReset h.coreReset.setCoreSt

theorem State.Keeps.portBlockReset {p : Nat} (h : s.Keeps q w) : (s.portBlockReset p).Keeps q w := by
  unfold State.portBlockReset
  exact (State.Keeps.ite h.portReset h.portReset.setPortSt).linkLevel

theorem State.Keeps.ddrBlockReset {x : Nat} (h : s.Keeps q w) : (s.ddrBlockReset x).Keeps q w := by
  unfold State.ddrBlockReset
  exact h.ddrReset.setRg

theorem State.Keeps.blockResetCmd {key : Nat} (h : s.Keeps q w) : (s.blockResetCmd key).Keeps q w := by
  unfold State.blockResetCmd
  refine .ite h.flag ?_
  refine .ite ?_ h.setRg.flag
  refine State.Keeps.flag ?_
  refine .ite h.setRg ?_
  split
  · exact h.setRg.tileBlockReset
  · exact h.setRg.coreBlockReset
  · exact h.setRg.portBlockReset
  · exact h.setRg.ddrBlockReset

theorem execPowerOnReset_answers (h : s.Keeps q w) : Answers q w (execPowerOnReset s) := by
  unfold execPowerOnReset
  exact h.chipReset.next

theorem execResetPin_answers (h : s.Keeps q w) : Answers q w (execResetPin s) := by
  unfold execResetPin
  exact h.pinReset.next

theorem execResetDriveEnd_answers (h : s.Keeps q w) : Answers q w (execResetDriveEnd s) := by
  unfold execResetDriveEnd
  exact h.driveEnd.next

theorem execSequenceStart_answers (h : s.Keeps q w) : Answers q w (execSequenceStart s) := by
  unfold execSequenceStart
  exact h.seqStart.next

theorem execStrapMeasured_answers {sum : Nat} (h : s.Keeps q w) : Answers q w (execStrapMeasured sum s) := by
  unfold execStrapMeasured
  exact h.strapSet.next

theorem execTrimLoadDone_answers {d : DieId} {pass : Bool} {img : TrimImage} (h : s.Keeps q w) : Answers q w
    (execTrimLoadDone d pass img s) := by
  unfold execTrimLoadDone
  exact h.trimDone.next

theorem execPllLock_answers (h : s.Keeps q w) : Answers q w (execPllLock s) := by
  unfold execPllLock
  exact h.pllGot.next

theorem execPllLockRetry_answers (h : s.Keeps q w) : Answers q w (execPllLockRetry s) := by
  unfold execPllLockRetry
  exact h.next

theorem execDomainRelease_answers {d : Domain} (h : s.Keeps q w) : Answers q w (execDomainRelease d s) := by
  unfold execDomainRelease
  exact h.domainRelease.next

theorem execQualifierTimeout_answers {u : QualUnit} (h : s.Keeps q w) : Answers q w (execQualifierTimeout u s) := by
  unfold execQualifierTimeout
  exact h.qualTimeout.next

theorem execImageVerified_answers {v : ImageVerdict} {flash : List Byte} (h : s.Keeps q w) : Answers q w (execImageVerified
    v flash s) := by
  unfold execImageVerified
  exact h.bootVerdict.next

theorem execBootJump_answers (h : s.Keeps q w) : Answers q w (execBootJump s) := by
  unfold execBootJump
  exact h.bootGo.next

theorem execSysBootDoor_answers {a : Acc} {v : Word} (h : s.Keeps q w) : Answers q w (execSysBootDoor a v s) := by
  unfold execSysBootDoor
  exact h.viaReg (fun _ h => h.bootDoor)

theorem execSysChiprst_answers {a : Acc} (h : s.Keeps q w) : Answers q w (execSysChiprst a s) := by
  unfold execSysChiprst
  exact h.viaGrd (fun _ h => h.swReset)

theorem execBlockReset_answers {a : Acc} {key : Word} (h : s.Keeps q w) : Answers q w (execBlockReset a key s) := by
  unfold execBlockReset
  exact h.viaGrd (fun _ h => h.blockResetCmd)

/-! Cores (Sys2Proof/Machine/Cores.lean). -/

theorem State.Keeps.coresRun {l : List CoreIn} (h : s.Keeps q w) : (s.coresRun l).Keeps q w := by
  unfold State.coresRun
  exact h.foldl (fun _ _ h => .ite h.setCoreRegs.setCoreSt h)

theorem State.Keeps.haltCmd {x : Nat} (h : s.Keeps q w) : (s.haltCmd x).Keeps q w := by
  unfold State.haltCmd
  exact .ite h.record h

theorem State.Keeps.haltEnd {x : Nat} (h : s.Keeps q w) : (s.haltEnd x).Keeps q w := by
  unfold State.haltEnd
  exact .ite h.setCoreSt.record h

theorem State.Keeps.resumeCmd {x : Nat} (h : s.Keeps q w) : (s.resumeCmd x).Keeps q w := by
  unfold State.resumeCmd
  exact .ite h.setCoreSt h

theorem State.Keeps.restartCmd {x : Nat} (h : s.Keeps q w) : (s.restartCmd x).Keeps q w := by
  unfold State.restartCmd
  exact .ite h (.ite h.record.coreStart.record h.record.coreStart.setCoreSt)

theorem State.Keeps.coreCmd {r : Req} {x : Nat} {eff : State → State} (h : s.Keeps q w) (heff : ∀ t, t.Keeps q w → (eff
    t).Keeps q w) : (s.coreCmd r x eff).Keeps q w := by
  unfold State.coreCmd
  exact .ite h (heff _ h)

theorem State.Keeps.wdogLoad {x : Nat} (h : s.Keeps q w) : (s.wdogLoad x).Keeps q w := by
  unfold State.wdogLoad
  exact h.record

theorem State.Keeps.wdogZero {x : Nat} (h : s.Keeps q w) : (s.wdogZero x).Keeps q w := by
  unfold State.wdogZero
  exact .ite h.wdogLoad.fault h

theorem State.Keeps.kick {x v : Nat} (h : s.Keeps q w) : (s.kick x v).Keeps q w := by
  unfold State.kick
  exact .ite h.wdogLoad h

theorem State.Keeps.wdogTick (h : s.Keeps q w) : s.wdogTick.Keeps q w := by
  unfold State.wdogTick
  exact .ite h (h.foldl (fun _ _ h => .ite h.record h))

theorem State.Keeps.timerCmp {x cmp : Nat} (h : s.Keeps q w) : (s.timerCmp x cmp).Keeps q w := by
  unfold State.timerCmp
  exact h.mtimeShow.record

theorem State.Keeps.mtips (h : s.Keeps q w) : s.mtips.Keeps q w := by
  unfold State.mtips
  exact .ite h h.record

theorem State.Keeps.updGoCmd (h : s.Keeps q w) : s.updGoCmd.Keeps q w := by
  unfold State.updGoCmd
  exact .ite h.updFlag (.ite h.updFlag (.ite h.updFlag h.record))

theorem State.Keeps.updEnd {v : ImageVerdict} (h : s.Keeps q w) : (s.updEnd v).Keeps q w := by
  unfold State.updEnd
  split
  · exact h
  · exact .ite h.record.unitRead.updFlag (.ite h.record.unitRead.put.fault.updFlag h.record.unitRead.put.setRg.updFlag)

theorem State.Keeps.sramFound {a : Nat} {ue : Bool} (h : s.Keeps q w) : (s.sramFound a ue).Keeps q w := by
  unfold State.sramFound
  exact .ite (.ite h.record.ueAt.fault.setStale h.record.ueAt.fault) h.record.fault

theorem State.Keeps.ddrFound {x a : Nat} {ue : Bool} (h : s.Keeps q w) : (s.ddrFound x a ue).Keeps q w := by
  unfold State.ddrFound
  exact .ite h.record.ueAt.fault h.record.fault

theorem State.Keeps.sramScrub {found : List EccFinding} (h : s.Keeps q w) : (s.sramScrub found).Keeps q w := by
  unfold State.sramScrub
  exact h.foldl (fun _ _ h => h.sramFound)

theorem State.Keeps.ddrScrub {x : Nat} {found : List EccFinding} (h : s.Keeps q w) : (s.ddrScrub x found).Keeps q w := by
  unfold State.ddrScrub
  exact .ite h (h.foldl (fun _ _ h => h.ddrFound))

theorem State.Keeps.ddrInit {x : Nat} (h : s.Keeps q w) : (s.ddrInit x).Keeps q w := by
  unfold State.ddrInit
  exact .ite h.ddrStart.setRg h

theorem State.Keeps.ddrTrained {x : Nat} (h : s.Keeps q w) : (s.ddrTrained x).Keeps q w := by
  unfold State.ddrTrained
  exact .ite h.setRg.uncause h

theorem State.Keeps.ddrFailed {x : Nat} (h : s.Keeps q w) : (s.ddrFailed x).Keeps q w := by
  unfold State.ddrFailed
  exact .ite h.setRg.raise h

theorem State.Keeps.coreTick (h : s.Keeps q w) : s.coreTick.Keeps q w := by
  unfold State.coreTick
  exact h.record

theorem State.Keeps.coreWaits (h : s.Keeps q w) : s.coreWaits.Keeps q w := by
  unfold State.coreWaits
  exact (h.foldl (fun _ _ h => h.wdogZero)).foldl (fun _ _ h => .ite (State.Keeps.ite h.ddrFailed h).ddrRest (.ite
      h.ddrFailed h))

theorem execHalt_answers {a : Acc} {x : CoreId} (h : s.Keeps q w) : Answers q w (execHalt a x s) := by
  unfold execHalt
  exact h.viaReg (fun _ h => h.coreCmd (fun _ h => h.haltCmd))

theorem execCoreHalted_answers {x : CoreId} (h : s.Keeps q w) : Answers q w (execCoreHalted x s) := by
  unfold execCoreHalted
  exact h.haltEnd.next

theorem execCoreRun_answers {a : Acc} {x : CoreId} (h : s.Keeps q w) : Answers q w (execCoreRun a x s) := by
  unfold execCoreRun
  exact h.viaReg (fun _ h => h.coreCmd (fun _ h => h.resumeCmd))

theorem execRestart_answers {a : Acc} {x : CoreId} (h : s.Keeps q w) : Answers q w (execRestart a x s) := by
  unfold execRestart
  exact h.viaReg (fun _ h => h.coreCmd (fun _ h => h.restartCmd))

theorem execWdog_answers {x : CoreId} (h : s.Keeps q w) : Answers q w (execWdog x s) := by
  unfold execWdog
  exact h.votes.wdogZero.next

theorem execCoreKick_answers {a : Acc} {x : CoreId} {v : Word} (h : s.Keeps q w) : Answers q w (execCoreKick a x v s) := by
  unfold execCoreKick
  exact h.viaReg (fun _ h => h.votes.kick)

theorem execMtimecmpMatch_answers {x : CoreId} {cmp : BitVec 64} (h : s.Keeps q w) : Answers q w (execMtimecmpMatch x cmp s)
    := by
  unfold execMtimecmpMatch
  exact h.timerCmp.next

theorem execCoreUpdGo_answers {a : Acc} (h : s.Keeps q w) : Answers q w (execCoreUpdGo a s) := by
  unfold execCoreUpdGo
  exact h.viaReg (fun _ h => h.updGoCmd)

theorem execUpdateDone_answers {v : ImageVerdict} (h : s.Keeps q w) : Answers q w (execUpdateDone v s) := by
  unfold execUpdateDone
  exact h.updEnd.next

theorem execSramPatrol_answers {found : List EccFinding} (h : s.Keeps q w) : Answers q w (execSramPatrol found s) := by
  unfold execSramPatrol
  exact h.sramScrub.next

theorem execDdrPatrol_answers {x : DdrId} {found : List EccFinding} (h : s.Keeps q w) : Answers q w (execDdrPatrol x found
    s) := by
  unfold execDdrPatrol
  exact h.ddrScrub.next

theorem execInit_answers {a : Acc} {x : DdrId} (h : s.Keeps q w) : Answers q w (execInit a x s) := by
  unfold execInit
  exact h.viaReg (fun _ h => h.ddrInit)

theorem execDdrTrainingDone_answers {x : DdrId} (h : s.Keeps q w) : Answers q w (execDdrTrainingDone x s) := by
  unfold execDdrTrainingDone
  exact h.ddrTrained.next

theorem execDdrTrainingTimeout_answers {x : DdrId} (h : s.Keeps q w) : Answers q w (execDdrTrainingTimeout x s) := by
  unfold execDdrTrainingTimeout
  exact h.ddrFailed.next

/-! The fabric (Sys2Proof/Machine/FabricCtl.lean). -/

theorem State.Keeps.trainStart {p : Nat} (h : s.Keeps q w) : (s.trainStart p).Keeps q w := by
  unfold State.trainStart
  exact .ite h.setPort.setPortSt h

theorem State.Keeps.portRise {p d : Nat} (h : s.Keeps q w) : (s.portRise p d).Keeps q w := by
  unfold State.portRise
  exact .ite h h.setPortSt.setPort.setRg.flag.linkLevel.topoOut

theorem State.Keeps.trainFail {p : Nat} (h : s.Keeps q w) : (s.trainFail p).Keeps q w := by
  unfold State.trainFail
  exact .ite h.setPortSt h

theorem State.Keeps.portLose {p : Nat} (h : s.Keeps q w) : (s.portLose p).Keeps q w := by
  unfold State.portLose
  exact .ite h.portDown.settleFaults h

theorem State.Keeps.portsLose {ps : List Nat} (h : s.Keeps q w) : (s.portsLose ps).Keeps q w := by
  unfold State.portsLose
  exact (h.cycleBegin.foldl (fun _ _ h => .ite h.portDown h)).settleFaults.cycleEnd

theorem State.Keeps.portCtl {v : Nat} (h : s.Keeps q w) : (s.portCtl v).Keeps q w := by
  unfold State.portCtl
  exact (h.setRg.foldl (fun _ _ h => h.linkLevel)).portsLose

theorem State.Keeps.fabBad (h : s.Keeps q w) : s.fabBad.Keeps q w := by
  unfold State.fabBad
  exact h.flag

theorem State.Keeps.cqDrain {a : Nat} (h : s.Keeps q w) : (State.cqDrain a s).Keeps q w := by
  induction a generalizing s with
  | zero =>
    exact h
  | succ _ ih =>
    unfold State.cqDrain
    split
    · refine .ite h ?_
      split
      · refine ih ?_
        split
        · exact h.complete.complete
        · exact h.complete
      · exact h
    · exact h

theorem State.Keeps.cqRptr {v : Nat} (h : s.Keeps q w) : (s.cqRptr v).Keeps q w := by
  unfold State.cqRptr
  exact h.linesRise.setRg.cqDrain

theorem State.Keeps.ringSize {rel base unit v : Nat} (h : s.Keeps q w) : (s.ringSize rel base unit v).Keeps
    q w := by
  unfold State.ringSize
  exact .ite h.fabBad h.setRg

theorem State.Keeps.bcastOut {f : Frame} {not_ : Option Nat} (h : s.Keeps q w) : (s.bcastOut f not_).Keeps q w := by
  unfold State.bcastOut
  exact h.foldl (fun _ _ h => .ite h.emit h)

theorem State.Keeps.frameGoCmd (h : s.Keeps q w) : s.frameGoCmd.Keeps q w := by
  unfold State.frameGoCmd
  exact .ite h.fabBad (.ite h.record.bcastOut h.record)

theorem State.Keeps.frameApply {k : Nat} (h : s.Keeps q w) : (s.frameApply k).Keeps q w := by
  unfold State.frameApply
  split
  · exact .ite h.setRg.record h
  · exact h

theorem State.Keeps.dictDone {t : Txn} {w' : Nat} {data : List Byte} (h : s.Keeps q w) : (s.dictDone t w' data).Keeps q w := by
  unfold State.dictDone
  exact h.complete

theorem State.Keeps.second {t : Txn} {status done : Nat} {data : List Byte} (h : s.Keeps q w) : (s.second t status done
    data).Keeps q w := by
  unfold State.second
  exact .ite h.record h.complete

theorem State.Keeps.resultIn {tag dtag w' : Nat} {data : List Byte} (h : s.Keeps q w) : (s.resultIn tag dtag w'
    data).Keeps q w := by
  unfold State.resultIn
  split
  · exact h.second
  · exact h.count

theorem State.Keeps.resultLate {tag : Nat} (h : s.Keeps q w) : (s.resultLate tag).Keeps q w := by
  unfold State.resultLate
  split
  · exact h.second
  · exact h

theorem State.Keeps.fwAnswer {r : FwReq} {w0 : Nat} {data0 : List Byte} (h : s.Keeps q w) : (s.fwAnswer r w0 data0).Keeps q w
    := by
  unfold State.fwAnswer
  exact .ite (State.Keeps.ite (.ite h.record.unitRead.fault h.record.unitRead) (State.Keeps.ite h.record.unitRead.fault
      h.record.unitRead).count).resultIn (State.Keeps.ite (.ite h.record.unitRead.fault h.record.unitRead) (State.Keeps.ite
          h.record.unitRead.fault h.record.unitRead).count).sendFrame

theorem State.Keeps.fwReplyCmd {ab : Nat} (h : s.Keeps q w) : (s.fwReplyCmd ab).Keeps q w := by
  unfold State.fwReplyCmd
  dsimp only
  split
  · exact h.linesRise.setRg.flag
  · exact h.linesRise.setRg.fwAnswer

theorem State.Keeps.fwqLose {a : List FwReq} (h : s.Keeps q w) : (s.fwqLose a).Keeps q w := by
  induction a generalizing s with
  | nil =>
    exact h
  | cons _ _ ih =>
    exact ih h.fwAnswer

theorem State.Keeps.xspiCmd {v : Nat} (h : s.Keeps q w) : (s.xspiCmd v).Keeps q w := by
  unfold State.xspiCmd
  exact .ite h (.ite h.linesRise.setRg.record h.linesRise.setRg)

theorem State.Keeps.xspiFill {i : Nat} {l : List Byte} (h : s.Keeps q w) : (s.xspiFill i l).Keeps q w := by
  induction s, i, l using State.xspiFill.induct with
  | case1 s i a b c d r ih => exact ih h.setRg
  | case2 => exact h
  | case3 s i l h4 h0 =>
    rw [State.xspiFill.eq_3 _ _ _ h4 h0]
    exact h.setRg

theorem State.Keeps.xspiEnd {data : List Byte} (h : s.Keeps q w) : (s.xspiEnd data).Keeps q w := by
  unfold State.xspiEnd
  exact .ite h (State.Keeps.ite h h.xspiFill).putRg.record

theorem State.Keeps.uartSend {b : Byte} (h : s.Keeps q w) : (s.uartSend b).Keeps q w := by
  unfold State.uartSend
  exact .ite h.record h

theorem State.Keeps.uartTick (h : s.Keeps q w) : s.uartTick.Keeps q w := by
  unfold State.uartTick
  split
  · exact h
  · exact .ite h.record h.record

theorem State.Keeps.loaderByte {b : Byte} (h : s.Keeps q w) : (s.loaderByte b).Keeps q w := by
  have put : ∀ {s : State} (l : Loader), s.Keeps q w → State.Keeps q w { s with boot := { s.boot with loader := l } } :=
    fun _ h => h.record
  unfold State.loaderByte
  dsimp only
  split
  · exact .ite (put _ h) h
  · exact .ite (put _ h) (put _ h)
  · exact .ite (put _ h) (.ite (put _ h) (put _ h))
  · exact .ite (put _ h.corePut) (put _ h.corePut)
  · exact .ite (put _ h) (.ite (State.Keeps.bootSrc (.ite h.setStage h)).record h.record)
  · exact h

theorem State.Keeps.uartIn {b : Byte} (h : s.Keeps q w) : (s.uartIn b).Keeps q w := by
  unfold State.uartIn
  exact .ite h.loaderByte h.record

theorem State.Keeps.loaderAsk (h : s.Keeps q w) : s.loaderAsk.Keeps q w := by
  unfold State.loaderAsk
  exact .ite h.record h

theorem State.Keeps.dmaWptrCmd {e v : Nat} (h : s.Keeps q w) : (s.dmaWptrCmd e v).Keeps q w := by
  unfold State.dmaWptrCmd
  exact h.linesRise.setRg.record

theorem execPortTrainStart_answers {p : PortId} (h : s.Keeps q w) : Answers q w (execPortTrainStart p s) := by
  unfold execPortTrainStart
  exact h.trainStart.next

theorem execPortUp_answers {p : PortId} {delay : Word} (h : s.Keeps q w) : Answers q w (execPortUp p delay s) := by
  unfold execPortUp
  exact h.portRise.next

theorem execTrainingTimeout_answers {p : PortId} (h : s.Keeps q w) : Answers q w (execTrainingTimeout p s) := by
  unfold execTrainingTimeout
  exact h.trainFail.next

theorem execRetrain_answers {a : Acc} {p : PortId} (h : s.Keeps q w) : Answers q w (execRetrain a p s) := by
  unfold execRetrain
  exact h.viaReg (fun _ h => h.portLose)

theorem execBlockLockLoss_answers {p : PortId} (h : s.Keeps q w) : Answers q w (execBlockLockLoss p s) := by
  unfold execBlockLockLoss
  exact h.portLose.next

theorem execFabRqWptr_answers {a : Acc} {v : Word} (h : s.Keeps q w) : Answers q w (execFabRqWptr a v s) := by
  unfold execFabRqWptr
  exact h.viaReg (fun _ h => h.setRg)

theorem execFrameLengthGo_answers {a : Acc} (h : s.Keeps q w) : Answers q w (execFrameLengthGo a s) := by
  unfold execFrameLengthGo
  exact h.viaReg (fun _ h => h.frameGoCmd)

theorem execFrameLengthApply_answers (h : s.Keeps q w) : Answers q w (execFrameLengthApply s) := by
  unfold execFrameLengthApply
  exact h.frameApply.next

theorem execFwReply_answers {a : Acc} {abort : Byte} (h : s.Keeps q w) : Answers q w (execFwReply a abort s) := by
  unfold execFwReply
  exact h.viaReg (fun _ h => h.fwReplyCmd)

theorem execDeferredTimeout_answers {tag : BitVec 12} (h : s.Keeps q w) : Answers q w (execDeferredTimeout tag s) := by
  unfold execDeferredTimeout
  exact h.resultLate.next

theorem execHostDmaWptr_answers {a : Acc} {e : DmaId} {v : Word} (h : s.Keeps q w) : Answers q w (execHostDmaWptr a e v s)
    := by
  unfold execHostDmaWptr
  exact h.viaReg (fun _ h => h.dmaWptrCmd)

theorem execXspiGo_answers {a : Acc} {v : Word} (h : s.Keeps q w) : Answers q w (execXspiGo a v s) := by
  unfold execXspiGo
  exact h.viaReg (fun _ h => h.xspiCmd)

theorem execXspiDone_answers {data : List Byte} (h : s.Keeps q w) : Answers q w (execXspiDone data s) := by
  unfold execXspiDone
  exact h.xspiEnd.next

theorem execUartRx_answers {b : Byte} (h : s.Keeps q w) : Answers q w (execUartRx b s) := by
  unfold execUartRx
  exact h.uartIn.next

theorem execUartTx_answers {a : Acc} {b : Byte} (h : s.Keeps q w) : Answers q w (execUartTx a b s) := by
  unfold execUartTx
  exact h.viaReg (fun _ h => h.uartSend)

theorem execLoaderPrompt_answers (h : s.Keeps q w) : Answers q w (execLoaderPrompt s) := by
  unfold execLoaderPrompt
  exact h.loaderAsk.next

/-! The bus (Sys2Proof/Machine/Bus.lean). -/

theorem State.Keeps.readReg {r : Req} {o : Nat} (h : s.Keeps q w) : (s.readReg r o).1.Keeps q w := by
  unfold State.readReg
  dsimp only
  split
  · exact .ite (State.Keeps.ite h.mtimeShow h).voteFix (.ite h.mtimeShow h)
  · exact .ite ((State.Keeps.ite (State.Keeps.ite h.mtimeShow h).voteFix (.ite h.mtimeShow h)).foldl (fun _ _ h =>
      h.record)).linesRise.record ((State.Keeps.ite (State.Keeps.ite h.mtimeShow h).voteFix (.ite h.mtimeShow h)).foldl (fun
          _ _ h => h.record))

theorem State.Keeps.stsPut {l : Loc} {fl o v : Nat} (h : s.Keeps q w) : (s.stsPut l fl o v).Keeps q w := by
  unfold State.stsPut
  exact .ite h.fltClear (.ite h.stsDrop h.flag)

theorem State.Keeps.cntPut {r : Req} {l : Loc} {o v : Nat} (h : s.Keeps q w) : (s.cntPut r l o v).Keeps q w := by
  unfold State.cntPut
  refine .ite h.record ?_
  refine .ite ?_ (.ite h.decideAll.setRg h.setRg)
  split
  · exact h.record.setRg.setRg
  · exact h.setRg

theorem State.Keeps.svcKey {v : Nat} (h : s.Keeps q w) : (s.svcKey v).Keeps q w := by
  unfold State.svcKey
  exact .ite h.setRg (.ite h.setRg h.guardErr)

theorem State.Keeps.fltUnfenceKey {f v : Nat} (h : s.Keeps q w) : (s.fltUnfenceKey f v).Keeps q w := by
  unfold State.fltUnfenceKey
  exact .ite h (.ite (.ite h.unfenceCmd h) (.ite (.ite h.unfenceCmd h) (.ite h (.ite h.unfenceCmd (.ite h.unfenceCmd h)))))

theorem State.Keeps.grdAct {l : Loc} {v : Nat} (h : s.Keeps q w) : (s.grdAct l v).Keeps q w := by
  unfold State.grdAct
  split
  · exact .ite (.ite h.chanReset h) (.ite h.unfenceCmd h)
  · exact .ite h.clampKey h
  · exact .ite h.injectCmd h.fltUnfenceKey
  · exact .ite h.svcKey (.ite (.ite h.swReset h) h.blockResetCmd)
  · exact h

theorem State.Keeps.grdPut {r : Req} {l : Loc} {base o v : Nat} (h : s.Keeps q w) : (s.grdPut r l base o v).Keeps
    q w := by
  unfold State.grdPut
  refine .ite h.pairDrop.record ?_
  split
  · exact h.guardErr
  · exact .ite h.record.grdAct h.record.guardErr

theorem State.Keeps.covPut {l : Loc} {o v : Nat} (h : s.Keeps q w) : (s.covPut l o v).Keeps q w := by
  unfold State.covPut
  split
  · exact h
  · exact .ite h.setSh.crcTouch h.flag

theorem State.Keeps.ctlCh {n rel o new v : Nat} (h : s.Keeps q w) : (s.ctlCh n rel o new v).Keeps q w
    := by
  unfold State.ctlCh
  exact .ite (.ite h.setRg (.ite h.setRg.armCmd h.setRg.chanCmd)) (.ite (.ite h.cflag (.ite (.ite h.cflag h.setRg) (.ite
      (State.Keeps.ite h.setRg.verify h.setRg).invalidate (.ite h.setRg.verify h.setRg)))) (.ite (.ite h.snapCmd h) (.ite
          (.ite (State.Keeps.ite h.setRg.leStart h.setRg).leStop (.ite h.setRg.leStart h.setRg)) (.ite (.ite
          (State.Keeps.ite (h.foldl (fun _ _ h => .ite h.rakeLatch h)).rakeJump (h.foldl (fun _ _ h => .ite h.rakeLatch
          h))).rakeLatch (.ite (h.foldl (fun _ _ h => .ite h.rakeLatch h)).rakeJump (h.foldl (fun _ _ h => .ite h.rakeLatch
          h)))) (.ite (.ite (State.Keeps.ite h.flushCmd h).retryCmd (.ite h.flushCmd h)) (.ite (.ite (State.Keeps.ite
          h.setRg.measGo h.setRg).measAbort (.ite h.setRg.measGo h.setRg)) h.setRg))))))

theorem State.Keeps.gateWrite {new : Nat} (h : s.Keeps q w) : (s.gateWrite new).Keeps q w := by
  unfold State.gateWrite
  exact h.setRg.applyGate

theorem State.Keeps.clkCfgWrite {new v : Nat} (h : s.Keeps q w) : (s.clkCfgWrite new v).Keeps q w := by
  unfold State.clkCfgWrite
  exact .ite (.ite h.setRg.refRecovered h.badCfg) (.ite h.setRg.refLocal (.ite h.setRg.record.refMove h.setRg))

theorem State.Keeps.ctlSys {rel o new v : Nat} (h : s.Keeps q w) : (s.ctlSys rel o new v).Keeps q w := by
  unfold State.ctlSys
  exact .ite (.ite h h.crcSelect) (.ite (.ite (State.Keeps.ite h.uncommitCmd h).commitCmd (.ite h.uncommitCmd h)) (.ite
      h.updGo (.ite h.clkCfgWrite (.ite (.ite h.badCfg h.setRg) (.ite (.ite (State.Keeps.ite h.setRg.standbyCmd
          h.setRg).runCmd (.ite h.setRg.standbyCmd h.setRg)) (.ite h.gateWrite (.ite h.setRg (.ite (.ite h.setRg.updGoCmd
          h.setRg) h.setRg))))))))

theorem State.Keeps.ctlCore {r : Req} {x o new v : Nat} (h : s.Keeps q w) : (s.ctlCore r x o new v).Keeps q
    w := by
  unfold State.ctlCore
  exact .ite h (.ite h.setRg.haltCmd (.ite (State.Keeps.ite h.setRg.resumeCmd h.setRg).restartCmd (.ite h.setRg.resumeCmd
      h.setRg)))

theorem State.Keeps.ctlTile {l : Loc} {o new v : Nat} (h : s.Keeps q w) : (s.ctlTile l o new v).Keeps q w := by
  unfold State.ctlTile
  split
  · exact .ite (.ite (State.Keeps.ite h.setRg.sleepCmd h.setRg).wakeCmd (.ite h.setRg.sleepCmd h.setRg)) (.ite h.lineCfg
      h.setRg)
  · exact .ite (h.latchNow (fun _ _ h => .ite (State.Keeps.ite (State.Keeps.ite h.pscLatch h).pscInj (.ite h.pscLatch
      h)).pscStopCmd (.ite (State.Keeps.ite h.pscLatch h).pscInj (.ite h.pscLatch h)))) h.setRg
  · exact .ite (State.Keeps.ite h.calGoNow (.ite h.calAbortCmd h)).calAck (.ite h.calGoNow (.ite h.calAbortCmd h))
  · exact .ite h.setRg.selectObj h.setRg
  · exact h.setRg

theorem State.Keeps.ctlBrm {a : Acc} {l : Loc} {i o new v : Nat} (h : s.Keeps q w) : (s.ctlBrm a l i o new
    v).Keeps q w := by
  unfold State.ctlBrm
  split
  · exact .ite (.ite (State.Keeps.ite h.evcDisarmCmd (.ite h.evcArmCmd h)).swFireCmd.passed (.ite h.evcDisarmCmd (.ite
      h.evcArmCmd h))) (.ite h.evcPut h.evcPut)
  · exact .ite (.ite h.setRg.brmFireCmd.passed h.setRg) (.ite h.subPut h.setRg)

theorem State.Keeps.ctlRest {l : Loc} {i o new v : Nat} (h : s.Keeps q w) : (s.ctlRest l i o new v).Keeps q
    w := by
  unfold State.ctlRest
  split
  · exact .ite h.portCtl (.ite (.ite h.frameGoCmd h) h.setRg)
  · exact .ite (.ite h.fwReplyCmd h.setRg) h.setRg
  · exact .ite h (.ite h.setRg.ddrInit h.setRg)
  · exact h.setRg
  · exact h.setRg

theorem State.Keeps.ctlPut {a : Acc} {l : Loc} {i o wm v : Nat} (h : s.Keeps q w) : (s.ctlPut a l i o wm
    v).Keeps q w := by
  unfold State.ctlPut
  split
  · exact h.ctlCh
  · exact h.ctlSys
  · exact .ite h.ctlCore h.setRg
  · exact h.ctlTile
  · exact h.ctlTile
  · exact h.ctlTile
  · exact h.ctlTile
  · exact h.ctlBrm
  · exact h.ctlBrm
  · exact h.ctlRest
  · exact h.ctlRest
  · exact h.ctlRest
  · exact h.ctlRest
  · exact h.setRg

theorem State.Keeps.msixWrite {i o v : Nat} (h : s.Keeps q w) : (s.msixWrite i o v).Keeps q w := by
  unfold State.msixWrite
  exact .ite h.setRg.putRg.msix h.setRg

theorem State.Keeps.datFab {l : Loc} {o v : Nat} (h : s.Keeps q w) : (s.datFab l o v).Keeps q w := by
  unfold State.datFab
  exact .ite (.ite h.ringSize (.ite h.ringSize (.ite h.cqRptr (.ite h.fabBad h.setRg)))) (.ite h (.ite (.ite h h.setRg)
      h.setRg))

theorem State.Keeps.datPut {a : Acc} {l : Loc} {i o v : Nat} (h : s.Keeps q w) : (s.datPut a l i o v).Keeps q w :=
    by
  unfold State.datPut
  split
  · exact .ite h.refWrite (.ite h.bootDoor (.ite (.ite h.badCfg h.setRg) (.ite (.ite h.badCfg h.setRg) (.ite (.ite h.setRg
      h.badCfg) h.setRg))))
  · exact .ite h.badCfg h.setRg
  · exact .ite h.kick (.ite h.setRg.wdogLoad h.setRg)
  · exact .ite h.railWrite (.ite h.strWptr (.ite h.pansRptr (.ite h.brnRptr h.setRg)))
  · exact h.datFab
  · exact h.datFab
  · exact .ite h.xspiCmd (.ite h (.ite h.uartSend (.ite h.msixWrite h.setRg)))
  · exact .ite h.dmaWptrCmd (.ite h h.setRg)
  · exact h.setRg

theorem State.Keeps.asked {l : Loc} {o v : Nat} (h : s.Keeps q w) : (s.asked l o v).Keeps q w := by
  unfold State.asked
  exact .ite h.askAgain h

theorem State.Keeps.lineSee {l : Loc} (h : s.Keeps q w) : (s.lineSee l).Keeps q w := by
  unfold State.lineSee
  exact .ite h.linesRise h

theorem State.Keeps.regPut {a : Acc} {o v : Nat} (h : s.Keeps q w) : (s.regPut a o v).Keeps q w := by
  unfold State.regPut
  split
  · exact h
  · split
    · exact h
    · dsimp only
      split
      · exact h.lineSee.stsMeets.stsPut
      · exact h.lineSee.cntMeets.cntPut
      · exact h.lineSee.grdPut
      · exact .ite h.lineSee (.ite (.ite h.lineSee.shMeets.setSh.asked.voteWrite h.lineSee.shMeets.setSh.asked) (.ite (.ite
          h.lineSee.covPut.voteWrite h.lineSee.covPut) (.ite h.lineSee.ctlPut.voteWrite h.lineSee.ctlPut)))
      · exact .ite h.lineSee (.ite (.ite h.lineSee.shMeets.setSh.voteWrite h.lineSee.shMeets.setSh) (.ite (.ite
          h.lineSee.fabBad (.ite h.lineSee.covPut.voteWrite h.lineSee.covPut)) (.ite h.lineSee.datPut.voteWrite
              h.lineSee.datPut)))

theorem State.Keeps.refuse {r : Req} {wr : Bool} {n addr c : Nat} (h : s.Keeps q w) : (s.refuse r wr n addr
    c).st.Keeps q w := by
  unfold State.refuse
  exact h.busErr

theorem State.Keeps.regWrite {a : Acc} {o v : Nat} (h : s.Keeps q w) : (s.regWrite a o v).st.Keeps q w := by
  unfold State.regWrite
  split
  · exact h.refuse
  · exact h.regPut

theorem State.Keeps.regRead {a : Acc} {o : Nat} (h : s.Keeps q w) : (s.regRead a o).st.Keeps q w := by
  unfold State.regRead
  split
  · exact h.refuse
  · exact h.readReg

theorem State.Keeps.aliasWrite {r : Req} {k o v : Nat} (h : s.Keeps q w) : (s.aliasWrite r k o v).st.Keeps q w :=
    by
  unfold State.aliasWrite
  split
  · exact h.refuse
  · split
    · exact h.refuse
    · dsimp only
      split
      · exact h.refuse
      · split
        · exact h.refuse
        · split
          · exact h.refuse
          · split
            · exact h.regPut
            · split
              · exact h.refuse
              · exact h.regPut
            · split
              · exact h.refuse
              · split
                · exact h.fltDrop
                · exact h.lineSee.stsDrop
            · exact h.refuse

theorem State.Keeps.memTouch {a n : Nat} (h : s.Keeps q w) : (s.memTouch a n).Keeps q w := by
  unfold State.memTouch
  exact .ite (h.foldl (fun _ _ h => h.segStale)) (.ite h.setStale h)

theorem State.Keeps.eccMeet {w' : Nat} {ue : Bool} (h : s.Keeps q w) : (s.eccMeet w' ue).Keeps q w := by
  unfold State.eccMeet
  exact .ite h.ddrFound (.ite (.ite h.ueAt.fault h.record.fault) h.sramFound)

theorem State.Keeps.wordRead {a n : Nat} (h : s.Keeps q w) : (s.wordRead a n).st.Keeps q w := by
  unfold State.wordRead
  dsimp only
  split
  · exact h.eccMeet
  · exact .ite h.eccMeet h

theorem State.Keeps.wordWrite {a : Nat} {bs : List Byte} (h : s.Keeps q w) : (s.wordWrite a bs).st.Keeps q w := by
  unfold State.wordWrite
  exact .iteSt h.eccMeet (State.Keeps.ite h.eccMeet h).store.memTouch

theorem State.Keeps.told {x : Acs} {r : Req} {wr : Bool} (h : x.st.Keeps q w) : (x.told r wr).st.Keeps q w := by
  unfold Acs.told
  split
  · split
    · exact h.record
    · exact h
  · exact h

/-- What a protected area records of a refused store. -/
theorem State.Keeps.memProt {a n : Nat} (h : s.Keeps q w) (ht : s.memProt a n = some t) : t.Keeps q w := by
  unfold State.memProt at ht
  dsimp only at ht
  split_ifs at ht <;> obtain rfl := Option.some.inj ht
  · exact (h.foldl fun _ _ h => h.cflag).foldl fun _ _ h => h.cflag
  · exact h.cflag
  · exact h.flag

theorem State.Keeps.memWrite {r : Req} {a : Nat} {bs : List Byte} (h : s.Keeps q w) : (s.memWrite r a bs).st.Keeps q w := by
  unfold State.memWrite
  refine .iteSt h.refuse ?_
  have h := State.Keeps.ite (c := a < 0x4000000) h.decideAll h
  dsimp only
  generalize (if a < 0x4000000 then s.decideAll else s) = s at h
  split
  · next ht => exact (h.memProt ht).refuse
  · exact told h.ddrWake.wordWrite

theorem State.Keeps.memRead {r : Req} {a n : Nat} (h : s.Keeps q w) : (s.memRead r a n).st.Keeps q w := by
  unfold State.memRead
  exact .iteSt h.refuse (told h.ddrWake.wordRead)

theorem State.Keeps.busWrite {r : Req} {addr : Nat} {bs : List Byte} (h : s.Keeps q w) :
    (s.busWrite r addr bs).st.Keeps q w := by
  unfold State.busWrite
  refine .iteSt (.iteSt h.refuse (.iteSt h.refuse ?_)) h.memWrite
  split
  · exact h.regWrite
  · exact h.regWrite
  · exact h.aliasWrite

theorem State.Keeps.busRead {r : Req} {addr n : Nat} (h : s.Keeps q w) : (s.busRead r addr n).st.Keeps q w := by
  unfold State.busRead
  refine .iteSt (.iteSt h.refuse (.iteSt h.refuse ?_)) h.memRead
  split
  · exact h.regRead
  · exact h.regRead
  · exact h.refuse

theorem State.Keeps.guardExpire {r : Req} (h : s.Keeps q w) : (s.guardExpire r).Keeps q w := by
  unfold State.guardExpire
  split
  · exact h.record.guardErr
  · exact h

theorem State.Keeps.holdExpire {r : Req} (h : s.Keeps q w) : (s.holdExpire r).Keeps q w := by
  unfold State.holdExpire
  split
  · exact h.record
  · exact h

theorem State.Keeps.windowTick (h : s.Keeps q w) : s.windowTick.Keeps q w := by
  unfold State.windowTick
  exact h.record

theorem State.Keeps.windowsEnd (h : s.Keeps q w) : s.windowsEnd.Keeps q w := by
  unfold State.windowsEnd
  exact h.record.foldl (fun _ _ h => h.guardErr)

theorem execRegisterWrite_answers {r : Req} {addr : Nat} {bytes : List Byte} (h : s.Keeps q w) : Answers q w
    (execRegisterWrite r addr bytes s) := by
  unfold execRegisterWrite
  exact h.busWrite.next

theorem execStsClear_answers {a : Acc} {off : Nat} {v : Word} (h : s.Keeps q w) : Answers q w (execStsClear a off v s) := by
  unfold execStsClear
  exact h.viaReg (fun _ h => h.regPut)

theorem execGuardPairExpire_answers {r : Req} (h : s.Keeps q w) : Answers q w (execGuardPairExpire r s) := by
  unfold execGuardPairExpire
  exact h.guardExpire.next

theorem execCounterHoldExpire_answers {r : Req} (h : s.Keeps q w) : Answers q w (execCounterHoldExpire r s) := by
  unfold execCounterHoldExpire
  exact h.holdExpire.next

theorem execAccessTimeout_answers {r : Req} {addr : Nat} {isWrite : Bool} (h : s.Keeps q w) : Answers q w (execAccessTimeout r
    addr isWrite s) := by
  unfold execAccessTimeout
  exact h.busErr.next

theorem execSvcEnter_answers {a : Acc} (h : s.Keeps q w) : Answers q w (execSvcEnter a s) := by
  unfold execSvcEnter
  exact h.viaGrd (fun _ h => h.svcKey)

theorem execSvcLeave_answers {a : Acc} (h : s.Keeps q w) : Answers q w (execSvcLeave a s) := by
  unfold execSvcLeave
  exact h.viaGrd (fun _ h => h.svcKey)

theorem execAliasSet_answers {r : Req} {off : Nat} {v : Word} (h : s.Keeps q w) : Answers q w (execAliasSet r off v s) := by
  unfold execAliasSet
  exact h.aliasWrite.next

theorem execAliasClear_answers {r : Req} {off : Nat} {v : Word} (h : s.Keeps q w) : Answers q w (execAliasClear r off v s) :=
    by
  unfold execAliasClear
  exact h.aliasWrite.next

theorem execAliasToggle_answers {r : Req} {off : Nat} {v : Word} (h : s.Keeps q w) : Answers q w (execAliasToggle r off v s)
    := by
  unfold execAliasToggle
  exact h.aliasWrite.next

theorem execCoefSetWrite_answers {r : Req} {n : ChanId} {k : SetId} {off : BitVec 10} {bytes : List Byte} (h : s.Keeps q w)
    : Answers q w (execCoefSetWrite r n k off bytes s) := by
  unfold execCoefSetWrite
  exact h.busWrite.next

theorem execDescriptorTableWrite_answers {r : Req} {n : ChanId} {off : Nat} {bytes : List Byte} (h : s.Keeps q w) : Answers q
    w (execDescriptorTableWrite r n off bytes s) := by
  unfold execDescriptorTableWrite
  exact h.busWrite.next

theorem execCalObjectWrite_answers {r : Req} {addr : Nat} {bytes : List Byte} (h : s.Keeps q w) : Answers q w
    (execCalObjectWrite r addr bytes s) := by
  unfold execCalObjectWrite
  exact h.busWrite.next

/-! Channel commands (Sys2Proof/Machine/ChannelCmds.lean). -/

theorem execLeStart_answers {a : Acc} {n : ChanId} (h : s.Keeps q w) : Answers q w (execLeStart a n s) := by
  unfold execLeStart
  exact h.viaReg (fun _ h => h.leStart)

theorem execLeStop_answers {a : Acc} {n : ChanId} (h : s.Keeps q w) : Answers q w (execLeStop a n s) := by
  unfold execLeStop
  exact h.viaReg (fun _ h => h.leStop)

theorem execLeRunEnd_answers {n : ChanId} (h : s.Keeps q w) : Answers q w (execLeRunEnd n s) := by
  unfold execLeRunEnd
  exact h.leRunEnd.next

theorem execLeDone_answers {n : ChanId} (h : s.Keeps q w) : Answers q w (execLeDone n s) := by
  unfold execLeDone
  exact h.leDone.next

theorem execOscWindowEnd_answers {n : ChanId} (h : s.Keeps q w) : Answers q w (execOscWindowEnd n s) := by
  unfold execOscWindowEnd
  exact h.oscWindow.next

theorem execHandoverCheck_answers {n : ChanId} (h : s.Keeps q w) : Answers q w (execHandoverCheck n s) := by
  unfold execHandoverCheck
  exact h.hoCheck.next

theorem execAutorangeRequest_answers {n : ChanId} (h : s.Keeps q w) : Answers q w (execAutorangeRequest n s) := by
  unfold execAutorangeRequest
  exact h.arRequest.next

theorem execBrineLineTimeout_answers {n : ChanId} (h : s.Keeps q w) : Answers q w (execBrineLineTimeout n s) := by
  unfold execBrineLineTimeout
  exact h.brnTimeout.next

theorem execApertureDelayEnd_answers {n : ChanId} (h : s.Keeps q w) : Answers q w (execApertureDelayEnd n s) := by
  unfold execApertureDelayEnd
  exact h.apDelayEnd.next

theorem execApertureEnd_answers {n : ChanId} (h : s.Keeps q w) : Answers q w (execApertureEnd n s) := by
  unfold execApertureEnd
  exact h.apEnd.next

theorem execRecordWritten_answers {n : ChanId} {cyc : Cycle} (h : s.Keeps q w) : Answers q w (execRecordWritten n cyc s) :=
    by
  unfold execRecordWritten
  exact h.recWrite.passed.next

theorem execSpillMove_answers {n : ChanId} (h : s.Keeps q w) : Answers q w (execSpillMove n s) := by
  unfold execSpillMove
  exact h.spillMove.next

theorem execPansRptrWrite_answers {a : Acc} {n : ChanId} {v : Word} (h : s.Keeps q w) : Answers q w (execPansRptrWrite a n v
    s) := by
  unfold execPansRptrWrite
  exact h.viaReg (fun _ h => h.pansRptr)

theorem execBrnRptrWrite_answers {a : Acc} {n : ChanId} {v : Word} (h : s.Keeps q w) : Answers q w (execBrnRptrWrite a n v
    s) := by
  unfold execBrnRptrWrite
  exact h.viaReg (fun _ h => h.brnRptr)

theorem execMeasGo_answers {a : Acc} {n : ChanId} {aper : BitVec 6} (h : s.Keeps q w) : Answers q w (execMeasGo a n aper s)
    := by
  unfold execMeasGo
  exact h.viaReg (fun _ h => h.setCr.measGo)

theorem execMeasAbort_answers {a : Acc} {n : ChanId} (h : s.Keeps q w) : Answers q w (execMeasAbort a n s) := by
  unfold execMeasAbort
  exact h.viaReg (fun _ h => h.measAbort)

theorem execLineCrossing_answers {t : TileId} {interval : Nat} (h : s.Keeps q w) : Answers q w (execLineCrossing t interval s)
    := by
  unfold execLineCrossing
  exact h.lineCross.next

theorem execRakeCmdStop_answers {a : Acc} {n : ChanId} (h : s.Keeps q w) : Answers q w (execRakeCmdStop a n s) := by
  unfold execRakeCmdStop
  exact h.viaReg (fun _ h => h.rakeLatch)

theorem execRakeCmdPause_answers {a : Acc} {n : ChanId} (h : s.Keeps q w) : Answers q w (execRakeCmdPause a n s) := by
  unfold execRakeCmdPause
  exact h.viaReg (fun _ h => h.rakeLatch)

theorem execRakeCmdResume_answers {a : Acc} {n : ChanId} (h : s.Keeps q w) : Answers q w (execRakeCmdResume a n s) := by
  unfold execRakeCmdResume
  exact h.viaReg (fun _ h => h.rakeLatch)

theorem execRakeCmdStart_answers {a : Acc} {n : ChanId} (h : s.Keeps q w) : Answers q w (execRakeCmdStart a n s) := by
  unfold execRakeCmdStart
  exact h.viaReg (fun _ h => h.rakeLatch)

theorem execRakeCmdJump_answers {a : Acc} {n : ChanId} (h : s.Keeps q w) : Answers q w (execRakeCmdJump a n s) := by
  unfold execRakeCmdJump
  exact h.viaReg (fun _ h => h.rakeJump)

theorem execRakeCmdCheck_answers {a : Acc} {n : ChanId} (h : s.Keeps q w) : Answers q w (execRakeCmdCheck a n s) := by
  unfold execRakeCmdCheck
  exact h.viaReg (fun _ h => h.rakeLatch)

theorem execCheckDone_answers {n : ChanId} (h : s.Keeps q w) : Answers q w (execCheckDone n s) := by
  unfold execCheckDone
  exact h.checkDone.next

theorem execPointEnd_answers {n : ChanId} (h : s.Keeps q w) : Answers q w (execPointEnd n s) := by
  unfold execPointEnd
  exact h.pointEnd.next

theorem execWaitEnd_answers {n : ChanId} (h : s.Keeps q w) : Answers q w (execWaitEnd n s) := by
  unfold execWaitEnd
  exact h.waitEnd.next

theorem execWaitTimeout_answers {n : ChanId} (h : s.Keeps q w) : Answers q w (execWaitTimeout n s) := by
  unfold execWaitTimeout
  exact h.waitTimeout.next

theorem execSegmentRepetitionEnd_answers {n : ChanId} (h : s.Keeps q w) : Answers q w (execSegmentRepetitionEnd n s) := by
  unfold execSegmentRepetitionEnd
  exact h.segEnd.next

theorem execGranuleEnd_answers {n : ChanId} (h : s.Keeps q w) : Answers q w (execGranuleEnd n s) := by
  unfold execGranuleEnd
  exact h.granEnd.next

theorem execUnderrunResume_answers {n : ChanId} (h : s.Keeps q w) : Answers q w (execUnderrunResume n s) := by
  unfold execUnderrunResume
  exact h.underrunResume.next

theorem execFlush_answers {a : Acc} {n : ChanId} (h : s.Keeps q w) : Answers q w (execFlush a n s) := by
  unfold execFlush
  exact h.viaReg (fun _ h => h.flushCmd)

theorem execRetry_answers {a : Acc} {n : ChanId} (h : s.Keeps q w) : Answers q w (execRetry a n s) := by
  unfold execRetry
  exact h.viaReg (fun _ h => h.retryCmd)

theorem execStrWptrWrite_answers {a : Acc} {n : ChanId} {v : Word} (h : s.Keeps q w) : Answers q w (execStrWptrWrite a n v
    s) := by
  unfold execStrWptrWrite
  exact h.viaReg (fun _ h => h.strWptr)

theorem execRefillMove_answers {n : ChanId} {cyc : Cycle} (h : s.Keeps q w) : Answers q w (execRefillMove n cyc s) := by
  unfold execRefillMove
  exact h.decideAll.refillMove.next

/-! The dictionary (Sys2Proof/Machine/Dict.lean). -/

theorem State.Keeps.dictEcc (h : s.Keeps q w) : (s.dictEcc).st.Keeps q w := by
  unfold State.dictEcc
  exact h.fault

theorem State.Keeps.scaled {o : Obj} {raw : Bool} {v k fl : Nat} (h : s.Keeps q w) : (s.scaled o raw v k
    fl).st.Keeps q w := by
  unfold State.scaled
  split
  · exact h
  · split <;> exact h

theorem State.Keeps.objRead {o : Obj} {raw : Bool} (h : s.Keeps q w) : (s.objRead o raw).st.Keeps q w := by
  unfold State.objRead
  split
  · exact h
  · dsimp only
    split
    · exact h.regRead
    · exact h.regRead.scaled
  · dsimp only
    split
    · exact h.regRead
    · exact h.regRead.regRead
  · split
    · exact h
    · split
      · exact h.unitRead.dictEcc
      · split
        · exact h.unitRead
        · split
          · exact h.unitRead
          · split
            · exact h.unitRead
            · exact h.unitRead.scaled
  · exact h
  · exact h

theorem State.Keeps.objPut {off v : Nat} (h : s.Keeps q w) : (s.objPut off v).st.Keeps q w := by
  unfold State.objPut
  dsimp only
  split <;> exact h.regWrite

theorem State.Keeps.fldPut {off hi lo v : Nat} (h : s.Keeps q w) : (s.fldPut off hi lo v).st.Keeps q w := by
  have iteSt : ∀ {c : Prop} [Decidable c] {x y : DRes}, x.st.Keeps q w → y.st.Keeps q w → (if c then x else y).st.Keeps q w
      := by
    intro c _ x y hx hy
    split <;> assumption
  unfold State.fldPut
  split
  · exact h
  · split
    · exact h
    · refine iteSt h ?_
      split
      · exact h.objPut
      · exact iteSt h.regRead h.regRead.objPut
      · exact iteSt h.objPut (iteSt h.regRead h.regRead.objPut)

theorem State.Keeps.applyMaps (h : s.Keeps q w) : s.applyMaps.Keeps q w := by
  unfold State.applyMaps
  exact .ite h.record h.flag

theorem State.Keeps.mapPut {i sub v : Nat} (h : s.Keeps q w) : (s.mapPut i sub v).st.Keeps q w := by
  unfold State.mapPut
  split
  · exact h
  · split
    · exact h.applyMaps
    · exact h.record

theorem State.Keeps.objWrite {o : Obj} {raw : Bool} {v : Nat} (h : s.Keeps q w) : (s.objWrite o raw v).st.Keeps q w := by
  unfold State.objWrite
  split
  · exact h
  · split
    · split
      · exact h
      · split
        · exact h.fldPut
        · split
          · exact h
          · split
            · exact h
            · exact h.fldPut
    · split
      · exact h.objPut
      · exact h
    · split
      · exact h.objPut
      · exact h
    · exact h.mapPut
    · exact h

theorem State.Keeps.fwqPut {q' : DAsk} (h : s.Keeps q w) : (s.fwqPut q').1.Keeps q w := by
  unfold State.fwqPut
  dsimp only
  split
  · exact h.put
  · exact h.put.setRg.record

theorem State.Keeps.dictSend {q' : DAsk} {w' : Nat} {data : List Byte} (h : s.Keeps q w) : (s.dictSend q' w' data).Keeps q w
    := by
  unfold State.dictSend
  refine .ite ?_ (State.Keeps.ite h.countWrap h.countWrap.count).answer
  split
  · exact .ite (State.Keeps.ite h.countWrap h.countWrap.count).complete (State.Keeps.ite h.countWrap
      h.countWrap.count).dictDone
  · exact (State.Keeps.ite h.countWrap h.countWrap.count).count

/-- The state that the engine's answer to a request leaves. -/
def Served.keeps (q : List Instr) (w : Prop) (s : State) : Served → Prop
  | .answered r => r.st.Keeps q w
  | .queued => s.Keeps q w

theorem State.Keeps.serve {idx sub : Nat} {raw priv ecc : Bool} {write : Option (List Byte)} {room : Option Nat}
    (h : s.Keeps q w) : (s.serve idx sub raw priv ecc write room).keeps q w s := by
  have ite : ∀ {c : Prop} [Decidable c] {x y : Served}, x.keeps q w s → y.keeps q w s → (if c then x else y).keeps q w s :=
      by
    intro c _ x y hx hy
    split <;> assumption
  unfold State.serve
  refine ite h (ite h.dictEcc ?_)
  split
  · exact h
  · split
    · refine ite h (ite h ?_)
      dsimp only [Served.keeps]
      rw [apply_ite DRes.st]
      exact .ite h.objRead h.objRead
    · exact ite h (ite h (ite h h.objWrite))

theorem State.Keeps.dictServe {a : DAsk} {ecc : Bool} (h : s.Keeps q w) : (s.dictServe a ecc).Keeps q w := by
  unfold State.dictServe
  refine .ite h.dictSend ?_
  have asked : State.Keeps q w { s with fab := { s.fab with asks := s.fab.asks ++ [0] } } := h.record
  have served := asked.serve (idx := a.idx) (sub := a.sub) (raw := a.raw) (priv := a.priv) (ecc := ecc) (write := a.write)
    (room := if a.loc ∧ a.write = none then some a.room else none)
  dsimp only
  split
  · next hr => rw [hr] at served; exact State.Keeps.dictSend served
  · refine .ite asked.dictSend (.ite asked.flag.dictSend ?_)
    split
    · exact asked.fwqPut.dictSend
    · exact asked.fwqPut.dictEcc.dictSend

theorem State.Keeps.locDo {ecc : Bool} {t : Txn} (h : s.Keeps q w) : (s.locDo ecc t).Keeps q w := by
  unfold State.locDo
  split
  · exact h
  · exact h.record.dictServe

theorem State.Keeps.locServes (h : s.Keeps q w) : s.locServes.Keeps q w := by
  unfold State.locServes
  exact h.foldl (fun _ _ h => h.locDo)

theorem State.Keeps.locServe {write : Bool} {tag : Nat} {ecc : Bool} (h : s.Keeps q w) : (s.locServe write tag ecc).Keeps q w
    := by
  unfold State.locServe
  dsimp only
  split
  · exact h
  · exact (h.foldl (fun _ _ h => h.locDo)).locDo

theorem State.Keeps.dictAsk {d : DictReq} {room : Nat} {write : Option (List Byte)} (h : s.Keeps q w) : (s.dictAsk d room
    write).Keeps q w := by
  unfold State.dictAsk
  split
  · exact h.locServe
  · exact .ite h (.ite h.record (.ite h.record.answer h.record.locServes.dictServe))

theorem execDictRead_answers {d : DictReq} {room : Nat} (h : s.Keeps q w) : Answers q w (execDictRead d room s) := by
  unfold execDictRead
  exact h.dictAsk.next

theorem execDictWrite_answers {d : DictReq} {data : List Byte} (h : s.Keeps q w) : Answers q w (execDictWrite d data s) := by
  unfold execDictWrite
  exact h.dictAsk.next

theorem execApply_answers {d : DictReq} (h : s.Keeps q w) : Answers q w (execApply d s) := by
  unfold execApply
  exact h.dictAsk.next

/-! Frames received (Sys2Proof/Machine/FabricRx.lean). -/

theorem State.Keeps.badCopy {p : Nat} {f : Frame} (h : s.Keeps q w) : (s.badCopy p f).Keeps q w := by
  unfold State.badCopy
  refine .ite h ?_
  refine .ite ?_ (.ite (h.foldl (fun _ _ h => .ite h.emitBad h)) (.ite h.emitBad h))
  split
  · exact .ite h.emitBad h
  · exact h

theorem State.Keeps.rxLink {rx : Rx} {f : Frame} {take : State → State} (h : s.Keeps q w) (htake : ∀ t, t.Keeps q w → (take
    t).Keeps q w) : (s.rxLink rx f take).Keeps q w := by
  unfold State.rxLink
  exact .ite h (.ite h.drop (.ite h.badCopy.record.count.fault (htake _ h.record)))

theorem State.Keeps.transitPut {p : Nat} {f : Frame} (h : s.Keeps q w) : (s.transitPut p f).Keeps q w := by
  unfold State.transitPut
  exact .ite h.record h

theorem State.Keeps.transitBack {f : Frame} (h : s.Keeps q w) : (s.transitBack f).Keeps q w := by
  unfold State.transitBack
  exact .ite h.record h

theorem State.Keeps.forward {p : Nat} {f : Frame} (h : s.Keeps q w) : (s.forward p f).Keeps q w := by
  unfold State.forward
  exact .ite h.drop (.ite h (.ite (.ite h.transitBack.answer h.transitBack.drop) (.ite h.transitBack.loseFrame (.ite
      h.transitBack.drop h.transitBack.transitPut.emit))))

theorem State.Keeps.deliver {p : Nat} {f : Frame} {take : State → State} (h : s.Keeps q w) (htake : ∀ t, t.Keeps q w → (take
    t).Keeps q w) : (s.deliver p f take).Keeps q w := by
  unfold State.deliver
  exact .ite (htake _ h) h.forward

theorem State.Keeps.bcastOn {p : Nat} {f : Frame} (h : s.Keeps q w) : (s.bcastOn p f).Keeps q w := by
  unfold State.bcastOn
  exact .ite h (.ite h.drop h.bcastOut)

theorem State.Keeps.reqOne {priv : Bool} {a w' : Nat} {wr : Option (List Byte)} (h : s.Keeps q w) : (s.reqOne priv a w'
    wr).st.Keeps q w := by
  unfold State.reqOne
  split
  · exact h.refuse
  · split
    · exact h.busWrite
    · exact h.busRead

theorem State.Keeps.runGo {priv : Bool} {k n a : Nat} {wr : Option (List Byte)} {r : Ran} (h : r.st.Keeps q w) :
    (Ran.go priv k n a wr r).st.Keeps q w := by
  induction n generalizing a wr r with
  | zero => exact h
  | succ n ih =>
    unfold Ran.go
    dsimp only
    split
    · exact h.reqOne
    · exact ih h.reqOne

theorem State.Keeps.runReq {f : Frame} {wr : Bool} (h : s.Keeps q w) : (s.runReq f wr).st.Keeps q w := runGo h

theorem State.Keeps.reqServe {f : Frame} {wr : Bool} (h : s.Keeps q w) : (s.reqServe f wr).Keeps q w := by
  unfold State.reqServe
  exact .ite h.answer h.runReq.answer

theorem State.Keeps.replyIn {f : Frame} (h : s.Keeps q w) : (s.replyIn f).Keeps q w := by
  unfold State.replyIn
  split
  · exact h.count
  · exact .ite (.ite h.complete h.dictDone) h.complete

theorem State.Keeps.bcastHere {f : Frame} (h : s.Keeps q w) : (s.bcastHere f).Keeps q w := by
  unfold State.bcastHere
  exact .ite h.record (.ite h h.runReq)

theorem State.Keeps.discoverRun {d : List Byte} (h : s.Keeps q w) : (s.discoverRun d).st.Keeps q w := runGo h

theorem State.Keeps.discoverIn {p : Nat} {f : Frame} (h : s.Keeps q w) : (s.discoverIn p f).Keeps q w := by
  unfold State.discoverIn
  split
  · exact .ite h (.ite h.drop h.emit)
  · exact .ite h h.discoverRun.emit

theorem State.Keeps.offsetIn {p : Nat} {th : Int} (h : s.Keeps q w) : (s.offsetIn p th).Keeps q w := by
  unfold State.offsetIn
  exact .ite (State.Keeps.ite h.setRg.cause (h.setRg.foldl (fun _ _ h => h.uncause))).record.flag (State.Keeps.ite
      h.setRg.cause (h.setRg.foldl (fun _ _ h => h.uncause))).record

theorem State.Keeps.timeIn {p : Nat} {data : List Byte} {t1 t2 t3 t4 : Int} (h : s.Keeps q w) : (s.timeIn p
    data t1 t2 t3 t4).Keeps q w := by
  unfold State.timeIn
  exact .ite h.setRg.setPort.record.offsetIn h.setRg.setPort.record

theorem State.Keeps.timeOut {p : Nat} (h : s.Keeps q w) : (s.timeOut p).Keeps q w := by
  unfold State.timeOut
  exact .ite h.emit h

theorem State.Keeps.timeLost {p : Nat} (h : s.Keeps q w) : (s.timeLost p).Keeps q w := by
  unfold State.timeLost
  exact .ite h.cause h

theorem State.Keeps.strobesAnew (h : s.Keeps q w) : s.strobesAnew.Keeps q w := by
  unfold State.strobesAnew
  exact h.record

theorem State.Keeps.laterBy {c k : Int} (h : s.Keeps q w) : (s.laterBy c k).Keeps q w := by
  unfold State.laterBy
  exact h.record

theorem State.Keeps.timeStepNow (h : s.Keeps q w) : s.timeStepNow.Keeps q w := by
  unfold State.timeStepNow
  split
  · exact h
  · exact h.laterBy.record.strobesAnew

theorem State.Keeps.portFail {p : Nat} (h : s.Keeps q w) : (s.portFail p).Keeps q w := by
  unfold State.portFail
  exact h.portDown.settleFaults

theorem State.Keeps.resend {p : Nat} {a : List Sent} (h : s.Keeps q w) : (s.resend p a).Keeps q w := by
  induction a generalizing s p with
  | nil =>
    exact h
  | cons _ _ ih =>
    exact ih h.wire

theorem State.Keeps.retryFrame {p q' : Nat} {room : Bool} (h : s.Keeps q w) : (s.retryFrame p q' room).Keeps q w := by
  unfold State.retryFrame
  dsimp only
  split
  · exact h
  · exact .ite h.portFail h.setPort.count.resend

theorem State.Keeps.ackFrame {p q' : Nat} (h : s.Keeps q w) : (s.ackFrame p q').Keeps q w := by
  unfold State.ackFrame
  exact h.setPort

theorem State.Keeps.answerLate {p : Nat} {room : Bool} (h : s.Keeps q w) : (s.answerLate p room).Keeps q w := by
  unfold State.answerLate
  split
  · exact h.retryFrame
  · exact h

theorem State.Keeps.absent {p : Nat} (h : s.Keeps q w) : (s.absent p).Keeps q w := by
  unfold State.absent
  exact .ite h.portFail h

theorem State.Keeps.txnLate {tag : Nat} (h : s.Keeps q w) : (s.txnLate tag).Keeps q w := by
  unfold State.txnLate
  split
  · exact h.complete
  · exact h

theorem State.Keeps.fabMeet {a n : Nat} (h : s.Keeps q w) : (s.fabMeet a n).1.Keeps q w := by
  have meet : ∀ (l : List Nat) (p : State × Bool), p.1.Keeps q w → (l.foldl (fun p w =>
      if p.1.memUE.contains w then (p.1.eccMeet w true, true)
      else if p.1.memCE.contains w then (p.1.eccMeet w false, p.2) else p) p).1.Keeps q w := by
    intro l
    induction l with
    | nil => exact fun _ h => h
    | cons _ _ ih =>
      intro p h
      refine ih _ ?_
      dsimp only
      split
      · exact h.eccMeet
      · split
        · exact h.eccMeet
        · exact h
  exact meet _ _ h

theorem State.Keeps.descSend {d : Desc} {t : Txn} {data : List Byte} (h : s.Keeps q w) : (s.descSend d t data).Keeps q w :=
    by
  unfold State.descSend
  exact .ite h.bcastOut.complete (.ite h.record (.ite (.ite h.complete h.runReq.complete) (.ite h.complete (.ite h.complete
      h.emit.record))))

theorem State.Keeps.reqSend (h : s.Keeps q w) : s.reqSend.Keeps q w := by
  unfold State.reqSend
  refine .ite h ?_
  refine .ite h.setRg.record.fabMeet.complete ?_
  refine .ite h.setRg.record.fabMeet.complete ?_
  refine .ite h.setRg.record.fabMeet.complete ?_
  refine .ite ?_ ?_
  · refine State.Keeps.complete ?_
    split
    · exact h.setRg.record.fabMeet.fabMeet
    · exact h.setRg.record.fabMeet
  · refine State.Keeps.descSend ?_
    split
    · exact h.setRg.record.fabMeet.fabMeet
    · exact h.setRg.record.fabMeet

theorem State.Keeps.setHv {h' : Hv} (h : s.Keeps q w) : (s.setHv h').Keeps q w := by
  unfold State.setHv
  exact h.record

theorem State.Keeps.gather {img : List Byte} {a : List Nat} (h : s.Keeps q w) : (s.gather img a).1.Keeps q w := by
  induction a generalizing s img with
  | nil =>
    exact h
  | cons _ _ ih =>
    unfold State.gather
    split
    · exact ih h
    · split
      · exact ih h
      · exact ih h.objRead

theorem State.Keeps.scatter {img : List Byte} {ok : Bool} {a : List Nat} (h : s.Keeps q w) : (s.scatter img ok a).1.Keeps q w
    := by
  induction a generalizing s img ok with
  | nil =>
    exact h
  | cons _ _ ih =>
    unfold State.scatter
    split
    · exact ih h
    · exact ih h.objWrite

theorem State.Keeps.hvFire {c : Nat} (h : s.Keeps q w) : (s.hvFire c).Keeps q w := by
  unfold State.hvFire
  exact h.setHv.fireAt.countWrap

theorem State.Keeps.hvSend {n i a : Nat} {a' : List Byte} (h : s.Keeps q w) : (s.hvSend n i a a').Keeps q w := by
  induction a generalizing s n i a' with
  | zero =>
    exact h
  | succ _ ih =>
    exact ih h.bcastOut

theorem State.Keeps.hvRoot (h : s.Keeps q w) : s.hvRoot.Keeps q w := by
  unfold State.hvRoot
  exact .ite h.gather.hvSend.hvFire h.gather.hvSend

theorem State.Keeps.frameBegin (h : s.Keeps q w) : s.frameBegin.Keeps q w := by
  unfold State.frameBegin
  exact .ite h (.ite (State.Keeps.ite h.count.flag h).setHv.hvRoot (State.Keeps.ite h.count.flag h).setHv)

theorem State.Keeps.hvTake {img : List Byte} {c : Nat} (h : s.Keeps q w) : (s.hvTake img c).Keeps q w := by
  unfold State.hvTake
  exact .ite h.scatter (.ite h.scatter.gather.hvFire.sendFrame h.scatter.gather.hvFire)

theorem State.Keeps.hvDn {f : Frame} {c : Nat} (h : s.Keeps q w) : (s.hvDn f c).Keeps q w := by
  unfold State.hvDn
  exact .ite h (.ite h.setHv h.setHv.hvTake)

theorem State.Keeps.ddrPut {a : Nat} {bs : List Byte} {a' : Nat} (h : s.Keeps q w) : (s.ddrPut a bs a').Keeps q w := by
  induction a' generalizing s a bs with
  | zero =>
    exact h
  | succ _ ih =>
    exact .ite h (ih h.wordWrite)

theorem State.Keeps.hvStore {o : Nat} {bs : List Byte} (h : s.Keeps q w) : (s.hvStore o bs).Keeps q w := by
  unfold State.hvStore
  exact .ite h (.ite h.ddrWake.ddrWake.ddrPut h.busErr)

theorem State.Keeps.hvUp {f : Frame} {c : Nat} (h : s.Keeps q w) : (s.hvUp f c).Keeps q w := by
  unfold State.hvUp
  exact .ite h (.ite h.hvStore.setHv.hvFire h.hvStore.setHv)

theorem State.Keeps.readBusy {src tag : Nat} (h : s.Keeps q w) : (s.readBusy src tag).Keeps q w := by
  unfold State.readBusy
  split
  · exact h.record.answer
  · exact h

theorem State.Keeps.readServe {f : Frame} {late : Bool} (h : s.Keeps q w) : (s.readServe f late).Keeps q w := by
  unfold State.readServe
  exact .ite h.record h.reqServe

theorem State.Keeps.fabTick (h : s.Keeps q w) : s.fabTick.Keeps q w := by
  unfold State.fabTick
  exact h.record.foldl (fun _ _ h => .ite h.setPort h)

theorem State.Keeps.fabWaits (h : s.Keeps q w) : s.fabWaits.Keeps q w := by
  unfold State.fabWaits
  exact .ite ((((h.locServes.foldl (fun _ _ h => .ite h.readBusy h)).foldl (fun _ _ h => .ite h.absent h)).foldl (fun _ _ h
      => .ite h (.ite (.ite h.resultLate h) (.ite h.txnLate h)))).foldl (fun _ _ h => .ite h.trainFail h)).timeLost
          ((((h.locServes.foldl (fun _ _ h => .ite h.readBusy h)).foldl (fun _ _ h => .ite h.absent h)).foldl (fun _ _ h =>
          .ite h (.ite (.ite h.resultLate h) (.ite h.txnLate h)))).foldl (fun _ _ h => .ite h.trainFail h))

theorem execFrameForward_answers {rx : Rx} (h : s.Keeps q w) : Answers q w (execFrameForward rx s) := by
  unfold execFrameForward
  exact (h.rxLink (fun _ h => h.forward)).next

theorem execRead_answers {rd : ReadRx} (h : s.Keeps q w) : Answers q w (execRead rd s) := by
  unfold execRead
  exact (h.rxLink (fun _ h => h.deliver (fun _ h => h.readServe))).next

theorem execWrite_answers {rx : Rx} (h : s.Keeps q w) : Answers q w (execWrite rx s) := by
  unfold execWrite
  exact (h.rxLink (fun _ h => h.deliver (fun _ h => h.reqServe))).next

theorem execReply_answers {rx : Rx} (h : s.Keeps q w) : Answers q w (execReply rx s) := by
  unfold execReply
  exact (h.rxLink (fun _ h => h.deliver (fun _ h => h.replyIn))).next

theorem execBcastWrite_answers {rx : Rx} (h : s.Keeps q w) : Answers q w (execBcastWrite rx s) := by
  unfold execBcastWrite
  exact (h.rxLink (fun _ h => .ite h.bcastHere.bcastOn h)).next

theorem execHarvestDn_answers {rx : Rx} {cyc : Cycle} (h : s.Keeps q w) : Answers q w (execHarvestDn rx cyc s) := by
  unfold execHarvestDn
  exact (h.rxLink (fun _ h => h.hvDn.bcastOn)).next

theorem execHarvestUp_answers {rx : Rx} {cyc : Cycle} (h : s.Keeps q w) : Answers q w (execHarvestUp rx cyc s) := by
  unfold execHarvestUp
  exact (h.rxLink (fun _ h => h.deliver (fun _ h => h.hvUp))).next

theorem execTime_answers {rx : Rx} {t1 t2 t3 t4 : Int} (h : s.Keeps q w) : Answers q w (execTime rx t1 t2 t3
    t4 s) := by
  unfold execTime
  exact (h.rxLink (fun _ h => h.timeIn)).next

theorem execDiscover_answers {rx : Rx} (h : s.Keeps q w) : Answers q w (execDiscover rx s) := by
  unfold execDiscover
  exact (h.rxLink (fun _ h => h.discoverIn)).next

theorem execTopo_answers {rx : Rx} (h : s.Keeps q w) : Answers q w (execTopo rx s) :=
  (h.rxLink (fun _ h => h.deliver (fun _ h => h))).next

theorem execDictResult_answers {rx : Rx} (h : s.Keeps q w) : Answers q w (execDictResult rx s) := by
  unfold execDictResult
  exact (h.rxLink (fun _ h => h.deliver (fun _ h => h.resultIn))).next

theorem execAck_answers {p : PortId} {lseq : BitVec 8} (h : s.Keeps q w) : Answers q w (execAck p lseq s) := by
  unfold execAck
  exact h.ackFrame.next

theorem execNak_answers {p : PortId} {lseq : BitVec 8} {room : Bool} (h : s.Keeps q w) : Answers q w (execNak p lseq room s)
    := by
  unfold execNak
  exact h.retryFrame.next

theorem execRetryTimeout_answers {p : PortId} {room : Bool} (h : s.Keeps q w) : Answers q w (execRetryTimeout p room s) := by
  unfold execRetryTimeout
  exact h.answerLate.next

theorem execRequestSend_answers (h : s.Keeps q w) : Answers q w (execRequestSend s) := by
  unfold execRequestSend
  exact h.reqSend.next

theorem execTransactionTimeout_answers {tag : BitVec 12} (h : s.Keeps q w) : Answers q w (execTransactionTimeout tag s) := by
  unfold execTransactionTimeout
  exact h.txnLate.next

theorem execTargetAbsent_answers {p : PortId} (h : s.Keeps q w) : Answers q w (execTargetAbsent p s) := by
  unfold execTargetAbsent
  exact h.absent.next

theorem execReadBusyTimeout_answers {tag src : BitVec 12} (h : s.Keeps q w) : Answers q w (execReadBusyTimeout
    tag src s) := by
  unfold execReadBusyTimeout
  exact h.readBusy.next

theorem execTimeExchange_answers {p : PortId} (h : s.Keeps q w) : Answers q w (execTimeExchange p s) := by
  unfold execTimeExchange
  exact h.timeOut.next

theorem execTimeFrameTimeout_answers {p : PortId} (h : s.Keeps q w) : Answers q w (execTimeFrameTimeout p s) := by
  unfold execTimeFrameTimeout
  exact h.timeLost.next

/-! The host (Sys2Proof/Machine/HostBus.lean). -/

theorem State.Keeps.setDma {e : Nat} {v : Dma} (h : s.Keeps q w) : (s.setDma e v).Keeps q w := by
  unfold State.setDma
  exact h.record

theorem State.Keeps.dmaHalt {e : Nat} (h : s.Keeps q w) : (s.dmaHalt e).Keeps q w := by
  unfold State.dmaHalt
  exact h.setDma.putRg

theorem State.Keeps.dmaStop {e : Nat} (h : s.Keeps q w) : (s.dmaStop e).Keeps q w := by
  unfold State.dmaStop
  exact h.dmaHalt.fault

theorem State.Keeps.dmaRefuse {wr : Bool} {a : Nat} (h : s.Keeps q w) : (s.dmaRefuse wr a).Keeps q w := by
  have prot : ((s.memProt a 8).getD s).Keeps q w := by
    cases ht : s.memProt a 8 with
    | none => exact h
    | some t => exact h.memProt ht
  unfold State.dmaRefuse
  exact State.Keeps.busErr (.ite prot h)

theorem State.Keeps.dmaIn {a k : Nat} {bs : List Byte} (h : s.Keeps q w) : (s.dmaIn a bs k).1.Keeps q w := by
  induction k generalizing s a bs with
  | zero => exact h
  | succ k ih =>
    unfold State.dmaIn
    have hd : (if a < 0x4000000 then s.decideAll else s).Keeps q w := .ite h.decideAll h
    have hx : ∀ {x : Acs}, x.st.Keeps q w → ∀ {c d : Prop} [Decidable c] [Decidable d] {g b bs},
        (if c then (x.st, false) else if d then (x.st.dmaRefuse true g, false) else x.st.dmaIn b bs k).1.Keeps q w :=
      fun hx => .iteFst hx (.iteFst hx.dmaRefuse (ih hx))
    exact .iteFst h (hx (.iteSt hd hd.ddrWake.wordWrite))

theorem State.Keeps.dmaOut {a n k : Nat} {acc : List Byte} (h : s.Keeps q w) : (s.dmaOut a n acc k).1.Keeps q w := by
  induction k generalizing s a n acc with
  | zero => exact h
  | succ k ih =>
    unfold State.dmaOut
    exact .iteFst h (.iteFst h.dmaRefuse (.iteFst h.ddrWake.wordRead (ih h.ddrWake.wordRead)))

theorem State.Keeps.dmaTake {e : Nat} {ws : List Word} {data : List Byte} {hostErr : Bool} (h : s.Keeps q w) : (s.dmaTake e ws
    data hostErr).Keeps q w := by
  unfold State.dmaTake
  refine .ite h ?_
  refine .ite h.record.dmaStop ?_
  refine .ite ?_ (.ite h.record.dmaIn.setDma h.record.dmaIn.dmaStop)
  dsimp only
  split
  · exact h.record.dmaOut.record.setDma
  · exact h.record.dmaOut.dmaStop

theorem State.Keeps.dmaEnd {e : Nat} (h : s.Keeps q w) : (s.dmaEnd e).Keeps q w := by
  unfold State.dmaEnd
  split
  · exact h
  · refine .ite ?_ ?_
    · refine State.Keeps.dmaStop ?_
      split
      · exact h
      · exact h.busWrite
    · refine .ite ?_ ?_
      · refine State.Keeps.record ?_
        refine State.Keeps.countWrap ?_
        refine State.Keeps.setDma ?_
        split
        · exact h
        · exact h.busWrite
      · refine State.Keeps.countWrap ?_
        refine State.Keeps.setDma ?_
        split
        · exact h
        · exact h.busWrite

theorem State.Keeps.tlpRun {wr : Bool} {data acc : List Byte} {l : List (Nat × Nat × Nat)} (h : s.Keeps q w) :
    (s.tlpRun wr data acc l).1.Keeps q w := by
  induction l generalizing s acc with
  | nil => exact h
  | cons x _ ih =>
    obtain ⟨a, i, w⟩ := x
    unfold State.tlpRun
    exact .iteFst (.iteSt h.busWrite h.busRead) (ih (.iteSt h.busWrite h.busRead))

theorem State.Keeps.cfgWrite {off be w' : Nat} (h : s.Keeps q w) : (s.cfgWrite off be w').Keeps q w := by
  unfold State.cfgWrite
  exact .ite h.record h

theorem State.Keeps.tlpIn {b : Bar} {off : Nat} {wr : Bool} {fbe lbe : Nat} {dwords : List Word} (h : s.Keeps q w) :
    (s.tlpIn b off wr fbe lbe dwords).Keeps q w := by
  unfold State.tlpIn
  refine .ite h ?_
  refine .ite (.ite (.ite h.cfgWrite h) (State.Keeps.ite h.cfgWrite h).record) ?_
  split
  · exact .ite h.busErr h.busErr.record
  · exact .ite h.tlpRun h.tlpRun.record

theorem State.Keeps.pcieDown (h : s.Keeps q w) : s.pcieDown.Keeps q w := by
  unfold State.pcieDown
  exact .ite h (h.linesRise.record.foldl (fun _ _ h => h.dmaHalt)).record.report

theorem State.Keeps.pcieUp (h : s.Keeps q w) : s.pcieUp.Keeps q w := by
  unfold State.pcieUp
  exact .ite h.linesRise.record.uncause h

theorem State.Keeps.jtagIn {i : Nat} {data : List Nat} (h : s.Keeps q w) : (s.jtagIn i data).Keeps q w := by
  unfold State.jtagIn
  exact h.record

theorem execDmaDescriptor_answers {e : DmaId} {ws : List Word} {data : List Byte} {hostErr : Bool} (h : s.Keeps q w) :
    Answers q w (execDmaDescriptor e ws data hostErr s) := by
  unfold execDmaDescriptor
  exact h.dmaTake.next

theorem execDmaDone_answers {e : DmaId} (h : s.Keeps q w) : Answers q w (execDmaDone e s) := by
  unfold execDmaDone
  exact h.dmaEnd.next

theorem execTlp_answers {bar : Bar} {off : Nat} {isWrite : Bool} {fbe lbe : BitVec 4} {dwords : List Word} (h :
    s.Keeps q w) : Answers q w (execTlp bar off isWrite fbe lbe dwords s) := by
  unfold execTlp
  exact h.tlpIn.next

theorem execPcieLinkDown_answers (h : s.Keeps q w) : Answers q w (execPcieLinkDown s) := by
  unfold execPcieLinkDown
  exact h.pcieDown.next

theorem execPcieLinkUp_answers (h : s.Keeps q w) : Answers q w (execPcieLinkUp s) := by
  unfold execPcieLinkUp
  exact h.pcieUp.next

theorem execBypass_answers (h : s.Keeps q w) : Answers q w (execBypass s) := by
  unfold execBypass
  exact h.jtagIn.next

theorem execIdcode_answers (h : s.Keeps q w) : Answers q w (execIdcode s) := by
  unfold execIdcode
  exact h.jtagIn.next

theorem execSamplePreload_answers (h : s.Keeps q w) : Answers q w (execSamplePreload s) := by
  unfold execSamplePreload
  exact h.jtagIn.next

theorem execExtest_answers (h : s.Keeps q w) : Answers q w (execExtest s) := by
  unfold execExtest
  exact h.jtagIn.next

theorem execSysrd_answers (h : s.Keeps q w) : Answers q w (execSysrd s) := by
  unfold execSysrd
  exact h.jtagIn.next

theorem execDbg_answers (h : s.Keeps q w) : Answers q w (execDbg s) := by
  unfold execDbg
  exact h.jtagIn.next

theorem execTrstN_answers (h : s.Keeps q w) : Answers q w (execTrstN s) := by
  unfold execTrstN
  exact h.record.next

/-! The base tick (Sys2Proof/Machine/Tick.lean). -/

theorem State.Keeps.settleChan {n : Nat} (h : s.Keeps q w) : (s.settleChan n).Keeps q w := by
  unfold State.settleChan
  exact h.apDelayEnd.apEnd.recsSettle.leDue.brnTimeout.leRunEnd.oscWindow.hoCheck.arRequest.smpStep

theorem State.Keeps.settleTick (h : s.Keeps q w) : s.settleTick.Keeps q w := by
  unfold State.settleTick
  exact ((h.frameBegin.each (fun _ _ h => h.settleChan)).decideAll.each (fun _ _ h =>
      h.calWaits)).runTo.trigEnds.aliveToggle.aliveResume.windowsEnd.fabWaits.coreWaits

theorem State.Keeps.endTick (h : s.Keeps q w) : s.endTick.Keeps q w := by
  unfold State.endTick
  exact (h.timeStepNow.each (fun _ _ h => h.railSettle.offRampDone.clampRelease)).strobesDue.calCommits

theorem State.Keeps.linkStep {inp : TickIn} {t : Nat} (h : s.Keeps q w) : (s.linkStep inp t).Keeps q w := by
  unfold State.linkStep
  exact .ite h (.ite (State.Keeps.ite (State.Keeps.ite h.injGen.count h.injGen).record (State.Keeps.ite h.injGen.count
      h.injGen).record.report).cause (.ite (State.Keeps.ite (State.Keeps.ite h.injGen.count h.injGen).record
          (State.Keeps.ite h.injGen.count h.injGen).record.report).uncause (.ite (State.Keeps.ite h.injGen.count
          h.injGen).record (State.Keeps.ite h.injGen.count h.injGen).record.report)))

theorem State.Keeps.fdacStep {n : Nat} {down : Bool} (h : s.Keeps q w) : (s.fdacStep n down).Keeps q w := by
  unfold State.fdacStep
  exact .ite h.setCh h

theorem State.Keeps.codeStep {n : Nat} {down : Bool} (h : s.Keeps q w) : (s.codeStep n down).Keeps q w := by
  unfold State.codeStep
  exact .ite h h.setCh

theorem State.Keeps.ncoStep {n : Nat} (h : s.Keeps q w) : (s.ncoStep n).Keeps q w := by
  unfold State.ncoStep
  exact .ite h.setCh h.setCh

theorem State.Keeps.ownBoundary {n : Nat} {b : BIn} {down : Bool} (h : s.Keeps q w) : (s.ownBoundary n b down).Keeps q w := by
  unfold State.ownBoundary
  refine State.Keeps.cycleEnd ?_
  refine State.Keeps.stage ?_ (fun _ h => h.measStage)
  refine State.Keeps.stage ?_ (fun _ h => h.railStep)
  refine State.Keeps.stage ?_ (fun _ h => h.hoSample)
  refine State.Keeps.stage ((((State.Keeps.ite (((((((h.cycleBegin.stage (fun _ h => h.fdacStep)).bdHead.stage (fun _ h =>
      h.arbitrate)).stage (fun _ h => h.hoRequests)).stage (fun _ h => h.ncoStep)).stage (fun _ h => h.spStage)).stage (fun
          _ h => h.leBegin)).stage (fun _ h => h.codeStep)) ((((((((h.cycleBegin.stage (fun _ h => h.fdacStep)).bdHead.stage
          (fun _ h => h.arbitrate)).stage (fun _ h => h.hoRequests)).stage (fun _ h => h.ncoStep)).stage (fun _ h =>
          h.spStage)).stage (fun _ h => h.leBegin)).stage (fun _ h => h.codeStep)).stage (fun _ h =>
          h.pinStep))).cycleBegin.stage (fun _ h => h.evalStage)).stage (fun _ h => h.leStage)).stage (fun _ h =>
          h.supStage)) (fun _ h => ?_)
  split
  · exact h.safeStage
  · exact h

theorem State.Keeps.chanTick {n : Nat} {b : BIn} {down : Bool} (h : s.Keeps q w) : (s.chanTick n b down).Keeps q w := by
  unfold State.chanTick
  exact .ite h (.ite (((State.Keeps.ite ((State.Keeps.ite h.unfenceStep h).stage (fun _ h => h.ownBoundary)).gapLate (.ite
      (((State.Keeps.ite h.unfenceStep h).stage (fun _ h => h.ncoStep)).stage (fun _ h => h.brnStage)) ((((State.Keeps.ite
          h.unfenceStep h).stage (fun _ h => h.ncoStep)).stage (fun _ h => h.brnStage)).stage (fun _ h =>
          h.pinStep)))).stage (fun _ h => h.clampStep)).stage (fun _ h => h.rakeLook)) ((State.Keeps.ite ((State.Keeps.ite
          h.unfenceStep h).stage (fun _ h => h.ownBoundary)).gapLate (.ite (((State.Keeps.ite h.unfenceStep h).stage (fun _
          h => h.ncoStep)).stage (fun _ h => h.brnStage)) ((((State.Keeps.ite h.unfenceStep h).stage (fun _ h =>
          h.ncoStep)).stage (fun _ h => h.brnStage)).stage (fun _ h => h.pinStep)))).stage (fun _ h => h.clampStep)))

theorem State.Keeps.overruns {ts : List Nat} (h : s.Keeps q w) : (s.overruns ts).Keeps q w := by
  unfold State.overruns
  exact .ite h (h.foldl (fun _ _ h => h.count)).flag.report

theorem State.Keeps.tapStep {n : Nat} (h : s.Keeps q w) : (s.tapStep n).Keeps q w := by
  unfold State.tapStep
  exact .ite h h.setCh

theorem State.Keeps.refStep {t : Nat} (h : s.Keeps q w) : (s.refStep t).Keeps q w := by
  unfold State.refStep
  exact .ite h h.setTile

theorem State.Keeps.tickHead (h : s.Keeps q w) : s.tickHead.Keeps q w := by
  unfold State.tickHead
  exact (State.Keeps.ite h.throttleEnd.refMove.mtimeAdd.mtips.wdogTick.uartTick.commitsLate.frameApply.voteFixes.fwqLose
      h.throttleEnd.refMove.mtimeAdd.mtips.wdogTick.uartTick.commitsLate.frameApply.voteFixes).aliveTick.windowTick.fabTick.coreTick.coresOpen.calForm.tickFires

theorem State.Keeps.boundary {inp : TickIn} (h : s.Keeps q w) : (s.boundary inp).Keeps q w := by
  unfold State.boundary
  exact (((((h.tickHead.each (fun _ _ h => h.linkStep)).each (fun _ _ h => h.chanTick)).carried.overruns.each (fun _ _ h =>
      h.tapStep)).each (fun _ _ h => h.cmpGate)).each (fun _ _ h => h.refStep.pipStep)).linesRise

theorem State.Keeps.baseTick {inp : TickIn} (h : s.Keeps q w) : (s.baseTick inp).Keeps q w := by
  unfold State.baseTick
  exact .ite h.coresRun.linesRise (.ite h.coresRun.settleTick.endTick h.coresRun.settleTick.endTick.record.boundary)

theorem execBaseTick_answers {inp : TickIn} (h : s.Keeps q w) : Answers q w (execBaseTick inp s) := by
  unfold execBaseTick
  exact h.baseTick.next

theorem execStrobeApply_answers {g : GroupId} (h : s.Keeps q w) : Answers q w (execStrobeApply g s) := by
  unfold execStrobeApply
  exact h.settleTick.strobeApply.next

theorem execTimeStep_answers (h : s.Keeps q w) : Answers q w (execTimeStep s) := by
  unfold execTimeStep
  exact h.settleTick.timeStepNow.next

theorem execFrameStart_answers (h : s.Keeps q w) : Answers q w (execFrameStart s) := by
  unfold execFrameStart
  exact h.frameBegin.next

/-! Commands and steps. -/

/-- Whatever the command, what it answers keeps the queue and the form of the memory. -/
theorem State.Keeps.exec (h : s.Keeps q w) (i : Instr) : Answers q w (exec i s) := by
  cases i with
  | baseTick _ => exact execBaseTick_answers h
  | railSettleEnd _ => exact execRailSettleEnd_answers h
  | pwmPeriod _ _ => exact execPwmPeriod_answers h
  | offRampComplete _ => exact execOffRampComplete_answers h
  | oscWindowEnd _ => exact execOscWindowEnd_answers h
  | leStart _ _ => exact execLeStart_answers h
  | leStop _ _ => exact execLeStop_answers h
  | leRunEnd _ => exact execLeRunEnd_answers h
  | leDone _ => exact execLeDone_answers h
  | handoverCheck _ => exact execHandoverCheck_answers h
  | autorangeRequest _ => exact execAutorangeRequest_answers h
  | brineLineTimeout _ => exact execBrineLineTimeout_answers h
  | apertureDelayEnd _ => exact execApertureDelayEnd_answers h
  | apertureEnd _ => exact execApertureEnd_answers h
  | recordWritten _ _ => exact execRecordWritten_answers h
  | spillMove _ => exact execSpillMove_answers h
  | pansRptrWrite _ _ _ => exact execPansRptrWrite_answers h
  | brnRptrWrite _ _ _ => exact execBrnRptrWrite_answers h
  | measGo _ _ _ => exact execMeasGo_answers h
  | measAbort _ _ => exact execMeasAbort_answers h
  | lineCrossing _ _ => exact execLineCrossing_answers h
  | arm _ _ => exact execArm_answers h
  | enable _ _ => exact execEnable_answers h
  | disable _ _ => exact execDisable_answers h
  | disarm _ _ => exact execDisarm_answers h
  | serviceEnter _ _ => exact execServiceEnter_answers h
  | serviceLeave _ _ => exact execServiceLeave_answers h
  | chnCmdReserved _ _ _ => exact execChnCmdReserved_answers h
  | channelReset _ _ => exact execChannelReset_answers h
  | unfence _ _ => exact execUnfence_answers h
  | railWrite _ _ _ _ => exact execRailWrite_answers h
  | verify _ _ _ => exact execVerify_answers h
  | verifyDone _ => exact execVerifyDone_answers h
  | invalidate _ _ _ => exact execInvalidate_answers h
  | coefSetWrite _ _ _ _ _ => exact execCoefSetWrite_answers h
  | snap _ _ => exact execSnap_answers h
  | rakeCmdStart _ _ => exact execRakeCmdStart_answers h
  | rakeCmdStop _ _ => exact execRakeCmdStop_answers h
  | rakeCmdPause _ _ => exact execRakeCmdPause_answers h
  | rakeCmdResume _ _ => exact execRakeCmdResume_answers h
  | rakeCmdJump _ _ => exact execRakeCmdJump_answers h
  | rakeCmdCheck _ _ => exact execRakeCmdCheck_answers h
  | checkDone _ => exact execCheckDone_answers h
  | descriptorTableWrite _ _ _ _ => exact execDescriptorTableWrite_answers h
  | pointEnd _ => exact execPointEnd_answers h
  | waitEnd _ => exact execWaitEnd_answers h
  | waitTimeout _ => exact execWaitTimeout_answers h
  | segmentRepetitionEnd _ => exact execSegmentRepetitionEnd_answers h
  | granuleEnd _ => exact execGranuleEnd_answers h
  | underrunResume _ => exact execUnderrunResume_answers h
  | flush _ _ => exact execFlush_answers h
  | retry _ _ => exact execRetry_answers h
  | strWptrWrite _ _ _ => exact execStrWptrWrite_answers h
  | refillMove _ _ => exact execRefillMove_answers h
  | updGo _ _ => exact execUpdGo_answers h
  | strobeApply _ => exact execStrobeApply_answers h
  | pscGo _ _ => exact execPscGo_answers h
  | pscInjGo _ _ => exact execPscInjGo_answers h
  | pscStop _ _ => exact execPscStop_answers h
  | pscTimer _ => exact execPscTimer_answers h
  | pscPwmEdge _ => exact execPscPwmEdge_answers h
  | pscEdgeDelayEnd _ => exact execPscEdgeDelayEnd_answers h
  | pscSettleEnd _ => exact execPscSettleEnd_answers h
  | pscEntryResult _ _ _ _ => exact execPscEntryResult_answers h
  | comparatorEdge _ _ _ _ => exact execComparatorEdge_answers h
  | cmpSampleWindow _ _ _ _ => exact execCmpSampleWindow_answers h
  | clampTrip _ _ _ => exact execClampTrip_answers h
  | clampRelease _ => exact execClampRelease_answers h
  | clampReleaseKey _ _ => exact execClampReleaseKey_answers h
  | calGo _ _ => exact execCalGo_answers h
  | busAck _ _ => exact execBusAck_answers h
  | calAbort _ _ => exact execCalAbort_answers h
  | calBusTimeout _ => exact execCalBusTimeout_answers h
  | calPointSettleEnd _ => exact execCalPointSettleEnd_answers h
  | calReadingDone _ _ _ _ _ => exact execCalReadingDone_answers h
  | calCommit _ => exact execCalCommit_answers h
  | select _ _ => exact execSelect_answers h
  | calObjectWrite _ _ _ => exact execCalObjectWrite_answers h
  | calCoefUpdate _ _ => exact execCalCoefUpdate_answers h
  | eventDispatch _ => exact execEventDispatch_answers h
  | brmFire _ _ _ => exact execBrmFire_answers h
  | swfire _ _ _ => exact execSwfire_answers h
  | evcArm _ _ => exact execEvcArm_answers h
  | evcDisarm _ _ => exact execEvcDisarm_answers h
  | evcConfigWrite _ _ _ _ => exact execEvcConfigWrite_answers h
  | subscriptionWrite _ _ _ => exact execSubscriptionWrite_answers h
  | trigIn _ _ _ => exact execTrigIn_answers h
  | trigPulseEnd _ => exact execTrigPulseEnd_answers h
  | aliveToggle => exact execAliveToggle_answers h
  | aliveResume => exact execAliveResume_answers h
  | faultClear _ _ _ => exact execFaultClear_answers h
  | faultInject _ _ _ => exact execFaultInject_answers h
  | voteScrub _ => exact execVoteScrub_answers h
  | cfgCrcScan => exact execCfgCrcScan_answers h
  | registerWrite _ _ _ => exact execRegisterWrite_answers h
  | stsClear _ _ _ => exact execStsClear_answers h
  | guardPairExpire _ => exact execGuardPairExpire_answers h
  | counterHoldExpire _ => exact execCounterHoldExpire_answers h
  | accessTimeout _ _ _ => exact execAccessTimeout_answers h
  | svcEnter _ => exact execSvcEnter_answers h
  | svcLeave _ => exact execSvcLeave_answers h
  | aliasSet _ _ _ => exact execAliasSet_answers h
  | aliasClear _ _ _ => exact execAliasClear_answers h
  | aliasToggle _ _ _ => exact execAliasToggle_answers h
  | cfgcrcSelWrite _ _ => exact execCfgcrcSelWrite_answers h
  | crcPassDone => exact execCrcPassDone_answers h
  | uncommit _ => exact execUncommit_answers h
  | commit _ => exact execCommit_answers h
  | commitDone => exact execCommitDone_answers h
  | powerOnReset => exact execPowerOnReset_answers h
  | resetPin => exact execResetPin_answers h
  | resetDriveEnd => exact execResetDriveEnd_answers h
  | sequenceStart => exact execSequenceStart_answers h
  | strapMeasured _ => exact execStrapMeasured_answers h
  | trimLoadDone _ _ _ => exact execTrimLoadDone_answers h
  | pllLock => exact execPllLock_answers h
  | pllLockRetry => exact execPllLockRetry_answers h
  | domainRelease _ => exact execDomainRelease_answers h
  | qualifierTimeout _ => exact execQualifierTimeout_answers h
  | imageVerified _ _ => exact execImageVerified_answers h
  | bootJump => exact execBootJump_answers h
  | sysBootDoor _ _ => exact execSysBootDoor_answers h
  | sysChiprst _ => exact execSysChiprst_answers h
  | blockReset _ _ => exact execBlockReset_answers h
  | refSrc _ => exact execRefSrc_answers h
  | refclkLost => exact execRefclkLost_answers h
  | holdoverTimeout => exact execHoldoverTimeout_answers h
  | pllUnlock => exact execPllUnlock_answers h
  | droop _ => exact execDroop_answers h
  | throttleEnd => exact execThrottleEnd_answers h
  | tempMonitor _ _ => exact execTempMonitor_answers h
  | supplyExcursion _ _ => exact execSupplyExcursion_answers h
  | clkQual _ _ => exact execClkQual_answers h
  | standby _ => exact execStandby_answers h
  | run _ => exact execRun_answers h
  | standbyReached => exact execStandbyReached_answers h
  | runReached => exact execRunReached_answers h
  | sleep _ _ => exact execSleep_answers h
  | wake _ _ => exact execWake_answers h
  | tileOn _ => exact execTileOn_answers h
  | ddrSelfRefresh _ => exact execDdrSelfRefresh_answers h
  | portTrainStart _ => exact execPortTrainStart_answers h
  | portUp _ _ => exact execPortUp_answers h
  | trainingTimeout _ => exact execTrainingTimeout_answers h
  | retrain _ _ => exact execRetrain_answers h
  | blockLockLoss _ => exact execBlockLockLoss_answers h
  | frameForward _ => exact execFrameForward_answers h
  | read _ => exact execRead_answers h
  | write _ => exact execWrite_answers h
  | reply _ => exact execReply_answers h
  | bcastWrite _ => exact execBcastWrite_answers h
  | harvestDn _ _ => exact execHarvestDn_answers h
  | harvestUp _ _ => exact execHarvestUp_answers h
  | time _ _ _ _ _ => exact execTime_answers h
  | discover _ => exact execDiscover_answers h
  | topo _ => exact execTopo_answers h
  | ack _ _ => exact execAck_answers h
  | nak _ _ _ => exact execNak_answers h
  | retryTimeout _ _ => exact execRetryTimeout_answers h
  | fabRqWptr _ _ => exact execFabRqWptr_answers h
  | requestSend => exact execRequestSend_answers h
  | transactionTimeout _ => exact execTransactionTimeout_answers h
  | targetAbsent _ => exact execTargetAbsent_answers h
  | readBusyTimeout _ _ => exact execReadBusyTimeout_answers h
  | timeExchange _ => exact execTimeExchange_answers h
  | timeFrameTimeout _ => exact execTimeFrameTimeout_answers h
  | timeStep => exact execTimeStep_answers h
  | frameLengthGo _ => exact execFrameLengthGo_answers h
  | frameLengthApply => exact execFrameLengthApply_answers h
  | frameStart => exact execFrameStart_answers h
  | dictRead _ _ => exact execDictRead_answers h
  | dictWrite _ _ => exact execDictWrite_answers h
  | dictResult _ => exact execDictResult_answers h
  | fwReply _ _ => exact execFwReply_answers h
  | deferredTimeout _ => exact execDeferredTimeout_answers h
  | apply _ => exact execApply_answers h
  | halt _ _ => exact execHalt_answers h
  | coreHalted _ => exact execCoreHalted_answers h
  | coreRun _ _ => exact execCoreRun_answers h
  | restart _ _ => exact execRestart_answers h
  | wdog _ => exact execWdog_answers h
  | coreKick _ _ _ => exact execCoreKick_answers h
  | mtimecmpMatch _ _ => exact execMtimecmpMatch_answers h
  | coreUpdGo _ => exact execCoreUpdGo_answers h
  | updateDone _ => exact execUpdateDone_answers h
  | sramPatrol _ => exact execSramPatrol_answers h
  | ddrPatrol _ _ => exact execDdrPatrol_answers h
  | init _ _ => exact execInit_answers h
  | ddrTrainingDone _ => exact execDdrTrainingDone_answers h
  | ddrTrainingTimeout _ => exact execDdrTrainingTimeout_answers h
  | hostDmaWptr _ _ _ => exact execHostDmaWptr_answers h
  | dmaDescriptor _ _ _ _ => exact execDmaDescriptor_answers h
  | dmaDone _ => exact execDmaDone_answers h
  | tlp _ _ _ _ _ _ => exact execTlp_answers h
  | pcieLinkDown => exact execPcieLinkDown_answers h
  | xspiGo _ _ => exact execXspiGo_answers h
  | xspiDone _ => exact execXspiDone_answers h
  | uartRx _ => exact execUartRx_answers h
  | uartTx _ _ => exact execUartTx_answers h
  | loaderPrompt => exact execLoaderPrompt_answers h
  | bypass => exact execBypass_answers h
  | idcode => exact execIdcode_answers h
  | samplePreload => exact execSamplePreload_answers h
  | extest => exact execExtest_answers h
  | sysrd => exact execSysrd_answers h
  | dbg => exact execDbg_answers h
  | trstN => exact execTrstN_answers h
  | pcieLinkUp => exact execPcieLinkUp_answers h
  | refclkReturn => exact execRefclkReturn_answers h
  | slewingEnd => exact execSlewingEnd_answers h

/-- A step of a state whose queue begins with `c` answers what keeps the rest of the queue. -/
theorem State.Keeps.step_cons (h : s.Keeps q w) {c : Instr} {r : List Instr} (hq : s.pending = c :: r) : Answers r w (step s) := by
  unfold step
  rw [hq]
  exact State.Keeps.exec (s := { s with pending := r }) ⟨rfl, h.canon⟩ c

/-- Every state keeps its own queue, and its memory in the form it has. -/
theorem State.Keeps.self (s : State) : s.Keeps s.pending (s.memWf = true) := ⟨rfl, id⟩

theorem step_answers (s : State) : Answers s.pending.tail (s.memWf = true) (step s) := by
  cases hq : s.pending with
  | nil =>
    unfold step
    rw [hq]
    exact ⟨s, rfl, hq, id⟩
  | cons c r => exact (State.Keeps.self s).step_cons hq

end
end Sys2Proof.Machine

namespace Sys2Proof.Proofs

open Sys2Proof.Machine

/-- Settles O57: the command that a step runs keeps the memory in its canonical form, and an idle step changes nothing. -/
theorem memoryStaysCanonical : Obligations.MemoryStaysCanonical := by
  intro s t hs hstep
  obtain ⟨u, hu, hk⟩ := step_answers s
  obtain rfl := Host.Outcome.next.inj (hstep.symm.trans hu)
  exact hk.canon hs

/-- Settles O56: every command answers a next state and leaves the queue, of which a step takes the front. -/
theorem queueAndCompletion : Obligations.QueueAndCompletion := by
  constructor
  · intro s
    obtain ⟨u, hu, -⟩ := step_answers s
    rw [State.steps, hu]
  · intro s t c r hq hstep
    obtain ⟨u, hu, hk⟩ := step_answers s
    obtain rfl := Host.Outcome.next.inj (hstep.symm.trans hu)
    rw [hk.queue, hq, List.tail_cons]

end Sys2Proof.Proofs
end

section
/-! A step, and the state at reset. -/

namespace Sys2Proof.Machine

@[simp] theorem State.sh_reset (o : Nat) : State.reset.sh o = (regReset o).toNat := rfl

@[simp] theorem State.ch_reset (n : Nat) : State.reset.ch n = {} := rfl

@[simp] theorem State.byte_reset (a : Nat) : State.reset.byte a = 0 := rfl

end Sys2Proof.Machine

namespace Sys2Proof.Proofs

open Sys2Proof.Machine

/-- Settles O54: a step takes the front of the queue, and without one idles. -/
theorem stepRunsFront : Obligations.StepRunsFront :=
  ⟨fun _ _ => rfl, fun s hs => by rw [step, hs]⟩

/-- Settles O55: at reset every map is empty, so that each register, channel and byte reads its default. -/
theorem resetState : Obligations.ResetState := by
  refine ⟨rfl, fun o => ⟨State.rg_reset o, State.sh_reset o⟩, fun n => ?_, rfl, rfl, rfl, rfl, State.committed_reset,
    State.reset_memWf, State.byte_reset⟩
  rw [State.ch_reset]
  exact ⟨rfl, rfl, rfl⟩

end Sys2Proof.Proofs
end
section
/-! SUPPORT. What the shared operations leave unchanged, for the readers `rg`, `ch` and `byte`; a register of a channel is
named by its channel and its offset in the channel's block. -/

namespace Sys2Proof.Machine

section
variable (s : State) (o p v n m k : Nat) (c : Chan) (f : Chan → Chan)

@[simp] theorem State.rg_setCh : (s.setCh n c).rg o = s.rg o := rfl
@[simp] theorem State.rg_updCh : (s.updCh n f).rg o = s.rg o := rfl
@[simp] theorem State.rg_setSh : (s.setSh p v).rg o = s.rg o := rfl
@[simp] theorem State.ch_setRg : (s.setRg o v).ch n = s.ch n := rfl
@[simp] theorem State.ch_setCr : (s.setCr m o v).ch n = s.ch n := rfl
@[simp] theorem State.ch_setSh : (s.setSh o v).ch n = s.ch n := rfl
@[simp] theorem State.ch_flag : (s.flag o v).ch n = s.ch n := State.ch_congr (s.flag_chans o v) n
@[simp] theorem State.ch_cflag : (s.cflag m o v).ch n = s.ch n := s.ch_flag _ v n
@[simp] theorem State.ch_count : (s.count o k).ch n = s.ch n := rfl
@[simp] theorem State.ch_ccount : (s.ccount m o k).ch n = s.ch n := rfl
@[simp] theorem State.mem_updCh : (s.updCh n f).mem = s.mem := rfl
@[simp] theorem State.mem_setCr : (s.setCr n o v).mem = s.mem := rfl
@[simp] theorem State.mem_cflag : (s.cflag n o v).mem = s.mem := s.flag_mem _ v
@[simp] theorem State.mem_ccount : (s.ccount n o k).mem = s.mem := rfl
@[simp] theorem State.crc_updCh : (s.updCh n f).crc = s.crc := rfl
@[simp] theorem State.crc_setCr : (s.setCr n o v).crc = s.crc := rfl
@[simp] theorem State.fenced_updCh : (s.updCh n f).fenced = s.fenced := rfl
@[simp] theorem State.fenced_setCr : (s.setCr n o v).fenced = s.fenced := rfl
@[simp] theorem State.regs_updCh : (s.updCh n f).regs = s.regs := rfl
@[simp] theorem State.tick_updCh : (s.updCh n f).tick = s.tick := rfl
@[simp] theorem State.tick_setCr : (s.setCr n o v).tick = s.tick := rfl
@[simp] theorem State.tick_cflag : (s.cflag n o v).tick = s.tick := s.flag_tick _ v
@[simp] theorem State.cr_setCh (q : Nat) : (s.setCh n c).cr m q = s.cr m q := rfl
@[simp] theorem State.cr_updCh (q : Nat) : (s.updCh n f).cr m q = s.cr m q := rfl

theorem State.ch_setCh : (s.setCh n c).ch m = if m = n then c else s.ch m := by
  by_cases h : m = n
  · subst h; simp
  · rw [if_neg h, State.ch_setCh_ne s c h]

theorem State.ch_updCh : (s.updCh n f).ch m = if m = n then f (s.ch n) else s.ch m := State.ch_setCh s n m _

end

/-! Registers of a channel. -/

@[simp] theorem chOff_inj (n a b : Nat) : chOff n a = chOff n b ↔ a = b := by unfold chOff; omega

theorem State.cr_setCr (s : State) (n a b v : Nat) :
    (s.setCr n a v).cr n b = if b = a then v % 4294967296 else s.cr n b := by
  simp [State.setCr, State.cr, State.rg_setRg]

theorem State.rg_setCr_ne (s : State) {o n a : Nat} (v : Nat) (h : o ≠ chOff n a) : (s.setCr n a v).rg o = s.rg o :=
  State.rg_setRg_ne s v h

theorem State.cr_cflag_ne (s : State) (n : Nat) {a b : Nat} (v : Nat) (h : b ≠ a) : (s.cflag n a v).cr n b = s.cr n b :=
  State.flag_rg_ne s v (by simpa using h)

theorem State.rg_cflag_ne (s : State) {o n a : Nat} (v : Nat) (h : o ≠ chOff n a) : (s.cflag n a v).rg o = s.rg o :=
  State.flag_rg_ne s v h

theorem State.cr_ccount_ne (s : State) (n : Nat) {a b : Nat} (k : Nat) (h : b ≠ a) : (s.ccount n a k).cr n b = s.cr n b :=
  State.rg_count_ne s k (by simpa using h)

theorem State.rg_ccount_ne (s : State) {o n a : Nat} (k : Nat) (h : o ≠ chOff n a) : (s.ccount n a k).rg o = s.rg o :=
  State.rg_count_ne s k h

/-- A field of a register that `setBits` has replaced. -/
theorem State.cr_setCr_setBits (s s' : State) (n : Nat) {a hi lo v : Nat} (h : lo ≤ hi) (hh : hi < 32) :
    bitsOf ((s.setCr n a (setBits (s'.cr n a) hi lo v)).cr n a) hi lo = v % 2 ^ (hi + 1 - lo) := by
  rw [State.cr_setCr, if_pos rfl,
    show setBits (s'.cr n a) hi lo v % 4294967296 = _ from Nat.mod_eq_of_lt (setBits_lt (k := 32) (s'.rg_lt _) h hh),
    bitsOf_setBits_same _ _ _ _ h]

/-- A flag that `cflag` sets reads 1. -/
theorem State.cflag_bit (s : State) (n rel m i : Nat) (hm : m < 16777216) (hi : i < 24) (h : bitOf m i = true) :
    bitOf ((s.cflag n rel m).cr n rel) i = true := by
  rw [State.cflag, State.cr, State.flag_bit _ _ _ _ hm hi, h, Bool.or_true]

/-! A producer's event only waits. -/

/-- Two states that differ in the contributions that wait, and in nothing else. -/
theorem State.fireChAt_only (s : State) (kind n k : Nat) : ∃ c, s.fireChAt kind n k = { s with contribs := c } := by
  rw [State.fireChAt]
  split
  · exact ⟨s.contribs, rfl⟩
  · exact ⟨_, rfl⟩

section
variable (s : State) (kind n k o m : Nat)

@[simp] theorem State.regs_fireCh : (s.fireCh kind n k).regs = s.regs := by
  obtain ⟨c, hc⟩ := s.fireChAt_only kind n (s.at_ k); simp only [State.fireCh, hc]
@[simp] theorem State.chans_fireCh : (s.fireCh kind n k).chans = s.chans := by
  obtain ⟨c, hc⟩ := s.fireChAt_only kind n (s.at_ k); simp only [State.fireCh, hc]
@[simp] theorem State.mem_fireCh : (s.fireCh kind n k).mem = s.mem := by
  obtain ⟨c, hc⟩ := s.fireChAt_only kind n (s.at_ k); simp only [State.fireCh, hc]
@[simp] theorem State.fenced_fireCh : (s.fireCh kind n k).fenced = s.fenced := by
  obtain ⟨c, hc⟩ := s.fireChAt_only kind n (s.at_ k); simp only [State.fireCh, hc]
@[simp] theorem State.crc_fireCh : (s.fireCh kind n k).crc = s.crc := by
  obtain ⟨c, hc⟩ := s.fireChAt_only kind n (s.at_ k); simp only [State.fireCh, hc]
@[simp] theorem State.rg_fireCh : (s.fireCh kind n k).rg o = s.rg o := State.rg_congr (s.regs_fireCh kind n k) o
@[simp] theorem State.cr_fireCh : (s.fireCh kind n k).cr m o = s.cr m o := s.rg_fireCh kind n k _
@[simp] theorem State.ch_fireCh : (s.fireCh kind n k).ch m = s.ch m := State.ch_congr (s.chans_fireCh kind n k) m

end

end Sys2Proof.Machine
end

section
/-! PROOFS. Commands of a channel that are latched for its next own boundary: the Rake's (R276 to R280, R301) and those of
CHn_CTL (R72 to R77). -/

namespace Sys2Proof.Machine

/-! The Rake's commands. -/

theorem State.rakeLatch_of_not_fenced {s : State} {n : Nat} (h : (s.ch n).state ≠ .fenced) (k : Nat) :
    s.rakeLatch n k = s.updCh n fun c => { c with rake := { c.rake with cmds := c.rake.cmds ++ [k] } } :=
  if_neg h

theorem State.rakeJump_first {s : State} {n : Nat} (h : (s.ch n).state ≠ .fenced) (hj : (s.ch n).rake.jlatch = false) :
    s.rakeJump n = s.updCh n fun c => { c with rake := { c.rake with jlatch := true } } := by
  simp [State.rakeJump, h, hj, State.updCh]

theorem State.rakeJump_again {s : State} {n : Nat} (h : (s.ch n).state ≠ .fenced) (hj : (s.ch n).rake.jlatch = true) :
    s.rakeJump n = s.ccount n chRakeJdrop := by
  simp [State.rakeJump, h, hj]

section
variable {s : State} {a : Acc} {n : ChanId} (h : s.mayWrite a (chOff n.val chRakeCtl))
include h

theorem exec_rakeCmdStop_of_mayWrite : exec (.rakeCmdStop a n) s = .next (s.rakeLatch n.val 0) := by
  change execRakeCmdStop a n s = _
  exact State.mayWrite_next h _ _

theorem exec_rakeCmdPause_of_mayWrite : exec (.rakeCmdPause a n) s = .next (s.rakeLatch n.val 1) := by
  change execRakeCmdPause a n s = _
  exact State.mayWrite_next h _ _

theorem exec_rakeCmdResume_of_mayWrite : exec (.rakeCmdResume a n) s = .next (s.rakeLatch n.val 2) := by
  change execRakeCmdResume a n s = _
  exact State.mayWrite_next h _ _

theorem exec_rakeCmdStart_of_mayWrite : exec (.rakeCmdStart a n) s = .next (s.rakeLatch n.val 3) := by
  change execRakeCmdStart a n s = _
  exact State.mayWrite_next h _ _

theorem exec_rakeCmdCheck_of_mayWrite : exec (.rakeCmdCheck a n) s = .next (s.rakeLatch n.val 4) := by
  change execRakeCmdCheck a n s = _
  exact State.mayWrite_next h _ _

theorem exec_rakeCmdJump_of_mayWrite : exec (.rakeCmdJump a n) s = .next (s.rakeJump n.val) := by
  change execRakeCmdJump a n s = _
  exact State.mayWrite_next h _ _

end

/-! The commands of CHn_CTL. -/

/-- Command `code` latched for the next own boundary of channel `n`, with CMD reading as it. -/
def State.cmdLatch (s : State) (n code : Nat) : State :=
  (s.setCr n chCtl (setBits (s.cr n chCtl) 3 0 code)).updCh n fun c =>
    { c with cmds := c.cmds ++ [code], slot := c.slot || decide (code = 1) }

theorem State.chanCmd_latched {s : State} {n code : Nat} (h0 : code ≠ 0) (h : s.cmdReason n code = 0) :
    s.chanCmd n code = s.cmdLatch n code := by
  simp [State.chanCmd, State.cmdLatch, h0, h]

theorem State.chanCmd_refused {s : State} {n code why : Nat} (h0 : code ≠ 0) (hw : why ≠ 0) (h : s.cmdReason n code = why) :
    s.chanCmd n code = s.cmdRefuse n code why := by
  subst h
  simp [State.chanCmd, h0, hw]

section
variable (s : State) (n : Nat)

theorem State.cmdReason_arm : s.cmdReason n 1 =
    if (s.ch n).state ≠ .off ∨ s.awake n = false then 1
    else if s.committed n = false then 4
    else if armRanges s.accepted n = false then 5
    else if s.armAdmits n = false then 3
    else if s.armConfig n = false then 5 else 0 := by
  simp [State.cmdReason]

theorem State.cmdReason_enable :
    s.cmdReason n 2 = if (s.ch n).state ≠ .armed then 1 else if s.railsOk n = false then 2 else 0 := by
  simp [State.cmdReason]

theorem State.cmdReason_disable : s.cmdReason n 3 = if (s.ch n).state ≠ .active then 1 else 0 := rfl

theorem State.cmdReason_disarm :
    s.cmdReason n 4 = if (s.ch n).state ≠ .armed ∧ (s.ch n).state ≠ .active then 1 else 0 := rfl

theorem State.cmdReason_serviceEnter : s.cmdReason n 5 =
    if (s.ch n).state ≠ .off ∨ s.awake n = false then 1 else if s.committed n = false then 4 else 0 := by
  simp [State.cmdReason]

theorem State.cmdReason_serviceLeave :
    s.cmdReason n 6 = if (s.ch n).state ≠ .service then 1 else if s.calOn n = true then 6 else 0 := rfl

theorem State.cmdReason_reserved {code : Nat} (h : 7 ≤ code) : s.cmdReason n code = 7 := if_pos h

end

section
variable {s : State} {a : Acc} {n : ChanId} (h : s.mayWrite a (chOff n.val chCtl))
include h

theorem exec_arm_of_mayWrite : exec (.arm a n) s = .next (s.armCmd n.val) := by
  change execArm a n s = _
  exact State.mayWrite_next h _ _

theorem exec_enable_of_mayWrite : exec (.enable a n) s = .next (s.chanCmd n.val 2) := by
  change execEnable a n s = _
  exact State.mayWrite_next h _ _

theorem exec_disable_of_mayWrite : exec (.disable a n) s = .next (s.chanCmd n.val 3) := by
  change execDisable a n s = _
  exact State.mayWrite_next h _ _

theorem exec_disarm_of_mayWrite : exec (.disarm a n) s = .next (s.chanCmd n.val 4) := by
  change execDisarm a n s = _
  exact State.mayWrite_next h _ _

theorem exec_serviceEnter_of_mayWrite : exec (.serviceEnter a n) s = .next (s.chanCmd n.val 5) := by
  change execServiceEnter a n s = _
  exact State.mayWrite_next h _ _

theorem exec_serviceLeave_of_mayWrite : exec (.serviceLeave a n) s = .next (s.chanCmd n.val 6) := by
  change execServiceLeave a n s = _
  exact State.mayWrite_next h _ _

theorem exec_chnCmdReserved_of_mayWrite (code : BitVec 4) :
    exec (.chnCmdReserved a n code) s = .next (s.chanCmd n.val code.toNat) := by
  change execChnCmdReserved a n code s = _
  exact State.mayWrite_next h _ _

end

end Sys2Proof.Machine
namespace Sys2Proof.Proofs
open Sys2Proof.Machine
/-- Settles O9: each command's write is its latch. -/
theorem rakeCommands : Obligations.RakeCommands := by
  intro s a n hw hf latched
  refine ⟨?_, ?_, ?_, ?_, ?_, fun hj => ?_, fun hj => ?_⟩
  · rw [exec_rakeCmdStop_of_mayWrite hw, State.rakeLatch_of_not_fenced hf]
  · rw [exec_rakeCmdPause_of_mayWrite hw, State.rakeLatch_of_not_fenced hf]
  · rw [exec_rakeCmdResume_of_mayWrite hw, State.rakeLatch_of_not_fenced hf]
  · rw [exec_rakeCmdStart_of_mayWrite hw, State.rakeLatch_of_not_fenced hf]
  · rw [exec_rakeCmdCheck_of_mayWrite hw, State.rakeLatch_of_not_fenced hf]
  · rw [exec_rakeCmdJump_of_mayWrite hw, State.rakeJump_first hf hj]
  · rw [exec_rakeCmdJump_of_mayWrite hw, State.rakeJump_again hf hj]

/-- Settles O1: a command is latched where its reason for refusal is 0, and refused with its reason otherwise. -/
theorem channelCommands : Obligations.ChannelCommands := by
  refine ⟨fun s a n hw => ?_, fun s a n hw => ?_⟩
  · intro latched st u
    refine ⟨fun h1 h2 h3 h4 h5 h6 => ?_, fun h1 h2 => ?_, fun h1 => ?_, fun h1 => ?_, fun h1 h2 h3 => ?_, fun h1 h2 => ?_⟩
    · rw [exec_arm_of_mayWrite hw, State.armCmd,
        State.chanCmd_latched (by decide) (by simp [State.cmdReason_arm, u, h1, h2, h3, h4, h5, h6])]
      rfl
    · rw [exec_enable_of_mayWrite hw, State.chanCmd_latched (by decide) (by simp [State.cmdReason_enable, st, h1, h2])]
      rfl
    · rw [exec_disable_of_mayWrite hw, State.chanCmd_latched (by decide) (by simp [State.cmdReason_disable, st, h1])]
      rfl
    · rw [exec_disarm_of_mayWrite hw, State.chanCmd_latched (by decide) (by rw [State.cmdReason_disarm]; grind)]
      rfl
    · rw [exec_serviceEnter_of_mayWrite hw,
        State.chanCmd_latched (by decide) (by simp [State.cmdReason_serviceEnter, st, h1, h2, h3])]
      rfl
    · rw [exec_serviceLeave_of_mayWrite hw,
        State.chanCmd_latched (by decide) (by simp [State.cmdReason_serviceLeave, st, h1, h2])]
      rfl
  · intro refusedAt refused st off u uff
    have awake_off {h : Prop} {b : Bool} (hn : ¬ (h ∧ b = true)) : ¬ h ∨ b = false := by
      rw [← Bool.not_eq_true]; exact not_and_or.mp hn
    refine ⟨fun h1 => ?_, fun h1 h2 => ?_, fun h1 h2 h3 => ?_, fun h1 h2 h3 h4 => ?_, fun h1 h2 h3 h4 h5 => ?_, fun h1 => ?_,
      fun h1 h2 => ?_, fun h1 => ?_, fun h1 h2 => ?_, fun h1 => ?_, fun h1 h2 => ?_, fun h1 => ?_, fun h1 h2 => ?_,
      fun code h1 => ?_⟩
    · rw [exec_arm_of_mayWrite hw, State.armCmd]
      exact congrArg _ (State.chanCmd_refused (by decide) (by decide) (by rw [State.cmdReason_arm, if_pos (awake_off h1)]))
    · rw [exec_arm_of_mayWrite hw, State.armCmd]
      exact congrArg _ (State.chanCmd_refused (by decide) (by decide) (by simp [State.cmdReason_arm, u, h1.1, h1.2, h2]))
    · rw [exec_arm_of_mayWrite hw, State.armCmd]
      exact congrArg _ (State.chanCmd_refused (by decide) (by decide) (by simp [State.cmdReason_arm, u, h1.1, h1.2, h2, h3]))
    · rw [exec_arm_of_mayWrite hw, State.armCmd]
      exact congrArg _
        (State.chanCmd_refused (by decide) (by decide) (by simp [State.cmdReason_arm, u, h1.1, h1.2, h2, h3, h4]))
    · rw [exec_arm_of_mayWrite hw, State.armCmd]
      exact congrArg _
        (State.chanCmd_refused (by decide) (by decide) (by simp [State.cmdReason_arm, u, h1.1, h1.2, h2, h3, h4, h5]))
    · rw [exec_enable_of_mayWrite hw]
      exact congrArg _ (State.chanCmd_refused (by decide) (by decide) (by rw [State.cmdReason_enable, if_pos h1]))
    · rw [exec_enable_of_mayWrite hw]
      exact congrArg _ (State.chanCmd_refused (by decide) (by decide) (by simp [State.cmdReason_enable, st, h1, h2]))
    · rw [exec_disable_of_mayWrite hw]
      exact congrArg _ (State.chanCmd_refused (by decide) (by decide) (by rw [State.cmdReason_disable, if_pos h1]))
    · rw [exec_disarm_of_mayWrite hw]
      exact congrArg _ (State.chanCmd_refused (by decide) (by decide) (by rw [State.cmdReason_disarm, if_pos ⟨h1, h2⟩]))
    · rw [exec_serviceEnter_of_mayWrite hw]
      exact congrArg _ (State.chanCmd_refused (by decide) (by decide)
        (by rw [State.cmdReason_serviceEnter, if_pos (awake_off h1)]))
    · rw [exec_serviceEnter_of_mayWrite hw]
      exact congrArg _ (State.chanCmd_refused (by decide) (by decide)
        (by simp [State.cmdReason_serviceEnter, show (s.ch n.val).state = .off from h1.1, h1.2, h2]))
    · rw [exec_serviceLeave_of_mayWrite hw]
      exact congrArg _ (State.chanCmd_refused (by decide) (by decide) (by rw [State.cmdReason_serviceLeave, if_pos h1]))
    · rw [exec_serviceLeave_of_mayWrite hw]
      exact congrArg _ (State.chanCmd_refused (by decide) (by decide) (by simp [State.cmdReason_serviceLeave, st, h1, h2]))
    · rw [exec_chnCmdReserved_of_mayWrite hw]
      exact congrArg _ (State.chanCmd_refused (by omega) (by decide) (State.cmdReason_reserved _ _ h1))

end Sys2Proof.Proofs
end
section
/-! PROOFS. The reset of a channel (R81, R82, R333). -/

namespace Sys2Proof.Machine



/-- R340: the low water mark sets its flag and fires; nothing else changes. -/
theorem State.strLow_cases (s : State) (n old cyc : Nat) :
    s.strLow n old cyc = s ∨ s.strLow n old cyc = (s.cflag n chStrFlags 2).fireCh 16 n cyc := by
  unfold State.strLow
  dsimp only
  split
  · exact .inr rfl
  · exact .inl rfl

section
variable (s : State) (n old cyc : Nat)

@[simp] theorem State.mem_strLow : (s.strLow n old cyc).mem = s.mem := by
  obtain h | h := s.strLow_cases n old cyc <;> simp [h]
@[simp] theorem State.ch_strLow (m : Nat) : (s.strLow n old cyc).ch m = s.ch m := by
  obtain h | h := s.strLow_cases n old cyc <;> simp [h]
@[simp] theorem State.fenced_strLow : (s.strLow n old cyc).fenced = s.fenced := by
  obtain h | h := s.strLow_cases n old cyc <;> simp [h, State.cflag]
@[simp] theorem State.crc_strLow : (s.strLow n old cyc).crc = s.crc := by
  obtain h | h := s.strLow_cases n old cyc <;> simp [h, State.cflag]
theorem State.rg_strLow_ne {o : Nat} (h : o ≠ chOff n chStrFlags) : (s.strLow n old cyc).rg o = s.rg o := by
  obtain h' | h' := s.strLow_cases n old cyc <;> simp [h', State.rg_cflag_ne _ _ h]

end

/-- The registers that a channel reset returns to their reset values. -/
def chanResetRegs : List Nat := [chCtl, chCfg, chSp, chLim, chFlags, chRefuse]

/-- The state after a channel reset, but for the low water mark's flag and event. -/
theorem State.chanReset_idle {s : State} {n : Nat} (h : (s.ch n).state = .fenced ∨ s.chIdle n = true) :
    s.chanReset n = (((((s.updCh n fun c => { c with cmds := [], slot := false }).chanRegReset n).strFlush n).setCr n
      chStrWptr 0).setCr n chStrRptr 0).updCh n fun c => { c with str := { c.str with pos := 0, buf := none } } := by
  simp [State.chanReset, h]

theorem State.chanReset_busy {s : State} {n : Nat} (h : (s.ch n).state ≠ .fenced) (hi : s.chIdle n = false) :
    s.chanReset n = s.cflag n chFlags 0x40 := by
  simp [State.chanReset, h, hi]

@[simp] theorem State.ch_chanRegReset (s : State) (n m : Nat) : (s.chanRegReset n).ch m = s.ch m := by
  simp [State.chanRegReset, State.setBoth]
@[simp] theorem State.mem_chanRegReset (s : State) (n : Nat) : (s.chanRegReset n).mem = s.mem := by
  simp [State.chanRegReset, State.setBoth]
@[simp] theorem State.fenced_chanRegReset (s : State) (n : Nat) : (s.chanRegReset n).fenced = s.fenced := by
  simp [State.chanRegReset, State.setBoth]
@[simp] theorem State.crc_chanRegReset (s : State) (n : Nat) : (s.chanRegReset n).crc = s.crc := by
  simp [State.chanRegReset, State.setBoth]

theorem State.rg_foldl_setBoth_reset (n o : Nat) (l : List Nat) : ∀ s : State,
    (l.foldl (fun s r => s.setBoth (chOff n r) (regReset (chOff n r)).toNat) s).rg o =
      if o ∈ l.map (chOff n) then (regReset o).toNat else s.rg o := by
  induction l with
  | nil => intro s; rfl
  | cons r l ih =>
    intro s
    have lt (a : Nat) : (regReset a).toNat % 4294967296 = (regReset a).toNat := Nat.mod_eq_of_lt (regReset a).isLt
    rw [List.foldl_cons, ih, State.setBoth, State.rg_setSh, State.rg_setRg, lt]
    by_cases hr : o = chOff n r <;> simp [hr]

theorem State.rg_chanRegReset (s : State) (n o : Nat) :
    (s.chanRegReset n).rg o = if o ∈ chanResetRegs.map (chOff n) then (regReset o).toNat else s.rg o :=
  State.rg_foldl_setBoth_reset n o chanResetRegs s

theorem State.rg_strFlush (s : State) {n o : Nat} (h : o ≠ chOff n chStrRptr) (h' : o ≠ chOff n chStrFlags) :
    (s.strFlush n).rg o = s.rg o := by
  simp only [State.strFlush]
  rw [State.rg_strLow_ne _ _ _ _ h', State.rg_updCh, State.rg_setCr_ne _ _ h]
@[simp] theorem State.mem_strFlush (s : State) (n : Nat) : (s.strFlush n).mem = s.mem := by simp [State.strFlush]
@[simp] theorem State.fenced_strFlush (s : State) (n : Nat) : (s.strFlush n).fenced = s.fenced := by
  simp [State.strFlush, State.updCh, State.setCr]
@[simp] theorem State.crc_strFlush (s : State) (n : Nat) : (s.strFlush n).crc = s.crc := by
  simp [State.strFlush, State.updCh, State.setCr]
theorem State.ch_strFlush (s : State) (n m : Nat) : (s.strFlush n).ch m =
    if m = n then { s.ch n with str := { (s.ch n).str with pos := s.cr n chStrWptr, buf := none } } else s.ch m := by
  simp [State.strFlush, State.ch_updCh]

section
variable {s : State} {n : Nat} (h : (s.ch n).state = .fenced ∨ s.chIdle n = true)
include h

theorem State.cr_chanReset_of_mem {r : Nat} (hr : r ∈ chanResetRegs) :
    (s.chanReset n).cr n r = (regReset (chOff n r)).toNat := by
  obtain ⟨hp, hr', hf⟩ : r ≠ chStrWptr ∧ r ≠ chStrRptr ∧ r ≠ chStrFlags := by revert r; decide
  rw [State.chanReset_idle h, State.cr_updCh, State.cr_setCr, if_neg hr', State.cr_setCr, if_neg hp, State.cr,
    State.rg_strFlush _ (by simp [hr']) (by simp [hf]), State.rg_chanRegReset, if_pos (List.mem_map_of_mem hr)]

theorem State.cr_chanReset_strPtrs : (s.chanReset n).cr n chStrWptr = 0 ∧ (s.chanReset n).cr n chStrRptr = 0 := by
  rw [State.chanReset_idle h]
  constructor
  · rw [State.cr_updCh, State.cr_setCr, if_neg (by decide), State.cr_setCr, if_pos rfl]
  · rw [State.cr_updCh, State.cr_setCr, if_pos rfl]

theorem State.rg_chanReset_of_not_mem {o : Nat}
    (ho : o ∉ (chanResetRegs ++ [chStrWptr, chStrRptr, chStrFlags]).map (chOff n)) : (s.chanReset n).rg o = s.rg o := by
  have hn {r : Nat} (hr : r ∈ chanResetRegs ++ [chStrWptr, chStrRptr, chStrFlags]) : o ≠ chOff n r :=
    fun h => ho (h ▸ List.mem_map_of_mem hr)
  have hp := hn (List.mem_append_right _ (.head _))
  have hr := hn (List.mem_append_right _ (.tail _ (.head _)))
  have hf := hn (List.mem_append_right _ (.tail _ (.tail _ (.head _))))
  rw [List.map_append, List.mem_append, not_or] at ho
  rw [State.chanReset_idle h, State.rg_updCh, State.rg_setCr_ne _ _ hr, State.rg_setCr_ne _ _ hp, State.rg_strFlush _ hr hf,
    State.rg_chanRegReset, if_neg ho.1, State.rg_updCh]

theorem State.ch_chanReset (m : Nat) : (s.chanReset n).ch m = if m = n then
    { s.ch n with cmds := [], slot := false, str := { (s.ch n).str with pos := 0, buf := none } } else s.ch m := by
  rw [State.chanReset_idle h]
  by_cases hm : m = n
  · subst hm
    rw [if_pos rfl, State.ch_updCh_same, State.ch_setCr, State.ch_setCr, State.ch_strFlush, if_pos rfl,
      State.ch_chanRegReset, State.ch_updCh_same]
  · rw [if_neg hm, State.ch_updCh_ne _ _ hm, State.ch_setCr, State.ch_setCr, State.ch_strFlush, if_neg hm,
      State.ch_chanRegReset, State.ch_updCh_ne _ _ hm]

theorem State.chanReset_rest : (s.chanReset n).crc = s.crc ∧ (s.chanReset n).fenced = s.fenced ∧
    (s.chanReset n).mem = s.mem := by
  rw [State.chanReset_idle h]
  refine ⟨?_, ?_, ?_⟩
  · rw [State.crc_updCh, State.crc_setCr, State.crc_setCr, State.crc_strFlush, State.crc_chanRegReset, State.crc_updCh]
  · rw [State.fenced_updCh, State.fenced_setCr, State.fenced_setCr, State.fenced_strFlush, State.fenced_chanRegReset,
      State.fenced_updCh]
  · rw [State.mem_updCh, State.mem_setCr, State.mem_setCr, State.mem_strFlush, State.mem_chanRegReset, State.mem_updCh]

end

theorem State.pairDrop_unpaired {s : State} {a : Acc} {o : Nat} (h : s.unpaired a o = true) : s.pairDrop a.req o = s := by
  simp only [State.unpaired, Bool.not_eq_true'] at h
  simp [State.pairDrop, h]

theorem exec_channelReset_of_mayWrite {s : State} {a : Acc} {n : ChanId} (h : s.mayWrite a (chOff n.val chRst))
    (hu : s.unpaired a (chOff n.val chRst) = true) : exec (.channelReset a n) s = .next (s.chanReset n.val) := by
  change execChannelReset a n s = _
  rw [execChannelReset, State.viaGrd, State.mayWrite_next h, State.pairDrop_unpaired hu]

end Sys2Proof.Machine
namespace Sys2Proof.Proofs
open Sys2Proof.Machine

/-- Settles O3: the reset touches the registers it names, the ring's pointers and flags, and the channel's commands and stream. -/
theorem channelReset : Obligations.ChannelReset := by
  intro s a n hw hu own
  refine ⟨fun h => ?_, fun h hi => by rw [exec_channelReset_of_mayWrite hw hu, State.chanReset_busy h hi]⟩
  obtain ⟨hp, hr⟩ := State.cr_chanReset_strPtrs h
  obtain ⟨hc, hf, hm⟩ := State.chanReset_rest h
  refine ⟨_, exec_channelReset_of_mayWrite hw hu, fun r => State.cr_chanReset_of_mem h, ?_, ?_, hp, hr,
    fun o => State.rg_chanReset_of_not_mem h, fun k => ?_, fun m hm => ?_, hf, fun b => State.byte_congr hm b⟩
  · rw [State.ch_chanReset h, if_pos rfl]
  · rw [State.ch_chanReset h, if_pos rfl]
  · rw [State.committed, State.committed, hc]
  · rw [State.ch_chanReset h, if_neg hm]

end Sys2Proof.Proofs

end

section
/-! PROOFS. The load estimator's runs (R224 to R232). -/

namespace Sys2Proof.Machine

section
variable {s : State} {a : Acc} {n : ChanId} (h : s.mayWrite a (chOff n.val chLeCtl))
include h

theorem exec_leStart_of_mayWrite : exec (.leStart a n) s = .next (s.leStart n.val) := by
  change execLeStart a n s = _
  exact State.mayWrite_next h _ _

theorem exec_leStop_of_mayWrite : exec (.leStop a n) s = .next (s.leStop n.val) := by
  change execLeStop a n s = _
  exact State.mayWrite_next h _ _

end

/-- START, by its conditions in the order in which they are judged. -/
theorem State.leStart_eq (s : State) (n : Nat) : s.leStart n =
    if ¬ ((s.ch n).state = .active ∧ (s.ch n).disp = .loop) then s.leRefuse n 3 0x10
    else if (s.ch n).sup.ramp = true ∨ (s.ch n).sup.inCompl = true then s.leRefuse n 4 0x10
    else if ¬ (bitsOf (s.cr n chLeCfg) 7 0 ≠ 0 ∧ bitsOf (s.cr n chLeCfg) 15 8 ≠ 0) then s.leRefuse n 5 0x10
    else if 2 ≤ s.leRuns n then s.leRefuse n 8 0x20
    else s.updCh n fun c => { c with le := { c.le with start := true } } := by
  simp only [State.leStart, State.updCh, not_and_or, not_not, ne_eq, ge_iff_le]

/-- A run in progress or latched ends with its reason. -/
theorem State.leAbort_run {s : State} {n : Nat} (h : (s.ch n).le.run = true ∨ (s.ch n).le.start = true) (why : Nat) :
    s.leAbort n why = ((s.setCh n { s.ch n with le := { fit := (s.ch n).le.fit } }).setCr n chLeSts
      (setBits (s.cr n chLeSts) 11 8 why)).cflag n chSupFlags 0x10 := by
  simp [State.leAbort, h, -State.cr_setCh]
  rfl

theorem leWord_lt (q : Int × Int) : leWord q < 4294967296 := by
  unfold leWord
  split
  · exact (Config.leRound q.1 q.2).isLt
  · have h := (f32of (q.1 * 2 ^ 149) q.2.toNat).isLt
    have h' := (Config.leUlp q.1 q.2).isLt
    dsimp only
    split <;> omega

/-- The word of LE_R: +Inf where the fit has none. -/
def leWordR (q : Option (Int × Int)) : Nat := match q with
  | some q => leWord q
  | none => 0x7F800000

theorem leWordR_lt (q : Option (Int × Int)) : leWordR q < 4294967296 := by
  cases q with
  | none => decide
  | some q => exact leWord_lt q

/-- The registers that the results `f` of a run leave, with `x` in LE_STS. -/
def State.leResults (s : State) (n : Nat) (f : LeFit) (x : Nat) : State :=
  ((((((s.setCr n chLeC (leWord f.exact.1)).setCr n chLeR (leWordR f.exact.2.1)).setCr n chLeQ (leWord f.exact.2.2)).setCr n
    chLeSts x).updCh n fun c => { c with le := { c.le with fit := none } }).cflag n chSupFlags 8)

/-- The results of a run; where the estimate is recommended the set that the next strobe takes changes too, in a shadow. -/
theorem State.leDone_reads {s : State} {n : Nat} {f : LeFit} (h : (s.ch n).le.fit = some f) :
    ∃ x, (s.leDone n).regs = (s.leResults n f x).regs ∧ (s.leDone n).chans = (s.leResults n f x).chans ∧
      (s.leDone n).mem = (s.leResults n f x).mem := by
  have hor : ∃ x v, s.leDone n = s.leResults n f x ∨
      s.leDone n = ((s.leResults n f x).setSh (chOff n chBank) v).askAgain n (chOff n chBank) := by
    simp only [State.leDone, h]
    exact ⟨_, _, (ite_eq_or_eq _ _ _).symm⟩
  obtain ⟨x, v, h | h⟩ := hor
  · exact ⟨x, by rw [h], by rw [h], by rw [h]⟩
  · exact ⟨x, by rw [h]; rfl, by rw [h]; rfl, by rw [h]; rfl⟩

section
variable (s : State) (n : Nat) (f : LeFit) (x : Nat)

theorem State.ch_leResults (m : Nat) : (s.leResults n f x).ch m =
    if m = n then { s.ch n with le := { (s.ch n).le with fit := none } } else s.ch m := by
  rw [State.leResults, State.ch_cflag, State.ch_updCh]
  rfl

theorem State.mem_leResults : (s.leResults n f x).mem = s.mem := by
  rw [State.leResults, State.mem_cflag]
  rfl

theorem State.leResults_done : bitOf ((s.leResults n f x).cr n chSupFlags) 3 = true :=
  State.cflag_bit _ n _ 8 3 (by decide) (by decide) (by decide)

theorem State.cr_leResults_c : (s.leResults n f x).cr n chLeC = leWord f.exact.1 := by
  rw [State.leResults, State.cr_cflag_ne _ _ _ (by decide), State.cr_updCh]
  simp only [State.cr_setCr, chLeC, chLeR, chLeQ, chLeSts]
  exact Nat.mod_eq_of_lt (leWord_lt _)

theorem State.cr_leResults_r : (s.leResults n f x).cr n chLeR = leWordR f.exact.2.1 := by
  rw [State.leResults, State.cr_cflag_ne _ _ _ (by decide), State.cr_updCh]
  simp only [State.cr_setCr, chLeC, chLeR, chLeQ, chLeSts]
  exact Nat.mod_eq_of_lt (leWordR_lt _)

theorem State.cr_leResults_q : (s.leResults n f x).cr n chLeQ = leWord f.exact.2.2 := by
  rw [State.leResults, State.cr_cflag_ne _ _ _ (by decide), State.cr_updCh]
  simp only [State.cr_setCr, chLeC, chLeR, chLeQ, chLeSts]
  exact Nat.mod_eq_of_lt (leWord_lt _)

theorem State.rg_leResults_ne {o : Nat} (ho : o ∉ [chLeSts, chSupFlags, chLeC, chLeR, chLeQ].map (chOff n)) :
    (s.leResults n f x).rg o = s.rg o := by
  simp only [List.map, List.mem_cons, List.not_mem_nil, or_false, not_or] at ho
  obtain ⟨hs, hf, hc, hr, hq⟩ := ho
  rw [State.leResults, State.rg_cflag_ne _ _ hf, State.rg_updCh, State.rg_setCr_ne _ _ hs, State.rg_setCr_ne _ _ hq,
    State.rg_setCr_ne _ _ hr, State.rg_setCr_ne _ _ hc]

end

theorem State.leAbort_ch {s : State} {n : Nat} (h : (s.ch n).le.run = true ∨ (s.ch n).le.start = true) (why m : Nat) :
    (s.leAbort n why).ch m = if m = n then { s.ch n with le := { fit := (s.ch n).le.fit } } else s.ch m := by
  rw [State.leAbort_run h, State.ch_cflag, State.ch_setCr, State.ch_setCh]

end Sys2Proof.Machine
namespace Sys2Proof.Proofs
open Sys2Proof.Machine

/-- Settles O4: each event of a run is one branch of its operation; the results touch the registers they name. -/
theorem loadEstimator : Obligations.LoadEstimator := by
  refine ⟨fun s a n hw => ?_, fun s a n hw => ?_⟩
  · intro c w live ready
    have hlive (h : ¬ ((s.ch n.val).state = .active ∧ (s.ch n.val).disp = .loop)) : ¬ live := h
    have sup (h : c.sup.ramp = false) (h' : c.sup.inCompl = false) :
        ¬ ((s.ch n.val).sup.ramp = true ∨ (s.ch n.val).sup.inCompl = true) := by
      rw [show (s.ch n.val).sup.ramp = false from h, show (s.ch n.val).sup.inCompl = false from h']; decide
    rw [exec_leStart_of_mayWrite hw, State.leStart_eq]
    refine ⟨fun hl hr hc hd hk => ?_, fun hl => ?_, fun hl hs => ?_, fun hl hr hc hd => ?_, fun hl hr hc hd hk => ?_⟩
    · rw [if_neg (not_not.mpr hl), if_neg (sup hr hc), if_neg (not_not.mpr hd), if_neg (Nat.not_le.mpr hk)]
    · rw [if_pos hl]
    · rw [if_neg (not_not.mpr hl), if_pos hs]
    · rw [if_neg (not_not.mpr hl), if_neg (sup hr hc), if_pos hd]
    · rw [if_neg (not_not.mpr hl), if_neg (sup hr hc), if_neg (not_not.mpr hd), if_pos hk]
  · intro c
    refine ⟨fun hr => ⟨_, exec_leStop_of_mayWrite hw, ?_, ?_, ?_, fun m hm => ?_, fun o ho => ?_, ?_⟩, fun hr ht => ?_,
      fun f hf => ?_⟩
    · rw [State.leStop, State.leAbort_ch hr, if_pos rfl]
    · rw [State.leStop, State.leAbort_run hr, State.cr_cflag_ne _ _ _ (by decide), State.cr_setCr_setBits _ _ _ (by decide) (by decide)]
      rfl
    · rw [State.leStop, State.leAbort_run hr]
      exact State.cflag_bit _ _ _ _ _ (by decide) (by decide) (by decide)
    · rw [State.leStop, State.leAbort_ch hr, if_neg hm]
    · simp only [List.mem_cons, List.not_mem_nil, or_false, not_or] at ho
      rw [State.leStop, State.leAbort_run hr, State.rg_cflag_ne _ _ ho.2, State.rg_setCr_ne _ _ ho.1, State.rg_setCh]
    · rw [State.leStop, State.leAbort_run hr, State.mem_cflag, State.mem_setCr, State.setCh_mem]
    · change Host.Outcome.next (s.leRunEnd n.val) = _
      rw [State.leRunEnd]
      exact congrArg _ (if_pos ⟨hr, ht⟩)
    · obtain ⟨x, hrg, hch, hmem⟩ := State.leDone_reads hf
      have rg (o : Nat) : (s.leDone n.val).rg o = (s.leResults n.val f x).rg o := State.rg_congr hrg o
      have ch (m : Nat) : (s.leDone n.val).ch m = (s.leResults n.val f x).ch m := State.ch_congr hch m
      refine ⟨s.leDone n.val, rfl, ?_, ?_, ?_, ?_, ?_, fun m hm => ?_, fun o ho => ?_, ?_⟩
      · rw [ch, State.ch_leResults, if_pos rfl]
      · rw [State.cr, rg]; exact State.leResults_done s _ f x
      · rw [State.cr, rg]; exact State.cr_leResults_c s _ f x
      · rw [State.cr, rg]; exact State.cr_leResults_q s _ f x
      · rw [State.cr, rg]
        exact (State.cr_leResults_r s _ f x).trans (by cases f.exact.2.1 <;> rfl)
      · rw [ch, State.ch_leResults, if_neg hm]
      · rw [rg, State.rg_leResults_ne s _ f x ho]
      · rw [hmem, State.mem_leResults]

end Sys2Proof.Proofs
end

section
/-! PROOFS. The windows and requests of loop supervision, the handover and autoranging (R218, R250 to R265), and the commands
and ends of apertures (R370 to R386). -/

namespace Sys2Proof.Machine

theorem State.oscWindow_end {s : State} {n : Nat} (h : bitsOf (s.cr n chOscWin) 15 0 ≤ (s.ch n).sup.oscN) :
    s.oscWindow n = s.updCh n fun c => { c with sup := { c.sup with oscN := 0, oscCnt := 0 } } := if_pos h

/-- The window's end with a difference within the tolerance, or beyond it. -/
theorem State.hoCheck_end {s : State} {n : Nat} {h : Ho} (hh : (s.ch n).ho = h) (hs : h.st = .window) (hj : h.win ≤ h.j)
    (ha : h.abandon = none) {d : Int} (hd : d = rne h.sum
      (max (f32v (if h.volt then s.vfs n h.frm else s.ifs n h.frm)) (f32v (if h.volt then s.vfs n h.dst else s.ifs n h.dst)) *
        (h.cnt : Int))) :
    s.hoCheck n = (s.setCr n chHoDiff (word32 (sat32 d)).toNat).setCh n { s.ch n with
      ho := if (d.natAbs : Int) ≤ (h.tol * 16384 : Nat) then { h with st := .due } else { h with abandon := some 1 } } := by
  subst hh
  simp only [State.hoCheck]
  rw [if_pos ⟨hs, hj, ha⟩, ← hd]
  by_cases hle : (d.natAbs : Int) ≤ ((s.ch n).ho.tol * 16384 : Nat)
  · rw [if_pos hle, if_pos hle]
  · rw [if_neg hle, if_neg hle]

section
variable {s : State} {n g : Nat} (hst : (s.ch n).state = .active) (hk : bitsOf (s.cr n chArMask) 23 16 ≠ 0)
include hst hk

theorem State.arRequest_up (hu : bitsOf (s.cr n chArMask) 23 16 ≤ (s.ch n).sup.arUp)
    (hg : (s.updCh n fun c => { c with sup := { c.sup with arUp := 0 } }).arUpRange n = some g) :
    s.arRequest n = s.updCh n fun c =>
      { c with sup := { c.sup with arUp := 0 }, ho := { c.ho with reqs := c.ho.reqs ++ [(false, g)] } } := by
  simp only [State.arRequest]
  rw [if_neg (by simp [hk, hst]), if_pos hu]
  simp only [State.updCh] at hg
  simp only [hg, State.reqRange, State.updCh, State.ch_setCh_same, State.setCh_setCh]

theorem State.arRequest_down (hu : (s.ch n).sup.arUp < bitsOf (s.cr n chArMask) 23 16)
    (hd : bitsOf (s.cr n chArMask) 23 16 ≤ (s.ch n).sup.arDn)
    (hg : (s.updCh n fun c => { c with sup := { c.sup with arDn := 0 } }).arDnRange n = some g) :
    s.arRequest n = s.updCh n fun c =>
      { c with sup := { c.sup with arDn := 0 }, ho := { c.ho with reqs := c.ho.reqs ++ [(false, g)] } } := by
  simp only [State.arRequest]
  rw [if_neg (by simp [hk, hst]), if_neg (Nat.not_le.mpr hu), if_pos hd]
  simp only [State.updCh] at hg
  simp only [hg, State.reqRange, State.updCh, State.ch_setCh_same, State.setCh_setCh]

end

theorem word32_toNat_lt (x : Int) : (word32 x).toNat < 4294967296 := (word32 x).isLt

/-- The record of the last sample waits, and the aperture with it. -/
theorem State.apEnd_last {s : State} {n : Nat} (h : (s.ch n).meas.ap.st = .integ)
    (hn : (s.ch n).meas.ap.n ≤ (s.ch n).meas.ap.done) :
    s.apEnd n = s.updCh n fun c => { c with meas := { c.meas with
      recs := c.meas.recs ++ [{ s.apRecord n false with due := s.at_ 70 }], ap := { c.meas.ap with st := .write } } } :=
  if_pos ⟨h, hn⟩

theorem State.apRange_done (s : State) (n : Nat) (a : Aper) (g : Rng) : (s.apRange n a g).done = a.done := by
  unfold State.apRange
  split
  · rfl
  · dsimp only; split <;> split <;> rfl

theorem State.apRange_nr (s : State) (n : Nat) (a : Aper) (g : Rng) : (s.apRange n a g).nr = a.nr := by
  unfold State.apRange
  split
  · rfl
  · dsimp only; split <;> split <;> rfl

/-- The aperture of a sample integrated: one more sample is done, and one more counts where it is not missing. -/
theorem State.apSample_only (s : State) (n : Nat) : ∃ a, s.apSample n =
      s.setCh n { s.ch n with meas := { (s.ch n).meas with ap := a } } ∧ a.st = .integ ∧
      a.done = (s.ch n).meas.ap.done + 1 ∧
      a.nr = (s.ch n).meas.ap.nr + if (s.ch n).meas.cur.miss = true then 0 else 1 := by
  refine ⟨_, rfl, ?_, ?_, ?_⟩
  · split <;> rfl
  · split <;> exact congrArg (· + 1) (s.apRange_done n _ _)
  · split
    · exact s.apRange_nr n _ _
    · exact congrArg (· + 1) (s.apRange_nr n _ _)

theorem Aper.due_of {a : Aper} {t : Nat} (h : a.st = .delay) (hk : bitsOf a.dly 23 0 ≤ a.k)
    (hc : bitOf a.dly 25 = true → ∃ k, a.crossed = some k ∧ k < t) : a.due t = true := by
  rw [Aper.due, h]
  cases hb : bitOf a.dly 25 with
  | false => simp [hk]
  | true =>
    obtain ⟨k, hs, hlt⟩ := hc hb
    simp [hk, hs, hlt]

section
variable {s : State} {a : Acc} {n : ChanId} (h : s.mayWrite a (chOff n.val chMeasCtl))
include h

theorem exec_measGo_of_mayWrite (d : BitVec 6) : exec (.measGo a n d) s =
    .next ((s.setCr n.val chMeasCtl (2 * d.toNat)).measGo n.val d.toNat) := by
  change execMeasGo a n d s = _
  exact State.mayWrite_next h _ _

theorem exec_measAbort_of_mayWrite : exec (.measAbort a n) s = .next (s.measAbort n.val) := by
  change execMeasAbort a n s = _
  exact State.mayWrite_next h _ _

end

end Sys2Proof.Machine
namespace Sys2Proof.Proofs
open Sys2Proof.Machine

/-- Settles O5: each event is one branch of its operation. -/
theorem supervisionEvents : Obligations.SupervisionEvents := by
  refine ⟨fun s n h => congrArg Host.Outcome.next (State.oscWindow_end h), fun s n hs hj ha => ?_, fun s n g hst hk => ⟨fun hu hg => ?_, fun hu hd hg => ?_⟩⟩
  · intro h fs d
    refine ⟨_, congrArg Host.Outcome.next (State.hoCheck_end rfl hs hj ha rfl), ?_, fun hle => ?_, fun hlt => ?_, fun m hm => ?_, fun o ho => ?_, rfl⟩
    · rw [State.cr_setCh, State.cr_setCr, if_pos rfl, Nat.mod_eq_of_lt (word32_toNat_lt _)]
    · rw [State.ch_setCh_same, if_pos hle]
    · rw [State.ch_setCh_same, if_neg (not_le.mpr hlt)]
    · rw [State.ch_setCh_ne _ _ hm, State.ch_setCr]
    · rw [State.rg_setCh, State.rg_setCr_ne _ _ ho]
  · exact congrArg Host.Outcome.next (State.arRequest_up hst hk hu hg)
  · exact congrArg Host.Outcome.next (State.arRequest_down hst hk hu hd hg)

/-- Settles O6: the commands are latched as they stand; a record waits at the last sample, and the first one is integrated. -/
theorem apertures : Obligations.Apertures := by
  refine ⟨fun s a n d hw => ⟨exec_measGo_of_mayWrite hw d, exec_measAbort_of_mayWrite hw⟩, fun s n => ?_⟩
  intro a
  refine ⟨fun hs hn => congrArg Host.Outcome.next (State.apEnd_last hs hn), fun hs hk hc ho => ?_⟩
  obtain ⟨a', he, hst, hd, hr⟩ := s.apSample_only n.val
  have he' : s.apDelayEnd n.val = s.setCh n { s.ch n with meas := { (s.ch n).meas with ap := a' } } := by
    rw [← he]; exact if_pos ⟨Aper.due_of hs hk hc, ho⟩
  refine ⟨_, congrArg Host.Outcome.next he', ?_, ?_, fun hm => ?_, fun hm => ?_, fun m hm => ?_, rfl, rfl⟩
  · rw [State.ch_setCh_same]; exact hst
  · rw [State.ch_setCh_same]; exact hd
  · rw [State.ch_setCh_same]; exact hr.trans (by rw [hm]; rfl)
  · rw [State.ch_setCh_same]; exact hr.trans (by rw [hm]; rfl)
  · rw [State.ch_setCh_ne _ _ hm]

end Sys2Proof.Proofs
end

section
/-! SUPPORT. What the units' accesses to memory leave: bytes at their place, the registers of R604, R713 and R818. -/

namespace Sys2Proof.Machine

/-! A word recorded as uncorrectable (R818, R823). -/

@[simp] theorem State.ueAt_chans (s : State) (w : Nat) : (s.ueAt w).chans = s.chans := by
  unfold State.ueAt; split <;> rfl
@[simp] theorem State.ueAt_mem (s : State) (w : Nat) : (s.ueAt w).mem = s.mem := by
  unfold State.ueAt; split <;> rfl
@[simp] theorem State.ueAt_memUE (s : State) (w : Nat) : (s.ueAt w).memUE = s.memUE := by
  unfold State.ueAt; split <;> rfl

theorem ddrOf_cases (o : Nat) : ddrOf o = 0 ∨ ddrOf o = 1 := by unfold ddrOf; split <;> simp

theorem State.ueAt_rg (s : State) (w : Nat) {o : Nat} (h : o ∉ ueRegs) : (s.ueAt w).rg o = s.rg o := by
  simp only [ueRegs, List.mem_cons, List.not_mem_nil, or_false, not_or] at h
  obtain ⟨h1, h2, h3, h4, h5⟩ := h
  unfold State.ueAt
  split
  · exact State.rg_setRg_ne _ _ h1
  · dsimp only
    obtain hd | hd := ddrOf_cases (w - ddrBase)
    · rw [hd, State.rg_setRg_ne _ _ h3, State.rg_setRg_ne _ _ h2]
    · rw [hd, State.rg_setRg_ne _ _ h5, State.rg_setRg_ne _ _ h4]

/-! What a unit reads (R817). -/

@[simp] theorem State.unitRead_chans (s : State) (a n : Nat) : (s.unitRead a n).chans = s.chans := by
  unfold State.unitRead; dsimp only; split <;> simp
@[simp] theorem State.unitRead_mem (s : State) (a n : Nat) : (s.unitRead a n).mem = s.mem := by
  unfold State.unitRead; dsimp only; split <;> simp
@[simp] theorem State.unitRead_memUE (s : State) (a n : Nat) : (s.unitRead a n).memUE = s.memUE := by
  unfold State.unitRead; dsimp only; split <;> simp
theorem State.unitRead_rg (s : State) (a n : Nat) {o : Nat} (h : o ∉ ueRegs) : (s.unitRead a n).rg o = s.rg o := by
  unfold State.unitRead; dsimp only; split
  · rfl
  · exact State.ueAt_rg _ _ h

/-! A DDR5 channel's self-refresh left (R713). -/

theorem State.ddrWake_only (s : State) (a : Nat) : s.ddrWake a = s ∨ ∃ r c, s.ddrWake a = { s with regs := r, clk := c } := by
  unfold State.ddrWake
  split
  · unfold State.ddrMove State.ddrStart
    dsimp only
    split
    · exact .inr ⟨_, _, rfl⟩
    · exact .inr ⟨_, _, rfl⟩
  · exact .inl rfl

@[simp] theorem State.ddrWake_chans (s : State) (a : Nat) : (s.ddrWake a).chans = s.chans := by
  obtain h | ⟨r, c, h⟩ := s.ddrWake_only a <;> rw [h]
@[simp] theorem State.ddrWake_mem (s : State) (a : Nat) : (s.ddrWake a).mem = s.mem := by
  obtain h | ⟨r, c, h⟩ := s.ddrWake_only a <;> rw [h]
@[simp] theorem State.ddrWake_memUE (s : State) (a : Nat) : (s.ddrWake a).memUE = s.memUE := by
  obtain h | ⟨r, c, h⟩ := s.ddrWake_only a <;> rw [h]

theorem State.ddrWake_rg (s : State) (a : Nat) {o : Nat} (h : o ∉ ddrRegs) : (s.ddrWake a).rg o = s.rg o := by
  simp only [ddrRegs, List.mem_cons, List.not_mem_nil, or_false, not_or] at h
  obtain ⟨-, h0, h1⟩ := h
  unfold State.ddrWake
  split
  · unfold State.ddrMove
    dsimp only
    split
    · obtain hd | hd := ddrOf_cases (a - ddrBase)
      · rw [hd, State.rg_setRg_ne _ _ h0]; rfl
      · rw [hd, State.rg_setRg_ne _ _ h1]; rfl
    · rfl
  · rfl

/-! Bytes that a unit stores (R869). -/

/-- What a store by pieces leaves: the channels, the bytes elsewhere, and the registers of an injection and of the last
uncorrectable word. -/
theorem State.putGo_frame (k : Nat) : ∀ (s : State) (a : Nat) (bs : List Byte) (bad : List Nat),
    (State.putGo k s a bs bad).1.chans = s.chans ∧
    (∀ b, b < a ∨ a + bs.length ≤ b → (State.putGo k s a bs bad).1.byte b = s.byte b) ∧
    ∀ o, o ∉ ddrRegs ++ ueRegs → (State.putGo k s a bs bad).1.rg o = s.rg o := by
  induction k with
  | zero => intros; exact ⟨rfl, fun _ _ => rfl, fun _ _ => rfl⟩
  | succ k ih =>
    intro s a bs bad
    rw [State.putGo]
    split
    · exact ⟨rfl, fun _ _ => rfl, fun _ _ => rfl⟩
    · have out {b n : Nat} (hb : b < a ∨ a + bs.length ≤ b) : b < a + n ∨ a + n + (bs.drop n).length ≤ b := by
        rw [List.length_drop]; omega
      dsimp only
      generalize (if a < ddrBase then 32 else 128) = z
      split
      · obtain ⟨hc, hb, hr⟩ := ih (s.ueAt (codeword a)) (a + (codeword a + z - a)) (bs.drop (codeword a + z - a)) (bad ++ [codeword a])
        refine ⟨hc.trans (s.ueAt_chans _), fun b h => ?_, fun o ho => ?_⟩
        · exact (hb b (out h)).trans (State.byte_congr (s.ueAt_mem _) b)
        · exact (hr o ho).trans (s.ueAt_rg _ fun h => ho (List.mem_append_right _ h))
      · obtain ⟨hc, hb, hr⟩ := ih (s.store a (bs.take (codeword a + z - a))) (a + (codeword a + z - a))
          (bs.drop (codeword a + z - a)) bad
        refine ⟨hc.trans (s.store_chans _ _), fun b h => ?_, fun o ho => ?_⟩
        · exact (hb b (out h)).trans (State.store_byte_out _ _ _ _ (by rw [List.length_take]; omega))
        · exact (hr o ho).trans (s.store_rg _ _ _ fun h => ho (h ▸ by decide))

/-- A unit's store of `bs` from `a` on leaves the channels, the bytes elsewhere and all registers but those it records in. -/
theorem State.put_frame (s : State) (a : Nat) (bs : List Byte) : (s.put a bs).1.chans = s.chans ∧
    (∀ b, b < a ∨ a + bs.length ≤ b → (s.put a bs).1.byte b = s.byte b) ∧
    ∀ o, o ∉ ddrRegs ++ ueRegs → (s.put a bs).1.rg o = s.rg o := by
  unfold State.put
  split
  · exact ⟨s.store_chans _ _, fun b h => s.store_byte_out _ _ _ h, fun o ho => s.store_rg _ _ _ fun h => ho (h ▸ by decide)⟩
  · exact State.putGo_frame _ _ _ _ _

/-- Where no word has an uncorrectable error the bytes stand at their place. -/
theorem State.put_bytes {s : State} (h : s.memUE = []) (a : Nat) (bs : List Byte) :
    (s.put a bs).1.bytes a bs.length = bs := by
  rw [State.put, if_pos h]
  exact s.store_bytes a bs

end Sys2Proof.Machine
end

section
/-! PROOFS. The rings of measurement records and the Brine stream (R379 to R412), and the line meter (R384). -/

namespace Sys2Proof.Machine

/-- The level of a ring reaching its watermark sets a flag and fires; nothing else changes (R404). -/
theorem State.pansWm_cases (s : State) (n old cyc : Nat) :
    s.pansWm n old cyc = s ∨ s.pansWm n old cyc = (s.cflag n chMeasFlags 8).fireCh 15 n cyc := by
  unfold State.pansWm
  dsimp only
  exact (ite_eq_or_eq _ _ _).symm

section
variable (s : State) (n old cyc : Nat)

@[simp] theorem State.mem_pansWm : (s.pansWm n old cyc).mem = s.mem := by
  obtain h | h := s.pansWm_cases n old cyc
  · rw [h]
  · rw [h, State.mem_fireCh, State.mem_cflag]
@[simp] theorem State.ch_pansWm (m : Nat) : (s.pansWm n old cyc).ch m = s.ch m := by
  obtain h | h := s.pansWm_cases n old cyc
  · rw [h]
  · rw [h, State.ch_fireCh, State.ch_cflag]
theorem State.rg_pansWm_ne {o : Nat} (h : o ≠ chOff n chMeasFlags) : (s.pansWm n old cyc).rg o = s.rg o := by
  obtain h' | h' := s.pansWm_cases n old cyc
  · rw [h']
  · rw [h', State.rg_fireCh, State.rg_cflag_ne _ _ h]

end

theorem recBytes_length (r : Rec) : (recBytes r).length = 32 := by
  simp [recBytes, leBytes_length]

theorem State.pansLostRec_none {s : State} {n : Nat} (h : (s.ch n).meas.dropped = 0) : s.pansLostRec n = s := if_pos h

@[simp] theorem State.pansSpace_setCh (s : State) (n m : Nat) (c : Chan) : (s.setCh m c).pansSpace n = s.pansSpace n := rfl
@[simp] theorem State.pansAddr_setCh (s : State) (n m g : Nat) (c : Chan) : (s.setCh m c).pansAddr n g = s.pansAddr n g := rfl

/-- The channel once record `r` has left its list: the aperture that waited for the newest one is idle (R379). -/
def State.recTaken (s : State) (n : Nat) (r : Rec) (rest : List Rec) : State :=
  let last := decide (r.flags % 16 = 0) && !(rest.any fun x => decide (x.flags % 16 = 0))
  let a := (s.ch n).meas.ap
  s.setCh n { s.ch n with meas := { (s.ch n).meas with
    recs := rest, ap := if a.st = .write ∧ last = true then { a with st := .idle } else a } }

/-- The record that is written next, where it has a place and no drop is to be told; what follows it fires events and sets
flags of the measurement path alone. -/
theorem State.recWrite_stored {s : State} {n : Nat} {r : Rec} {rest : List Rec} (hr : (s.ch n).meas.recs = r :: rest)
    (hp : bitOf (s.cr n chMeasCfg) 6 = true) (hs : s.pansSpace n = true) (hd : (s.ch n).meas.dropped = 0) (cyc : Nat) :
    (s.recWrite n cyc).mem = ((s.recTaken n r rest).pansPut n r).mem ∧
      (∀ m, (s.recWrite n cyc).ch m = ((s.recTaken n r rest).pansPut n r).ch m) ∧
      ∀ o, o ≠ chOff n chMeasFlags → (s.recWrite n cyc).rg o = ((s.recTaken n r rest).pansPut n r).rg o := by
  generalize hc : s.recTaken n r rest = c
  have hd' : (c.ch n).meas.dropped = 0 := by rw [← hc, State.recTaken, State.ch_setCh_same]; exact hd
  have hs' : c.pansSpace n = true := by rw [← hc]; exact hs
  have hp' : bitOf (c.cr n chMeasCfg) 6 = true := by rw [← hc]; exact hp
  unfold State.recTaken at hc
  simp only [State.recWrite, hr, hc, hp', hs', State.pansLostRec_none hd', not_true_eq_false, if_false]
  split
  · exact ⟨rfl, fun _ => rfl, fun _ _ => rfl⟩
  · split
    · exact ⟨by rw [State.mem_pansWm, State.mem_fireCh], fun m => by rw [State.ch_pansWm, State.ch_fireCh],
        fun o ho => by rw [State.rg_pansWm_ne _ _ _ _ ho, State.rg_fireCh]⟩
    · exact ⟨by rw [State.mem_pansWm], fun m => by rw [State.ch_pansWm],
        fun o ho => by rw [State.rg_pansWm_ne _ _ _ _ ho]⟩

section
variable (s : State) (n : Nat) (r : Rec)

theorem State.mem_pansPut : (s.pansPut n r).mem = (s.store (s.pansAddr n (s.cr n chPansWptr)) (recBytes r)).mem := rfl

theorem State.cr_pansPut_wptr : (s.pansPut n r).cr n chPansWptr = wrapAdd (s.cr n chPansWptr) 1 := by
  rw [State.pansPut, State.cr_updCh, State.cr_setCr, if_pos rfl, wrapAdd, Nat.mod_mod]

theorem State.rg_pansPut_ne {o : Nat} (h : o ≠ chOff n chPansWptr) (h' : o ≠ fltOff frMemc fltInj) :
    (s.pansPut n r).rg o = s.rg o := by
  rw [State.pansPut, State.rg_updCh, State.rg_setCr_ne _ _ h, State.store_rg _ _ _ _ h']

theorem State.ch_pansPut (m : Nat) : (s.pansPut n r).ch m =
    if m = n then { s.ch n with meas := { (s.ch n).meas with stored := true } } else s.ch m := by
  rw [State.pansPut, State.ch_updCh, State.ch_setCr, State.ch_setCr, State.ch_congr (s.store_chans _ _),
    State.ch_congr (s.store_chans _ _)]

end

theorem tslice_length {α : Type} (d : Nat → α) (t : Tbl α) (a n : Nat) : (tslice d t a n).length = n := by
  simp [tslice]

/-- The record at the spill pointer copied to window offset `o` of DDR5, unless it cannot be read (R398, R405). -/
def State.spillCopy (s : State) (n o : Nat) : State :=
  let a := s.pansAddr n (s.cr n chPansSptr)
  let u := (s.ddrWake (ddrBase + o)).unitRead a 32
  if s.ue a 32 = true then u else (u.put (ddrBase + o) (s.bytes a 32)).1

/-- A record moves to the spill ring; what follows fires events and sets flags of the measurement path alone. -/
theorem State.spillMove_moves {s : State} {n : Nat} (hs : s.spill n = true) (hp : bitOf (s.cr n chMeasCfg) 6 = true)
    (hw : s.cr n chPansSptr ≠ s.cr n chPansWptr) (hr : wrapSub (s.cr n chPansSptr) (s.cr n chPansRptr) < s.spillSize n)
    {o : Nat} (ho : s.dbase n chSpillDbaseLo + 32 * (s.cr n chPansSptr % max 1 (s.spillSize n)) = o)
    (hd : s.ddrOk o 32 = true) :
    (s.spillMove n).mem = (s.spillCopy n o).mem ∧ (∀ m, (s.spillMove n).ch m = (s.spillCopy n o).ch m) ∧
      (s.spillMove n).cr n chPansSptr = wrapAdd (s.cr n chPansSptr) 1 ∧
      ∀ q, q ≠ chOff n chMeasFlags → q ≠ chOff n chPansSptr → (s.spillMove n).rg q = (s.spillCopy n o).rg q := by
  have hw32 : wrapAdd (s.cr n chPansSptr) 1 % 4294967296 = wrapAdd (s.cr n chPansSptr) 1 := Nat.mod_mod _ _
  subst ho
  simp only [State.spillMove]
  rw [if_pos ⟨hs, hp, hw, hr, hd⟩]
  refine ⟨?_, fun m => ?_, ?_, fun q hq hq' => ?_⟩
  · rw [State.mem_pansWm]
    split
    · rw [State.mem_fireCh]; rfl
    · rfl
  · rw [State.ch_pansWm]
    split
    · rw [State.ch_fireCh]; rfl
    · rfl
  · rw [State.cr, State.rg_pansWm_ne _ _ _ _ (by rw [ne_eq, chOff_inj]; decide)]
    split
    · rw [State.rg_fireCh, State.setCr, State.rg_setRg_same, hw32]
    · rw [State.setCr, State.rg_setRg_same, hw32]
  · rw [State.rg_pansWm_ne _ _ _ _ hq]
    split
    · rw [State.rg_fireCh, State.rg_setCr_ne _ _ hq']; rfl
    · rw [State.rg_setCr_ne _ _ hq']; rfl

section
variable (s : State) (n o : Nat)

theorem State.mem_readFor (a : Nat) : ((s.ddrWake (ddrBase + o)).unitRead a 32).mem = s.mem := by
  rw [State.unitRead_mem, State.ddrWake_mem]

theorem State.spillCopy_bytes (h : s.memUE = []) :
    (s.spillCopy n o).bytes (ddrBase + o) 32 = s.bytes (s.pansAddr n (s.cr n chPansSptr)) 32 := by
  have hu : s.ue (s.pansAddr n (s.cr n chPansSptr)) 32 = false := by rw [State.ue, h]; rfl
  have hb : (s.bytes (s.pansAddr n (s.cr n chPansSptr)) 32).length = 32 := tslice_length _ _ _ _
  have hm : ((s.ddrWake (ddrBase + o)).unitRead (s.pansAddr n (s.cr n chPansSptr)) 32).memUE = [] := by
    rw [State.unitRead_memUE, State.ddrWake_memUE, h]
  have hp := State.put_bytes hm (ddrBase + o) (s.bytes (s.pansAddr n (s.cr n chPansSptr)) 32)
  rw [hb] at hp
  simpa only [State.spillCopy, hu, Bool.false_eq_true, if_false] using hp

theorem State.spillCopy_unread (h : s.ue (s.pansAddr n (s.cr n chPansSptr)) 32 = true) : (s.spillCopy n o).mem = s.mem := by
  rw [State.spillCopy, if_pos h, State.mem_readFor]

theorem State.spillCopy_frame : (∀ m, (s.spillCopy n o).ch m = s.ch m) ∧
    (∀ b, b < ddrBase + o ∨ ddrBase + o + 32 ≤ b → (s.spillCopy n o).byte b = s.byte b) ∧
    ∀ q, q ∉ ddrRegs ++ ueRegs → (s.spillCopy n o).rg q = s.rg q := by
  have hb : (s.bytes (s.pansAddr n (s.cr n chPansSptr)) 32).length = 32 := tslice_length _ _ _ _
  obtain ⟨hc, hm, hr⟩ := State.put_frame ((s.ddrWake (ddrBase + o)).unitRead (s.pansAddr n (s.cr n chPansSptr)) 32)
    (ddrBase + o) (s.bytes (s.pansAddr n (s.cr n chPansSptr)) 32)
  rw [hb] at hm
  have hcu : ((s.ddrWake (ddrBase + o)).unitRead (s.pansAddr n (s.cr n chPansSptr)) 32).chans = s.chans := by
    rw [State.unitRead_chans, State.ddrWake_chans]
  have hmu := s.mem_readFor o (s.pansAddr n (s.cr n chPansSptr))
  have hru {q : Nat} (hq : q ∉ ddrRegs ++ ueRegs) :
      ((s.ddrWake (ddrBase + o)).unitRead (s.pansAddr n (s.cr n chPansSptr)) 32).rg q = s.rg q := by
    rw [List.mem_append, not_or] at hq
    rw [State.unitRead_rg _ _ _ hq.2, State.ddrWake_rg _ _ hq.1]
  unfold State.spillCopy
  dsimp only
  split
  · exact ⟨fun m => State.ch_congr hcu m, fun b _ => State.byte_congr hmu b, fun q hq => hru hq⟩
  · exact ⟨fun m => State.ch_congr (hc.trans hcu) m, fun b h => (hm b h).trans (State.byte_congr hmu b),
      fun q hq => (hr q hq).trans (hru hq)⟩

end

theorem chOff_not_mem_memRegs (n r : Nat) : chOff n r ∉ ddrRegs ++ ueRegs := by
  have h : ∀ o ∈ ddrRegs ++ ueRegs, o < 0x100000 := by decide
  intro hm
  have := h _ hm
  unfold chOff at this
  omega

/-! The Brine stream. -/

/-- The partial line of channel `n`, completed with PAD words. -/
def State.brnLine (s : State) (n : Nat) : List BWord :=
  (s.ch n).meas.brine.line ++ List.replicate (8 - (s.ch n).meas.brine.line.length) padWord

theorem State.brnLine_bytes (s : State) (n : Nat) : ((s.brnLine n).flatMap fun w => leBytes 8 w.w) =
    ((s.ch n).meas.brine.line.map BWord.w ++
      List.replicate (8 - (s.ch n).meas.brine.line.length) 18446744073709551615).flatMap (leBytes 8) := by
  rw [State.brnLine, List.flatMap_append, List.flatMap_append, List.flatMap_map, List.flatMap_replicate,
    List.flatMap_replicate]
  rfl

theorem flatMap_leBytes_length (k : Nat) (l : List Nat) : (l.flatMap (leBytes k)).length = k * l.length := by
  simp [List.length_flatMap, leBytes_length, Nat.mul_comm]

theorem State.brnLine_bytes_length {s : State} {n : Nat} (h : (s.ch n).meas.brine.line.length < 8) :
    ((s.brnLine n).flatMap fun w => leBytes 8 w.w).length = 64 := by
  rw [State.brnLine_bytes, flatMap_leBytes_length, List.length_append, List.length_map, List.length_replicate]
  omega

/-- The channel with its line in hand written. -/
def State.brnTaken (s : State) (n : Nat) : State :=
  s.updCh n fun c => { c with meas := { c.meas with brine := { c.meas.brine with line := [] } } }

/-- R411, R412: an old partial line is completed and stored where it has a place. -/
theorem State.brnTimeout_stores {s : State} {n : Nat} (h : (s.ch n).meas.brine.line ≠ [])
    (ht : (s.ch n).meas.brine.first + 1024 ≤ s.tick) (hs : s.brnSpace n = true) :
    s.brnTimeout n = ((((s.brnTaken n).ddrWake (ddrBase + s.brnAt n)).put (ddrBase + s.brnAt n)
      ((s.brnLine n).flatMap fun w => leBytes 8 w.w)).1).setCr n chBrnWptr (wrapAdd ((((s.brnTaken n).ddrWake
        (ddrBase + s.brnAt n)).put (ddrBase + s.brnAt n) ((s.brnLine n).flatMap fun w => leBytes 8 w.w)).1.cr n chBrnWptr) 1) := by
  have hs' (c : Chan) : (s.setCh n c).brnSpace n = true := hs
  simp only [State.brnTimeout, State.brnPad, State.brnFlush, State.updCh, State.ch_setCh_same, State.setCh_setCh, hs', if_true]
  rw [if_pos ⟨h, ht⟩, if_neg h]
  rfl

section
variable {s : State} {a : Acc} {n : ChanId}

theorem exec_pansRptrWrite_of_mayWrite (h : s.mayWrite a (chOff n.val chPansRptr)) (v : Word) :
    exec (.pansRptrWrite a n v) s = .next (s.pansRptr n.val v.toNat) := by
  change execPansRptrWrite a n v s = _
  exact State.mayWrite_next h _ _

theorem exec_brnRptrWrite_of_mayWrite (h : s.mayWrite a (chOff n.val chBrnRptr)) (v : Word) :
    exec (.brnRptrWrite a n v) s = .next (s.brnRptr n.val v.toNat) := by
  change execBrnRptrWrite a n v s = _
  exact State.mayWrite_next h _ _

end

/-- The meter's eight intervals `l` give their mean and whether every one is in its window (R384). -/
def lineWord (l : List Nat) : Nat :=
  (rne (l.foldl (· + ·) 0 : Nat) 8).toNat % 8388608 +
    2147483648 * b2n (l.all fun x => decide (2857143 ≤ x) && decide (x ≤ 5000000))

theorem lineWord_fields (l : List Nat) : lineWord l < 4294967296 ∧
    bitsOf (lineWord l) 22 0 = (rne (l.foldl (· + ·) 0 : Nat) 8).toNat % 8388608 ∧
    bitOf (lineWord l) 31 = l.all fun x => decide (2857143 ≤ x) && decide (x ≤ 5000000) := by
  have hp : (rne (l.foldl (· + ·) 0 : Nat) 8).toNat % 8388608 < 8388608 := Nat.mod_lt _ (by decide)
  unfold lineWord
  generalize (rne (l.foldl (· + ·) 0 : Nat) 8).toNat % 8388608 = p at hp ⊢
  cases l.all fun x => decide (2857143 ≤ x) && decide (x ≤ 5000000) with
  | false => refine ⟨?_, ?_, ?_⟩ <;> simp [b2n, bitsOf, bitOf] <;> omega
  | true => refine ⟨?_, ?_, ?_⟩ <;> simp [b2n, bitsOf, bitOf] <;> omega

/-! The line meter. -/

theorem State.crossAll_frame (l : List Nat) : ∀ s : State, ∃ c, s.crossAll l = { s with chans := c } ∧
    ∀ m, m ∉ l → tget (fun _ => ({} : Chan)) c m = s.ch m := by
  induction l with
  | nil => intro s; exact ⟨s.chans, rfl, fun _ _ => rfl⟩
  | cons n l ih =>
    intro s
    rw [State.crossAll]
    split
    · obtain ⟨c, hc, hm⟩ := ih (s.updCh n fun c =>
        { c with meas := { c.meas with ap := { c.meas.ap with crossed := some s.tick } } })
      refine ⟨c, hc, fun m h => (hm m fun h' => h (.tail _ h')).trans (State.ch_updCh_ne _ _ fun h' => h (h' ▸ .head _))⟩
    · obtain ⟨c, hc, hm⟩ := ih s
      exact ⟨c, hc, fun m h => hm m fun h' => h (.tail _ h')⟩

theorem tileOf_of_mem_tileChans {t m : Nat} (h : m ∈ tileChans t) : tileOf m = t := by
  simp only [tileChans, List.mem_map, List.mem_range] at h
  obtain ⟨i, hi, rfl⟩ := h
  unfold tileOf
  omega

/-- A crossing that begins an interval of the meter. -/
theorem State.lineCross_first {s : State} {t dt : Nat} (hon : bitOf (s.rg (tileOff t tileLineCfg)) 3 = true)
    (hf : s.isFenced (unTile t) = false) (h : s.lineOn.contains t = false) :
    s.lineCross t dt = State.crossAll { s with lineOn := t :: s.lineOn } (tileChans t) := by
  simp only [State.lineCross, hon, hf, h, not_true_eq_false, false_or, Bool.false_eq_true, not_false_eq_true, if_true, if_false]

/-- The meter with the intervals `l`, and their word where there are eight of them. -/
def State.lineEnter (s : State) (t : Nat) (l : List Nat) : State :=
  let s := { s with lines := tput (fun _ => []) s.lines t l }
  if l.length < 8 then s else s.setRg (tileOff t tileLinePer) (lineWord l)

/-- A crossing that ends an interval. -/
theorem State.lineCross_next {s : State} {t dt : Nat} (hon : bitOf (s.rg (tileOff t tileLineCfg)) 3 = true)
    (hf : s.isFenced (unTile t) = false) (h : s.lineOn.contains t = true) : s.lineCross t dt =
      (s.lineEnter t ((dt :: tget (fun _ => []) s.lines t).take 8)).crossAll (tileChans t) := by
  simp only [State.lineCross, hon, hf, h, not_true_eq_false, false_or, Bool.false_eq_true, if_false]
  rfl

theorem State.lineEnter_frame (s : State) (t : Nat) (l : List Nat) :
    (s.lineEnter t l).lines = tput (fun _ => []) s.lines t l ∧ (s.lineEnter t l).chans = s.chans ∧ (s.lineEnter t l).mem = s.mem ∧
      ∀ o, o ≠ tileOff t tileLinePer → (s.lineEnter t l).rg o = s.rg o := by
  unfold State.lineEnter
  dsimp only
  split
  · exact ⟨rfl, rfl, rfl, fun _ _ => rfl⟩
  · exact ⟨rfl, rfl, rfl, fun o ho => State.rg_setRg_ne _ _ ho⟩

theorem State.lineEnter_word (s : State) {t : Nat} {l : List Nat} (h : l.length = 8) :
    (s.lineEnter t l).rg (tileOff t tileLinePer) = lineWord l := by
  unfold State.lineEnter
  dsimp only
  rw [if_neg (by omega), State.rg_setRg_same, Nat.mod_eq_of_lt (lineWord_fields l).1]

end Sys2Proof.Machine
namespace Sys2Proof.Proofs
open Sys2Proof.Machine

/-- Settles O7: the record's bytes go where the pointer says, and the pointer advances. -/
theorem measurementRecords : Obligations.MeasurementRecords := by
  refine ⟨fun s n cyc r rest hr hp hs hd => ?_, fun s n => ?_⟩
  · obtain ⟨hmem, hch, hrg⟩ := State.recWrite_stored hr hp hs hd cyc.val
    refine ⟨_, rfl, ?_, fun b hb => ?_, ?_, ?_, fun m hm => ?_, fun o ho => ?_⟩
    · have h := State.store_bytes (s.recTaken n r rest) (s.pansAddr n.val (s.cr n.val chPansWptr)) (recBytes r)
      rw [recBytes_length] at h
      exact (State.bytes_congr hmem _ _).trans h
    · exact (State.byte_congr hmem b).trans (State.store_byte_out (s.recTaken n r rest) _ _ _ (by rw [recBytes_length]; exact hb))
    · exact (hrg _ (by rw [ne_eq, chOff_inj]; decide)).trans (State.cr_pansPut_wptr _ _ _)
    · exact congrArg (fun c => c.meas.recs) ((hch _).trans ((State.ch_pansPut _ _ _ _).trans
        ((if_pos rfl).trans (by rw [State.recTaken, State.ch_setCh_same]))))
    · exact (hch m).trans ((State.ch_pansPut _ _ _ _).trans ((if_neg hm).trans (State.ch_setCh_ne _ _ hm)))
    · simp only [List.mem_cons, List.not_mem_nil, or_false, not_or] at ho
      obtain ⟨hw, hf, hi⟩ := ho
      exact (hrg o hf).trans (State.rg_pansPut_ne _ _ _ hw hi)
  · intro p o hs hp hw hr hd
    obtain ⟨hmem, hch, hptr, hrg⟩ := State.spillMove_moves hs hp hw hr rfl hd
    obtain ⟨hc, hb, hq⟩ := s.spillCopy_frame n o
    refine ⟨_, rfl, fun h => ?_, fun h b => ?_, hptr, fun m _ => (hch m).trans (hc m), fun q ho => ?_, fun b h => ?_⟩
    · exact (State.bytes_congr hmem _ _).trans (s.spillCopy_bytes n o h)
    · exact (State.byte_congr hmem b).trans (State.byte_congr (s.spillCopy_unread n o h) b)
    · simp only [List.cons_append, List.nil_append, List.mem_cons, not_or] at ho
      obtain ⟨h1, h2, h3⟩ := ho
      exact (hrg q h2 h1).trans (hq q h3)
    · exact (State.byte_congr hmem b).trans (hb b h)

/-- Settles O8: a completed line is stored at its place, a pointer moves within its records, and eight intervals give a mean. -/
theorem brineAndPointers : Obligations.BrineAndPointers := by
  refine ⟨fun s n hl hlt ht hs => ?_, fun s a n v => ?_, fun s t dt hon hf => ?_⟩
  · have hlen := State.brnLine_bytes_length hlt
    obtain ⟨hch, hb, hrg⟩ := State.put_frame ((s.brnTaken n.val).ddrWake (ddrBase + s.brnAt n.val)) (ddrBase + s.brnAt n.val)
      ((s.brnLine n.val).flatMap fun w => leBytes 8 w.w)
    rw [hlen] at hb
    have hch' (m : Nat) := (State.ch_congr (hch.trans (State.ddrWake_chans _ _)) m)
    refine ⟨_, congrArg Host.Outcome.next (State.brnTimeout_stores hl ht hs), fun hu => ?_, ?_, ?_, fun b h => ?_, fun m hm => ?_,
      fun o ho => ?_⟩
    · have h := State.put_bytes (s := (s.brnTaken n.val).ddrWake (ddrBase + s.brnAt n.val))
        ((State.ddrWake_memUE _ _).trans hu) (ddrBase + s.brnAt n.val) ((s.brnLine n.val).flatMap fun w => leBytes 8 w.w)
      rw [hlen] at h
      exact h.trans (s.brnLine_bytes n.val)
    · rw [State.cr_setCr, if_pos rfl, State.cr, hrg _ (chOff_not_mem_memRegs _ _), State.ddrWake_rg _ _ (fun h =>
        chOff_not_mem_memRegs _ _ (List.mem_append_left _ h))]
      exact Nat.mod_mod _ _
    · rw [State.ch_setCr, hch', State.brnTaken, State.ch_updCh_same]
    · exact (hb b h).trans (State.byte_congr (State.ddrWake_mem _ _) b)
    · rw [State.ch_setCr, hch', State.brnTaken, State.ch_updCh_ne _ _ hm]
    · rw [List.cons_append, List.mem_cons, not_or] at ho
      rw [State.rg_setCr_ne _ _ ho.1, hrg o ho.2, State.ddrWake_rg _ _ (fun h => ho.2 (List.mem_append_left _ h))]
      rfl
  · intro top
    refine ⟨fun hw h => ?_, fun hw h => ?_, fun hw h => ?_, fun hw h => ?_⟩
    · rw [exec_pansRptrWrite_of_mayWrite hw]; exact congrArg _ (if_pos h)
    · rw [exec_pansRptrWrite_of_mayWrite hw]; exact congrArg _ (if_neg (Nat.not_le.mpr h))
    · rw [exec_brnRptrWrite_of_mayWrite hw]; exact congrArg _ (if_pos h)
    · rw [exec_brnRptrWrite_of_mayWrite hw]; exact congrArg _ (if_neg (Nat.not_le.mpr h))
  · intro l
    refine ⟨fun h => ?_, fun h => ?_⟩
    · obtain ⟨c, hc, hm⟩ := State.crossAll_frame (tileChans t.val) { s with lineOn := t.val :: s.lineOn }
      refine ⟨_, congrArg Host.Outcome.next ((State.lineCross_first hon hf h).trans hc), rfl, rfl, rfl, rfl, fun m hne => ?_⟩
      exact hm m fun h' => hne (tileOf_of_mem_tileChans h')
    · obtain ⟨c, hc, hm⟩ := State.crossAll_frame (tileChans t.val) (s.lineEnter t.val l)
      obtain ⟨hl, hch, hmem, hrg⟩ := s.lineEnter_frame t.val l
      refine ⟨_, congrArg Host.Outcome.next ((State.lineCross_next hon hf h).trans hc), ?_, fun h8 => ?_, fun o ho => ?_,
        fun m hne => ?_, hmem⟩
      · exact (congrArg (fun x => tget (fun _ => []) x t.val) hl).trans (tget_tput_same _ _ _ _)
      · have hw := s.lineEnter_word (t := t.val) h8
        obtain ⟨-, hp, hk⟩ := lineWord_fields l
        exact ⟨(congrArg (fun w => bitsOf w 22 0) hw).trans hp, (congrArg (fun w => bitOf w 31) hw).trans hk⟩
      · exact hrg o ho
      · exact (hm m fun h' => hne (tileOf_of_mem_tileChans h')).trans (State.ch_congr hch m)

end Sys2Proof.Proofs
end

section
/-! PROOFS. The check of a descriptor table (R309). -/

namespace Sys2Proof.Machine

/-- The table of channel `n` lies in its region, and there is one (R309). -/
def State.tableIn (s : State) (n : Nat) : Prop :=
  bitsOf (s.cr n chRakeSegtab) 21 0 + bitsOf (s.cr n chRakeSegcfg) 16 8 ≤ s.rkLen n ∧ bitOf (s.cr n chRakeCfg) 0 = true

/-- The channel with its check over. -/
def State.checked (s : State) (n : Nat) : State :=
  s.setCh n { s.ch n with rake := { (s.ch n).rake with checking := false } }

/-- The check over, and the table read. -/
def State.tableRead (s : State) (n : Nat) : State :=
  (s.checked n).unitRead (s.rakeAddr n (bitsOf (s.cr n chRakeSegtab) 21 0)) (16 * bitsOf (s.cr n chRakeSegcfg) 16 8)

/-- A check that ends with a failure of segment `g`. -/
def State.checkFail (s : State) (n g why : Nat) : State :=
  (s.setCr n chRakeErr (g + 16777216 * why)).cflag n chRakeFlags 0x30

theorem State.checkDone_outside {s : State} {n : Nat} (h : (s.ch n).rake.checking = true) (ht : ¬ s.tableIn n) :
    s.checkDone n = (s.checked n).checkFail n 0 16 := by
  have ht' : bitsOf (s.cr n chRakeSegtab) 21 0 + bitsOf (s.cr n chRakeSegcfg) 16 8 > s.rkLen n ∨
      ¬ bitOf (s.cr n chRakeCfg) 0 = true := by
    rw [State.tableIn, not_and_or, Nat.not_le] at ht; exact ht
  have ht'' : bitsOf (s.cr n chRakeSegtab) 21 0 + bitsOf (s.cr n chRakeSegcfg) 16 8 > (s.checked n).rkLen n ∨
      ¬ bitOf ((s.checked n).cr n chRakeCfg) 0 = true := ht'
  unfold State.checked at ht'' ⊢
  simp only [State.checkDone, h, not_true_eq_false, if_false, ht'', if_true]
  rfl

/-- The first number below `k` that `f` answers. -/
theorem findSome?_range_first {α : Type} {f : Nat → Option α} {g k : Nat} {x : α} (hg : g < k) (hx : f g = some x)
    (hn : ∀ j, j < g → f j = none) : (List.range k).findSome? f = some x := by
  rw [List.findSome?_eq_some_iff]
  refine ⟨List.range g, g, (List.range (k - g - 1)).map (g + 1 + ·), ?_, hx, fun j hj => hn j (List.mem_range.mp hj)⟩
  rw [show k = g + (1 + (k - g - 1)) by omega, List.range_add, List.range_add, List.map_append, List.map_map]
  simp [Function.comp_def, Nat.add_assoc]

theorem State.not_tableOut {s : State} {n : Nat} (ht : s.tableIn n) :
    ¬ (bitsOf (s.cr n chRakeSegtab) 21 0 + bitsOf (s.cr n chRakeSegcfg) 16 8 > (s.checked n).rkLen n ∨
      ¬ bitOf ((s.checked n).cr n chRakeCfg) 0 = true) := by
  rw [not_or, Nat.not_lt, not_not]; exact ht

section
variable {s : State} {n : Nat} (h : (s.ch n).rake.checking = true) (ht : s.tableIn n)
include h ht

theorem State.checkDone_passes (hr : ∀ g, g < bitsOf (s.cr n chRakeSegcfg) 16 8 → s.segReason n g = 0) :
    s.checkDone n =
      ((s.tableRead n).updCh n fun c => { c with rake := { c.rake with segOk := true } }).cflag n chRakeFlags 0x10 := by
  have hn : ((List.range (bitsOf (s.cr n chRakeSegcfg) 16 8)).findSome? fun g =>
      if (s.checked n).segReason n g ≠ 0 then some (g, (s.checked n).segReason n g) else none) = none := by
    rw [List.findSome?_eq_none_iff]
    exact fun g hg => if_neg (not_not.mpr (hr g (List.mem_range.mp hg)))
  have ht' := State.not_tableOut ht
  unfold State.checked at ht' hn
  simp only [State.checkDone, h, not_true_eq_false, if_false, ht', hn]
  rfl

theorem State.checkDone_fails {g : Nat} (hg : g < bitsOf (s.cr n chRakeSegcfg) 16 8) (hr : s.segReason n g ≠ 0)
    (hf : ∀ j, j < g → s.segReason n j = 0) : s.checkDone n = (s.tableRead n).checkFail n g (s.segReason n g) := by
  have hn := findSome?_range_first (f := fun g => if (s.checked n).segReason n g ≠ 0 then
    some (g, (s.checked n).segReason n g) else none) hg (if_pos hr) fun j hj => if_neg (not_not.mpr (hf j hj))
  have ht' := State.not_tableOut ht
  unfold State.checked at ht' hn
  simp only [State.checkDone, h, not_true_eq_false, if_false, ht', hn]
  rfl

end

/-! What the check leaves. -/

theorem State.tableRead_frame (s : State) (n : Nat) : (∀ m, (s.tableRead n).ch m = (s.checked n).ch m) ∧
    (s.tableRead n).mem = s.mem ∧ ∀ o, o ∉ ueRegs → (s.tableRead n).rg o = s.rg o :=
  ⟨fun m => State.ch_congr (State.unitRead_chans _ _ _) m, State.unitRead_mem _ _ _, fun _ ho => State.unitRead_rg _ _ _ ho⟩

theorem State.ch_checked (s : State) (n m : Nat) : (s.checked n).ch m =
    if m = n then { s.ch n with rake := { (s.ch n).rake with checking := false } } else s.ch m :=
  s.ch_setCh n m _

section
variable (s : State) (n g why : Nat)

@[simp] theorem State.ch_checkFail (m : Nat) : (s.checkFail n g why).ch m = s.ch m := by
  rw [State.checkFail, State.ch_cflag, State.ch_setCr]
@[simp] theorem State.mem_checkFail : (s.checkFail n g why).mem = s.mem := by
  rw [State.checkFail, State.mem_cflag, State.mem_setCr]
theorem State.cr_checkFail : (s.checkFail n g why).cr n chRakeErr = (g + 16777216 * why) % 4294967296 := by
  rw [State.checkFail, State.cr_cflag_ne _ _ _ (by decide), State.cr_setCr, if_pos rfl]
theorem State.rg_checkFail {o : Nat} (h : o ≠ chOff n chRakeErr) (h' : o ≠ chOff n chRakeFlags) :
    (s.checkFail n g why).rg o = s.rg o := by
  rw [State.checkFail, State.rg_cflag_ne _ _ h', State.rg_setCr_ne _ _ h]

end

end Sys2Proof.Machine
namespace Sys2Proof.Proofs
open Sys2Proof.Machine

/-- Settles O10: the check's end is that of a table outside the region, of one that passes, or of the first failure. -/
theorem segmentCheck : Obligations.SegmentCheck := by
  intro s a n base cnt here frame
  obtain ⟨hch, hmem, hrg⟩ := s.tableRead_frame n
  have notin {o : Nat} (ho : o ∉ [chOff n.val chRakeErr, chOff n.val chRakeFlags] ++ ueRegs) :
      o ≠ chOff n.val chRakeErr ∧ o ≠ chOff n.val chRakeFlags ∧ o ∉ ueRegs := by
    rw [List.mem_append, List.mem_cons, List.mem_singleton] at ho
    exact ⟨fun h => ho (.inl (.inl h)), fun h => ho (.inl (.inr h)), fun h => ho (.inr h)⟩
  refine ⟨fun hw hf => ?_, fun hs => if_neg (not_not.mpr hs), fun hs => if_pos hs, fun hc ht => ?_, fun hc ht hr => ?_,
    fun g hc ht hg hr hf => ?_, fun hc => ?_⟩
  · rw [exec_rakeCmdCheck_of_mayWrite hw, State.rakeLatch_of_not_fenced hf]
  · refine ⟨_, congrArg Host.Outcome.next (State.checkDone_outside hc ht), ?_, ?_, ?_, fun m hm => ?_, fun o ho => ?_, ?_⟩
    · rw [State.ch_checkFail, State.ch_checked, if_pos rfl]
    · rw [State.cr_checkFail]
    · rw [State.ch_checkFail, State.ch_checked, if_pos rfl]
    · rw [State.ch_checkFail, State.ch_checked, if_neg hm]
    · obtain ⟨h1, h2, -⟩ := notin ho
      exact State.rg_checkFail _ _ _ _ h1 h2
    · rw [State.mem_checkFail]; rfl
  · refine ⟨_, congrArg Host.Outcome.next (State.checkDone_passes hc ht hr), ?_, ?_, ?_, fun m hm => ?_, fun o ho => ?_, ?_⟩
    · rw [State.ch_cflag, State.ch_updCh_same]
    · exact State.cflag_bit _ _ _ _ _ (by decide) (by decide) (by decide)
    · rw [State.ch_cflag, State.ch_updCh_same, hch, State.ch_checked, if_pos rfl]
    · rw [State.ch_cflag, State.ch_updCh_ne _ _ hm, hch, State.ch_checked, if_neg hm]
    · obtain ⟨-, h2, h3⟩ := notin ho
      rw [State.rg_cflag_ne _ _ h2, State.rg_updCh, hrg o h3]
    · rw [State.mem_cflag, State.mem_updCh, hmem]
  · refine ⟨_, congrArg Host.Outcome.next (State.checkDone_fails hc ht hg hr hf), ?_, ?_, ?_, fun m hm => ?_, fun o ho => ?_, ?_⟩
    · rw [State.ch_checkFail, hch, State.ch_checked, if_pos rfl]
    · exact State.cr_checkFail _ _ _ _
    · rw [State.ch_checkFail, hch, State.ch_checked, if_pos rfl]
    · rw [State.ch_checkFail, hch, State.ch_checked, if_neg hm]
    · obtain ⟨h1, h2, h3⟩ := notin ho
      rw [State.rg_checkFail _ _ _ _ h1 h2, hrg o h3]
    · rw [State.mem_checkFail, hmem]
  · exact congrArg Host.Outcome.next (if_pos (by rw [hc]; decide))

end Sys2Proof.Proofs
end

section
/-! PROOFS. The verification of coefficient sets (R161 to R165). -/

namespace Sys2Proof.Machine

theorem any_range_congr {k : Nat} {f g : Nat → Bool} (h : ∀ i, i < k → f i = g i) :
    (List.range k).any f = (List.range k).any g := by
  rw [Bool.eq_iff_iff, List.any_eq_true, List.any_eq_true]
  constructor
  · rintro ⟨i, hi, hf⟩; exact ⟨i, hi, h i (List.mem_range.mp hi) ▸ hf⟩
  · rintro ⟨i, hi, hf⟩; exact ⟨i, hi, (h i (List.mem_range.mp hi)).symm ▸ hf⟩

/-- The register of the set commands has no part in which sets are protected. -/
theorem State.setProt_setCr_setCmd (s : State) (n k v : Nat) : (s.setCr n chSetCmd v).setProt n k = s.setProt n k := by
  have cr {r : Nat} (h : r ≠ chSetCmd) : (s.setCr n chSetCmd v).cr n r = s.cr n r := by rw [State.cr_setCr, if_neg h]
  have hmap : ((List.range 12).any fun i => (s.setCr n chSetCmd v).iImpl n i &&
        (decide ((s.setCr n chSetCmd v).smap n i false = k) || decide ((s.setCr n chSetCmd v).smap n i true = k))) =
      (List.range 12).any fun i => s.iImpl n i && (decide (s.smap n i false = k) || decide (s.smap n i true = k)) := by
    refine any_range_congr fun i hi => ?_
    have hs (fi : Bool) : (s.setCr n chSetCmd v).smap n i fi = s.smap n i fi := by
      rw [State.smap, State.smap, cr (by unfold chSmap chSetCmd; omega)]
    rw [hs, hs, State.iImpl, State.iImpl, State.ifs, State.ifs, cr (by unfold chIfs chSetCmd; omega)]
  have hoff : (s.setCr n chSetCmd v).offDisp n = s.offDisp n := by
    rw [State.offDisp, State.offDisp, cr (by decide)]
  simp only [State.setProt, State.ch_setCr]
  rw [hmap, hoff, cr (by decide), cr (by decide)]
  rfl

/-- One bit cleared, or set. -/
theorem bitOf_and_not_two_pow (v : BitVec 16) (k j : Nat) (hj : j < 16) :
    bitOf (v &&& ~~~(BitVec.ofNat 16 (2 ^ k))).toNat j = (bitOf v.toNat j && decide (k ≠ j)) := by
  rw [bitOf_eq_testBit, bitOf_eq_testBit, BitVec.testBit_toNat, BitVec.testBit_toNat, BitVec.getLsbD_and, BitVec.getLsbD_not,
    BitVec.getLsbD_ofNat, Nat.testBit_two_pow]
  simp [hj]

theorem bitOf_or_two_pow (v : BitVec 16) (k : Nat) (hk : k < 16) :
    bitOf (v ||| BitVec.ofNat 16 (2 ^ k)).toNat k = true := by
  rw [bitOf_eq_testBit, BitVec.testBit_toNat, BitVec.getLsbD_or, BitVec.getLsbD_ofNat, Nat.testBit_two_pow]
  simp [hk]

theorem State.setValid_setStale (s : State) (n k : Nat) (w : Bool) {j : Nat} (hj : j < 16) :
    (s.setStale n k w).setValid n j = (s.setValid n j && decide (k ≠ j)) := by
  rw [State.setValid, State.setStale, State.ch_updCh_same]
  exact bitOf_and_not_two_pow _ k j hj

section
variable {s : State} {a : Acc} {n : ChanId} (h : s.mayWrite a (chOff n.val chSetCmd)) (k : SetId)
include h

theorem exec_verify_of_mayWrite : exec (.verify a n k) s = .next (s.verify n.val k.val) := by
  change execVerify a n k s = _
  exact State.mayWrite_next h _ _

theorem exec_invalidate_of_mayWrite : exec (.invalidate a n k) s = .next (s.invalidate n.val k.val) := by
  change execInvalidate a n k s = _
  exact State.mayWrite_next h _ _

end

section
variable {s : State} {n k : Nat}

theorem State.verify_idle (h : (s.ch n).vfy = none) :
    s.verify n k = (s.updCh n fun c => { c with vfy := some ⟨k, false⟩ }).setCr n chSetCmd (k + 16) := by
  simp only [State.verify, h, Option.isSome_none, Bool.false_eq_true, if_false]
  rfl

theorem State.verify_busy (h : (s.ch n).vfy ≠ none) : s.verify n k = s.cflag n chSetSts 8 :=
  if_pos (Option.isSome_iff_ne_none.mpr h)

theorem State.invalidate_busy (h : (s.ch n).vfy ≠ none) : s.invalidate n k = s.cflag n chSetSts 8 :=
  if_pos (Option.isSome_iff_ne_none.mpr h)

theorem State.invalidate_free (h : (s.ch n).vfy = none) (hp : s.setProt n k = false) :
    s.invalidate n k = (s.setCr n chSetCmd (setBits (s.cr n chSetCmd) 3 0 k)).setStale n k false := by
  simp only [State.invalidate, h, Option.isSome_none, State.setProt_setCr_setCmd, hp, Bool.false_eq_true, if_false]

/-- The end of a verification that finds nothing. -/
theorem State.verifyDone_passes (h : (s.ch n).vfy = some ⟨k, false⟩) (hu : s.ue (setAddr n k) 1024 = false)
    (hr : s.vfyReason n k = 0) : ∃ (u : State) (v : Nat), s.verifyDone n =
      ((((u.updCh n fun c => { c with vfy := none }).setCr n chSetCmd v).updCh n fun c =>
        { c with valid := c.valid ||| BitVec.ofNat 16 (2 ^ k) }).cflag n chSetSts 1) := by
  simp only [State.verifyDone, h, hu, hr, Bool.false_eq_true, if_false, if_true]
  exact ⟨s.unitRead (setAddr n k) 1024, _, rfl⟩

end

end Sys2Proof.Machine
namespace Sys2Proof.Proofs
open Sys2Proof.Machine

/-- Settles O2: each command is one branch of its operation, and touches one valid bit. -/
theorem coefficientSetCommands : Obligations.CoefficientSetCommands := by
  intro s a n k hw
  rw [exec_verify_of_mayWrite hw, exec_invalidate_of_mayWrite hw]
  refine ⟨fun h => by rw [State.verify_idle h], fun h hp => ?_, fun h => ?_, fun h hu hr => ?_⟩
  · refine ⟨_, congrArg _ (State.invalidate_free h hp), ?_, fun j hj hne => ?_⟩
    · rw [State.setValid_setStale _ _ _ _ k.isLt]; simp
    · rw [State.setValid_setStale _ _ _ _ hj, decide_eq_true (Ne.symm hne), Bool.and_true, State.setValid, State.ch_setCr]
      rfl
  · rw [State.verify_busy h, State.invalidate_busy h]
    exact ⟨rfl, rfl⟩
  · obtain ⟨u, v, hd⟩ := State.verifyDone_passes h hu hr
    refine ⟨_, congrArg Host.Outcome.next hd, ?_, ?_, ?_⟩
    · rw [State.setValid, State.ch_cflag, State.ch_updCh_same]
      exact bitOf_or_two_pow _ _ k.isLt
    · rw [State.ch_cflag, State.ch_updCh_same, State.ch_setCr, State.ch_updCh_same]
    · exact State.cflag_bit _ _ _ _ _ (by decide) (by decide) (by decide)

end Sys2Proof.Proofs
end

section
/-! PROOFS. Accesses to register space: which register an address names and which cause of a bus error goes first (R609 to
R618, log 77). -/

namespace Sys2Proof.Machine

theorem State.coreAddr_regs (s : State) (r : Req) {addr : Nat} (h : addr < 0x1A000000) : s.coreAddr r addr = addr := by
  cases r with
  | core x => exact if_neg fun h' => by omega
  | host => rfl
  | fabric => rfl

theorem inRegs_of {a : Nat} (h : 0x10000000 ≤ a) (h' : a < 0x1A000000) : inRegs a = true := by
  rw [inRegs, decide_eq_true h, decide_eq_true h']; rfl

/-- An access of another width than a word, or misaligned (log 77: the width first). -/
theorem State.busWrite_width (s : State) (r : Req) {addr : Nat} (h : 0x10000000 ≤ addr) (h' : addr < 0x1A000000)
    {bs : List Byte} (hb : bs.length ≠ 4) :
    (s.busWrite r addr bs).st = s.busErr r true (widthCode bs.length) addr 1 := by
  rw [State.busWrite, State.coreAddr_regs s r h', if_pos (inRegs_of h h'), if_pos hb]
  rfl

theorem State.busWrite_misaligned (s : State) (r : Req) {addr : Nat} (h : 0x10000000 ≤ addr) (h' : addr < 0x1A000000)
    {bs : List Byte} (hb : bs.length = 4) (h4 : addr % 4 ≠ 0) :
    (s.busWrite r addr bs).st = s.busErr r true 2 addr 2 := by
  rw [State.busWrite, State.coreAddr_regs s r h', if_pos (inRegs_of h h'), if_neg (not_not.mpr hb), if_pos h4]
  rfl

section
variable (s : State) (r : Req) {o : Nat} (ho : o < 0x2000000) (h4 : o % 4 = 0) {bs : List Byte} (hb : bs.length = 4)
include ho h4 hb

/-- A word written through the privileged view: the register at its offset. -/
theorem State.busWrite_priv : s.busWrite r (0x10000000 + o) bs = s.regWrite ⟨r, .priv⟩ o (leNat bs) := by
  have hk : (0x10000000 + o - 0x10000000) / 0x2000000 = 0 := by omega
  have hm : (0x10000000 + o) % 0x2000000 = o := by omega
  rw [State.busWrite, State.coreAddr_regs s r (by omega), if_pos (inRegs_of (by omega) (by omega)), if_neg (not_not.mpr hb),
    if_neg (by omega), hk, hm]
  rfl

/-- A word written through the unprivileged view. -/
theorem State.busWrite_unpriv : s.busWrite r (0x18000000 + o) bs = s.regWrite ⟨r, .unpriv⟩ o (leNat bs) := by
  have hk : (0x18000000 + o - 0x10000000) / 0x2000000 = 4 := by omega
  have hm : (0x18000000 + o) % 0x2000000 = o := by omega
  rw [State.busWrite, State.coreAddr_regs s r (by omega), if_pos (inRegs_of (by omega) (by omega)), if_neg (not_not.mpr hb),
    if_neg (by omega), hk, hm]
  rfl

end

theorem State.regWrite_error {s : State} {a : Acc} {o v c : Nat} (h : s.regCause a o true v = some c) :
    (s.regWrite a o v).st = s.busErr a.req true 2 (viewBase a.view + o) c := by
  rw [State.regWrite, h]; rfl

theorem State.regWrite_taken {s : State} {a : Acc} {o v : Nat} (h : s.regCause a o true v = none) :
    (s.regWrite a o v).st = s.regPut a o v := by
  rw [State.regWrite, h]

section
variable (s : State) {a : Acc} {o : Nat} {l : Loc} {row : RegRow × Nat}

theorem State.regCause_unmapped (h : locate o = none) (a : Acc) (wr : Bool) (v : Nat) : s.regCause a o wr v = some 3 := by
  rw [State.regCause, h]

theorem State.regCause_core (hl : locate o = some l) (hr : rowAt l = some row) (hv : a.view = .priv)
    (hp : privCore a.req = false) (wr : Bool) (v : Nat) : s.regCause a o wr v = some 4 := by
  simp only [State.regCause, hl, hr]
  rw [if_pos ⟨hv, by rw [hp]; decide⟩]

theorem State.secureBad_other (hg : l.grp ≠ .evc) (hg' : l.grp ≠ .brm) (wr : Bool) (v : Nat) :
    s.secureBad l row wr v = false := by
  unfold State.secureBad
  split
  · contradiction
  · contradiction
  · rfl

theorem State.regCause_unpriv (hl : locate o = some l) (hr : rowAt l = some row) (hv : a.view = .unpriv)
    (hg : l.grp ≠ .evc) (hg' : l.grp ≠ .brm) (hp : row.1.priv = true ∨ row.1.cls = .grd) (wr : Bool) (v : Nat) :
    s.regCause a o wr v = some 4 := by
  have hp' : row.1.priv = true ∨ row.1.cls = .grd ∨ (row.1.cov = true ∧ (¬ (decide (l.grp = .evc) || decide (l.grp = .brm)) = true ∨
      (decide (l.grp = .brm) && (s.setOfReg l).isSome) = true)) := hp.imp_right .inl
  simp only [State.regCause, hl, hr, State.secureBad_other s hg hg', hv]
  rw [if_neg (by simp), if_neg (by simp), if_pos ⟨by decide, hp'⟩]

end

end Sys2Proof.Machine
namespace Sys2Proof.Proofs
open Sys2Proof.Machine

/-- Settles O26: the cause is judged before the value. -/
theorem accessRights : Obligations.AccessRights := by
  intro s r o v ho h4 w
  have priv {c : Nat} (h : ∀ v, s.regCause ⟨r, .priv⟩ o true v = some c) :
      w 0x10000000 = .next (s.busErr r true 2 (0x10000000 + o) c) := by
    refine congrArg Host.Outcome.next ?_
    rw [State.busWrite_priv s r ho h4 (leBytes_length _ _), State.regWrite_error (h _)]
    rfl
  have unpriv {c : Nat} (h : ∀ v, s.regCause ⟨r, .unpriv⟩ o true v = some c) :
      w 0x18000000 = .next (s.busErr r true 2 (0x18000000 + o) c) := by
    refine congrArg Host.Outcome.next ?_
    rw [State.busWrite_unpriv s r ho h4 (leBytes_length _ _), State.regWrite_error (h _)]
    rfl
  refine ⟨fun hn => ⟨priv (s.regCause_unmapped hn _ true), unpriv (s.regCause_unmapped hn _ true)⟩, fun l row hl hr => ⟨fun hp => ?_,
    fun hg hg' hp => ?_⟩⟩
  · exact priv (s.regCause_core hl hr rfl hp true)
  · exact unpriv (s.regCause_unpriv hl hr rfl hg hg' hp true)

end Sys2Proof.Proofs
end

section
/-! PROOFS. Bus errors, and pairs and halves whose window ends (R575, R618 to R623, R629, R642). -/

namespace Sys2Proof.Machine

/-! A fault whose frame asks for no more than a record. -/

/-- What the fault of a mild frame changes: registers of the frame, and what counts and holds by them. -/
structure FaultOf (f i : Nat) (s t : State) : Prop where
  set : bitOf (t.rg (fltOff f fltSts)) i = true
  rg : ∀ o, o ∉ reportRegs f → t.rg o = s.rg o
  shadow : t.shadow = s.shadow
  chans : t.chans = s.chans
  mem : t.mem = s.mem
  memUE : t.memUE = s.memUE
  memCE : t.memCE = s.memCE
  guards : t.guards = s.guards
  voteErr : t.voteErr = s.voteErr
  later : t.later = s.later
  out : t.out = s.out
  causes : t.causes = s.causes
  fenced : t.fenced = s.fenced
  held : t.held = s.held
  running : t.running = s.running
  tick : t.tick = s.tick
  boot : t.boot = s.boot
  clk : t.clk = s.clk
  cpu : t.cpu = s.cpu
  fab : t.fab = s.fab
  cnt : bitOf (s.rg (fltOff f fltSts)) i = false → t.rg (fltOff f fltCnt) = holdAdd (s.rg (fltOff f fltCnt)) 1

theorem State.faultOf {s : State} {f i : Nat} (h : s.mild f = true) (hl : s.later = []) (hi : i < 20) :
    FaultOf f i s (s.fault f i) := by
  obtain ⟨r, q, fr, al, e, hr, hb, hc⟩ := s.fault_mild f i h hl hi
  rw [e]
  exact ⟨hb, fun o ho => congrArg BitVec.toNat (hr o ho), rfl, rfl, rfl, rfl, rfl, rfl, rfl, rfl, rfl, rfl, rfl, rfl, rfl, rfl, rfl, rfl, rfl, rfl, hc⟩

theorem State.mild_congr {s t : State} {f : Nat} (hv : t.voteErr = s.voteErr)
    (hr : t.rg (fltOff f fltReact) = s.rg (fltOff f fltReact)) : t.mild f = s.mild f := by
  rw [State.mild, State.mild, hv, hr]

theorem fltOff_frSys (r : Nat) : fltOff frSys r = 0xF000 + r := rfl

theorem fltOff_frCore (x : CoreId) (r : Nat) : fltOff (frCore x.val) r = 0xE000 + 0x100 * x.val + r := by
  have hx := x.isLt
  simp only [fltOff, frameOff, frCore]
  rw [if_neg (by omega), if_pos (by omega)]
  omega

/-- The registers of a bus error's record. -/
def buserrRegs : List Nat := [sysBuserrAddrLo, sysBuserrAddrHi, sysBuserrInfo]

/-- The record of a bus error, before its fault. -/
def State.busRecord (s : State) (r : Req) (wr : Bool) (w addr c : Nat) : State :=
  ((s.setRg sysBuserrAddrLo (addr % 4294967296)).setRg sysBuserrAddrHi (addr / 4294967296 % 128)).setRg sysBuserrInfo
    (reqCode r + 16 * b2n wr + 32 * w + 256 * c)

theorem State.rg_busRecord (s : State) (r : Req) (wr : Bool) (w addr c : Nat) {o : Nat} (h : o ∉ buserrRegs) :
    (s.busRecord r wr w addr c).rg o = s.rg o := by
  simp only [buserrRegs, List.mem_cons, List.not_mem_nil, or_false, not_or] at h
  obtain ⟨h1, h2, h3⟩ := h
  rw [State.busRecord, State.rg_setRg_ne _ _ h3, State.rg_setRg_ne _ _ h2, State.rg_setRg_ne _ _ h1]

/-- The registers of `busErr` that requester `r` adds: those of its core's frame. -/
def faultedRegs : Req → List Nat
  | .core x => reportRegs (frCore x.val)
  | _ => []

theorem State.busErr_core (s : State) (x : CoreId) (wr : Bool) (w addr c : Nat) : s.busErr (.core x) wr w addr c =
    if wr = true then ((s.busRecord (.core x) wr w addr c).fault frSys fsBusErr).fault (frCore x.val) fxBusFault
    else { ((s.busRecord (.core x) wr w addr c).fault frSys fsBusErr).fault (frCore x.val) fxBusFault with
      out := (((s.busRecord (.core x) wr w addr c).fault frSys fsBusErr).fault (frCore x.val) fxBusFault).out ++
        [.accessFault x.val false] } := rfl

theorem State.busErr_other (s : State) {r : Req} (hr : ∀ x, r ≠ .core x) (wr : Bool) (w addr c : Nat) :
    s.busErr r wr w addr c = (s.busRecord r wr w addr c).fault frSys fsBusErr := by
  cases r with
  | core x => exact absurd rfl (hr x)
  | host => rfl
  | fabric => rfl

theorem frCore_not_frSys (x : CoreId) (r : Nat) (hr : r < 0x100) :
    fltOff (frCore x.val) r ∉ reportRegs frSys ∧ fltOff (frCore x.val) r ∉ buserrRegs := by
  have hx := x.isLt
  rw [fltOff_frCore]
  simp only [reportRegs, buserrRegs, fltOff_frSys, List.mem_cons, List.not_mem_nil, or_false]
  unfold fltSts fltCnt fltLast fltEsc fltRepeats sysBuserrAddrLo sysBuserrAddrHi sysBuserrInfo
  omega

theorem buserrRegs_not_reported : ∀ o ∈ buserrRegs, o ∉ reportRegs frSys := by decide

theorem buserrRegs_not_core (x : CoreId) : ∀ o ∈ buserrRegs, o ∉ reportRegs (frCore x.val) := by
  intro o ho h
  simp only [reportRegs, List.mem_cons, List.not_mem_nil, or_false] at h
  rcases h with h | h | h | h | h <;> subst h <;> exact (frCore_not_frSys x _ (by decide)).2 ho

/-- What a bus error of a requester whose frames are mild leaves. -/
structure Recorded (s t : State) (r : Req) (wr : Bool) (w addr c : Nat) : Prop where
  lo : t.rg sysBuserrAddrLo = addr % 4294967296
  hi : t.rg sysBuserrAddrHi = addr / 4294967296 % 128
  info : t.rg sysBuserrInfo = (reqCode r + 16 * b2n wr + 32 * w + 256 * c) % 4294967296
  set : bitOf (t.rg (fltOff frSys fltSts)) fsBusErr = true
  core : ∀ x, r = .core x → bitOf (t.rg (fltOff (frCore x.val) fltSts)) fxBusFault = true ∧
    (wr = false → t.out = s.out ++ [.accessFault x.val false])
  rg : ∀ o, o ∉ buserrRegs ++ reportRegs frSys ++ faultedRegs r → t.rg o = s.rg o
  shadow : t.shadow = s.shadow
  chans : t.chans = s.chans
  mem : t.mem = s.mem

section
variable (s : State) (r : Req) (wr : Bool) (w addr c : Nat)

theorem State.busRecord_reads : (s.busRecord r wr w addr c).rg sysBuserrAddrLo = addr % 4294967296 ∧
    (s.busRecord r wr w addr c).rg sysBuserrAddrHi = addr / 4294967296 % 128 ∧
    (s.busRecord r wr w addr c).rg sysBuserrInfo = (reqCode r + 16 * b2n wr + 32 * w + 256 * c) % 4294967296 := by
  refine ⟨?_, ?_, ?_⟩
  · rw [State.busRecord, State.rg_setRg_ne _ _ (by decide), State.rg_setRg_ne _ _ (by decide), State.rg_setRg_same, Nat.mod_mod]
  · rw [State.busRecord, State.rg_setRg_ne _ _ (by decide), State.rg_setRg_same]
    omega
  · rw [State.busRecord, State.rg_setRg_same]

end

/-- The fault of the bus error's source. -/
theorem State.busFault_sys {s : State} (h : s.mild frSys = true) (hl : s.later = []) (r : Req) (wr : Bool) (w addr c : Nat) :
    FaultOf frSys fsBusErr (s.busRecord r wr w addr c) ((s.busRecord r wr w addr c).fault frSys fsBusErr) := by
  refine State.faultOf ?_ hl (by decide)
  rw [← h]
  exact State.mild_congr rfl (State.rg_busRecord _ _ _ _ _ _ (by decide))

theorem State.busErr_recorded {s : State} (r : Req) (wr : Bool) (w addr c : Nat) (h : s.mild frSys = true) (hl : s.later = [])
    (hc : ∀ x, r = .core x → s.mild (frCore x.val) = true) : Recorded s (s.busErr r wr w addr c) r wr w addr c := by
  have f := State.busFault_sys h hl r wr w addr c
  obtain ⟨hlo, hhi, hin⟩ := s.busRecord_reads r wr w addr c
  by_cases hr : ∃ x, r = .core x
  · obtain ⟨x, rfl⟩ := hr
    have hm : ((s.busRecord (.core x) wr w addr c).fault frSys fsBusErr).mild (frCore x.val) = true := by
      obtain ⟨hn, hn'⟩ := frCore_not_frSys x fltReact (by decide)
      rw [← hc x rfl]
      exact State.mild_congr f.voteErr ((f.rg _ hn).trans (State.rg_busRecord _ _ _ _ _ _ hn'))
    have g := State.faultOf (i := fxBusFault) hm (f.later.trans hl) (by decide)
    have rg {o : Nat} (ho : o ∈ buserrRegs) := (g.rg o (buserrRegs_not_core x o ho)).trans (f.rg o (buserrRegs_not_reported o ho))
    have hset : fltOff frSys fltSts ∉ reportRegs (frCore x.val) := by
      have hx := x.isLt
      simp only [reportRegs, fltOff_frCore, fltOff_frSys, List.mem_cons, List.not_mem_nil, or_false]
      unfold fltSts fltCnt fltLast fltEsc fltRepeats
      omega
    have key (l) (hout : wr = false → l = s.out ++ [.accessFault x.val false]) : Recorded s
        { ((s.busRecord (.core x) wr w addr c).fault frSys fsBusErr).fault (frCore x.val) fxBusFault with out := l }
        (.core x) wr w addr c := by
      refine ⟨(rg (by decide)).trans hlo, (rg (by decide)).trans hhi, (rg (by decide)).trans hin, ?_, fun y hy => ?_, fun o ho => ?_,
        g.shadow.trans f.shadow, g.chans.trans f.chans, g.mem.trans f.mem⟩
      · exact (congrArg (fun w => bitOf w fsBusErr) (g.rg _ hset)).trans f.set
      · cases hy; exact ⟨g.set, hout⟩
      · rw [List.mem_append, List.mem_append, not_or, not_or] at ho
        exact (g.rg o ho.2).trans ((f.rg o ho.1.2).trans (State.rg_busRecord _ _ _ _ _ _ ho.1.1))
    rw [State.busErr_core]
    split
    next hw => exact key _ fun h => by rw [hw] at h; contradiction
    next => exact key _ fun _ => by rw [g.out, f.out]; rfl
  · rw [State.busErr_other s (fun x hx => hr ⟨x, hx⟩)]
    refine ⟨(f.rg _ (by decide)).trans hlo, (f.rg _ (by decide)).trans hhi, (f.rg _ (by decide)).trans hin, f.set,
      fun x hx => absurd ⟨x, hx⟩ hr, fun o ho => ?_, f.shadow, f.chans, f.mem⟩
    rw [List.mem_append, List.mem_append, not_or, not_or] at ho
    exact (f.rg o ho.1.2).trans (State.rg_busRecord _ _ _ _ _ _ ho.1.1)

theorem exec_svcEnter_of_mayWrite {s : State} {a : Acc} (h : s.mayWrite a sysSvc) (hu : s.unpaired a sysSvc = true) :
    exec (.svcEnter a) s = .next (s.setRg sysSvcSts 1) := by
  change execSvcEnter a s = _
  rw [execSvcEnter, State.viaGrd, State.mayWrite_next h, State.pairDrop_unpaired hu]
  rfl

theorem exec_svcLeave_of_mayWrite {s : State} {a : Acc} (h : s.mayWrite a sysSvc) (hu : s.unpaired a sysSvc = true) :
    exec (.svcLeave a) s = .next (s.setRg sysSvcSts 0) := by
  change execSvcLeave a s = _
  rw [execSvcLeave, State.viaGrd, State.mayWrite_next h, State.pairDrop_unpaired hu]
  rfl

/-- A discarded pair of a device whose SYS frame is mild. -/
structure GuardErr (s t : State) (o : Nat) : Prop where
  addr : t.rg sysGuarderrAddr = o % 4294967296
  set : bitOf (t.rg (fltOff frSys fltSts)) fsGuardErr = true
  rg : ∀ p, p ∉ sysGuarderrAddr :: reportRegs frSys → t.rg p = s.rg p
  guards : t.guards = s.guards
  chans : t.chans = s.chans
  mem : t.mem = s.mem

theorem State.guardErr_of_mild {s : State} (h : s.mild frSys = true) (hl : s.later = []) (o : Nat) :
    GuardErr s (s.guardErr o) o := by
  have hm : (s.setRg sysGuarderrAddr o).mild frSys = true := by
    rw [← h]; exact State.mild_congr rfl (State.rg_setRg_ne _ _ (by decide))
  have f := State.faultOf (i := fsGuardErr) hm hl (by decide)
  refine ⟨(f.rg _ (by decide)).trans (State.rg_setRg_same _ _ _), f.set, fun p hp => ?_, f.guards, f.chans, f.mem⟩
  rw [List.mem_cons, not_or] at hp
  exact (f.rg p hp.2).trans (State.rg_setRg_ne _ _ hp.1)

theorem State.guardExpire_found {s : State} {r : Req} {h : Held}
    (hf : s.guards.find? (fun h => decide (h.req = r) && s.windowOver h) = some h) :
    s.guardExpire r = State.guardErr { s with guards := s.guards.filter (· ≠ h) } h.off := by
  simp only [State.guardExpire, hf]

theorem State.holdExpire_found {s : State} {r : Req} {h : Held}
    (hf : s.holds.find? (fun h => decide (h.req = r) && s.windowOver h) = some h) :
    s.holdExpire r = { s with holds := s.holds.filter (· ≠ h) } := by
  simp only [State.holdExpire, hf]

end Sys2Proof.Machine
namespace Sys2Proof.Proofs
open Sys2Proof.Machine

/-- Settles O24: every bus error leaves the record of `busErr`, and an expired pair that of `guardErr`. -/
theorem busErrors : Obligations.BusErrors := by
  refine ⟨fun s r addr bs hm hl hc => ?_, fun s r a h => ⟨fun hf hm hl => ?_, fun hf => ?_, fun hw hu => ?_⟩⟩
  · intro own recorded
    have hrec {t : State} {wr : Bool} {w c : Nat} (h : Recorded s t r wr w addr c) : recorded t wr w c := by
      refine ⟨h.lo, h.hi, h.info, h.set, h.core, fun o ho => h.rg o ?_, h.shadow, h.chans, h.mem⟩
      cases r <;> exact ho
    refine ⟨fun h0 h1 hb => ?_, fun h0 h1 hb h4 => ?_, fun wr => ?_⟩
    · exact ⟨_, congrArg Host.Outcome.next (s.busWrite_width r h0 h1 hb), hrec (s.busErr_recorded r _ _ _ _ hm hl hc)⟩
    · exact ⟨_, congrArg Host.Outcome.next (s.busWrite_misaligned r h0 h1 hb h4), hrec (s.busErr_recorded r _ _ _ _ hm hl hc)⟩
    · exact ⟨_, rfl, hrec (s.busErr_recorded r _ _ _ _ hm hl hc)⟩
  · have g := State.guardErr_of_mild (s := { s with guards := s.guards.filter (· ≠ h) }) hm hl h.off
    exact ⟨_, congrArg Host.Outcome.next (State.guardExpire_found hf), g.guards, g.addr, g.set, g.rg, g.chans, g.mem⟩
  · exact congrArg Host.Outcome.next (State.holdExpire_found hf)
  · exact ⟨exec_svcEnter_of_mayWrite hw hu, exec_svcLeave_of_mayWrite hw hu⟩

end Sys2Proof.Proofs
end

section
/-! PROOFS. A counterexample to O25: the release key of a clamp is a guarded register of the comparators' block, before a write
of which the lines are seen (R814). -/

namespace Sys2Proof.Machine

theorem State.msix_only (s : State) (v : Nat) : ∃ r o, s.msix v = { s with regs := r, out := o } := by
  unfold State.msix State.putRg
  split
  · exact ⟨s.regs, s.out, rfl⟩
  · split
    · exact ⟨_, s.out, rfl⟩
    · exact ⟨s.regs, _, rfl⟩

theorem State.foldl_msix_only (l : List Nat) : ∀ s : State,
    ∃ r o, l.foldl (fun s i => s.msix (bitsOf (s.rg (sysCoreIrqrt + 4 * i)) 9 4)) s = { s with regs := r, out := o } := by
  induction l with
  | nil => intro s; exact ⟨s.regs, s.out, rfl⟩
  | cons i l ih =>
    intro s
    obtain ⟨r, o, h⟩ := s.msix_only (bitsOf (s.rg (sysCoreIrqrt + 4 * i)) 9 4)
    obtain ⟨r', o', h'⟩ := ih { s with regs := r, out := o }
    exact ⟨r', o', by rw [List.foldl_cons, h, h']⟩

/-- Lines that have risen send messages, which write pending bits; the lines seen are then those that are up. -/
theorem State.linesRise_only (s : State) : ∃ r o, s.linesRise =
    { s with regs := r, out := o, hostp := { s.hostp with lines := (List.range 39).filter s.line } } := by
  unfold State.linesRise
  dsimp only
  split
  next h => exact ⟨s.regs, s.out, by rw [h]⟩
  next =>
    obtain ⟨r, o, h⟩ := State.foldl_msix_only _ { s with hostp := { s.hostp with lines := (List.range 39).filter s.line } }
    exact ⟨r, o, h⟩

/-- The line of the firmware queue was seen risen, and the queue has been emptied since; the tiles are up. -/
def queueLineSeen : State := { State.reset with held := 0, hostp := { State.reset.hostp with lines := [28] } }

theorem queueLineSeen_fallen : (List.range 39).filter queueLineSeen.line ≠ [28] := by
  intro h
  have hm : 28 ∈ (List.range 39).filter queueLineSeen.line := h ▸ List.mem_singleton_self _
  exact absurd (List.mem_filter.mp hm).2 (by decide)

/-- The place of a guarded word of channel 0's comparators, and its row. -/
theorem locate_clampKey : locate (cmpOff 0 cmpClrel) = some ⟨.cmp, 0, cmpClrel⟩ ∧
    locate (cmpOff 0 cmpClrel + 4) = some ⟨.cmp, 0, cmpClrel + 4⟩ := by decide

theorem rowAt_clampKey :
    rowAt ⟨.cmp, 0, cmpClrel⟩ = some ({ off := cmpClrel, cls := .grd, priv := true, wm := 0xFFFFFFFF }, 0) ∧
    rowAt ⟨.cmp, 0, cmpClrel + 4⟩ = some ({ off := cmpClrel, cls := .grd, priv := true, wm := 0xFFFFFFFF }, 0) := by
  decide

theorem queueLineSeen_mayWrite {o rel : Nat} {row : RegRow × Nat} (hl : locate o = some ⟨.cmp, 0, rel⟩)
    (hr : rowAt ⟨.cmp, 0, rel⟩ = some row) : queueLineSeen.mayWrite ⟨.host, .priv⟩ o := by
  have hh : queueLineSeen.regHeld ⟨.cmp, 0, rel⟩ = false := by
    simp only [State.regHeld]
    rfl
  intro v
  simp only [State.regCause, hl, hr, hh]
  rw [if_neg (by decide), if_neg fun h => absurd h.1 (by decide), if_neg fun h => absurd h.1 (by decide),
    if_neg (by decide)]

/-- A first write of the key waits once the lines have been seen. -/
theorem clampKey_first_lines {s : State} (hg : s.guards = []) (v : Nat) :
    (s.regPut ⟨.host, .priv⟩ (cmpOff 0 cmpClrel) v).hostp.lines = (List.range 39).filter s.line := by
  obtain ⟨r, o, h⟩ := s.linesRise_only
  simp only [State.regPut, locate_clampKey.1, rowAt_clampKey.1, State.lineSee, State.grdPut, true_or, if_true, h,
    State.pairDrop, hg, List.any_nil, Bool.false_eq_true, if_false]

end Sys2Proof.Machine
namespace Sys2Proof.Proofs
open Sys2Proof.Machine

/-- Refutes O25: a first write of the release key of a clamp does not only wait, it also ends what has been seen of the line
of the firmware queue. -/
theorem not_registerWrites : ¬ Obligations.RegisterWrites := by
  rintro ⟨-, h⟩
  have hw := queueLineSeen_mayWrite locate_clampKey.1 rowAt_clampKey.1
  obtain ⟨hf, -⟩ := h queueLineSeen .host (cmpOff 0 cmpClrel) _ _ _ 1 0 locate_clampKey.1 rowAt_clampKey.1 (by decide) (by decide)
    rfl rfl hw (queueLineSeen_mayWrite locate_clampKey.2 rowAt_clampKey.2)
  obtain ⟨hfirst, -⟩ := hf (by decide)
  have hst := Host.Outcome.next.inj hfirst
  rw [State.busWrite_priv _ _ (by decide) (by decide) (leBytes_length _ _), State.regWrite_taken (hw _)] at hst
  have hl := congrArg (fun t => t.hostp.lines) hst
  rw [clampKey_first_lines rfl] at hl
  exact queueLineSeen_fallen hl

end Sys2Proof.Proofs
end

section
/-! PROOFS. Writes into coefficient sets, descriptor tables and calibration objects (R165, R310, R524, R656). -/

namespace Sys2Proof.Machine

/-- A width of an access to memory (R615). -/
def IsWidth (n : Nat) : Prop := n = 1 ∨ n = 2 ∨ n = 4 ∨ n = 8

theorem IsWidth.pos {n : Nat} (h : IsWidth n) : 1 ≤ n := by unfold IsWidth at h; omega

section
variable (s : State) (r : Req) {a : Nat} {bs : List Byte}

/-- A write below the views goes to memory. -/
theorem State.busWrite_mem (h : a < 0x6000000) (bs : List Byte) : s.busWrite r a bs = s.memWrite r a bs := by
  have hin : ¬ inRegs a = true := by
    rw [inRegs, decide_eq_false (by omega : ¬ 0x10000000 ≤ a)]; exact Bool.false_ne_true
  rw [State.busWrite, State.coreAddr_regs s r (by omega), if_neg hin]

theorem State.memCause_onchip {n : Nat} (hw : IsWidth n) (hd : a % n = 0) (h : a < 0x6000000) :
    s.memCause r true a n = if memGuarded a = true ∧ memPriv r = false then 4 else 0 := by
  unfold IsWidth at hw
  rw [State.memCause, if_neg (by omega), if_neg (not_not.mpr hd), if_pos h]
  simp

theorem Acs.told_good {x : Acs} (h : x.ue = false) (r : Req) (wr : Bool) : x.told r wr = x := by
  cases r with
  | core k => exact if_neg (by rw [h]; decide)
  | host => rfl
  | fabric => rfl

/-- A store with no error met and none injected. -/
def State.stored (s : State) (a : Nat) (bs : List Byte) : State := { s with mem := tputs memDef s.mem a bs }

theorem State.store_clean (h : a < ddrBase) (hu : s.memUE = []) (hc : s.memCE = []) (hi : s.injHit 17 1 none = false)
    (bs : List Byte) : s.store a bs = s.stored a bs := by
  rw [State.store_plain _ _ _ (by rw [if_pos h]; exact hi), State.storeRaw, State.stored, hu, hc]
  rfl

theorem State.wordWrite_clean (h : a < ddrBase) (hu : s.memUE = []) (hc : s.memCE = []) (hi : s.injHit 17 1 none = false)
    (bs : List Byte) : s.wordWrite a bs = { st := (s.stored a bs).memTouch a bs.length } := by
  simp only [State.wordWrite, hu, hc, State.store_clean s h hu hc hi, List.contains_nil, Bool.false_eq_true, and_false, if_false]

/-- A write that memory takes: its bytes, and what they end. -/
theorem State.memWrite_taken {t : State} (hc0 : s.memCause r true a bs.length = 0)
    (ht : (if a < 0x4000000 then s.decideAll else s) = t) (hp : t.memProt a bs.length = none) (h : a < 0x6000000)
    (hu : t.memUE = []) (hc : t.memCE = []) (hi : t.injHit 17 1 none = false) :
    (s.memWrite r a bs).st = (t.stored a bs).memTouch a bs.length := by
  have hwake : t.ddrWake a = t := if_neg (by unfold ddrBase; omega)
  simp only [State.memWrite, hc0, ne_eq, not_true_eq_false, if_false, ht, hp, hwake]
  rw [State.wordWrite_clean t (by unfold ddrBase; omega) hu hc hi, Acs.told_good rfl]

theorem State.stored_bytes (a : Nat) (bs : List Byte) : (s.stored a bs).bytes a bs.length = bs := tslice_tputs _ _ _ _

theorem State.stored_byte_out {b : Nat} (h : b < a ∨ a + bs.length ≤ b) : (s.stored a bs).byte b = s.byte b :=
  tget_tputs_out _ _ _ _ _ h

end

/-! What a write ends. -/

theorem State.foldl_segStale (l : List Nat) : ∀ s : State, ∃ c, l.foldl (fun s m => s.segStale m) s = { s with chans := c } ∧
    (∀ n, n ∈ l → (tget (fun _ => ({} : Chan)) c n).rake.segOk = false) ∧
    ∀ n, n ∉ l → tget (fun _ => ({} : Chan)) c n = s.ch n := by
  induction l with
  | nil => intro s; exact ⟨s.chans, rfl, fun _ h => (by cases h), fun _ _ => rfl⟩
  | cons m l ih =>
    intro s
    obtain ⟨c, hc, hin, hout⟩ := ih (s.segStale m)
    refine ⟨c, hc, fun n hn => ?_, fun n hn => ?_⟩
    · by_cases hl : n ∈ l
      · exact hin n hl
      · rw [List.mem_cons] at hn
        obtain rfl := hn.resolve_right hl
        rw [hout n hl, State.segStale, State.ch_updCh_same]
    · rw [List.mem_cons, not_or] at hn
      rw [hout n hn.2, State.segStale, State.ch_updCh_ne _ _ hn.1]

/-- A channel that no entry lists is as it comes up. -/
theorem tget_unlisted {α : Type} (d : Nat → α) {t : Tbl α} {k : Nat} (h : k ∉ t.map (·.1)) : tget d t k = d k := by
  induction t with
  | nil => rfl
  | cons p t ih =>
    rw [List.map_cons, List.mem_cons, not_or] at h
    exact (if_neg (Ne.symm h.1)).trans (ih h.2)

/-- With every Rake stopped no decision is due. -/
theorem State.decideList_stopped {s : State} (h : ∀ m, (s.ch m).rake.st = .stopped) (l : List Nat) : s.decideList l = s := by
  induction l with
  | nil => rfl
  | cons n l ih =>
    have hd : s.decideDue n = s := by simp only [State.decideDue, h n]
    rw [State.decideList, hd, ih]

/-! The three areas. -/

section
variable (s : State) {n k off len : Nat}

theorem setAddr_in (hn : n < 64) (hk : k < 16) (ho : off < 1024) :
    0x5000000 ≤ setAddr n k + off ∧ setAddr n k + off < 0x5100000 ∧
    (setAddr n k + off - 0x5000000) / 0x400 / 16 = n ∧ (setAddr n k + off - 0x5000000) / 0x400 % 16 = k := by
  unfold setAddr; omega

theorem State.memProt_set (hn : n < 64) (hk : k < 16) (ho : off < 1024) : s.memProt (setAddr n k + off) len =
    if s.setProt n k = true then some (s.cflag n chSetSts 4) else none := by
  obtain ⟨h1, h2, h3, h4⟩ := setAddr_in hn hk ho
  simp only [State.memProt]
  rw [if_neg (by omega), if_pos ⟨h1, h2⟩, h3, h4]

theorem State.memTouch_set (hn : n < 64) (hk : k < 16) (ho : off < 1024) :
    s.memTouch (setAddr n k + off) len = s.setStale n k true := by
  obtain ⟨h1, h2, h3, h4⟩ := setAddr_in hn hk ho
  simp only [State.memTouch]
  rw [if_neg (by omega), if_pos ⟨h1, h2⟩, h3, h4]

theorem State.memProt_stopped {a : Nat} (h : a < 0x4000000) (hs : ∀ m, (s.ch m).rake.st = .stopped) : s.memProt a len = none := by
  have none_hit (f : State → Nat → Bool) :
      ((s.chans.map (·.1)).filter fun m => f s m && decide ((s.ch m).rake.st ≠ .stopped)) = [] := by
    rw [List.filter_eq_nil_iff]
    intro m _
    rw [hs m]
    simp
  simp only [State.memProt]
  rw [if_pos h, none_hit fun s m => s.tableHit m a len, none_hit fun s m => s.ringHit m a len, if_pos ⟨rfl, rfl⟩]

theorem State.memTouch_table {a : Nat} (h : a < 0x4000000) (ht : s.tableHit n a len = true) :
    ∃ c, s.memTouch a len = { s with chans := c } ∧ (tget (fun _ => ({} : Chan)) c n).rake.segOk = false := by
  obtain ⟨c, hc, hin, hout⟩ :=
    State.foldl_segStale ((s.chans.map (·.1)).filter fun m => s.tableHit m a len || s.ringHit m a len) s
  refine ⟨c, (if_pos h).trans hc, ?_⟩
  by_cases hm : n ∈ s.chans.map (·.1)
  · exact hin n (List.mem_filter.mpr ⟨hm, by rw [ht]; rfl⟩)
  · rw [hout n fun h' => hm (List.mem_filter.mp h').1, State.ch, tget_unlisted _ hm]

theorem State.memProt_cal {a : Nat} (h : 0x5100000 ≤ a) (hc : s.calProt a = false) : s.memProt a len = none := by
  simp only [State.memProt]
  rw [if_neg (by omega), if_neg (by omega), if_neg (by rw [hc]; decide)]

theorem State.memTouch_cal {a : Nat} (h : 0x5100000 ≤ a) : s.memTouch a len = s := by
  simp only [State.memTouch]
  rw [if_neg (by omega), if_neg (by omega)]

end

theorem memGuarded_low {a : Nat} (h : a < 0x5100000) : memGuarded a = false := by
  rw [memGuarded, decide_eq_false (by omega : ¬ 0x5100000 ≤ a), decide_eq_false (by omega : ¬ 0x5C00000 ≤ a)]
  rfl

theorem memGuarded_cal {a : Nat} (h : 0x5100000 ≤ a) (h' : a < 0x5324000) : memGuarded a = true := by
  rw [memGuarded, decide_eq_true h, decide_eq_true (by omega)]; rfl

end Sys2Proof.Machine
namespace Sys2Proof.Proofs
open Sys2Proof.Machine

/-- Settles O29: a write that is taken stores its bytes, and ends what depends on its area. -/
theorem memoryAreas : Obligations.MemoryAreas := by
  intro s r bs hw hu hc hi stored
  have hpos := IsWidth.pos hw
  refine ⟨fun n k off ho hd => ?_, fun n off => ?_, fun addr h1 h2 hd hp hc' => ?_, fun addr h1 h2 hd hp => ?_⟩
  · have hn := n.isLt
    have hk := k.isLt
    have hoff : off.toNat < 1024 := off.isLt
    have h6 : setAddr n.val k.val + off.toNat < 0x6000000 := by unfold setAddr; omega
    have h51 : setAddr n.val k.val + off.toNat < 0x5100000 := (setAddr_in hn hk hoff).2.1
    have hdiv : (setAddr n.val k.val + off.toNat) % bs.length = 0 := by
      rcases hw with h | h | h | h <;> rw [h] at hd ⊢ <;> unfold setAddr <;> omega
    have hc0 : s.memCause r true (setAddr n.val k.val + off.toNat) bs.length = 0 := by
      rw [State.memCause_onchip s r hw hdiv h6, memGuarded_low h51, if_neg (fun h => by cases h.1)]
    have hp := s.memProt_set hn hk hoff (len := bs.length)
    have h4 : ¬ setAddr n.val k.val + off.toNat < 0x4000000 := by unfold setAddr; omega
    refine ⟨fun hprot => ?_, fun hprot => ?_⟩
    · rw [hprot, if_neg (by decide)] at hp
      refine ⟨_, congrArg Host.Outcome.next ((congrArg Acs.st (s.busWrite_mem r h6 bs)).trans
        ((s.memWrite_taken r hc0 (if_neg h4) hp h6 hu hc hi).trans (State.memTouch_set _ hn hk hoff))), ⟨?_, rfl, fun b hb => ?_⟩,
        ?_, fun m hm => ?_⟩
      · exact State.stored_bytes _ _ _
      · exact State.stored_byte_out _ hb
      · rw [State.setValid_setStale _ _ _ _ hk]; simp
      · rw [State.setStale, State.ch_updCh_ne _ _ hm]; rfl
    · rw [hprot, if_pos rfl] at hp
      refine congrArg Host.Outcome.next ((congrArg Acs.st (s.busWrite_mem r h6 bs)).trans ?_)
      simp only [State.memWrite, hc0, ne_eq, not_true_eq_false, if_false, h4, hp]
      rfl
  · intro a ha hd ht hs
    have ha4 : a < 0x4000000 := by omega
    have h6 : a < 0x6000000 := by omega
    have hc0 : s.memCause r true a bs.length = 0 := by
      rw [State.memCause_onchip s r hw hd h6, memGuarded_low (by omega), if_neg (fun h => by cases h.1)]
    obtain ⟨c, he, hseg⟩ := (s.stored a bs).memTouch_table (n := n.val) ha4 ht
    refine ⟨_, congrArg Host.Outcome.next ((congrArg Acs.st (s.busWrite_mem r h6 bs)).trans
        ((s.memWrite_taken r hc0 ((if_pos ha4).trans (State.decideList_stopped hs _)) (s.memProt_stopped ha4 hs) h6 hu hc hi).trans
        he)), ⟨?_, rfl, fun b hb => ?_⟩, hseg⟩
    · exact State.stored_bytes _ _ _
    · exact State.stored_byte_out _ hb
  · have h6 : addr < 0x6000000 := by omega
    have hc0 : s.memCause r true addr bs.length = 0 := by
      rw [State.memCause_onchip s r hw hd h6, hp, if_neg (fun h => by cases h.2)]
    refine ⟨_, congrArg Host.Outcome.next ((congrArg Acs.st (s.busWrite_mem r h6 bs)).trans
        ((s.memWrite_taken r hc0 (if_neg (by omega)) (s.memProt_cal h1 hc') h6 hu hc hi).trans (State.memTouch_cal _ h1))),
        ⟨?_, rfl, fun b hb => ?_⟩, fun _ => rfl⟩
    · exact State.stored_bytes _ _ _
    · exact State.stored_byte_out _ hb
  · have h6 : addr < 0x6000000 := by omega
    have hc0 : s.memCause r true addr bs.length = 4 := by
      rw [State.memCause_onchip s r hw hd h6, memGuarded_cal h1 (by omega), hp, if_pos ⟨rfl, rfl⟩]
    refine congrArg Host.Outcome.next ((congrArg Acs.st (s.busWrite_mem r h6 bs)).trans ?_)
    simp only [State.memWrite, hc0]
    rfl

end Sys2Proof.Proofs
end

section
/-! PROOFS. The chip resets (R659 to R666, R677). -/

namespace Sys2Proof.Machine

theorem chipKeep_other {cause o : Nat} (h : o ≠ fltOff frSys fltSysFltRstsrc)
    (ht : cause = 0 ∨ o < sysTrimLoads ∨ sysTrimLoads + 20 ≤ o) : chipKeep cause o = false := by
  unfold sysTrimLoads at ht
  simp only [chipKeep, Bool.or_eq_false_iff, Bool.and_eq_false_iff, decide_eq_false_iff_not]
  omega

theorem chipKeep_trimLoad {cause d : Nat} (h : cause ≠ 0) (hd : d < 5) : chipKeep cause (sysTrimLoads + 4 * d) = true := by
  unfold sysTrimLoads
  simp only [chipKeep, Bool.or_eq_true, Bool.and_eq_true, decide_eq_true_eq]
  omega

theorem State.tcmLost_idle {s : State} (h : s.cpu.upd = none) : s.tcmLost = s := by rw [State.tcmLost, h]

theorem State.storeRaw_pending (s : State) (a : Nat) (bs : List Byte) : (s.storeRaw a bs).pending = s.pending := rfl

theorem State.tcmLost_pending (s : State) : s.tcmLost.pending = s.pending := by
  unfold State.tcmLost
  split
  · exact State.storeRaw_pending _ _ _
  · rfl

theorem State.chipReset_pending (s : State) (cause : Nat) : (s.chipReset cause).pending = s.pending := by
  change s.tcmLost.pending = s.pending
  exact s.tcmLost_pending

theorem State.chipReset_mem {s : State} (h : s.cpu.upd = none) (cause : Nat) : (s.chipReset cause).mem = s.mem := by
  change s.tcmLost.mem = s.mem
  rw [State.tcmLost_idle h]

theorem State.chipReset_cause (s : State) {cause : Nat} (h : cause < 4294967296) :
    (s.chipReset cause).rg sysRstCause = cause := by
  rw [State.rg_chipReset, if_pos rfl, Nat.mod_eq_of_lt h]

theorem State.chipReset_other (s : State) {cause o : Nat} (hc : o ≠ sysRstCause) (h : o ≠ fltOff frSys fltSysFltRstsrc)
    (ht : cause = 0 ∨ o < sysTrimLoads ∨ sysTrimLoads + 20 ≤ o) : (s.chipReset cause).rg o = (regReset o).toNat := by
  rw [State.rg_chipReset, if_neg hc, chipKeep_other h ht, if_neg (by decide)]

theorem exec_sysChiprst_of_mayWrite {s : State} {a : Acc} (hw : s.mayWrite a sysChiprst) (hu : s.unpaired a sysChiprst = true) :
    exec (.sysChiprst a) s = .next s.swReset := by
  rw [exec_sysChiprst, State.mayWrite_next hw, State.pairDrop_unpaired hu]

end Sys2Proof.Machine
namespace Sys2Proof.Proofs
open Sys2Proof.Machine

/-- Settles O30: what a chip reset of any cause leaves, and which commands are one. -/
theorem chipReset : Obligations.ChipReset := by
  intro s a fresh
  refine ⟨⟨_, rfl, ?_⟩, fun h => ⟨_, congrArg Host.Outcome.next (if_pos h), ?_, fun d hd => ?_⟩, fun h => congrArg Host.Outcome.next (if_neg h),
    fun hw hu => ⟨_, exec_sysChiprst_of_mayWrite hw hu, ?_, s.swReset_fltRstsrc⟩⟩
  · exact ⟨s.chipReset_cause (by decide), fun o hc h ht => s.chipReset_other hc h ht, rfl, rfl, rfl, rfl,
      fun h => State.chipReset_mem h 0, s.chipReset_pending 0⟩
  · exact ⟨s.chipReset_cause (by decide), fun o hc h ht => s.chipReset_other hc h ht, rfl, rfl, rfl, rfl,
      fun h => State.chipReset_mem h 1, s.chipReset_pending 1⟩
  · rw [State.rg_chipReset, if_neg (by unfold sysTrimLoads sysRstCause; omega), chipKeep_trimLoad (by decide) hd, if_pos rfl]
  · exact ⟨s.swReset_rstCause, fun o hc h ht => State.chipReset_other _ hc h ht, rfl, rfl, rfl, rfl,
      fun h => State.chipReset_mem (s := s.setRg _ 0) h 2, State.chipReset_pending _ 2⟩

end Sys2Proof.Proofs
end

section
/-! SUPPORT. Single bits of a register that are put, and fields beside them. -/

namespace Sys2Proof.Machine

theorem testBit_putBit (w k i : Nat) (b : Bool) : (putBit w k b).testBit i = if i = k then b else w.testBit i := by
  unfold putBit
  rw [bitOf_eq_testBit]
  split
  next h =>
    split
    next hi => rw [hi, h]
    next => rfl
  next h =>
    cases b with
    | true =>
      have h0 : w.testBit k = false := by simpa using h
      have hd : w &&& 2 ^ k = 0 := by rw [Nat.and_two_pow, h0]; simp
      rw [if_pos rfl, add_eq_or_of_and_eq_zero _ _ hd, Nat.testBit_or, Nat.testBit_two_pow]
      by_cases hi : i = k
      · subst hi; simp
      · simp [hi, Ne.symm hi]
    | false =>
      have h1 : w.testBit k = true := by simpa using h
      have hd : w &&& 2 ^ k = 2 ^ k := by rw [Nat.and_two_pow, h1]; simp
      rw [if_neg (by decide), show w - 2 ^ k = w - (w &&& 2 ^ k) by rw [hd], testBit_sub_and, Nat.testBit_two_pow]
      by_cases hi : i = k
      · subst hi; simp
      · simp [hi, Ne.symm hi]

theorem bitOf_putBit (w k i : Nat) (b : Bool) : bitOf (putBit w k b) i = if i = k then b else bitOf w i := by
  rw [bitOf_eq_testBit, bitOf_eq_testBit, testBit_putBit]

theorem bitsOf_putBit_out {w k hi lo : Nat} (b : Bool) (h : k < lo ∨ hi < k) : bitsOf (putBit w k b) hi lo = bitsOf w hi lo := by
  apply Nat.eq_of_testBit_eq
  intro i
  rw [testBit_bitsOf, testBit_bitsOf, testBit_putBit]
  by_cases hi' : i < hi + 1 - lo
  · rw [if_neg (by omega)]
  · simp [hi']

theorem putBit_lt {w k : Nat} (b : Bool) (hw : w < 4294967296) (hk : k < 32) : putBit w k b < 4294967296 := by
  rw [show 4294967296 = 2 ^ 32 from rfl] at hw ⊢
  apply Nat.lt_pow_two_of_testBit
  intro i hi
  rw [testBit_putBit, if_neg (by omega)]
  exact Nat.testBit_lt_two_pow (Nat.lt_of_lt_of_le hw (Nat.pow_le_pow_right (by decide) hi))

theorem setBits_word {w hi lo v : Nat} (hw : w < 4294967296) (h : lo ≤ hi) (hh : hi < 32) :
    setBits w hi lo v % 4294967296 = setBits w hi lo v :=
  Nat.mod_eq_of_lt (setBits_lt (k := 32) hw h hh)

section
variable (s : State) {k : Nat} (hk : k < 32) (o p : Nat) (b : Bool)

include hk in
theorem State.rg_putRg : (s.putRg o k b).rg p = if p = o then putBit (s.rg o) k b else s.rg p := by
  rw [State.putRg, State.rg_setRg, Nat.mod_eq_of_lt (putBit_lt b (s.rg_lt o) hk)]

theorem State.rg_putRg_ne {k : Nat} {o p : Nat} (h : p ≠ o) : (s.putRg o k b).rg p = s.rg p := State.rg_setRg_ne _ _ h

include hk in
theorem State.rgBit_putRg (i : Nat) : (s.putRg o k b).rgBit o i = if i = k then b else s.rgBit o i := by
  rw [State.rgBit, State.rg_putRg s hk, if_pos rfl, bitOf_putBit]
  rfl

@[simp] theorem State.chans_putRg {k : Nat} : (s.putRg o k b).chans = s.chans := rfl
@[simp] theorem State.mem_putRg {k : Nat} : (s.putRg o k b).mem = s.mem := rfl
@[simp] theorem State.boot_putRg {k : Nat} : (s.putRg o k b).boot = s.boot := rfl

end

/-! SYS_RST_STS (R667, R679): STAGE in bits 3 to 0, REL, CLK_WAIT and the rest above. -/

theorem State.rg_setStage (s : State) {v : Nat} : (s.setStage v).rg sysRstSts = setBits (s.rg sysRstSts) 3 0 v := by
  rw [State.setStage, State.rg_setRg_same, setBits_word (s.rg_lt _) (by decide) (by decide)]

theorem State.rg_setStage_ne (s : State) {o v : Nat} (h : o ≠ sysRstSts) : (s.setStage v).rg o = s.rg o :=
  State.rg_setRg_ne _ _ h

theorem State.stageNo_setStage (s : State) {v : Nat} (h : v < 16) : (s.setStage v).stageNo = v := by
  rw [State.stageNo, State.rg_setStage, bitsOf_setBits_same _ _ _ _ (by decide)]
  exact Nat.mod_eq_of_lt h

theorem State.rgBit_setStage (s : State) {v i : Nat} (h : 3 < i) : (s.setStage v).rgBit sysRstSts i = s.rgBit sysRstSts i := by
  rw [State.rgBit, State.rg_setStage, bitOf_setBits _ _ _ _ _ (by decide), if_neg (by omega)]
  rfl

@[simp] theorem State.chans_setStage (s : State) (v : Nat) : (s.setStage v).chans = s.chans := rfl
@[simp] theorem State.mem_setStage (s : State) (v : Nat) : (s.setStage v).mem = s.mem := rfl
@[simp] theorem State.boot_setStage (s : State) (v : Nat) : (s.setStage v).boot = s.boot := rfl

theorem State.stageNo_putRg (s : State) {k : Nat} (hk : k < 32) (h : 3 < k) (b : Bool) :
    (s.putRg sysRstSts k b).stageNo = s.stageNo := by
  rw [State.stageNo, State.rg_putRg s hk, if_pos rfl, bitsOf_putBit_out b (.inr h)]
  rfl

theorem State.stageNo_congr {s t : State} (h : t.rg sysRstSts = s.rg sysRstSts) : t.stageNo = s.stageNo := by
  rw [State.stageNo, h]; rfl

theorem State.rg_uncause (s : State) (f i o : Nat) : (s.uncause f i).rg o = s.rg o := rfl
@[simp] theorem State.chans_uncause (s : State) (f i : Nat) : (s.uncause f i).chans = s.chans := rfl
@[simp] theorem State.mem_uncause (s : State) (f i : Nat) : (s.uncause f i).mem = s.mem := rfl
@[simp] theorem State.boot_uncause (s : State) (f i : Nat) : (s.uncause f i).boot = s.boot := rfl
theorem State.causes_uncause (s : State) (f i : Nat) : (s.uncause f i).causes.contains (f * 32 + i) = false := by
  simp [State.uncause]

end Sys2Proof.Machine
end

section
/-! PROOFS. The reset sequence (R661 to R678). -/

namespace Sys2Proof.Machine

/-- A load attempt of die `d` begins: its count, and its result open. -/
theorem State.rg_trimStart (s : State) {d : Nat} (hd : d < 5) (o : Nat) : (s.trimStart d).rg o =
    if o = sysTrimSts then setBits (s.rg sysTrimSts) (2 * d + 1) (2 * d) 0
    else if o = sysTrimLoads + 4 * d then holdAdd (s.rg (sysTrimLoads + 4 * d)) 1 else s.rg o := by
  have hne : sysTrimSts ≠ sysTrimLoads + 4 * d := by unfold sysTrimSts sysTrimLoads; omega
  have e : (s.trimStart d).rg o =
      ((s.count (sysTrimLoads + 4 * d)).setRg sysTrimSts (setBits ((s.count (sysTrimLoads + 4 * d)).rg sysTrimSts) (2 * d + 1) (2 * d) 0)).rg o := rfl
  rw [e, State.rg_setRg, setBits_word (State.rg_lt _ _) (by omega) (by omega), State.rg_count_ne _ _ hne]
  by_cases ho : o = sysTrimLoads + 4 * d
  · subst ho; rw [if_neg (Ne.symm hne), if_neg (Ne.symm hne), if_pos rfl, State.rg_count_same]
  · rw [State.rg_count_ne _ _ ho, if_neg ho]

theorem State.chans_trimStart (s : State) (d : Nat) : (s.trimStart d).chans = s.chans := rfl
theorem State.mem_trimStart (s : State) (d : Nat) : (s.trimStart d).mem = s.mem := rfl

theorem State.trimResult_trimStart (s : State) {d : Nat} (hd : d < 5) (j : Nat) :
    (s.trimStart d).trimResult j = if j = d then 0 else s.trimResult j := by
  rw [State.trimResult, State.rg_trimStart s hd, if_pos rfl]
  by_cases h : j = d
  · subst h; rw [if_pos rfl, bitsOf_setBits_same _ _ _ _ (by omega), Nat.zero_mod]
  · rw [if_neg h, bitsOf_setBits_out _ _ _ _ _ _ (by omega) (by omega)]; rfl

theorem State.trimResult_setTrimResult (s : State) {d v : Nat} (hd : d < 5) (hv : v < 4) (j : Nat) :
    (s.setTrimResult d v).trimResult j = if j = d then v else s.trimResult j := by
  rw [State.trimResult, State.setTrimResult, State.rg_setRg_same, setBits_word (s.rg_lt _) (by omega) (by omega)]
  by_cases h : j = d
  · subst h
    rw [if_pos rfl, bitsOf_setBits_same _ _ _ _ (by omega), show 2 * j + 1 + 1 - 2 * j = 2 by omega]
    exact Nat.mod_eq_of_lt hv
  · rw [if_neg h, bitsOf_setBits_out _ _ _ _ _ _ (by omega) (by omega)]; rfl

theorem State.trimResult_congr {s t : State} (h : t.rg sysTrimSts = s.rg sysTrimSts) (j : Nat) : t.trimResult j = s.trimResult j := by
  rw [State.trimResult, h]; rfl

/-- Loads of every die begin. -/
def State.trimStarts (s : State) : State := [0, 1, 2, 3, 4].foldl State.trimStart s

theorem State.trimStarts_frame (s : State) : (∀ o, o ≠ sysTrimSts → o < sysTrimLoads ∨ sysTrimLoads + 20 ≤ o → s.trimStarts.rg o = s.rg o) ∧
    (∀ d, d < 5 → s.trimStarts.rg (sysTrimLoads + 4 * d) = holdAdd (s.rg (sysTrimLoads + 4 * d)) 1 ∧ s.trimStarts.trimResult d = 0) ∧
    s.trimStarts.chans = s.chans ∧ s.trimStarts.mem = s.mem := by
  refine ⟨fun o h h' => ?_, fun d hd => ⟨?_, ?_⟩, ?_, ?_⟩
  · have out (u : State) {d : Nat} (hd : d < 5) : (u.trimStart d).rg o = u.rg o := by
      rw [State.rg_trimStart u hd, if_neg h, if_neg (by unfold sysTrimLoads at h' ⊢; omega)]
    simp only [State.trimStarts, List.foldl]
    rw [out _ (by decide), out _ (by decide), out _ (by decide), out _ (by decide), out _ (by decide)]
  · have hne : sysTrimLoads + 4 * d ≠ sysTrimSts := by unfold sysTrimLoads sysTrimSts; omega
    have at_ (u : State) {e : Nat} (he : e < 5) : (u.trimStart e).rg (sysTrimLoads + 4 * d) =
        if d = e then holdAdd (u.rg (sysTrimLoads + 4 * d)) 1 else u.rg (sysTrimLoads + 4 * d) := by
      rw [State.rg_trimStart u he, if_neg hne]
      by_cases h : d = e
      · subst h; rw [if_pos rfl, if_pos rfl]
      · rw [if_neg h, if_neg (by unfold sysTrimLoads; omega)]
    simp only [State.trimStarts, List.foldl]
    rw [at_ _ (by decide), at_ _ (by decide), at_ _ (by decide), at_ _ (by decide), at_ _ (by decide)]
    interval_cases d <;> rfl
  · simp only [State.trimStarts, List.foldl]
    rw [State.trimResult_trimStart _ (by decide), State.trimResult_trimStart _ (by decide),
      State.trimResult_trimStart _ (by decide), State.trimResult_trimStart _ (by decide),
      State.trimResult_trimStart _ (by decide)]
    interval_cases d <;> rfl
  · simp only [State.trimStarts, List.foldl]
    rw [State.chans_trimStart, State.chans_trimStart, State.chans_trimStart, State.chans_trimStart, State.chans_trimStart]
  · simp only [State.trimStarts, List.foldl]
    rw [State.mem_trimStart, State.mem_trimStart, State.mem_trimStart, State.mem_trimStart, State.mem_trimStart]

/-- The mean of the strap's conversions taken. -/
theorem State.strapSet_takes {s : State} (hp : s.boot.phase = 2) (hs : s.stageNo = 1) (sum : Nat) :
    ∃ b, s.strapSet sum = (State.setStage { s.setRg sysStrap (strapWord (min 255 (sum / 64))) with boot := b } 2).trimStarts :=
  ⟨_, if_pos ⟨hp, hs⟩⟩

theorem State.trimSettle_cases (s : State) : s.trimSettle = s ∨ s.trimSettle = s.setStage 3 := by
  unfold State.trimSettle
  exact (ite_eq_or_eq _ _ _).symm

theorem State.trimResult_trimSettle (s : State) (j : Nat) : s.trimSettle.trimResult j = s.trimResult j := by
  obtain h | h := s.trimSettle_cases
  · rw [h]
  · rw [h]; exact State.trimResult_congr (State.rg_setStage_ne _ (by decide)) j

theorem State.rg_trimSettle (s : State) {o : Nat} (h : o ≠ sysRstSts) : s.trimSettle.rg o = s.rg o := by
  obtain h' | h' := s.trimSettle_cases
  · rw [h']
  · rw [h', State.rg_setStage_ne _ h]

theorem State.chans_trimSettle (s : State) : s.trimSettle.chans = s.chans := by
  obtain h | h := s.trimSettle_cases <;> rw [h]
  exact s.chans_setStage 3

/-- The factory calibration stored leaves the registers and channels. -/
theorem State.storeCells_frame (l : List (Nat × Byte)) : ∀ s : State,
    (s.storeCells l).regs = s.regs ∧ (s.storeCells l).chans = s.chans ∧ (s.storeCells l).boot = s.boot := by
  induction l with
  | nil => intro s; exact ⟨rfl, rfl, rfl⟩
  | cons p l ih => intro s; exact ih (s.storeRaw p.1 [p.2])

theorem State.trimTake_frame (s : State) (t : Nat) (img : TrimImage) :
    (∀ o, (s.trimTake t img).rg o = (s.setRg (tileOff t tilePipRsrc) img.rsrc.toNat).rg o) ∧ (s.trimTake t img).chans = s.chans := by
  unfold State.trimTake
  dsimp only
  split
  · exact ⟨fun _ => rfl, rfl⟩
  · obtain ⟨hr, hc, -⟩ := State.storeCells_frame (img.area.filter fun p => factoryArea t p.1)
      (State.objClear ((s.setTile t { s.tile t with rsrc := img.rsrc.toNat }).setRg (tileOff t tilePipRsrc) img.rsrc.toNat) t)
    exact ⟨fun o => State.rg_congr hr o, hc⟩

theorem tileOff_ne_sys {t r o : Nat} (h : o < 0xA0000) : o ≠ tileOff t r := by unfold tileOff; omega

section
variable {s : State} {d : Nat} (hp : s.boot.phase = 2) (hs : s.stageNo = 2) (hr : s.trimResult d = 0) (img : TrimImage)
include hp hs hr

/-- A load that has passed: its result, and of a tile the value it brings (R676, R526). -/
theorem State.trimDone_pass : ∃ u, s.trimDone d true img = State.trimSettle u ∧ u.chans = s.chans ∧
    (∀ o, o ≠ sysRstSts → (∀ t, o ≠ tileOff t tilePipRsrc) → u.rg o = (s.setTrimResult d 1).rg o) ∧
    (1 ≤ d → u.rg (tileOff (d - 1) tilePipRsrc) = img.rsrc.toNat) := by
  have hc : ¬ (s.boot.phase ≠ 2 ∨ s.trimResult d ≠ 0 ∨ ¬ (s.stageNo = 2 ∨ (decide (1 ≤ d) && s.boot.reload.contains (d - 1)) = true)) := by
    rw [hp, hr, hs]; simp
  simp only [State.trimDone]
  rw [if_neg hc, if_pos trivial]
  refine ⟨_, rfl, ?_⟩
  by_cases hd : d = 0
  · rw [if_pos hd]
    exact ⟨rfl, fun _ _ _ => rfl, fun h => absurd h (by omega)⟩
  · rw [if_neg hd]
    obtain ⟨hrg, hch⟩ := (s.setTrimResult d 1).trimTake_frame (d - 1) img
    refine ⟨hch, fun o ho ht => ?_, fun _ => ?_⟩
    · exact (State.rg_setRg_ne _ _ ho).trans ((hrg o).trans (State.rg_setRg_ne _ _ (ht _)))
    · exact (State.rg_setRg_ne _ _ (Ne.symm (tileOff_ne_sys (by decide)))).trans ((hrg _).trans
        ((State.rg_setRg_same _ _ _).trans (Nat.mod_eq_of_lt img.rsrc.isLt)))

theorem State.trimDone_retry (ht : tget (fun _ => 0) s.boot.tries d < 3) : s.trimDone d false img = s.trimStart d := by
  have hc : ¬ (s.boot.phase ≠ 2 ∨ s.trimResult d ≠ 0 ∨ ¬ (s.stageNo = 2 ∨ (decide (1 ≤ d) && s.boot.reload.contains (d - 1)) = true)) := by
    rw [hp, hr, hs]; simp
  simp only [State.trimDone]
  rw [if_neg hc, if_neg (by decide), if_pos ht]

theorem State.trimDone_coreFails (ht : 3 ≤ tget (fun _ => 0) s.boot.tries d) (hd : d = 0) :
    s.trimDone d false img = (s.setTrimResult 0 2).putRg sysRstSts 23 true := by
  have hc : ¬ (s.boot.phase ≠ 2 ∨ s.trimResult d ≠ 0 ∨ ¬ (s.stageNo = 2 ∨ (decide (1 ≤ d) && s.boot.reload.contains (d - 1)) = true)) := by
    rw [hp, hr, hs]; simp
  simp only [State.trimDone]
  rw [if_neg hc, if_neg (by decide), if_neg (Nat.not_lt.mpr ht), if_pos hd]

end

/-- The lock of the root PLL at start-up. -/
theorem State.pllGot_starts {s : State} (hp : s.boot.phase = 2) (hs : s.stageNo = 3) :
    s.pllGot = (((s.pllLocked true).uncause frSys fsPllUnlock).setStage 4).setWait 0 true := by
  have h3 : ((s.pllLocked true).uncause frSys fsPllUnlock).stageNo = 3 := by
    rw [State.stageNo_congr (State.rg_uncause _ _ _ _), State.pllLocked, State.stageNo_putRg _ (by decide) (by decide),
      State.stageNo_congr (State.rg_putRg_ne _ _ (by decide)), hs]
  simp only [State.pllGot]
  rw [if_neg (by rw [hp, hs]; decide), if_pos h3]

end Sys2Proof.Machine
namespace Sys2Proof.Proofs
open Sys2Proof.Machine

/-- Settles O31: each step of the sequence is one branch of its operation, and writes the fields it names. -/
theorem resetSequence : Obligations.ResetSequence := by
  intro s
  refine ⟨fun h => congrArg Host.Outcome.next (if_pos h), fun h => ⟨_, congrArg Host.Outcome.next (if_pos h), ?_, rfl, rfl, rfl⟩,
    fun sum hp hs => ?_, fun d img hp hs hr => ⟨?_, fun ht => ?_, fun ht hd => ?_⟩, fun hp hs => ?_, rfl⟩
  · exact State.stageNo_setStage _ (by decide)
  · obtain ⟨b, h⟩ := State.strapSet_takes hp hs sum
    obtain ⟨hrg, hd, hc, hm⟩ := State.trimStarts_frame (State.setStage { s.setRg sysStrap (strapWord (min 255 (sum / 64))) with boot := b } 2)
    refine ⟨_, congrArg Host.Outcome.next h, ?_, ?_, fun d h => ?_, hc, hm⟩
    · rw [hrg _ (by decide) (by decide), State.rg_setStage_ne _ (by decide)]
      exact State.rg_setRg_same _ _ _
    · rw [State.stageNo_congr (hrg _ (by decide) (by decide)), State.stageNo_setStage _ (by decide)]
    · refine ⟨(hd d h).1.trans ?_, (hd d h).2⟩
      rw [State.rg_setStage_ne _ (by unfold sysTrimLoads sysRstSts; omega)]
      exact congrArg (holdAdd · 1) (State.rg_setRg_ne _ _ (by unfold sysTrimLoads sysStrap; omega))
  · obtain ⟨u, h, hc, hrg, hpip⟩ := State.trimDone_pass hp hs hr img
    have hres (j : Nat) : (s.trimDone d.val true img).trimResult j = if j = d.val then 1 else s.trimResult j := by
      rw [h, State.trimResult_trimSettle, State.trimResult_congr (hrg _ (by decide) fun t => tileOff_ne_sys (by decide)),
        State.trimResult_setTrimResult _ d.isLt (by decide)]
    refine ⟨s.trimDone d.val true img, rfl, ?_, fun j _ hne => ?_, fun h1 => ?_, ?_⟩
    · rw [hres, if_pos rfl]
    · rw [hres, if_neg hne]
    · rw [h, State.rg_trimSettle _ (Ne.symm (tileOff_ne_sys (by decide))), hpip h1]
    · rw [h, State.chans_trimSettle, hc]
  · refine ⟨_, congrArg Host.Outcome.next (State.trimDone_retry hp hs hr img ht), ?_, ?_, ?_, rfl, rfl⟩
    · rw [State.trimResult_trimStart _ d.isLt, if_pos rfl]
    · rw [State.rg_trimStart _ d.isLt, if_neg (by unfold sysTrimLoads sysTrimSts; omega), if_pos rfl]
    · rw [State.stageNo_congr, hs]
      rw [State.rg_trimStart _ d.isLt, if_neg (by decide), if_neg (by unfold sysTrimLoads sysRstSts; omega)]
  · refine ⟨_, congrArg Host.Outcome.next (State.trimDone_coreFails hp hs hr img ht hd), ?_, ?_, ?_, rfl, rfl⟩
    · rw [State.trimResult_congr (State.rg_putRg_ne _ _ (by decide)), State.trimResult_setTrimResult _ (by decide) (by decide), if_pos rfl]
    · rw [State.stageNo_putRg _ (by decide) (by decide), State.setTrimResult, State.stageNo_congr (State.rg_setRg_ne _ _ (by decide)), hs]
    · rw [State.rgBit_putRg _ (by decide), if_pos rfl]
  · refine ⟨_, congrArg Host.Outcome.next (State.pllGot_starts hp hs), ?_, ?_, ?_, rfl, rfl⟩
    · rw [State.setWait, State.stageNo_putRg _ (by decide) (by decide), State.stageNo_setStage _ (by decide)]
    · rw [State.setWait, State.rgBit, State.rg_putRg_ne _ _ (by decide), State.rg_setStage_ne _ (by decide), State.rg_uncause,
        State.pllLocked, State.rg_putRg_ne _ _ (by decide), ← State.rgBit, State.rgBit_putRg _ (by decide), if_pos rfl]
    · rw [State.clkWait, State.setWait, State.rgBit_putRg _ (by decide), if_pos rfl]

end Sys2Proof.Proofs
end

section
/-! PROOFS. An image from the flash onto a word with an uncorrectable error (R682 to R687, R869). -/

namespace Sys2Proof.Machine

/-- The fixed fields of a good image header, in the memory from `bootStage` on: MAGIC, the version, a length of 4 and the entry 256. -/
def headerMem : Tbl Byte :=
  tputs memDef [] bootStage [0x45, 0x4D, 0x4D, 0x4E, 1, 0, 0, 0, 4, 0, 0, 0, 0, 1, 0, 0]

/-- The boot ROM stages an image from the flash where the header's word has an uncorrectable error. -/
def badStage : State := { State.reset with mem := headerMem, memUE := [bootStage], boot := { busy := true } }

/-- A full encode of the word would take the error away. -/
theorem badStage_store : (badStage.store bootStage [0x45]).imageWhy bootStage 0x800000 .pass = 0 := by decide

/-- The staging stores one byte, so that the word keeps its error (R869) and the header cannot be read. -/
theorem badStage_verdict : (badStage.bootVerdict .pass [0x45]).boot.ok = false := by decide

end Sys2Proof.Machine
namespace Sys2Proof.Proofs
open Sys2Proof.Machine

/-- Refutes O33: a flash image that meets a word with an uncorrectable error by a part of it leaves the word and its error
(R869), where `store` encodes the word anew. -/
theorem not_imageBoot : ¬ Obligations.ImageBoot := by
  intro h
  obtain ⟨_, hflash, _⟩ := h badStage
  obtain ⟨t, ht, hok, _⟩ := hflash .pass [0x45] rfl rfl badStage_store
  cases ht
  exact absurd hok (by rw [badStage_verdict]; decide)

end Sys2Proof.Proofs
end

section
/-! PROOFS. The release of the domains, and units that do not qualify (R679 to R682, R727, R864). -/

namespace Sys2Proof.Machine

/-! Causes that begin. -/

theorem State.causeOf {s : State} {f i : Nat} (h : s.mild f = true) (hl : s.later = []) (hi : i < 20)
    (hc : s.causes.contains (f * 32 + i) = false) :
    FaultOf f i { s with causes := (f * 32 + i) :: s.causes } (s.cause f i) := by
  rw [State.cause, if_neg (by rw [hc]; decide)]
  exact State.faultOf h hl hi

/-- A source that begins outside the fabric's rules: it registers, or its cause was present. -/
theorem State.raiseOf {s : State} {f i : Nat} (h : s.mild f = true) (hl : s.later = []) (hi : i < 20) :
    s.raise f i = s ∨ ∃ cs, FaultOf f i { s with causes := cs } (s.raise f i) := by
  have hd (u : State) (hu : u.later = []) : u.settleFaults = u := by rw [State.settleFaults, State.drain, hu]
  rw [State.raise, State.onset0, State.onsets0]
  dsimp only
  by_cases hn : (!(((srcsOf f).getD i ⟨15, false, 0⟩).lvl && s.causes.contains (f * 32 + i))) = true
  · rw [List.filter_cons_of_pos (by exact hn), List.filter_nil, if_neg (by simp)]
    exact .inr ⟨_, State.faultOf (s := { s with causes := _ }) h hl hi⟩
  · rw [List.filter_cons_of_neg (by exact hn), List.filter_nil, if_pos rfl]
    exact .inl (hd s hl)

/-! Base ticks begin. -/

theorem State.mtimeAdd_rg (s : State) (n : Nat) {o : Nat} (h : o ∉ [sysCoreMtime, sysCoreMtime + 4]) :
    (s.mtimeAdd n).rg o = s.rg o := by
  rw [State.mtimeAdd, State.rg_setRg_ne _ _ fun e => h (by simp [e]), State.rg_setRg_ne _ _ fun e => h (by simp [e])]

theorem State.mtimeShow_rg (s : State) {o : Nat} (h : o ∉ [sysCoreMtime, sysCoreMtime + 4]) : s.mtimeShow.rg o = s.rg o := by
  rw [State.mtimeShow]
  split
  · rfl
  · exact State.mtimeAdd_rg _ _ h

theorem State.mtimeShow_only (s : State) : ∃ r c, s.mtimeShow = { s with regs := r, cpu := c } := by
  rw [State.mtimeShow]
  split
  · exact ⟨_, _, rfl⟩
  · exact ⟨_, _, rfl⟩

theorem State.tickFires_only (s : State) : ∃ c f, s.tickFires = { s with contribs := c, fab := f } := by
  simp only [State.tickFires]
  split <;> exact ⟨_, _, rfl⟩

theorem State.step4End_frame (s : State) : (∃ r, s.step4End = { s with regs := r }) ∧
    (∀ o, o ≠ sysRstSts → s.step4End.rg o = s.rg o) ∧
    ∀ i, 3 < i → s.step4End.rgBit sysRstSts i = s.rgBit sysRstSts i := by
  have hst (v : Nat) : (∃ r, s.setStage v = { s with regs := r }) ∧ (∀ o, o ≠ sysRstSts → (s.setStage v).rg o = s.rg o) ∧
      ∀ i, 3 < i → (s.setStage v).rgBit sysRstSts i = s.rgBit sysRstSts i :=
    ⟨⟨_, rfl⟩, fun _ h => State.rg_setStage_ne s h, fun _ h => State.rgBit_setStage s h⟩
  rw [State.step4End]
  split
  · split
    · exact hst 7
    · exact hst 5
  · exact ⟨⟨_, rfl⟩, fun _ _ => rfl, fun _ _ => rfl⟩

/-- What the begin of base ticks leaves. -/
structure TicksBegun (s t : State) : Prop where
  chans : t.chans = s.chans
  mem : t.mem = s.mem
  held : t.held = s.held
  running : t.running = true
  tick : s.running = false → t.tick = 0
  rg : ∀ o, o ∉ [sysRstSts, sysCoreMtime, sysCoreMtime + 4] → t.rg o = s.rg o
  rstSts : ∀ i, 3 < i → t.rgBit sysRstSts i = s.rgBit sysRstSts i

theorem State.beginTicks_begun (s : State) : TicksBegun s s.beginTicks := by
  rw [State.beginTicks]
  by_cases hr : s.running = true
  · rw [if_pos hr]
    exact ⟨rfl, rfl, rfl, hr, fun h => absurd h (by rw [hr]; decide), fun _ _ => rfl, fun _ _ => rfl⟩
  · rw [if_neg hr]
    obtain ⟨r, c, em⟩ := s.mtimeShow_only
    obtain ⟨c', f, et⟩ := State.tickFires_only { s.mtimeShow with running := true, tick := 0 }
    obtain ⟨⟨r', e4⟩, hrg, hbit⟩ := State.step4End_frame (State.tickFires { s.mtimeShow with running := true, tick := 0 })
    have hshow (o : Nat) (h : o ∉ [sysCoreMtime, sysCoreMtime + 4]) :
        (State.tickFires { s.mtimeShow with running := true, tick := 0 }).rg o = s.rg o := by
      rw [et]; exact s.mtimeShow_rg h
    refine ⟨?_, ?_, ?_, ?_, fun _ => ?_, fun o h => ?_, fun i hi => ?_⟩
    · rw [e4, et, em]
    · rw [e4, et, em]
    · rw [e4, et, em]
    · rw [e4, et]
    · rw [e4, et]
    · rw [hrg o fun e => h (by simp [e]), hshow o fun e => h (List.mem_cons_of_mem _ e)]
    · rw [hbit i hi, State.rgBit, hshow _ (by decide)]; rfl

/-- Base ticks begin where every tile is held. -/
def State.beginIf (s : State) : State := if s.allHeld then s.beginTicks else s

theorem State.beginIf_frame (s : State) : s.beginIf.chans = s.chans ∧ s.beginIf.mem = s.mem ∧
    (∀ o, o ∉ [sysRstSts, sysCoreMtime, sysCoreMtime + 4] → s.beginIf.rg o = s.rg o) ∧
    ∀ i, 3 < i → s.beginIf.rgBit sysRstSts i = s.rgBit sysRstSts i := by
  rw [State.beginIf]
  split
  · exact ⟨s.beginTicks_begun.chans, s.beginTicks_begun.mem, s.beginTicks_begun.rg, s.beginTicks_begun.rstSts⟩
  · exact ⟨rfl, rfl, fun _ _ => rfl, fun _ _ => rfl⟩

/-! The bits of SYS_RST_STS that tell of a domain. -/

section
variable (s : State) (d e : Nat) (hd : d < 7) (he : e < 7) (b : Bool)

include hd

theorem State.rel_setRel : (s.setRel d b).rel e = if e = d then b else s.rel e := by
  rw [State.rel, State.setRel, State.rgBit_putRg _ (by omega)]
  by_cases h : e = d
  · rw [if_pos h, if_pos (by omega)]
  · rw [if_neg h, if_neg (by omega)]; rfl

theorem State.clkWait_setWait : (s.setWait d b).clkWait e = if e = d then b else s.clkWait e := by
  rw [State.clkWait, State.setWait, State.rgBit_putRg _ (by omega)]
  by_cases h : e = d
  · rw [if_pos h, if_pos (by omega)]
  · rw [if_neg h, if_neg (by omega)]; rfl

include he

theorem State.rel_setWait : (s.setWait d b).rel e = s.rel e := by
  rw [State.rel, State.setWait, State.rgBit_putRg _ (by omega), if_neg (by omega)]; rfl

theorem State.clkWait_setRel : (s.setRel d b).clkWait e = s.clkWait e := by
  rw [State.clkWait, State.setRel, State.rgBit_putRg _ (by omega), if_neg (by omega)]; rfl

end

theorem State.rg_setRel (s : State) (d : Nat) (b : Bool) {o : Nat} (h : o ≠ sysRstSts) : (s.setRel d b).rg o = s.rg o :=
  State.rg_putRg_ne _ _ h
theorem State.rg_setWait (s : State) (d : Nat) (b : Bool) {o : Nat} (h : o ≠ sysRstSts) : (s.setWait d b).rg o = s.rg o :=
  State.rg_putRg_ne _ _ h
theorem State.rgBit_congr {s t : State} {o : Nat} (h : t.rg o = s.rg o) (i : Nat) : t.rgBit o i = s.rgBit o i := by
  rw [State.rgBit, h]; rfl

/-! The ports. -/

theorem State.portSt_setPortSt (s : State) {p v : Nat} (hp : p < 4) (hv : v < 8) (q : Nat) :
    (s.setPortSt p v).portSt q = if q = p then v else s.portSt q := by
  rw [State.portSt, State.setPortSt, State.fr, State.fr, State.rg_setRg_same, setBits_word (s.rg_lt _) (by omega) (by omega)]
  by_cases h : q = p
  · subst h
    rw [if_pos rfl, bitsOf_setBits_same _ _ _ _ (by omega), show 3 * q + 2 + 1 - 3 * q = 3 by omega]
    exact Nat.mod_eq_of_lt hv
  · rw [if_neg h, bitsOf_setBits_out _ _ _ _ _ _ (by omega) (by omega)]; rfl

theorem State.portSt_congr {s t : State} (h : t.rg (fabOff fabPortSts) = s.rg (fabOff fabPortSts)) (p : Nat) :
    t.portSt p = s.portSt p := by
  rw [State.portSt, State.fr, h]; rfl

/-- A port that the strap enables leaves reset. -/
def State.portRelease (s : State) (p : Nat) : State := if bitOf s.boot.ports p ∧ s.portSt p = 0 then s.setPortSt p 1 else s

theorem State.portRelease_frame (s : State) (p : Nat) : (s.portRelease p).chans = s.chans ∧ (s.portRelease p).mem = s.mem ∧
    (s.portRelease p).boot = s.boot ∧ ∀ o, o ≠ fabOff fabPortSts → (s.portRelease p).rg o = s.rg o := by
  rw [State.portRelease]
  split
  · exact ⟨rfl, rfl, rfl, fun o h => State.rg_setRg_ne _ _ h⟩
  · exact ⟨rfl, rfl, rfl, fun _ _ => rfl⟩

theorem State.portSt_portRelease (s : State) {p : Nat} (hp : p < 4) (q : Nat) (hq : bitOf s.boot.ports q = true) :
    (s.portRelease p).portSt q = if q = p ∧ s.portSt q = 0 then 1 else s.portSt q := by
  rw [State.portRelease]
  by_cases h : bitOf s.boot.ports p = true ∧ s.portSt p = 0
  · rw [if_pos h, State.portSt_setPortSt _ hp (by decide)]
    by_cases e : q = p
    · rw [if_pos e, if_pos ⟨e, e ▸ h.2⟩]
    · rw [if_neg e, if_neg fun x => e x.1]
  · rw [if_neg h, if_neg]
    rintro ⟨rfl, h0⟩
    exact h ⟨hq, h0⟩

theorem State.portsRelease_frame (s : State) : s.portsRelease.chans = s.chans ∧ s.portsRelease.mem = s.mem ∧
    (∀ o, o ≠ fabOff fabPortSts → s.portsRelease.rg o = s.rg o) ∧
    ∀ p, p < 4 → bitOf s.boot.ports p = true → s.portSt p = 0 → s.portsRelease.portSt p = 1 := by
  have e : s.portsRelease = (((s.portRelease 0).portRelease 1).portRelease 2).portRelease 3 := rfl
  obtain ⟨c0, m0, b0, r0⟩ := s.portRelease_frame 0
  obtain ⟨c1, m1, b1, r1⟩ := (s.portRelease 0).portRelease_frame 1
  obtain ⟨c2, m2, b2, r2⟩ := ((s.portRelease 0).portRelease 1).portRelease_frame 2
  obtain ⟨c3, m3, b3, r3⟩ := (((s.portRelease 0).portRelease 1).portRelease 2).portRelease_frame 3
  rw [e]
  refine ⟨c3.trans (c2.trans (c1.trans c0)), m3.trans (m2.trans (m1.trans m0)),
    fun o h => (r3 o h).trans ((r2 o h).trans ((r1 o h).trans (r0 o h))), fun p hp hb h0 => ?_⟩
  rw [State.portSt_portRelease _ (by decide) p (by rw [b2, b1, b0, hb]), State.portSt_portRelease _ (by decide) p (by rw [b1, b0, hb]),
    State.portSt_portRelease _ (by decide) p (by rw [b0, hb]), State.portSt_portRelease _ (by decide) p hb, h0]
  interval_cases p <;> rfl

/-! The cores. -/

theorem coreOff_ne {x y : Nat} (h : x ≠ y) : coreOff x coreSts ≠ coreOff y coreSts := by unfold coreOff; omega

theorem State.coreSt_setCoreSt (s : State) {v : Nat} (x y : Nat) (hv : v < 8) :
    (s.setCoreSt x v).coreSt y = if y = x then v else s.coreSt y := by
  rw [State.coreSt, State.setCoreSt]
  by_cases h : y = x
  · subst h
    rw [if_pos rfl, State.rg_setRg_same, Nat.mod_eq_of_lt (by omega)]
    simpa [bitsOf] using hv
  · rw [if_neg h, State.rg_setRg_ne _ _ (coreOff_ne h)]; rfl

theorem State.coreSt_congr {s t : State} {x : Nat} (h : t.rg (coreOff x coreSts) = s.rg (coreOff x coreSts)) : t.coreSt x = s.coreSt x := by
  rw [State.coreSt, h]; rfl

theorem State.foldl_halt (l : List Nat) : ∀ s : State, (l.foldl (fun s x => s.setCoreSt x 3) s).chans = s.chans ∧
    (l.foldl (fun s x => s.setCoreSt x 3) s).mem = s.mem ∧
    (∀ o, (∀ x ∈ l, o ≠ coreOff x coreSts) → (l.foldl (fun s x => s.setCoreSt x 3) s).rg o = s.rg o) ∧
    ∀ y, (l.foldl (fun s x => s.setCoreSt x 3) s).coreSt y = if y ∈ l then 3 else s.coreSt y := by
  induction l with
  | nil => intro s; exact ⟨rfl, rfl, fun _ _ => rfl, fun _ => by simp⟩
  | cons x r ih =>
    intro s
    obtain ⟨hc, hm, hr, hs⟩ := ih (s.setCoreSt x 3)
    refine ⟨hc, hm, fun o ho => ?_, fun y => ?_⟩
    · exact (hr o fun y hy => ho y (List.mem_cons_of_mem _ hy)).trans (State.rg_setRg_ne _ _ (ho x List.mem_cons_self))
    · refine (hs y).trans ?_
      rw [State.coreSt_setCoreSt _ _ _ (by decide)]
      by_cases h : y = x <;> simp [h]

theorem coreOff_high (x : Nat) : 0x800 ≤ coreOff x coreSts := by unfold coreOff; omega

theorem State.coresRelease_frame (s : State) : s.coresRelease.chans = s.chans ∧ s.coresRelease.mem = s.mem ∧
    s.coresRelease.rg sysRstSts = s.rg sysRstSts ∧ s.coresRelease.coreSt 0 = 1 ∧
    ∀ x, 1 ≤ x → x < 8 → s.coresRelease.coreSt x = 3 := by
  obtain ⟨hc, hm, hr, hs⟩ := State.foldl_halt [1, 2, 3, 4, 5, 6, 7] (s.setCoreSt 0 1)
  simp only [State.coresRelease]
  generalize [1, 2, 3, 4, 5, 6, 7].foldl (fun s x => State.setCoreSt s x 3) (s.setCoreSt 0 1) = u at hc hm hr hs ⊢
  have h0 : u.coreSt 0 = 1 := (hs 0).trans (State.coreSt_setCoreSt s 0 0 (by decide))
  have h7 : ∀ x, 1 ≤ x → x < 8 → u.coreSt x = 3 := fun x h1 h8 => by
    rw [hs x, if_pos]; interval_cases x <;> decide
  have hrst : u.rg sysRstSts = s.rg sysRstSts :=
    (hr _ fun x _ => by have := coreOff_high x; unfold sysRstSts; omega).trans (State.rg_setRg_ne _ _ (by decide))
  have boot (v : Nat) : (u.setRg sysBootSts v).chans = s.chans ∧ (u.setRg sysBootSts v).mem = s.mem ∧
      (u.setRg sysBootSts v).rg sysRstSts = s.rg sysRstSts ∧ (u.setRg sysBootSts v).coreSt 0 = 1 ∧
      ∀ x, 1 ≤ x → x < 8 → (u.setRg sysBootSts v).coreSt x = 3 := by
    have hst (x : Nat) : (u.setRg sysBootSts v).coreSt x = u.coreSt x :=
      State.coreSt_congr (State.rg_setRg_ne _ _ (by have := coreOff_high x; unfold sysBootSts; omega))
    exact ⟨hc, hm, (State.rg_setRg_ne _ _ (by decide)).trans hrst, (hst 0).trans h0, fun x h1 h8 => (hst x).trans (h7 x h1 h8)⟩
  split
  · exact ⟨hc, hm, hrst, h0, h7⟩
  split
  · exact boot 1
  split
  · exact boot 2
  · exact ⟨hc, hm, hrst, h0, h7⟩

/-- CLK_WAIT of the tiles as their release is awaited. -/
def State.tilesWait (s : State) : State := [0, 1, 2, 3].foldl (fun s t => s.setWait (3 + t) (s.tileReady t)) s

theorem State.tilesWait_frame (s : State) : s.tilesWait.chans = s.chans ∧ s.tilesWait.mem = s.mem ∧
    (∀ o, o ≠ sysRstSts → s.tilesWait.rg o = s.rg o) ∧ ∀ d, d < 7 → s.tilesWait.rel d = s.rel d := by
  simp only [State.tilesWait, List.foldl]
  refine ⟨rfl, rfl, fun o h => ?_, fun d h => ?_⟩
  · rw [State.rg_setWait _ _ _ h, State.rg_setWait _ _ _ h, State.rg_setWait _ _ _ h, State.rg_setWait _ _ _ h]
  · rw [State.rel_setWait _ _ _ (by decide) h, State.rel_setWait _ _ _ (by decide) h, State.rel_setWait _ _ _ (by decide) h,
      State.rel_setWait _ _ _ (by decide) h]

/-! A tile. -/

theorem State.unitRead_only (s : State) (a n : Nat) : ∃ r c, s.unitRead a n = { s with regs := r, memCE := c } := by
  have h (u : State) (w : Nat) : ∃ r, u.ueAt w = { u with regs := r } := by
    rw [State.ueAt]; split <;> exact ⟨_, rfl⟩
  simp only [State.unitRead]
  split
  · exact ⟨_, _, rfl⟩
  · obtain ⟨r, e⟩ := h { s with memCE := s.memCE.filter fun w => !(decide (codeword a ≤ w) && decide (w < a + n)) }
      ((s.memUE.filter fun w => decide (codeword a ≤ w) && decide (w < a + n)).foldl max 0)
    exact ⟨_, _, e⟩

/-- A channel takes the comparator and delay taps that its trim record gives. -/
def State.tapsTake (s : State) (n : Nat) : State := ((s.trimLoad n [6]).cmpSettle n).trimReload n

/-- What the taps of channels leave. -/
structure TapsTaken (s t : State) : Prop where
  mem : t.mem = s.mem
  held : t.held = s.held
  running : t.running = s.running
  tick : t.tick = s.tick
  rstSts : t.rg sysRstSts = s.rg sysRstSts

theorem State.tapsTake_taken (s : State) (n : Nat) : TapsTaken s (s.tapsTake n) := by
  have hr : (State.unitRead ((s.trimLoad n [6]).cmpSettle n) (trimAddr n) 256).rg sysRstSts = s.rg sysRstSts :=
    (State.unitRead_rg _ _ _ (by decide)).trans (State.rg_setRg_ne s _ (by simp only [cmpOff]; unfold sysRstSts; omega))
  obtain ⟨r, c, e⟩ := ((s.trimLoad n [6]).cmpSettle n).unitRead_only (trimAddr n) 256
  have ht : s.tapsTake n = (((s.trimLoad n [6]).cmpSettle n).unitRead (trimAddr n) 256).updCh n (fun c => { c with trim := { c.trim with
      dly := (((s.trimLoad n [6]).cmpSettle n).bytes (trimAddr n + 0x40) 3).map fun b => b.toNat % 64
      dlyTo := (((s.trimLoad n [6]).cmpSettle n).bytes (trimAddr n + 0x40) 3).map fun b => b.toNat % 64
      cells := (((s.trimLoad n [6]).cmpSettle n).bytes (trimAddr n) 63).map (·.toNat) } }) := rfl
  rw [ht]
  refine ⟨?_, ?_, ?_, ?_, hr⟩ <;> rw [e] <;> rfl

theorem State.foldl_tapsTake (l : List Nat) : ∀ s : State, TapsTaken s (l.foldl State.tapsTake s) := by
  induction l with
  | nil => intro s; exact ⟨rfl, rfl, rfl, rfl, rfl⟩
  | cons n r ih =>
    intro s
    have h1 := s.tapsTake_taken n
    have h2 := ih (s.tapsTake n)
    exact ⟨h2.mem.trans h1.mem, h2.held.trans h1.held, h2.running.trans h1.running, h2.tick.trans h1.tick, h2.rstSts.trans h1.rstSts⟩

theorem State.tileRelease_frame (s : State) {t : Nat} (ht : t < 4) : (s.tileRelease t).mem = s.mem ∧
    (s.tileRelease t).held = s.held &&& BitVec.ofNat 4 (15 - 2 ^ t) ∧ (s.tileRelease t).running = s.running ∧
    (s.tileRelease t).rel (3 + t) = true := by
  have hrel (u : State) : ((u.setRel (3 + t) true).setWait (3 + t) false).rel (3 + t) = true := by
    rw [State.rel_setWait _ _ _ (by omega) (by omega), State.rel_setRel _ _ _ (by omega), if_pos rfl]
  rw [State.tileRelease]
  dsimp only
  split
  · have h := State.foldl_tapsTake (tileChans t) { State.setWait (State.setRel { s with held := s.held &&& BitVec.ofNat 4 (15 - 2 ^ t) }
      (3 + t) true) (3 + t) false with boot := { s.boot with fresh := s.boot.fresh.filter (· ≠ t) } }
    exact ⟨h.mem, h.held, h.running, (State.rgBit_congr h.rstSts _).trans (hrel _)⟩
  · exact ⟨rfl, rfl, rfl, hrel _⟩

theorem held_release : ∀ (h : BitVec 4) (k j : Fin 4), bitOf (h &&& BitVec.ofNat 4 (15 - 2 ^ k.val)).toNat j.val =
    (bitOf h.toNat j.val && decide (j ≠ k)) := by decide

theorem tiles_named (p : Nat → Bool) (k : TileId) (h : p k.val = true) :
    ([0, 1, 2, 3].filter fun t => bitOf (BitVec.ofNat 4 (2 ^ k.val)).toNat t && p t) = [k.val] := by
  fin_cases k <;> simp_all [bitOf]

/-! A port and a DDR5 channel that do not qualify. -/

theorem State.linkLevel_only (s : State) (p : Nat) : ∃ c, s.linkLevel p = { s with causes := c } := by
  simp only [State.linkLevel]
  split <;> exact ⟨_, rfl⟩

/-- The registers of its own that a reset of port `p` returns to their reset values. -/
def portRegs (p : Nat) : List Nat := [fabDelay, fabAsym, fabRetry, fabCrcerr, fabDrop].map fun r => fabOff (r + 4 * p)

theorem State.rg_portReset (s : State) (p : Nat) {o : Nat} (h : o ≠ fabOff fabPortCtl) : (s.portReset p).rg o =
    if o ∈ portRegs p then (regReset o).toNat else s.rg o := by
  have e : (s.portReset p).rg o = (tget regReset (((s.setPort p {}).setRg (fabOff fabPortCtl)
      (s.fr fabPortCtl &&& (4294967295 - 273 * 2 ^ p))).regs.filter fun q => !(portRegs p).contains q.1) o).toNat := rfl
  rw [e, tget_filter_key regReset _ (fun k => !(portRegs p).contains k)]
  by_cases ho : o ∈ portRegs p
  · rw [if_pos ho, if_neg (by simpa using ho)]
  · rw [if_neg ho, if_pos (by simpa using ho)]
    exact State.rg_setRg_ne _ _ h

theorem State.rg_blockRegReset (s : State) (lo hi : Nat) (keep : List Nat) (o : Nat) : (s.blockRegReset lo hi keep).rg o =
    if lo ≤ o ∧ o < hi ∧ o ∉ keep then (regReset o).toNat else s.rg o := by
  have e : (s.blockRegReset lo hi keep).rg o =
      (tget regReset (s.regs.filter fun p => !(decide (lo ≤ p.1) && decide (p.1 < hi)) || keep.contains p.1) o).toNat := rfl
  rw [e, tget_filter_key regReset _ (fun k => !(decide (lo ≤ k) && decide (k < hi)) || keep.contains k)]
  by_cases h : lo ≤ o ∧ o < hi ∧ o ∉ keep
  · rw [if_pos h, if_neg (by simp [h.1, h.2.1, h.2.2])]
  · rw [if_neg h, if_pos]
    · exact rfl
    · by_cases h1 : lo ≤ o <;> by_cases h2 : o < hi <;> simp_all

theorem State.linkLevel_rg (s : State) (p o : Nat) : (s.linkLevel p).rg o = s.rg o := by
  obtain ⟨c, e⟩ := s.linkLevel_only p
  rw [e]; rfl

/-- What the fence of a port that is not UP leaves. -/
structure PortFenced (p : Nat) (s t : State) : Prop where
  fenced : t.isFenced (unPort p) = true
  portSt : t.portSt p = 4
  rg : ∀ o, o ∉ fabOff fabPortSts :: fabOff fabPortCtl :: portRegs p → t.rg o = s.rg o
  chans : t.chans = s.chans
  mem : t.mem = s.mem
  later : t.later = s.later
  voteErr : ∀ o ∈ t.voteErr, o ∈ s.voteErr

theorem State.fence_port {s : State} {p : Nat} (hp : p < 4) (hb : bitOf s.boot.ports p = true) (hs : s.portSt p ≠ 3)
    (hf : s.isFenced (unPort p) = false) : PortFenced p s (s.fence (unPort p)) := by
  have hsts (u : State) : (u.portReset p).portSt p = u.portSt p := by
    refine State.portSt_congr ((u.rg_portReset p (by decide)).trans (if_neg ?_)) p
    simp only [portRegs, fabOff, fabPortSts, fabDelay, fabAsym, fabRetry, fabCrcerr, fabDrop, List.map, List.mem_cons, List.not_mem_nil, or_false, not_or]
    omega
  have hdown : (s.fenceMark (unPort p)).portDown p 4 = ((s.fenceMark (unPort p)).setPortSt p 4).linkLevel p := by
    simp only [State.portDown]
    exact if_neg hs
  have e : s.fence (unPort p) =
      ((((s.fenceMark (unPort p)).setPortSt p 4).linkLevel p).portReset p).linkLevel p := by
    rw [State.fence, if_neg (by unfold unPort; omega), if_neg (by unfold unPort; omega), State.fenceUnit, if_neg]
    · dsimp only
      rw [if_neg (by unfold unPort; omega), if_pos (by unfold unPort; omega), show unPort p - 32 = p by unfold unPort; omega, hdown]
    · rw [show unPort p - 32 = p by unfold unPort; omega, hf, hb]
      simp
  obtain ⟨c1, e1⟩ := ((s.fenceMark (unPort p)).setPortSt p 4).linkLevel_only p
  obtain ⟨c2, e2⟩ := ((((s.fenceMark (unPort p)).setPortSt p 4).linkLevel p).portReset p).linkLevel_only p
  rw [e]
  refine ⟨?_, ?_, fun o ho => ?_, ?_, ?_, ?_, ?_⟩
  · rw [e2, e1]
    exact List.contains_iff_mem.2 List.mem_cons_self
  · rw [State.portSt_congr (State.linkLevel_rg _ _ _), hsts, State.portSt_congr (State.linkLevel_rg _ _ _),
      State.portSt_setPortSt _ hp (by decide), if_pos rfl]
  · rw [State.linkLevel_rg, State.rg_portReset _ _ fun h => ho (by simp [h]), if_neg fun h => ho (by simp [h]),
      State.linkLevel_rg, State.setPortSt, State.rg_setRg_ne _ _ fun h => ho (by simp [h])]
    rfl
  · rw [e2, e1]; rfl
  · rw [e2, e1]; rfl
  · rw [e2, e1]; rfl
  · rw [e2, e1]
    exact fun o ho => List.mem_of_mem_filter ho

theorem State.mild_of_subset {s t : State} {f : Nat} (h : s.mild f = true) (hv : ∀ o ∈ t.voteErr, o ∈ s.voteErr)
    (hr : t.rg (fltOff f fltReact) = s.rg (fltOff f fltReact)) : t.mild f = true := by
  rw [State.mild, Bool.and_eq_true] at h ⊢
  rw [hr]
  exact ⟨List.all_eq_true.2 fun o ho => List.all_eq_true.1 h.1 o (hv o ho), h.2⟩

theorem portRegs_below {p : Nat} (hp : p < 4) {o : Nat} (h : 0xD0090 ≤ o) : o ∉ fabOff fabPortSts :: fabOff fabPortCtl :: portRegs p := by
  simp only [portRegs, fabOff, fabPortSts, fabPortCtl, fabDelay, fabAsym, fabRetry, fabCrcerr, fabDrop, List.map, List.mem_cons,
    List.not_mem_nil, or_false, not_or]
  omega

/-- What a DDR5 channel holds is lost, and its STATE reads FENCED. -/
theorem State.fence_ddr {s : State} {x : Nat} (hx : x < 2) (hf : s.isFenced (unDdr x) = false) :
    s.fence (unDdr x) = ((s.fenceMark (unDdr x)).ddrReset x).setRg (ddrOff x memcDdrSts) 5 := by
  rw [State.fence, if_neg (by unfold unDdr; omega), if_neg (by unfold unDdr; omega), State.fenceUnit, if_neg]
  · dsimp only
    rw [if_pos (by unfold unDdr; omega), show unDdr x - 48 = x by unfold unDdr; omega]
  · rw [hf]
    simp only [Bool.false_eq_true, false_or, not_and]
    unfold unDdr
    omega

theorem State.byte_ddrReset (s : State) (x b : Nat) : (s.ddrReset x).byte b =
    if ddrBase + 137438953472 * x ≤ b ∧ b < ddrBase + 137438953472 * (x + 1) then 0 else s.byte b := by
  have e : (s.ddrReset x).byte b = tget memDef (s.mem.filter fun p => !(decide (ddrBase + 137438953472 * x ≤ p.1) &&
      decide (p.1 < ddrBase + 137438953472 * x + 137438953472))) b := rfl
  rw [e, tget_filter_key memDef _ (fun a => !(decide (ddrBase + 137438953472 * x ≤ a) &&
      decide (a < ddrBase + 137438953472 * x + 137438953472)))]
  by_cases h : ddrBase + 137438953472 * x ≤ b ∧ b < ddrBase + 137438953472 * (x + 1)
  · rw [if_pos h, if_neg]
    · rfl
    · simp only [Bool.not_eq_true', Bool.and_eq_false_iff, decide_eq_false_iff_not]; omega
  · rw [if_neg h, if_pos]
    · rfl
    · simp only [Bool.not_eq_true', Bool.and_eq_false_iff, decide_eq_false_iff_not]; omega

theorem State.rg_ddrReset (s : State) (x : Nat) {o : Nat} (h : o < ddrOff x 0 ∨ ddrOff x 32 ≤ o) : (s.ddrReset x).rg o = s.rg o := by
  rw [State.ddrReset, State.rg_blockRegReset, if_neg (by omega)]
  rfl

end Sys2Proof.Machine
end

section
namespace Sys2Proof.Machine

/-- A domain's turn, where the device is at its release. -/
theorem State.domainRelease_tiles {s : State} (hp : s.boot.phase = 2) (h4 : 4 ≤ s.stageNo) (k : TileId) (h2 : s.rel 2 = true)
    (hk : s.tileReady k.val = true) :
    s.domainRelease (.tiles (BitVec.ofNat 4 (2 ^ k.val))) = (s.tileRelease k.val).beginTicks := by
  simp only [State.domainRelease]
  rw [if_neg (by omega), if_neg (by rw [h2]; decide), tiles_named _ k hk, if_neg (by simp)]
  rfl

theorem State.domainRelease_cores {s : State} (hp : s.boot.phase = 2) (h4 : 4 ≤ s.stageNo) (h2 : s.rel 2 = false) (h1 : s.rel 1 = true) :
    s.domainRelease .cores = ((s.setRel 2 true).setWait 2 false).coresRelease.tilesWait.beginIf := by
  simp only [State.domainRelease]
  rw [if_neg (by omega), if_neg (by rw [h2, h1]; decide)]
  rfl

theorem State.domainRelease_memory {s : State} (hp : s.boot.phase = 2) (h4 : 4 ≤ s.stageNo) (h1 : s.rel 1 = false) (h0 : s.rel 0 = true) :
    s.domainRelease .memory = ((s.setRel 1 true).setWait 1 false).setWait 2 true := by
  simp only [State.domainRelease]
  rw [if_neg (by omega), if_neg (by rw [h1, h0]; decide)]

theorem State.domainRelease_serdes {s : State} (hp : s.boot.phase = 2) (h4 : 4 ≤ s.stageNo) (h0 : s.rel 0 = false) :
    s.domainRelease .serdes = (((s.setRel 0 true).setWait 0 false).setWait 1 true).portsRelease := by
  simp only [State.domainRelease]
  rw [if_neg (by omega), if_neg (by rw [h0]; decide)]

/-- A tile that has not qualified, as CLK_QUAL finds it. -/
def State.tileFails (s : State) (t : Nat) : State := (s.setWait (3 + t) false).putRg sysRstSts (18 + t) true

theorem frameOff_frMemc : frameOff frMemc = 0xF7000 := rfl

theorem frTile_off (t : TileId) (r : Nat) : fltOff (frTile t.val) r = 0xA0000 + 0x4000 * t.val + 0x3E00 + r := by
  rcases t with ⟨t, ht⟩
  simp only [fltOff, frTile, frameOff]
  rw [if_neg (by omega), if_neg (by omega), if_neg (by omega), if_pos (by omega)]
  omega

theorem reportRegs_above {f : Nat} {o : Nat} (h : o < frameOff f) : o ∉ reportRegs f := by
  simp only [reportRegs, fltOff, List.mem_cons, List.not_mem_nil, or_false, not_or]
  omega

theorem State.qualTimeout_tile {s : State} (t : TileId) (h : s.clkWait (3 + t.val) = true) :
    s.qualTimeout (.tile t) = ((s.tileFails t.val).cause (frTile t.val) ftClkQual).beginIf := by
  simp only [State.qualTimeout]
  rw [if_pos h]
  rfl

theorem State.qualTimeout_tile_fails {s : State} (k : TileId) (hw : s.clkWait (3 + k.val) = true) (hm : s.mild (frTile k.val) = true)
    (hl : s.later = []) (hc : s.causes.contains (frTile k.val * 32 + ftClkQual) = false) :
    ∃ t, s.qualTimeout (.tile k) = t ∧ t.clkWait (3 + k.val) = false ∧ t.rgBit sysRstSts (18 + k.val) = true ∧
        bitOf (t.rg (fltOff (frTile k.val) fltSts)) ftClkQual = true ∧ t.chans = s.chans ∧ t.mem = s.mem := by
  have hk := k.isLt
  have hoff : 0xA0000 ≤ frameOff (frTile k.val) := by have := frTile_off k 0; simp only [fltOff] at this; omega
  have hrg {o : Nat} (h : o ≠ sysRstSts) : (s.tileFails k.val).rg o = s.rg o :=
    (State.rg_putRg_ne _ _ h).trans (State.rg_setWait _ _ _ h)
  have hm' : (s.tileFails k.val).mild (frTile k.val) = true :=
    State.mild_of_subset hm (fun _ h => h) (hrg (by rw [frTile_off]; unfold sysRstSts; omega))
  have f := State.causeOf (i := ftClkQual) hm' hl (by decide) hc
  obtain ⟨bc, bm, brg, bbit⟩ := ((s.tileFails k.val).cause (frTile k.val) ftClkQual).beginIf_frame
  have hsts : ((s.tileFails k.val).cause (frTile k.val) ftClkQual).rg sysRstSts = (s.tileFails k.val).rg sysRstSts :=
    f.rg _ (reportRegs_above (by unfold sysRstSts; omega))
  refine ⟨_, State.qualTimeout_tile k hw, ?_, ?_, ?_, bc.trans f.chans, bm.trans f.mem⟩
  · rw [State.clkWait, bbit _ (by omega), State.rgBit_congr hsts, State.tileFails, State.rgBit_putRg _ (by omega), if_neg (by omega)]
    exact (State.clkWait_setWait s _ _ (by omega) false).trans (if_pos rfl)
  · rw [bbit _ (by omega), State.rgBit_congr hsts, State.tileFails, State.rgBit_putRg _ (by omega), if_pos rfl]
  · rw [brg _ (by rw [frTile_off]; simp only [List.mem_cons, List.not_mem_nil, or_false, not_or]; unfold sysRstSts sysCoreMtime; omega)]
    exact f.set

theorem State.qualTimeout_port_fails {s : State} (p : PortId) (hb : bitOf s.boot.ports p.val = true) (hw : s.clkWait 0 = true)
    (hs : s.portSt p.val ≠ 3) (hf : s.isFenced (unPort p.val) = false) (hm : s.mild frFab = true) (hl : s.later = []) :
    ∃ t, s.qualTimeout (.port p) = t ∧ t.isFenced (unPort p.val) = true ∧ t.portSt p.val = 4 ∧
        bitOf (t.rg (fltOff frFab fltSts)) (ffLink p.val) = true ∧ t.chans = s.chans ∧ t.mem = s.mem := by
  have h := State.fence_port p.isLt hb hs hf
  have f := State.faultOf (i := ffLink p.val)
    (State.mild_of_subset hm h.voteErr (h.rg _ (portRegs_below p.isLt (by decide)))) (h.later.trans hl)
    (by have := p.isLt; unfold ffLink; omega)
  have e : s.qualTimeout (.port p) = (s.fence (unPort p.val)).fault frFab (ffLink p.val) := by
    simp only [State.qualTimeout]
    exact if_pos ⟨hb, hw⟩
  refine ⟨_, e, ?_, ?_, f.set, f.chans.trans h.chans, f.mem.trans h.mem⟩
  · rw [State.isFenced, f.fenced]; exact h.fenced
  · rw [State.portSt_congr (f.rg _ (by decide)), h.portSt]

theorem State.qualTimeout_ddr_fails {s : State} (x : DdrId) (hw : s.clkWait 1 = true) (hf : s.isFenced (unDdr x.val) = false)
    (hm : s.mild frMemc = true) (hl : s.later = []) :
    ∃ t, s.qualTimeout (.ddr x) = t ∧ t.isFenced (unDdr x.val) = true ∧ bitsOf (t.rg (ddrOff x.val memcDdrSts)) 2 0 = 5 ∧
      t.chans = s.chans ∧
      ∀ b, t.byte b = if ddrBase + 137438953472 * x.val ≤ b ∧ b < ddrBase + 137438953472 * (x.val + 1) then 0 else s.byte b := by
  have hx := x.isLt
  have e : s.qualTimeout (.ddr x) = (((s.fenceMark (unDdr x.val)).ddrReset x.val).setRg (ddrOff x.val memcDdrSts) 5).raise frMemc
      (fmDdrLink x.val) := by
    simp only [State.qualTimeout]
    rw [if_pos hw, State.fence_ddr hx hf]
  have hm' : (((s.fenceMark (unDdr x.val)).ddrReset x.val).setRg (ddrOff x.val memcDdrSts) 5).mild frMemc = true := by
    refine State.mild_of_subset hm (fun _ h => h) ?_
    rw [State.rg_setRg_ne _ _ (by rw [fltOff, frameOff_frMemc]; simp only [ddrOff, memcDdrSts, fltReact]; omega), State.rg_ddrReset _ _ (.inr ?_)]
    · rfl
    · rw [fltOff, frameOff_frMemc]; simp only [ddrOff, fltReact]; omega
  have hsts : bitsOf ((((s.fenceMark (unDdr x.val)).ddrReset x.val).setRg (ddrOff x.val memcDdrSts) 5).rg
      (ddrOff x.val memcDdrSts)) 2 0 = 5 := by
    rw [State.rg_setRg_same]; rfl
  have hby (b : Nat) : (((s.fenceMark (unDdr x.val)).ddrReset x.val).setRg (ddrOff x.val memcDdrSts) 5).byte b =
      if ddrBase + 137438953472 * x.val ≤ b ∧ b < ddrBase + 137438953472 * (x.val + 1) then 0 else s.byte b :=
    State.byte_ddrReset (s.fenceMark (unDdr x.val)) x.val b
  have hfen : (((s.fenceMark (unDdr x.val)).ddrReset x.val).setRg (ddrOff x.val memcDdrSts) 5).isFenced (unDdr x.val) = true :=
    List.contains_iff_mem.2 List.mem_cons_self
  refine ⟨_, e, ?_⟩
  obtain h | ⟨cs, f⟩ := State.raiseOf (i := fmDdrLink x.val) hm' hl (by unfold fmDdrLink; omega)
  · rw [h]
    exact ⟨hfen, hsts, rfl, hby⟩
  · refine ⟨?_, ?_, f.chans, fun b => (State.byte_congr f.mem b).trans (hby b)⟩
    · rw [State.isFenced, f.fenced]; exact hfen
    · rw [f.rg _ (reportRegs_above (by rw [frameOff_frMemc]; simp only [ddrOff, memcDdrSts]; omega))]
      exact hsts

end Sys2Proof.Machine
namespace Sys2Proof.Proofs
open Sys2Proof.Machine

/-- Settles O32: each turn of the release writes its bits of SYS_RST_STS and what it releases, each timeout its unit's. -/
theorem domainRelease : Obligations.DomainRelease := by
  intro s hp h4
  refine ⟨fun h0 => ?_, fun h1 h0 => ?_, fun h2 h1 => ?_, fun k h2 hk => ?_, fun k hw hm hl hc => ?_, fun p hb hw hs hf hm hl => ?_,
    fun hb hw hm hl hc => ?_, fun x hw hf hm hl => ?_⟩
  · obtain ⟨hc, hm, hrg, hst⟩ := (((s.setRel 0 true).setWait 0 false).setWait 1 true).portsRelease_frame
    refine ⟨_, congrArg Host.Outcome.next (State.domainRelease_serdes hp h4 h0), ?_, ?_, ?_, fun p hq hb hz => hst p hq hb ?_, hc, hm⟩
    · rw [State.rel, State.rgBit_congr (hrg _ (by decide)), ← State.rel, State.rel_setWait _ _ _ (by decide) (by decide),
        State.rel_setWait _ _ _ (by decide) (by decide), State.rel_setRel _ _ _ (by decide), if_pos rfl]
    · rw [State.clkWait, State.rgBit_congr (hrg _ (by decide)), ← State.clkWait, State.clkWait_setWait _ _ _ (by decide),
        if_neg (by decide), State.clkWait_setWait _ _ _ (by decide), if_pos rfl]
    · rw [State.clkWait, State.rgBit_congr (hrg _ (by decide)), ← State.clkWait, State.clkWait_setWait _ _ _ (by decide), if_pos rfl]
    · rw [State.portSt_congr (State.rg_setWait _ _ _ (by decide)), State.portSt_congr (State.rg_setWait _ _ _ (by decide)),
        State.portSt_congr (State.rg_setRel _ _ _ (by decide)), hz]
  · refine ⟨_, congrArg Host.Outcome.next (State.domainRelease_memory hp h4 h1 h0), ?_, ?_, ?_, rfl, rfl⟩
    · rw [State.rel_setWait _ _ _ (by decide) (by decide), State.rel_setWait _ _ _ (by decide) (by decide),
        State.rel_setRel _ _ _ (by decide), if_pos rfl]
    · rw [State.clkWait_setWait _ _ _ (by decide), if_neg (by decide), State.clkWait_setWait _ _ _ (by decide), if_pos rfl]
    · rw [State.clkWait_setWait _ _ _ (by decide), if_pos rfl]
  · obtain ⟨cc, cm, crg, c0, c7⟩ := ((s.setRel 2 true).setWait 2 false).coresRelease_frame
    obtain ⟨wc, wm, wrg, wrel⟩ := ((s.setRel 2 true).setWait 2 false).coresRelease.tilesWait_frame
    obtain ⟨bc, bm, brg, bbit⟩ := ((s.setRel 2 true).setWait 2 false).coresRelease.tilesWait.beginIf_frame
    have hst {x : Nat} (hx : x < 8) : ((s.setRel 2 true).setWait 2 false).coresRelease.tilesWait.beginIf.coreSt x =
        ((s.setRel 2 true).setWait 2 false).coresRelease.coreSt x := by
      have ho : coreOff x coreSts ∉ [sysRstSts, sysCoreMtime, sysCoreMtime + 4] := by
        simp only [coreOff, coreSts, sysRstSts, sysCoreMtime, List.mem_cons, List.not_mem_nil, or_false, not_or]; omega
      exact (State.coreSt_congr (brg _ ho)).trans (State.coreSt_congr (wrg _ fun h => ho (h ▸ List.mem_cons_self)))
    refine ⟨_, congrArg Host.Outcome.next (State.domainRelease_cores hp h4 h2 h1), ?_, (hst (by decide)).trans c0,
      fun x hx h8 => (hst h8).trans (c7 x hx h8), (bc.trans wc).trans cc, (bm.trans wm).trans cm⟩
    rw [State.rel, bbit _ (by decide), ← State.rel, wrel _ (by decide), State.rel, State.rgBit_congr crg, ← State.rel,
      State.rel_setWait _ _ _ (by decide) (by decide), State.rel_setRel _ _ _ (by decide), if_pos rfl]
  · obtain ⟨hm, hh, hr, hrel⟩ := s.tileRelease_frame k.isLt
    have b := (s.tileRelease k.val).beginTicks_begun
    refine ⟨_, congrArg Host.Outcome.next (State.domainRelease_tiles hp h4 k h2 hk), ?_, fun j hj hne => ?_, ?_, b.running,
      fun h => b.tick (hr.trans h), b.mem.trans hm⟩
    · rw [b.held, hh, held_release _ k k]; simp
    · rw [b.held, hh]
      exact (held_release _ k ⟨j, hj⟩).trans (by rw [decide_eq_true (p := (⟨j, hj⟩ : TileId) ≠ k) fun h => hne (congrArg Fin.val h), Bool.and_true])
    · rw [State.rel, b.rstSts _ (by omega)]
      exact hrel
  · obtain ⟨t, e, h⟩ := State.qualTimeout_tile_fails k hw hm hl hc
    exact ⟨t, congrArg Host.Outcome.next e, h⟩
  · obtain ⟨t, e, h⟩ := State.qualTimeout_port_fails p hb hw hs hf hm hl
    exact ⟨t, congrArg Host.Outcome.next e, h⟩
  · have f := State.causeOf (s := { s with boot := { s.boot with phyHeld := true } }) (i := fhLinkDown) hm hl (by decide) hc
    exact ⟨_, congrArg Host.Outcome.next (if_pos ⟨hb, hw⟩), by rw [f.boot], f.set, f.rg, f.chans, f.mem⟩
  · obtain ⟨t, e, h⟩ := State.qualTimeout_ddr_fails x hw hf hm hl
    exact ⟨t, congrArg Host.Outcome.next e, h⟩

end Sys2Proof.Proofs
end

section
/-! PROOFS. Block resets (R689 to R692). -/

namespace Sys2Proof.Machine

/-! A write below the blocks' registers leaves what tells an idle unit. -/

section
variable {s t : State} (hc : t.chans = s.chans) (hf : t.fenced = s.fenced) (hr : ∀ o, 0x800 ≤ o → t.rg o = s.rg o)
include hc hf hr

theorem State.movable_congr (n : Nat) : t.movable n = s.movable n := by
  have hcr (n r : Nat) : t.cr n r = s.cr n r := hr _ (by unfold chOff; omega)
  have hch (n : Nat) : t.ch n = s.ch n := State.ch_congr hc n
  have hsz (x : Nat) : t.ddrSize x = s.ddrSize x := by rw [State.ddrSize, hr _ (by omega)]; rfl
  have hrd (x : Nat) : t.ddrReady x = s.ddrReady x := by rw [State.ddrReady, hr _ (by omega), hf]; rfl
  have hok (o k : Nat) : t.ddrOk o k = s.ddrOk o k := by rw [State.ddrOk, State.ddrIn, hsz, hsz, hrd, hrd]; rfl
  unfold State.movable State.strLevel State.strSize State.rlen State.dbase
  dsimp only
  rw [hcr, hcr, hcr, hcr, hcr, hcr, hcr, hch, hok]

theorem State.chIdle_congr (ht : t.tiles = s.tiles) (n : Nat) : t.chIdle n = s.chIdle n := by
  have hon : t.calOn n = s.calOn n := by rw [State.calOn, State.tile, ht]; rfl
  rw [State.chIdle, State.ch_congr hc, State.movable_congr hc hf hr, hon]
  rfl

theorem State.unitIdle_congr (ht : t.tiles = s.tiles) (hp : t.pscs = s.pscs) (hh : t.held = s.held) (hb : t.fab = s.fab) (kind i : Nat) :
    t.unitIdle kind i = s.unitIdle kind i := by
  have har (n k : Nat) : ddrArea t.rg n k = ddrArea s.rg n k := by
    have hcr (r : Nat) : t.rg (chOff n r) = s.rg (chOff n r) := hr _ (by unfold chOff; omega)
    match k with
    | 0 => simp only [ddrArea, baseOf, hcr]
    | 1 => simp only [ddrArea, baseOf, hcr]
    | _ + 2 => simp only [ddrArea, baseOf, hcr]
  have hcore : t.coreSt i = s.coreSt i := State.coreSt_congr (hr _ (by unfold coreOff; omega))
  have hport : t.portSt i = s.portSt i := State.portSt_congr (hr _ (by decide)) i
  have hidle : t.chIdle = s.chIdle := funext fun n => State.chIdle_congr hc hf hr ht n
  have hpsc : t.pscsIdle i = s.pscsIdle i := by unfold State.pscsIdle State.psc; rw [hp]
  have htile : t.tile i = s.tile i := by rw [State.tile, ht]; rfl
  have hpt : t.port i = s.port i := by rw [State.port, hb]; rfl
  unfold State.unitIdle
  rw [hh, hidle, hpsc, htile, hcore, hport, hpt]
  simp only [har]

end

/-! What the reset of a tile leaves of the system block and of memory. -/

/-- Memory and the registers below the blocks' are as they were. -/
structure SysKept (s t : State) : Prop where
  mem : t.mem = s.mem
  rg : ∀ o, o < 0x800 → t.rg o = s.rg o

theorem SysKept.refl (s : State) : SysKept s s := ⟨rfl, fun _ _ => rfl⟩
theorem SysKept.trans {s t u : State} (h : SysKept s t) (h' : SysKept t u) : SysKept s u :=
  ⟨h'.mem.trans h.mem, fun o ho => (h'.rg o ho).trans (h.rg o ho)⟩

theorem SysKept.setRg (s : State) {o : Nat} (v : Nat) (h : 0x800 ≤ o) : SysKept s (s.setRg o v) :=
  ⟨rfl, fun _ ho => State.rg_setRg_ne _ _ (by omega)⟩
theorem SysKept.flag (s : State) {o : Nat} (v : Nat) (h : 0x800 ≤ o) : SysKept s (s.flag o v) :=
  ⟨s.flag_mem _ _, fun _ ho => State.flag_rg_ne _ _ (by omega)⟩
theorem SysKept.count (s : State) {o : Nat} (k : Nat) (h : 0x800 ≤ o) : SysKept s (s.count o k) :=
  ⟨rfl, fun _ ho => State.rg_count_ne _ _ (by omega)⟩
theorem SysKept.updCh (s : State) (n : Nat) (f : Chan → Chan) : SysKept s (s.updCh n f) := ⟨rfl, fun _ _ => rfl⟩

theorem SysKept.foldl {α : Type} {f : State → α → State} (hf : ∀ s x, SysKept s (f s x)) (l : List α) : ∀ s, SysKept s (l.foldl f s) := by
  induction l with
  | nil => exact SysKept.refl
  | cons x r ih => exact fun s => (hf s x).trans (ih _)

theorem chOff_high (n r : Nat) : 0x100000 ≤ chOff n r := by unfold chOff; omega

theorem SysKept.chanReset (s : State) (n : Nat) : SysKept s (s.chanReset n) := by
  by_cases h : (s.ch n).state = .fenced ∨ s.chIdle n = true
  · refine ⟨(State.chanReset_rest h).2.2, fun o ho => State.rg_chanReset_of_not_mem h fun hm => ?_⟩
    obtain ⟨r, -, e⟩ := List.mem_map.1 hm
    have := chOff_high n r
    omega
  · rw [State.chanReset, if_neg h]
    exact SysKept.flag _ _ (by have := chOff_high n chFlags; omega)

theorem State.pscSee_only (k c : Nat) (l : List Nat) : ∀ s : State, ∃ p, s.pscSee k c l = { s with pscs := p } := by
  induction l with
  | nil => exact fun s => ⟨_, rfl⟩
  | cons m r ih => exact fun s => ih _

theorem State.pwmTo_kept (s : State) (n k : Nat) (up : Bool) (c : Nat) : SysKept s (s.pwmTo n k up c) := by
  rw [State.pwmTo]
  split
  · exact SysKept.updCh s _ _
  · rw [State.pwmEdge]
    obtain ⟨p, e⟩ := State.pscSee_only (4 * (n % 16) + (2 * k + b2n (!up))) c ((List.range 4).map (4 * (n / 16) + ·))
      (State.fireChAt (s.updCh n fun x => { x with rail := x.rail.setOut k up none }) (18 + (2 * k + b2n (!up))) n c)
    obtain ⟨q, e'⟩ := State.fireChAt_only (s.updCh n fun x => { x with rail := x.rail.setOut k up none }) (18 + (2 * k + b2n (!up))) n c
    rw [e, e']
    exact ⟨rfl, fun _ _ => rfl⟩

theorem SysKept.pinsReset (s : State) (n : Nat) : SysKept s (s.pinsReset n) :=
  ((s.pwmTo_kept n 0 false _).trans (State.pwmTo_kept _ n 1 false _)).trans (SysKept.updCh _ _ _)

theorem State.tget_resetRegs (keep : Nat → Nat) (o : Nat) (l : List (Nat × Word)) (h : ∀ p ∈ l, p.1 ≠ o) :
    ∀ t, tget regReset (resetRegs keep l t) o = tget regReset t o := by
  induction l with
  | nil => exact fun _ => rfl
  | cons p r ih =>
    intro t
    rw [resetRegs, ih fun q hq => h q (List.mem_cons_of_mem _ hq)]
    exact tget_tput_ne _ _ _ (h p List.mem_cons_self).symm

theorem SysKept.tileRegReset (s : State) (t : Nat) : SysKept s (s.tileRegReset t) := by
  refine ⟨rfl, fun o ho => congrArg BitVec.toNat (State.tget_resetRegs tileKeep o _ (fun p hp => ?_) _)⟩
  have h := of_decide_eq_true ((Bool.and_eq_true _ _).mp (List.mem_filter.1 hp).2).1
  unfold tileOff at h
  omega

theorem SysKept.calFree (s : State) (t c : Nat) : SysKept s (s.calFree t c) := by
  simp only [State.calFree]
  refine ⟨?_, fun o _ => ?_⟩ <;> (repeat' split) <;> rfl

theorem SysKept.calAbandon (s : State) (t : Nat) : SysKept s (s.calAbandon t none) := by
  rw [State.calAbandon]
  split
  · exact SysKept.refl s
  · have h1 : SysKept s (s.calWhy t 8) := SysKept.setRg _ _ (by unfold calOff; omega)
    have h2 : SysKept (s.calWhy t 8) (((s.calWhy t 8).flag (calOff t calFlags) 5).count (caldOff calRejects)) :=
      (SysKept.flag _ _ (by unfold calOff; omega)).trans (SysKept.count _ _ (by unfold caldOff; omega))
    exact ⟨((h1.trans h2).trans (SysKept.calFree _ t _)).mem, ((h1.trans h2).trans (SysKept.calFree _ t _)).rg⟩

theorem State.pscReset_only (l : List Nat) : ∀ s : State, ∃ p, s.pscReset l = { s with pscs := p } := by
  induction l with
  | nil => exact fun s => ⟨_, rfl⟩
  | cons m r ih => exact fun s => ih _

theorem SysKept.trimReload (s : State) (n : Nat) : SysKept s (s.trimReload n) := by
  refine ⟨s.unitRead_mem _ _, fun o ho => s.unitRead_rg _ _ fun h => ?_⟩
  simp only [ueRegs, ddrOff, memcSramAddr, memcDdrAddr, List.mem_cons, List.not_mem_nil, or_false] at h
  omega

theorem SysKept.trimReloads (l : List Nat) : ∀ s : State, SysKept s (s.trimReloads l) := by
  induction l with
  | nil => exact SysKept.refl
  | cons n r ih => exact fun s => (SysKept.trimReload s n).trans (ih _)

theorem State.outEn_trimReloads (m : Nat) (l : List Nat) : ∀ s : State, ((s.trimReloads l).ch m).outEn = (s.ch m).outEn := by
  induction l with
  | nil => exact fun _ => rfl
  | cons n r ih =>
    intro s
    refine (ih _).trans ?_
    rw [State.trimReload]
    dsimp only
    rw [State.ch_updCh]
    split
    · next h => rw [h, State.ch_congr (s.unitRead_chans _ _)]
    · rw [State.ch_congr (s.unitRead_chans _ _)]

theorem State.foldl_updCh_outEn {f : Chan → Chan} (hf : ∀ c, (f c).outEn = false) (m : Nat) (l : List Nat) : ∀ s : State,
    ((s.ch m).outEn = false ∨ m ∈ l) → ((l.foldl (fun s n => s.updCh n f) s).ch m).outEn = false := by
  induction l with
  | nil => exact fun s h => h.resolve_right List.not_mem_nil
  | cons n r ih =>
    intro s h
    refine ih _ ?_
    by_cases e : m = n
    · exact .inl (by rw [e, State.ch_updCh_same]; exact hf _)
    · exact h.imp (fun h => by rw [State.ch_updCh_ne _ _ e]; exact h) fun h => (List.mem_cons.1 h).resolve_left e

/-- The tile's registers, converters and channels at their reset, before the trims are taken anew. -/
def State.tileCleared (s : State) (t : Nat) : State :=
  let s := ((s.calAbandon t none).tileRegReset t)
  let s := s.setRg (tileOff t tilePipRsrc) (s.tile t).rsrc
  let s := s.pscReset ((List.range 4).map (4 * t + ·))
  s.setTile t { s.tile t with pipHeld := none }

/-- A channel as a tile reset leaves it. -/
def Chan.cleared (c : Chan) : Chan := { c with comp := {}, outEn := false, rngP := 15, rngS := 15 }

/-- The channels of the tile as a tile reset leaves them. -/
def State.chansCleared (s : State) (t : Nat) : State := (tileChans t).foldl (fun s n => s.updCh n Chan.cleared) s

/-- No edge of the tile's lines waits. -/
def State.linesCleared (s : State) (t : Nat) : State :=
  { s with lines := tput (fun _ => []) s.lines t [], lineOn := s.lineOn.filter (· ≠ t) }

theorem State.tileReset_eq (s : State) (t : Nat) :
    s.tileReset t = (((s.tileCleared t).chansCleared t).linesCleared t).trimReloads (tileChans t) := rfl

theorem SysKept.tileCleared (s : State) (t : Nat) : SysKept s (s.tileCleared t) := by
  have h1 : SysKept s ((s.calAbandon t none).tileRegReset t) := (SysKept.calAbandon s t).trans (SysKept.tileRegReset _ t)
  unfold State.tileCleared
  generalize (s.calAbandon t none).tileRegReset t = u at h1 ⊢
  obtain ⟨p, e⟩ := State.pscReset_only ((List.range 4).map (4 * t + ·)) (u.setRg (tileOff t tilePipRsrc) (u.tile t).rsrc)
  have h := h1.trans (SysKept.setRg _ (u.tile t).rsrc (show 0x800 ≤ tileOff t tilePipRsrc by unfold tileOff; omega))
  dsimp only
  rw [e]
  exact ⟨h.mem, h.rg⟩

theorem SysKept.chansCleared (s : State) (t : Nat) : SysKept s (s.chansCleared t) :=
  SysKept.foldl (fun s n => SysKept.updCh s n _) _ _

theorem SysKept.linesCleared (s : State) (t : Nat) : SysKept s (s.linesCleared t) := ⟨rfl, fun _ _ => rfl⟩

theorem SysKept.tileReset (s : State) (t : Nat) : SysKept s (s.tileReset t) := by
  rw [State.tileReset_eq]
  exact (((SysKept.tileCleared s t).trans (SysKept.chansCleared _ t)).trans (SysKept.linesCleared _ t)).trans (SysKept.trimReloads _ _)

theorem State.outEn_tileReset (s : State) {t n : Nat} (h : n ∈ tileChans t) : ((s.tileReset t).ch n).outEn = false := by
  rw [State.tileReset_eq, State.outEn_trimReloads]
  generalize s.tileCleared t = u
  have hu : ((u.chansCleared t).ch n).outEn = false := State.foldl_updCh_outEn (f := Chan.cleared) (fun _ => rfl) n _ u (.inr h)
  generalize u.chansCleared t = w at hu ⊢
  exact hu

/-- The tile is held while its trim load is rerun. -/
def State.tileHold (s : State) (t : Nat) : State :=
  let s := s.uncause (frTile t) ftTrimCrc
  let s := { s with held := s.held ||| BitVec.ofNat 4 (2 ^ t) }
  let s := ((s.setRel (3 + t) false).setWait (3 + t) false).putRg sysRstSts (18 + t) false
  { s with boot := { s.boot with tries := tput (fun _ => 0) s.boot.tries (1 + t) 0
                                 reload := t :: s.boot.reload.filter (· ≠ t) } }

theorem State.tileBlockReset_eq (s : State) (t : Nat) : s.tileBlockReset t =
    ((((tileChans t).foldl (fun s n => (s.chanReset n).pinsReset n) s).tileReset t).tileHold t).trimStart (1 + t) := rfl

theorem held_hold : ∀ (h : BitVec 4) (k : Fin 4), bitOf (h ||| BitVec.ofNat 4 (2 ^ k.val)).toNat k.val = true := by decide

theorem State.rg_tileHold (s : State) (t : Nat) {o : Nat} (h : o ≠ sysRstSts) : (s.tileHold t).rg o = s.rg o :=
  (State.rg_putRg_ne _ _ h).trans ((State.rg_setWait _ _ _ h).trans (State.rg_setRel _ _ _ h))

theorem State.tileHold_rest (s : State) (t : Nat) : (s.tileHold t).mem = s.mem ∧ (s.tileHold t).chans = s.chans ∧
    (s.tileHold t).held = s.held ||| BitVec.ofNat 4 (2 ^ t) := ⟨rfl, rfl, rfl⟩

theorem State.held_trimStart (s : State) (d : Nat) : (s.trimStart d).held = s.held := rfl

/-- What a block reset of a tile leaves. -/
structure TileHeld (t : Nat) (s u : State) : Prop where
  mem : u.mem = s.mem
  last : u.rg sysBlkrstLast = s.rg sysBlkrstLast
  held : bitOf u.held.toNat t = true
  rel : u.rel (3 + t) = false
  outEn : ∀ n, n < 64 → tileOf n = t → (u.ch n).outEn = false

theorem State.tileBlockReset_held (s : State) {t : Nat} (ht : t < 4) : TileHeld t s (s.tileBlockReset t) := by
  have hk : SysKept s (((tileChans t).foldl (fun s n => (s.chanReset n).pinsReset n) s).tileReset t) :=
    (SysKept.foldl (fun s n => (SysKept.chanReset s n).trans (SysKept.pinsReset _ n)) _ _).trans (SysKept.tileReset _ t)
  have ho (n : Nat) (h : n ∈ tileChans t) :=
    State.outEn_tileReset ((tileChans t).foldl (fun s n => (s.chanReset n).pinsReset n) s) h
  rw [State.tileBlockReset_eq]
  generalize ((tileChans t).foldl (fun s n => (s.chanReset n).pinsReset n) s).tileReset t = u at hk ho ⊢
  obtain ⟨hm, hc, hh⟩ := u.tileHold_rest t
  refine ⟨?_, ?_, ?_, ?_, fun n _ h => ?_⟩
  · rw [State.mem_trimStart, hm, hk.mem]
  · rw [State.rg_trimStart _ (by omega), if_neg (by decide), if_neg (by unfold sysBlkrstLast sysTrimLoads; omega),
      State.rg_tileHold _ _ (by decide)]
    exact hk.rg _ (by decide)
  · rw [State.held_trimStart, hh]
    exact held_hold u.held ⟨t, ht⟩
  · rw [State.rel, State.rgBit, State.rg_trimStart _ (by omega), if_neg (by decide), if_neg (by unfold sysRstSts sysTrimLoads; omega)]
    have h1 (v : State) : (v.putRg sysRstSts (18 + t) false).rel (3 + t) = v.rel (3 + t) := by
      rw [State.rel, State.rgBit_putRg _ (by omega), if_neg (by omega)]; rfl
    refine (h1 _).trans ?_
    rw [State.rel_setWait _ _ _ (by omega) (by omega), State.rel_setRel _ _ _ (by omega), if_pos rfl]
  · rw [State.ch_congr ((State.chans_trimStart _ _).trans hc)]
    refine ho n (List.mem_map.2 ⟨n % 16, List.mem_range.2 (Nat.mod_lt _ (by decide)), ?_⟩)
    unfold tileOf at h
    omega

end Sys2Proof.Machine
end

section
namespace Sys2Proof.Machine

/-- What a block reset that is no tile's leaves of the system block and the channels. -/
structure UnitReset (s u : State) : Prop where
  last : u.rg sysBlkrstLast = s.rg sysBlkrstLast
  chans : u.chans = s.chans

/-! A core. -/

theorem State.coreReset_frame {s : State} (h : s.cpu.upd = none) {x : Nat} : (s.coreReset x).chans = s.chans ∧
    (s.coreReset x).mem = s.mem ∧ (s.coreReset x).fenced = s.fenced ∧
    ∀ o, (o < coreOff x 0 ∨ coreOff x 32 ≤ o ∨ o = coreOff x coreSts) → (s.coreReset x).rg o = s.rg o := by
  have e : s.updAbandon x = s := by rw [State.updAbandon, h]
  unfold State.coreReset
  rw [e]
  refine ⟨rfl, rfl, rfl, fun o ho => (State.rg_blockRegReset s _ _ [coreOff x coreSts] o).trans (if_neg ?_)⟩
  rintro ⟨h1, h2, h3⟩
  rcases ho with ho | ho | ho
  · omega
  · omega
  · exact h3 (ho ▸ List.mem_cons_self)

theorem State.coreBlockReset_reset {s : State} (h : s.cpu.upd = none) (x : Nat) : UnitReset s (s.coreBlockReset x) ∧
    (s.coreBlockReset x).mem = s.mem ∧ (s.isFenced (unCore x) = false → (s.coreBlockReset x).coreSt x = 3 ∧
      ∀ y, y ≠ x → (s.coreBlockReset x).coreSt y = s.coreSt y) := by
  obtain ⟨hc, hm, hf, hr⟩ := State.coreReset_frame h (x := x)
  have hlast : (s.coreReset x).rg sysBlkrstLast = s.rg sysBlkrstLast := hr _ (.inl (by unfold coreOff sysBlkrstLast; omega))
  have hfen : (s.coreReset x).isFenced (unCore x) = s.isFenced (unCore x) := by rw [State.isFenced, hf]; rfl
  simp only [State.coreBlockReset]
  by_cases hq : s.isFenced (unCore x) = true
  · rw [if_pos (hfen.trans hq)]
    exact ⟨⟨hlast, hc⟩, hm, fun h => absurd h (by rw [hq]; decide)⟩
  · rw [if_neg (by rw [hfen]; exact hq)]
    refine ⟨⟨(State.rg_setRg_ne _ _ (by unfold coreOff sysBlkrstLast; omega)).trans hlast, hc⟩, hm, fun _ => ⟨?_, fun y hy => ?_⟩⟩
    · rw [State.coreSt_setCoreSt _ _ _ (by decide), if_pos rfl]
    · rw [State.coreSt_setCoreSt _ _ _ (by decide), if_neg hy]
      exact State.coreSt_congr (hr _ (by unfold coreOff; have : coreSts = 4 := rfl; omega))

/-! A port. -/

theorem State.portSt_portReset (s : State) (p q : Nat) : (s.portReset p).portSt q = s.portSt q := by
  refine State.portSt_congr ((s.rg_portReset p (by decide)).trans (if_neg ?_)) q
  simp only [portRegs, fabOff, fabPortSts, fabDelay, fabAsym, fabRetry, fabCrcerr, fabDrop, List.map, List.mem_cons, List.not_mem_nil,
    or_false, not_or]
  omega

/-- A port after its reset trains anew, unless it is fenced or disabled. -/
def State.portRetrain (s : State) (p : Nat) : State := if s.isFenced (unPort p) ∨ s.portSt p = 0 then s else s.setPortSt p 1

theorem State.portRetrain_only (s : State) (p : Nat) : ∃ r, s.portRetrain p = { s with regs := r } := by
  rw [State.portRetrain]
  split <;> exact ⟨_, rfl⟩

theorem State.rg_portRetrain (s : State) (p : Nat) {o : Nat} (h : o ≠ fabOff fabPortSts) : (s.portRetrain p).rg o = s.rg o := by
  rw [State.portRetrain]
  split
  · rfl
  · exact State.rg_setRg_ne _ _ h

theorem State.portBlockReset_reset (s : State) {p : Nat} (hp : p < 4) : UnitReset s (s.portBlockReset p) ∧
    (s.portBlockReset p).mem = s.mem ∧ (s.isFenced (unPort p) = false → s.portSt p ≠ 0 → (s.portBlockReset p).portSt p = 1 ∧
      (s.portBlockReset p).port p = {} ∧
      ∀ r ∈ [fabDelay, fabAsym, fabRetry, fabCrcerr, fabDrop],
        (s.portBlockReset p).rg (fabOff (r + 4 * p)) = (regReset (fabOff (r + 4 * p))).toNat) := by
  have e : s.portBlockReset p = ((s.portReset p).portRetrain p).linkLevel p := rfl
  obtain ⟨r, er⟩ := (s.portReset p).portRetrain_only p
  obtain ⟨c, ec⟩ := ((s.portReset p).portRetrain p).linkLevel_only p
  have hport : (s.portReset p).port p = {} := tget_tput_same _ _ _ _
  rw [e]
  refine ⟨⟨?_, ?_⟩, ?_, fun hf hs => ⟨?_, ?_, fun r hr => ?_⟩⟩
  · rw [State.linkLevel_rg, State.rg_portRetrain _ _ (by decide), State.rg_portReset _ _ (by decide), if_neg]
    simp only [portRegs, fabOff, sysBlkrstLast, fabDelay, fabAsym, fabRetry, fabCrcerr, fabDrop, List.map, List.mem_cons,
      List.not_mem_nil, or_false, not_or]
    omega
  · rw [ec, er]; rfl
  · rw [ec, er]; rfl
  · rw [State.portSt_congr (State.linkLevel_rg _ _ _), State.portRetrain, if_neg, State.portSt_setPortSt _ hp (by decide), if_pos rfl]
    rw [State.portSt_portReset, not_or]
    exact ⟨fun h => absurd (hf.symm.trans h) (by decide), hs⟩
  · rw [ec, er]; exact hport
  · have hm : fabOff (r + 4 * p) ∈ portRegs p := List.mem_map_of_mem hr
    have hne : ∀ q, fabOff (r + 4 * p) ≠ fabOff q ∨ 0x40 ≤ q := fun q => by
      simp only [List.mem_cons, List.not_mem_nil, or_false] at hr
      simp only [fabOff, fabDelay, fabAsym, fabRetry, fabCrcerr, fabDrop] at hr ⊢
      omega
    rw [State.linkLevel_rg, State.rg_portRetrain _ _ ((hne _).resolve_right (by decide)),
      State.rg_portReset _ _ ((hne _).resolve_right (by decide)), if_pos hm]

/-! A DDR5 channel. -/

theorem State.ddrBlockReset_reset (s : State) (x : Nat) : UnitReset s (s.ddrBlockReset x) ∧
    (s.isFenced (unDdr x) = false → bitsOf ((s.ddrBlockReset x).rg (ddrOff x memcDdrSts)) 2 0 = 0 ∧
      ∀ b, (s.ddrBlockReset x).byte b =
        if ddrBase + 137438953472 * x ≤ b ∧ b < ddrBase + 137438953472 * (x + 1) then 0 else s.byte b) := by
  refine ⟨⟨?_, rfl⟩, fun hf => ⟨?_, fun b => State.byte_ddrReset s x b⟩⟩
  · exact (State.rg_setRg_ne _ _ (by unfold ddrOff sysBlkrstLast; omega)).trans
      (State.rg_ddrReset _ _ (.inl (by unfold ddrOff sysBlkrstLast; omega)))
  · rw [State.ddrBlockReset, State.rg_setRg_same, hf]
    rfl

/-! The command. -/

/-- SYS_BLKRST_LAST holds the key. -/
def State.keyed (s : State) (key : Nat) : State := s.setRg sysBlkrstLast (key % 1024)

theorem State.rg_keyed (s : State) (key : Nat) {o : Nat} (h : o ≠ sysBlkrstLast) : (s.keyed key).rg o = s.rg o := State.rg_setRg_ne _ _ h

/-- The block reset of the unit that a key names. -/
def State.unitReset (s : State) (kind i : Nat) : State :=
  match kind with
  | 1 => s.tileBlockReset i
  | 2 => s.coreBlockReset i
  | 3 => s.portBlockReset i
  | _ => s.ddrBlockReset i

theorem State.blockResetCmd_none (s : State) {key : Nat} (h : blockCount (bitsOf key 3 0) ≤ bitsOf key 9 4) :
    s.blockResetCmd key = s.flag sysBlkrstSts 4 := if_pos h

theorem State.blockResetCmd_unit (s : State) {key : Nat} (h : bitsOf key 9 4 < blockCount (bitsOf key 3 0)) :
    s.blockResetCmd key =
      if s.isFenced (blockUnit (bitsOf key 3 0) (bitsOf key 9 4)) = true ∨ s.unitIdle (bitsOf key 3 0) (bitsOf key 9 4) = true then
        (if s.fencedNow (blockUnit (bitsOf key 3 0) (bitsOf key 9 4)) = true then s.keyed key
          else (s.keyed key).unitReset (bitsOf key 3 0) (bitsOf key 9 4)).flag sysBlkrstSts 1
      else (s.keyed key).flag sysBlkrstSts 2 := by
  have hid : (s.keyed key).unitIdle (bitsOf key 3 0) (bitsOf key 9 4) = s.unitIdle (bitsOf key 3 0) (bitsOf key 9 4) :=
    State.unitIdle_congr (s := s) (t := s.keyed key) rfl rfl
      (fun o ho => s.rg_keyed key (by unfold sysBlkrstLast; omega)) rfl rfl rfl rfl _ _
  rw [← hid]
  simp only [State.blockResetCmd]
  exact if_neg (Nat.not_le.mpr h)

theorem blockKind_cases {k i : Nat} (h : i < blockCount k) : (k = 1 ∧ i < 4) ∨ (k = 2 ∧ i < 8) ∨ (k = 3 ∧ i < 4) ∨ (k = 4 ∧ i < 2) := by
  unfold blockCount at h
  split at h
  · omega
  split at h
  · omega
  split at h <;> omega

/-- What a block reset of unit `i` of a kind leaves. -/
structure BlockReset (kind i : Nat) (s t : State) : Prop where
  last : t.rg sysBlkrstLast = s.rg sysBlkrstLast
  tile : kind = 1 → bitOf t.held.toNat i = true ∧ t.rel (3 + i) = false ∧ ∀ n, n < 64 → tileOf n = i → (t.ch n).outEn = false
  core : kind = 2 → s.isFenced (unCore i) = false → t.coreSt i = 3 ∧ (∀ x, x < 8 → x ≠ i → t.coreSt x = s.coreSt x)
  port : kind = 3 → s.isFenced (unPort i) = false → s.portSt i ≠ 0 → t.portSt i = 1 ∧ t.port i = {} ∧
    ∀ r ∈ [fabDelay, fabAsym, fabRetry, fabCrcerr, fabDrop], t.rg (fabOff (r + 4 * i)) = (regReset (fabOff (r + 4 * i))).toNat
  ddr : kind = 4 → s.isFenced (unDdr i) = false → bitsOf (t.rg (ddrOff i memcDdrSts)) 2 0 = 0 ∧
    ∀ b, t.byte b = if ddrBase + 137438953472 * i ≤ b ∧ b < ddrBase + 137438953472 * (i + 1) then 0 else s.byte b
  chans : kind ≠ 1 → t.chans = s.chans
  mem : kind ≠ 4 → t.mem = s.mem

theorem State.unitReset_reset {s : State} {kind i : Nat} (hi : i < blockCount kind) (hu : s.cpu.upd = none) :
    BlockReset kind i s (s.unitReset kind i) := by
  obtain ⟨rfl, h⟩ | ⟨rfl, h⟩ | ⟨rfl, h⟩ | ⟨rfl, h⟩ := blockKind_cases hi
  · have t := s.tileBlockReset_held h
    exact ⟨t.last, fun _ => ⟨t.held, t.rel, t.outEn⟩, fun h => absurd h (by decide), fun h => absurd h (by decide),
      fun h => absurd h (by decide), fun h => absurd rfl h, fun _ => t.mem⟩
  · obtain ⟨r, hm, hc⟩ := State.coreBlockReset_reset hu i
    exact ⟨r.last, fun h => absurd h (by decide), fun _ hf => ⟨(hc hf).1, fun x _ hx => (hc hf).2 x hx⟩, fun h => absurd h (by decide),
      fun h => absurd h (by decide), fun _ => r.chans, fun _ => hm⟩
  · obtain ⟨r, hm, hp⟩ := s.portBlockReset_reset h
    exact ⟨r.last, fun h => absurd h (by decide), fun h => absurd h (by decide), fun _ hf hs => hp hf hs,
      fun h => absurd h (by decide), fun _ => r.chans, fun _ => hm⟩
  · obtain ⟨r, hd⟩ := s.ddrBlockReset_reset i
    exact ⟨r.last, fun h => absurd h (by decide), fun h => absurd h (by decide), fun h => absurd h (by decide),
      fun _ hf => hd hf, fun _ => r.chans, fun h => absurd rfl h⟩

/-- The flag that tells of it changes nothing of this. -/
theorem BlockReset.flag {kind i m : Nat} {s t : State} (b : BlockReset kind i s t) : BlockReset kind i s (t.flag sysBlkrstSts m) := by
  have hr {o : Nat} (h : o ≠ sysBlkrstSts) : (t.flag sysBlkrstSts m).rg o = t.rg o := t.flag_rg_ne m h
  have hcore (x : Nat) : (t.flag sysBlkrstSts m).coreSt x = t.coreSt x :=
    State.coreSt_congr (hr (by have := coreOff_high x; unfold sysBlkrstSts; omega))
  refine ⟨(hr (by decide)).trans b.last, fun h => ?_, fun h hf => ?_, fun h hf hs => ?_, fun h hf => ?_,
    fun h => (t.flag_chans _ _).trans (b.chans h), fun h => (t.flag_mem _ _).trans (b.mem h)⟩
  · obtain ⟨h1, h2, h3⟩ := b.tile h
    exact ⟨by rw [State.flag_held]; exact h1, (State.rgBit_congr (hr (by decide)) _).trans h2,
      fun n hn ht => by rw [State.ch_flag]; exact h3 n hn ht⟩
  · obtain ⟨h1, h2⟩ := b.core h hf
    exact ⟨(hcore i).trans h1, fun x hx hne => (hcore x).trans (h2 x hx hne)⟩
  · obtain ⟨h1, h2, h3⟩ := b.port h hf hs
    refine ⟨(State.portSt_congr (hr (by decide)) i).trans h1, ?_, fun r hm => (hr (by unfold fabOff sysBlkrstSts; omega)).trans (h3 r hm)⟩
    rw [State.port, State.flag_fab]
    exact h2
  · obtain ⟨h1, h2⟩ := b.ddr h hf
    exact ⟨(congrArg (bitsOf · 2 0) (hr (by unfold ddrOff sysBlkrstSts; omega))).trans h1,
      fun x => (State.byte_congr (t.flag_mem _ _) x).trans (h2 x)⟩

theorem exec_blockReset_of_mayWrite {s : State} {a : Acc} {key : Word} (h : s.mayWrite a sysBlkrst) (hu : s.unpaired a sysBlkrst = true) :
    exec (.blockReset a key) s = .next (s.blockResetCmd key.toNat) := by
  change execBlockReset a key s = _
  rw [execBlockReset, State.viaGrd, State.mayWrite_next h, State.pairDrop_unpaired hu]

end Sys2Proof.Machine
namespace Sys2Proof.Proofs
open Sys2Proof.Machine

/-- Settles O34: the key's unit is missing, busy, fenced in this cycle, or reset as its kind says. -/
theorem blockReset : Obligations.BlockReset := by
  intro s a key h hu
  have e := exec_blockReset_of_mayWrite (key := key) h hu
  intro kind i idle
  refine ⟨fun hk => ?_, fun hk hn => ?_, fun hk hf hnow => ?_, fun hk hid hnow hupd => ?_⟩
  · rw [e, State.blockResetCmd_none s hk]
  · rw [e, State.blockResetCmd_unit s hk, if_neg hn]
    rfl
  · rw [e, State.blockResetCmd_unit s hk, if_pos (.inl hf), if_pos hnow]
    rfl
  · have hcmd : s.blockResetCmd key.toNat = ((s.keyed key.toNat).unitReset kind i).flag sysBlkrstSts 1 := by
      rw [State.blockResetCmd_unit s hk, if_pos hid, if_neg (by rw [hnow]; decide)]
    clear_value idle kind i
    have b : BlockReset kind i (s.keyed key.toNat) (((s.keyed key.toNat).unitReset kind i).flag sysBlkrstSts 1) :=
      (State.unitReset_reset (s := s.keyed key.toNat) hk hupd).flag
    have hcore (x : Nat) : (s.keyed key.toNat).coreSt x = s.coreSt x :=
      State.coreSt_congr (s.rg_keyed _ (by have := coreOff_high x; unfold sysBlkrstLast; omega))
    have hport : (s.keyed key.toNat).portSt i = s.portSt i := State.portSt_congr (s.rg_keyed _ (by decide)) i
    refine ⟨_, e.trans (congrArg Host.Outcome.next hcmd), b.last.trans ?_, (State.flag_bit _ _ _ _ (by decide) (by decide)).trans (Bool.or_true _), b.tile,
      fun h2 hf => ?_, fun h3 hf hs => b.port h3 hf (by rw [hport]; exact hs), b.ddr, b.chans, b.mem⟩
    · rw [State.keyed, State.rg_setRg_same]
      exact Nat.mod_eq_of_lt (Nat.lt_trans (Nat.mod_lt _ (by decide)) (by decide))
    · exact ⟨(b.core h2 hf).1, fun x hx hne => ((b.core h2 hf).2 x hx hne).trans (hcore x)⟩

end Sys2Proof.Proofs
end

section
/-! PROOFS. The monitors (R709). -/

namespace Sys2Proof.Machine

/-- A vote finds every copy as it was. -/
theorem State.votes_none {s : State} (h : s.voteErr = []) (os : List Nat) : s.votes os = s := by
  rw [State.votes, h]; rfl

theorem State.causesOn_fits (s : State) (f : Nat) (is : List Nat) (h : s.mild f = true) (hl : s.later = []) (h20 : ∀ i ∈ is, i < 20) :
    (∀ o, o ∉ reportRegs f → (s.causesOn f is).rg o = s.rg o) ∧
    (∀ i ∈ is, s.causes.contains (f * 32 + i) = false → bitOf ((s.causesOn f is).rg (fltOff f fltSts)) i = true) ∧
    (∀ i, i ∉ is → s.causes.contains (f * 32 + i) = false → (s.causesOn f is).causes.contains (f * 32 + i) = false) ∧
    (s.causesOn f is).chans = s.chans ∧ (s.causesOn f is).mem = s.mem := by
  simp only [State.causesOn]
  split
  · next hn =>
    refine ⟨fun _ _ => rfl, fun i hi hc => ?_, fun _ _ hc => hc, rfl, rfl⟩
    exact absurd (hn ▸ List.mem_filter.2 ⟨hi, by rw [hc]; rfl⟩) List.not_mem_nil
  · obtain ⟨r, q, fr, al, e, hr, hb, -⟩ := State.report_mild
      { s with causes := (is.filter fun i => !s.causes.contains (f * 32 + i)).map (f * 32 + ·) ++ s.causes } f
      ((is.filter fun i => !s.causes.contains (f * 32 + i)).map fun i => (i, srcCls f i)) h hl (by
        intro p hp
        obtain ⟨i, hi, rfl⟩ := List.mem_map.1 hp
        exact h20 i (List.mem_of_mem_filter hi))
    rw [e]
    refine ⟨fun o ho => congrArg BitVec.toNat (hr o ho), fun i hi hc => (hb i (h20 i hi)).2 (.inr ⟨(i, srcCls f i), ?_, rfl⟩),
      fun i hi hc => ?_, rfl, rfl⟩
    · exact List.mem_map_of_mem (List.mem_filter.2 ⟨hi, by rw [hc]; rfl⟩)
    · rw [List.contains_eq_mem, decide_eq_false_iff_not, List.mem_append, not_or]
      refine ⟨fun hm => ?_, by simpa using hc⟩
      obtain ⟨j, hj, e⟩ := List.mem_map.1 hm
      exact hi ((show j = i by omega) ▸ List.mem_of_mem_filter hj)

/-- The end of a cause where its temperature is 5 °C below the threshold. -/
def State.coolEnd (s : State) (f i : Nat) (b : Bool) : State := if b then s.uncause f i else s

theorem State.coolEnd_rest (s : State) (f i : Nat) (b : Bool) : (s.coolEnd f i b).chans = s.chans ∧ (s.coolEnd f i b).mem = s.mem ∧
    (s.coolEnd f i b).voteErr = s.voteErr ∧ (s.coolEnd f i b).later = s.later ∧ (∀ o, (s.coolEnd f i b).rg o = s.rg o) ∧
    (∀ k, s.causes.contains k = false → (s.coolEnd f i b).causes.contains k = false) ∧
    (b = true → (s.coolEnd f i b).causes.contains (f * 32 + i) = false) := by
  cases b
  · exact ⟨rfl, rfl, rfl, rfl, fun _ => rfl, fun _ h => h, fun h => absurd h (by decide)⟩
  · refine ⟨rfl, rfl, rfl, rfl, fun _ => rfl, fun k h => ?_, fun _ => s.causes_uncause f i⟩
    simp only [List.contains_eq_mem, decide_eq_false_iff_not] at h ⊢
    exact fun hm => h (List.mem_of_mem_filter hm)

/-- What a temperature judged against its thresholds leaves. -/
structure TempJudged (f hi crit th : Nat) (t : Int) (s u : State) : Prop where
  chans : u.chans = s.chans
  mem : u.mem = s.mem
  rg : ∀ o, o ∉ reportRegs f → u.rg o = s.rg o
  hot : (bitsOf th 7 0 : Int) * 256 ≤ t → s.causes.contains (f * 32 + hi) = false → bitOf (u.rg (fltOff f fltSts)) hi = true
  hotter : (bitsOf th 15 8 : Int) * 256 ≤ t → s.causes.contains (f * 32 + crit) = false → bitOf (u.rg (fltOff f fltSts)) crit = true
  cool : t < ((bitsOf th 7 0 : Int) - 5) * 256 → u.causes.contains (f * 32 + hi) = false

theorem State.tempJudge_judged (s : State) {f hi crit : Nat} (th : Nat) (t : Int) (hm : s.mild f = true) (hl : s.later = [])
    (hh : hi < 20) (hc : crit < 20) (hne : crit ≠ hi) : TempJudged f hi crit th t s (s.tempJudge f hi crit th t) := by
  have e : s.tempJudge f hi crit th t =
      ((s.coolEnd f hi (decide (t < ((bitsOf th 7 0 : Int) - 5) * 256))).coolEnd f crit
        (decide (t < ((bitsOf th 15 8 : Int) - 5) * 256))).causesOn f
        ([hi, crit].filter fun i => decide ((if i = hi then (bitsOf th 7 0 : Int) else bitsOf th 15 8) * 256 ≤ t)) := by
    simp only [State.tempJudge, State.coolEnd, List.foldl, if_neg hne, decide_eq_true_eq, ↓reduceIte]
  obtain ⟨c1, m1, v1, l1, r1, k1, n1⟩ := s.coolEnd_rest f hi (decide (t < ((bitsOf th 7 0 : Int) - 5) * 256))
  obtain ⟨c2, m2, v2, l2, r2, k2, -⟩ := (s.coolEnd f hi (decide (t < ((bitsOf th 7 0 : Int) - 5) * 256))).coolEnd_rest f crit
    (decide (t < ((bitsOf th 15 8 : Int) - 5) * 256))
  rw [e]
  generalize (s.coolEnd f hi (decide (t < ((bitsOf th 7 0 : Int) - 5) * 256))).coolEnd f crit
    (decide (t < ((bitsOf th 15 8 : Int) - 5) * 256)) = u at *
  obtain ⟨hr, hb, hn, hch, hme⟩ := u.causesOn_fits f
    ([hi, crit].filter fun i => decide ((if i = hi then (bitsOf th 7 0 : Int) else bitsOf th 15 8) * 256 ≤ t))
    ((State.mild_congr (v2.trans v1) ((r2 _).trans (r1 _))).trans hm) (l2.trans (l1.trans hl)) (by
      intro i hi
      have := List.mem_of_mem_filter hi
      simp only [List.mem_cons, List.not_mem_nil, or_false] at this
      omega)
  refine ⟨hch.trans (c2.trans c1), hme.trans (m2.trans m1), fun o ho => (hr o ho).trans ((r2 o).trans (r1 o)), fun ht hs => ?_,
    fun ht hs => ?_, fun ht => ?_⟩
  · exact hb hi (List.mem_filter.2 ⟨by simp, by rw [if_pos rfl]; exact decide_eq_true ht⟩) (k2 _ (k1 _ hs))
  · exact hb crit (List.mem_filter.2 ⟨by simp, by rw [if_neg hne]; exact decide_eq_true ht⟩) (k2 _ (k1 _ hs))
  · refine hn hi (fun hm => ?_) (k2 _ (n1 (decide_eq_true ht)))
    have := of_decide_eq_true (List.mem_filter.1 hm).2
    rw [if_pos rfl] at this
    omega

end Sys2Proof.Machine
namespace Sys2Proof.Proofs
open Sys2Proof.Machine

/-- Settles O36: a temperature is judged after its register is written, a supply and a clock are one cause each. -/
theorem monitors : Obligations.Monitors := by
  intro s k hot hl hv same f
  have hw : hot.toNat < 4294967296 := Nat.lt_trans hot.isLt (by decide)
  have hoff (r : Nat) : fltOff f r = 0xA0000 + 0x4000 * k.val + 0x3E00 + r := frTile_off k r
  have htile {r : Nat} (h : r < 0x3E00) : tileOff k.val r ∉ reportRegs f := by
    simp only [reportRegs, hoff, tileOff, List.mem_cons, List.not_mem_nil, or_false, not_or]
    omega
  refine ⟨fun hr hm => ?_, fun hc hm => ?_, fun hr hm hc => ?_, fun hr => ?_, fun hc hm hz => ?_, fun hm hc => ?_, rfl⟩
  · have j := State.tempJudge_judged (s.setRg (tileOff k.val tileTemp) hot.toNat) (hi := ftTempHi) (crit := ftTempCrit)
      (s.rg (tileOff k.val tileThermTh)) hot.toInt (State.mild_of_subset (f := f) hm (fun _ h => h)
        (State.rg_setRg_ne _ _ (by rw [hoff]; unfold tileOff fltReact tileTemp; omega))) hl (by decide) (by decide) (by decide)
    refine ⟨_, ?_, (j.rg _ (htile (by decide))).trans ?_, j.hot, j.cool, j.chans, j.mem⟩
    · refine congrArg Host.Outcome.next ?_
      rw [State.votes_none hv]
      exact if_pos hr
    · rw [State.rg_setRg_same, Nat.mod_eq_of_lt hw]
  · have j := State.tempJudge_judged (s.setRg sysTemp hot.toNat) (f := frSys) (hi := fsTempHi) (crit := fsTempCrit)
      (s.rg sysThermTh) hot.toInt (State.mild_of_subset hm (fun _ h => h) (State.rg_setRg_ne _ _ (by decide))) hl (by decide)
      (by decide) (by decide)
    refine ⟨_, ?_, (j.rg _ (by decide)).trans ?_, j.hotter, j.chans, j.mem⟩
    · refine congrArg Host.Outcome.next ?_
      rw [State.votes_none hv]
      exact if_pos hc
    · rw [State.rg_setRg_same, Nat.mod_eq_of_lt hw]
  · have c := State.causeOf (i := ftSupply) hm hl (by decide) hc
    exact ⟨_, congrArg Host.Outcome.next (if_pos hr), c.set, by rw [State.causeIs, if_pos rfl, c.causes]; simp, c.rg, c.chans, c.mem⟩
  · exact congrArg Host.Outcome.next (if_pos hr)
  · have c := State.causeOf (i := fsCoreSupply) hm hl (by decide) hz
    exact ⟨_, congrArg Host.Outcome.next (if_pos hc), c.set, c.rg, c.chans, c.mem⟩
  · have c := State.causeOf (i := ftClkQual) hm hl (by decide) hc
    exact ⟨_, rfl, c.set, c.rg, c.chans, c.mem⟩

end Sys2Proof.Proofs
end

section
/-! PROOFS. The power states of the device and of the tiles (R711 to R717). -/

namespace Sys2Proof.Machine

theorem State.pwrSt_congr {s t : State} (h : t.rg sysPwrSts = s.rg sysPwrSts) : t.pwrSt = s.pwrSt := by
  rw [State.pwrSt, h]; rfl

theorem State.pwrSt_setRg (s : State) {v : Nat} (h : v < 4) : (s.setRg sysPwrSts v).pwrSt = v := by
  rw [State.pwrSt, State.rg_setRg_same, Nat.mod_eq_of_lt (by omega)]
  interval_cases v <;> rfl

/-! STATE of a DDR5 channel. -/

theorem State.ddrMove_only (s : State) (a b x : Nat) : ∃ r, s.ddrMove a b x = { s with regs := r } := by
  simp only [State.ddrMove]
  split <;> exact ⟨_, rfl⟩

theorem State.rg_ddrMove_ne (s : State) (a b x : Nat) {o : Nat} (h : o ≠ ddrOff x memcDdrSts) : (s.ddrMove a b x).rg o = s.rg o := by
  simp only [State.ddrMove]
  split
  · exact State.rg_setRg_ne _ _ h
  · rfl

theorem State.ddrMove_moved {s : State} {a b x : Nat} (hb : b < 8) (h : bitsOf (s.rg (ddrOff x memcDdrSts)) 2 0 = a) :
    bitsOf ((s.ddrMove a b x).rg (ddrOff x memcDdrSts)) 2 0 = b := by
  simp only [State.ddrMove]
  rw [if_pos h, State.rg_setRg_same, setBits_word (s.rg_lt _) (by decide) (by decide), bitsOf_setBits_same _ _ _ _ (by decide)]
  exact Nat.mod_eq_of_lt hb

theorem ddrSts_inj {x y : Nat} (h : x ≠ y) : ddrOff x memcDdrSts ≠ ddrOff y memcDdrSts := by unfold ddrOff; omega

/-- Both channels move from one state to another. -/
theorem State.ddrMove_both {s : State} {a b x : Nat} (hb : b < 8) (hx : x < 2) (h : bitsOf (s.rg (ddrOff x memcDdrSts)) 2 0 = a) :
    bitsOf (((s.ddrMove a b 0).ddrMove a b 1).rg (ddrOff x memcDdrSts)) 2 0 = b := by
  obtain rfl | rfl : x = 0 ∨ x = 1 := by omega
  · rw [State.rg_ddrMove_ne _ _ _ _ (ddrSts_inj (by decide))]
    exact State.ddrMove_moved hb h
  · exact State.ddrMove_moved hb (by rw [State.rg_ddrMove_ne _ _ _ _ (ddrSts_inj (by decide))]; exact h)

/-! The cores' clocks. -/

/-- A step that writes STATE of core `x`, and nothing else but what the model keeps of the cores. -/
structure CoreStep (x : Nat) (s t : State) : Prop where
  chans : t.chans = s.chans
  mem : t.mem = s.mem
  clk : t.clk = s.clk
  rg : ∀ o, o ≠ coreOff x coreSts → t.rg o = s.rg o

theorem State.gate_step (s : State) (x : Nat) : CoreStep x s (s.gate x) := by
  simp only [State.gate]
  split
  · exact ⟨rfl, rfl, rfl, fun o h => State.rg_setRg_ne s _ h⟩
  · exact ⟨rfl, rfl, rfl, fun _ _ => rfl⟩

theorem State.ungate_step (s : State) (x : Nat) : CoreStep x s (s.ungate x) := by
  rw [State.ungate]
  split
  · exact ⟨rfl, rfl, rfl, fun o h => State.rg_setRg_ne s _ h⟩
  · exact ⟨rfl, rfl, rfl, fun _ _ => rfl⟩

/-- Steps of several cores leave the registers below theirs and the states of the others. -/
theorem State.foldl_coreStep {f : State → Nat → State} (hf : ∀ s x, CoreStep x s (f s x)) (l : List Nat) : ∀ s : State,
    (l.foldl f s).chans = s.chans ∧ (l.foldl f s).mem = s.mem ∧ (l.foldl f s).clk = s.clk ∧
    (∀ o, (∀ x ∈ l, o ≠ coreOff x coreSts) → (l.foldl f s).rg o = s.rg o) := by
  induction l with
  | nil => exact fun s => ⟨rfl, rfl, rfl, fun _ _ => rfl⟩
  | cons x r ih =>
    intro s
    have h := hf s x
    obtain ⟨c, m, k, g⟩ := ih (f s x)
    exact ⟨c.trans h.chans, m.trans h.mem, k.trans h.clk,
      fun o ho => (g o fun y hy => ho y (List.mem_cons_of_mem _ hy)).trans (h.rg o (ho x List.mem_cons_self))⟩

theorem State.coreSt_gate {s : State} {x : Nat} (h : s.coreSt x = 1 ∨ s.coreSt x = 2 ∨ s.coreSt x = 3) : (s.gate x).coreSt x = 4 := by
  simp only [State.gate]
  rw [if_pos (by omega)]
  exact (State.coreSt_setCoreSt s x x (by decide)).trans (if_pos rfl)

theorem State.foldl_gate_runs {y : Nat} (l : List Nat) (hn : l.Nodup) : ∀ s : State, y ∈ l →
    (s.coreSt y = 1 ∨ s.coreSt y = 2 ∨ s.coreSt y = 3) → (l.foldl State.gate s).coreSt y = 4 := by
  induction l with
  | nil => exact fun _ h => absurd h List.not_mem_nil
  | cons x r ih =>
    intro s hy h
    obtain ⟨hx, hr⟩ := List.nodup_cons.1 hn
    by_cases e : y = x
    · subst e
      refine (State.coreSt_congr ?_).trans (State.coreSt_gate h)
      exact (State.foldl_coreStep State.gate_step r _).2.2.2 _ fun z hz => coreOff_ne fun e => hx (e ▸ hz)
    · refine ih hr _ ((List.mem_cons.1 hy).resolve_left e) ?_
      rw [State.coreSt_congr ((s.gate_step x).rg _ (coreOff_ne e))]
      exact h

/-! The tiles. -/

theorem State.foldl_tileSleep (l : List Nat) : ∀ s : State, (l.foldl State.tileSleep s).chans = s.chans ∧
    (l.foldl State.tileSleep s).mem = s.mem ∧ (l.foldl State.tileSleep s).clk = s.clk ∧
    ∀ o, o < 0xA0000 → (l.foldl State.tileSleep s).rg o = s.rg o := by
  induction l with
  | nil => exact fun s => ⟨rfl, rfl, rfl, fun _ _ => rfl⟩
  | cons k r ih =>
    intro s
    obtain ⟨c, m, q, g⟩ := ih (s.tileSleep k)
    have h : (s.tileSleep k).chans = s.chans ∧ (s.tileSleep k).mem = s.mem ∧ (s.tileSleep k).clk = s.clk ∧
        ∀ o, o < 0xA0000 → (s.tileSleep k).rg o = s.rg o := by
      rw [State.tileSleep]
      split
      · exact ⟨rfl, rfl, rfl, fun o ho => State.rg_setRg_ne _ _ (by unfold tileOff; omega)⟩
      · exact ⟨rfl, rfl, rfl, fun _ _ => rfl⟩
    obtain ⟨hc, hm, hq, hg⟩ := h
    exact ⟨c.trans hc, m.trans hm, q.trans hq, fun o ho => (g o ho).trans (hg o ho)⟩

/-! The commands. -/

/-- C2 to C7 lose their clocks, and the tiles that may sleep do. -/
def State.rested (s : State) : State := [0, 1, 2, 3].foldl State.tileSleep ([2, 3, 4, 5, 6, 7].foldl State.gate (s.setRg sysPwrSts 2))

theorem State.standbyEnd_rested {s : State} (h : s.pwrSt = 1) (hc : s.clk.wakeChans = []) (hk : s.clk.wakeCores = []) :
    s.standbyEnd = { s.rested with clk := { s.rested.clk with wakeChans := [], wakeCores := [] } } := by
  have hclk : s.rested.clk = s.clk :=
    (State.foldl_tileSleep _ _).2.2.1.trans (State.foldl_coreStep State.gate_step _ _).2.2.1
  rw [State.standbyEnd, if_neg (by rw [h]; decide)]
  change List.foldl State.wakeChan (State.wakeCores { s.rested with clk := { s.rested.clk with wakeChans := [], wakeCores := [] } }
    s.rested.clk.wakeCores) s.rested.clk.wakeChans = _
  rw [hclk, hc, hk]
  rfl

theorem State.rested_frame (s : State) : s.rested.chans = s.chans ∧ s.rested.mem = s.mem ∧ s.rested.pwrSt = 2 ∧
    ∀ x, 2 ≤ x → x < 8 → s.coreSt x = 1 ∨ s.coreSt x = 2 ∨ s.coreSt x = 3 → s.rested.coreSt x = 4 := by
  obtain ⟨c1, m1, -, r1⟩ := State.foldl_coreStep State.gate_step [2, 3, 4, 5, 6, 7] (s.setRg sysPwrSts 2)
  obtain ⟨c2, m2, -, r2⟩ := State.foldl_tileSleep [0, 1, 2, 3] ([2, 3, 4, 5, 6, 7].foldl State.gate (s.setRg sysPwrSts 2))
  refine ⟨c2.trans c1, m2.trans m1, ?_, fun x h2 h8 h => ?_⟩
  · refine (State.pwrSt_congr ((r2 _ (by decide)).trans (r1 _ fun x _ => ?_))).trans (s.pwrSt_setRg (by decide))
    have := coreOff_high x
    unfold sysPwrSts
    omega
  · refine (State.coreSt_congr (r2 _ (by unfold coreOff; have : coreSts = 4 := rfl; omega))).trans ?_
    refine State.foldl_gate_runs _ (by decide) _ (by simp only [List.mem_cons, List.not_mem_nil, or_false]; omega) ?_
    rw [State.coreSt_congr (State.rg_setRg_ne _ _ (by have := coreOff_high x; unfold sysPwrSts; omega))]
    exact h

theorem State.gateBy_step (s : State) (x : Nat) : CoreStep x s (if s.rgBit sysCoreGate x then s.gate x else s.ungate x) := by
  split
  · exact s.gate_step x
  · exact s.ungate_step x

theorem State.runEnd_runs {s : State} (h : s.pwrSt = 3) : s.runEnd.pwrSt = 0 ∧ s.runEnd.chans = s.chans ∧ s.runEnd.mem = s.mem := by
  rw [State.runEnd, if_neg (by rw [h]; decide)]
  obtain ⟨r0, e0⟩ := (s.setRg sysPwrSts 0).ddrMove_only 3 2 0
  obtain ⟨r1, e1⟩ := ((s.setRg sysPwrSts 0).ddrMove 3 2 0).ddrMove_only 3 2 1
  obtain ⟨c, m, -, g⟩ := State.foldl_coreStep State.gateBy_step [2, 3, 4, 5, 6, 7] (((s.setRg sysPwrSts 0).ddrMove 3 2 0).ddrMove 3 2 1)
  refine ⟨?_, c.trans (by rw [e1, e0]; rfl), m.trans (by rw [e1, e0]; rfl)⟩
  rw [State.applyGate, State.pwrSt_congr (g _ fun x _ => by have := coreOff_high x; unfold sysPwrSts; omega),
    State.pwrSt_congr (State.rg_ddrMove_ne _ _ _ _ (by decide)), State.pwrSt_congr (State.rg_ddrMove_ne _ _ _ _ (by decide)),
    State.pwrSt_setRg _ (by decide)]

end Sys2Proof.Machine
namespace Sys2Proof.Proofs
open Sys2Proof.Machine

/-- Settles O37: each command is one branch of the tables of R711 and R714, taken by the power state it finds. -/
theorem powerStates : Obligations.PowerStates := by
  refine ⟨fun s a => ?_, fun s a k => ?_⟩
  · intro same
    refine ⟨fun h hs => ?_, fun h hs => ?_, fun h hc hk => ?_, fun h hp => ?_, fun h hp => ?_, fun h => ?_, fun x h hd hl => ?_⟩
    · obtain ⟨r0, e0⟩ := (s.setRg sysPwrSts 1).ddrMove_only 2 3 0
      obtain ⟨r1, e1⟩ := ((s.setRg sysPwrSts 1).ddrMove 2 3 0).ddrMove_only 2 3 1
      refine ⟨((s.setRg sysPwrSts 1).ddrMove 2 3 0).ddrMove 2 3 1, ?_, ?_, fun x hx hd => ?_, ?_, ?_⟩
      · change execStandby a s = _
        exact (State.mayWrite_next h _ _).trans (congrArg Host.Outcome.next (if_pos hs))
      · rw [State.pwrSt_congr (State.rg_ddrMove_ne _ _ _ _ (by decide)), State.pwrSt_congr (State.rg_ddrMove_ne _ _ _ _ (by decide)),
          State.pwrSt_setRg _ (by decide)]
      · refine State.ddrMove_both (by decide) hx ?_
        rw [State.rg_setRg_ne _ _ (by unfold ddrOff sysPwrSts; omega)]
        exact hd
      · rw [e1, e0]; rfl
      · rw [e1, e0]; rfl
    · change execStandby a s = _
      exact (State.mayWrite_next h _ _).trans (congrArg Host.Outcome.next (if_neg (by rw [hs]; decide)))
    · obtain ⟨c, m, p, g⟩ := s.rested_frame
      exact ⟨_, congrArg Host.Outcome.next (State.standbyEnd_rested h hc hk), p, g, c, m⟩
    · change execRun a s = _
      exact (State.mayWrite_next h _ _).trans (congrArg Host.Outcome.next (if_neg hp))
    · refine ⟨s.toRun, ?_, s.pwrSt_setRg (by decide), rfl, rfl⟩
      change execRun a s = _
      exact (State.mayWrite_next h _ _).trans (congrArg Host.Outcome.next (if_pos hp))
    · exact ⟨_, rfl, State.runEnd_runs h⟩
    · obtain ⟨r, e⟩ := s.ddrMove_only 2 3 x.val
      exact ⟨_, congrArg Host.Outcome.next (if_pos ⟨h, hl⟩), State.ddrMove_moved (by decide) hd, by rw [e], by rw [e]⟩
  · intro st may
    refine ⟨fun h => ⟨fun hm hon => ?_, fun hm => ?_, fun hs => ?_, fun hs => ?_⟩, fun hs => congrArg Host.Outcome.next (if_pos hs)⟩
    · obtain ⟨h1, h2, h3⟩ := hm
      change execSleep a k s = _
      refine (State.mayWrite_next h _ _).trans (congrArg Host.Outcome.next ?_)
      have h1' : ¬ s.keepOn k.val = true := by rw [h1]; decide
      exact (if_pos ⟨h1', h2, h3⟩).trans (if_pos ⟨hon, h1', h2, h3⟩)
    · change execSleep a k s = _
      refine (State.mayWrite_next h _ _).trans (congrArg Host.Outcome.next (if_neg ?_))
      exact fun ⟨h1, h2, h3⟩ => hm ⟨Bool.eq_false_iff.2 h1, h2, h3⟩
    · change execWake a k s = _
      exact (State.mayWrite_next h _ _).trans (congrArg Host.Outcome.next (if_pos hs))
    · change execWake a k s = _
      exact (State.mayWrite_next h _ _).trans (congrArg Host.Outcome.next (if_neg hs))

end Sys2Proof.Proofs
end

section
/-! PROOFS. The reference, the root PLL and throttling (R699 to R705). -/

namespace Sys2Proof.Machine

/-- What the begin of a cause leaves, where its frame asks for no more than a record. -/
structure CauseBegun (f i : Nat) (s t : State) : Prop where
  set : bitOf (t.rg (fltOff f fltSts)) i = true
  rg : ∀ o, o ∉ reportRegs f → t.rg o = s.rg o
  causes : t.causes = (f * 32 + i) :: s.causes
  chans : t.chans = s.chans
  mem : t.mem = s.mem

theorem State.cause_begun {s : State} {f i : Nat} (h : s.mild f = true) (hl : s.later = []) (hi : i < 20)
    (hc : s.causes.contains (f * 32 + i) = false) : CauseBegun f i s (s.cause f i) := by
  have c := State.causeOf h hl hi hc
  exact ⟨c.set, c.rg, c.causes, c.chans, c.mem⟩

/-- The request for the recovered clock, as it is made. -/
def State.refAsked (s : State) : State := { s.putRg sysClkCfg 0 true with clk := { s.clk with move := true } }

theorem State.rg_refAsked_ne (s : State) {o : Nat} (h : o ≠ sysClkCfg) : s.refAsked.rg o = s.rg o := State.rg_putRg_ne s _ h

theorem State.upPort_refAsked (s : State) : s.refAsked.upPort = s.upPort :=
  (congrArg (bitsOf · 2 1) ((s.rg_putRg (by decide) sysClkCfg sysClkCfg true).trans (if_pos rfl))).trans
    (bitsOf_putBit_out true (.inl (by decide)))

theorem State.refRecovered_moves {s : State} (hm : s.isMember = true)
    (hs : bitOf (s.rg (fltOff frFab fltSts)) (ffSync s.upPort) = false) (h1 : s.rgBit sysClkSts 1 = false) :
    ∃ c, s.refRecovered = (State.putRg { s.putRg sysClkCfg 0 true with clk := c } sysClkSts 1 true).putRg sysClkSts 3 true := by
  have hsync : bitOf (s.refAsked.rg (fltOff frFab fltSts)) (ffSync s.refAsked.upPort) = false := by
    rw [s.upPort_refAsked, s.rg_refAsked_ne (by decide)]; exact hs
  have hsts : s.refAsked.rgBit sysClkSts 1 = false := (State.rgBit_congr (s.rg_refAsked_ne (by decide)) 1).trans h1
  have e : s.refRecovered = s.refAsked.refMove := if_pos hm
  refine ⟨{ s.refAsked.clk with move := false, refPort := s.refAsked.upPort }, ?_⟩
  rw [e, State.refMove, if_pos ⟨rfl, by rw [hsync]; decide⟩]
  dsimp only
  rw [hsts, Bool.false_and, if_neg (by decide)]
  rfl

theorem State.rgBit_refBack (s : State) (i : Nat) : s.refBack.rgBit sysClkSts i = if i = 2 then false else s.rgBit sysClkSts i := by
  rw [State.refBack, State.rgBit_congr (State.rg_uncause _ _ _ _), State.rgBit_putRg _ (by decide)]

/-- The sensors below the threshold stand in SYS_DROOP_STS, and the throttle is as it is from now on. -/
def State.droopSeen (s : State) (below : Nat) : State :=
  { s.setRg sysDroopSts (setBits (s.rg sysDroopSts) 15 0 below) with
    clk := { s.clk with quiet := 0, throttle := s.clk.throttle || s.rgBit sysDroopCfg 4, ending := false } }

/-- A new throttle is counted. -/
def State.droopCounted (s : State) (below : Nat) : State :=
  if s.clk.throttle then s.droopSeen below else (s.droopSeen below).count sysDroopCnt

theorem State.droopNow_new {s : State} {below : Nat} (hb : below ≠ 0) (ho : bitsOf (s.rg sysDroopSts) 15 0 = 0) :
    s.droopNow below = (s.droopCounted below).fault frSys fsDroop := by
  have hcfg : (s.setRg sysDroopSts (setBits (s.rg sysDroopSts) 15 0 below)).rgBit sysDroopCfg 4 = s.rgBit sysDroopCfg 4 :=
    State.rgBit_congr (State.rg_setRg_ne _ _ (by decide)) 4
  simp only [State.droopNow]
  rw [if_neg hb, if_neg (by rw [ho]; simp [hb]), State.droopCounted, State.droopSeen, ← hcfg]
  rfl

theorem State.droopCounted_frame (s : State) (below : Nat) :
    (∀ o, o ∉ [sysDroopSts, sysDroopCnt] → (s.droopCounted below).rg o = s.rg o) ∧
    bitsOf ((s.droopCounted below).rg sysDroopSts) 15 0 = below % 65536 ∧
    (s.clk.throttle = false → (s.droopCounted below).rg sysDroopCnt = holdAdd (s.rg sysDroopCnt) 1) ∧
    (s.droopCounted below).clk.throttle = (s.clk.throttle || s.rgBit sysDroopCfg 4) ∧
    (s.droopCounted below).voteErr = s.voteErr ∧ (s.droopCounted below).later = s.later ∧
    (s.droopCounted below).chans = s.chans ∧ (s.droopCounted below).mem = s.mem := by
  have hseen {o : Nat} (h : o ≠ sysDroopSts) : (s.droopSeen below).rg o = s.rg o := State.rg_setRg_ne s _ h
  have hsts : bitsOf ((s.droopSeen below).rg sysDroopSts) 15 0 = below % 65536 := by
    refine (congrArg (bitsOf · 15 0) ((State.rg_setRg_same s _ _).trans (setBits_word (s.rg_lt _) (by decide) (by decide)))).trans ?_
    exact bitsOf_setBits_same _ _ _ _ (by decide)
  rw [State.droopCounted]
  by_cases h : s.clk.throttle = true
  · rw [if_pos h]
    refine ⟨fun o ho => hseen fun e => ho (by simp [e]), hsts, fun hf => absurd h (by rw [hf]; decide), rfl, rfl, rfl, rfl, rfl⟩
  · rw [if_neg h]
    refine ⟨fun o ho => ?_, ?_, fun _ => ?_, rfl, rfl, rfl, rfl, rfl⟩
    · rw [State.rg_count_ne _ _ fun e => ho (by simp [e])]
      exact hseen fun e => ho (by simp [e])
    · rw [State.rg_count_ne _ _ (by decide)]
      exact hsts
    · rw [State.rg_count_same, hseen (by decide)]

end Sys2Proof.Machine
namespace Sys2Proof.Proofs
open Sys2Proof.Machine

/-- Settles O35: each event of the reference writes bits of SYS_CLK_STS and one cause, a droop its register and the throttle. -/
theorem referenceAndThrottle : Obligations.ReferenceAndThrottle := by
  refine ⟨fun s a => ?_, fun s hv => ⟨fun below hc hb ho hm hl => ?_, fun hq => ?_⟩⟩
  · intro same
    have hsts (i : Nat) (b : Bool) {k : Nat} (hk : k < 32) (u : State) : (u.putRg sysClkSts k b).rgBit sysClkSts i =
        if i = k then b else u.rgBit sysClkSts i := u.rgBit_putRg hk sysClkSts b i
    refine ⟨fun h hmem hs h1 => ?_, fun h hmem => ?_, fun hp hm hl hc => ?_, ?_, rfl, fun h1 h2 h3 h4 => ?_, fun h0 hm hl hc => ?_⟩
    · obtain ⟨c, e⟩ := State.refRecovered_moves hmem hs h1
      refine ⟨(State.putRg { s.putRg sysClkCfg 0 true with clk := c } sysClkSts 1 true).putRg sysClkSts 3 true, ?_, ?_, ?_, ?_, rfl, rfl⟩
      · change execRefSrc a s = _
        exact (State.mayWrite_next h _ _).trans (congrArg Host.Outcome.next e)
      · rw [State.rgBit, State.rg_putRg_ne _ _ (by decide), State.rg_putRg_ne _ _ (by decide)]
        exact (s.rgBit_putRg (by decide) sysClkCfg true 0).trans (if_pos rfl)
      · rw [hsts _ _ (by decide), if_neg (by decide), hsts _ _ (by decide), if_pos rfl]
      · rw [hsts _ _ (by decide), if_pos rfl]
    · change execRefSrc a s = _
      exact (State.mayWrite_next h _ _).trans (congrArg Host.Outcome.next (if_neg (by rw [hmem]; decide)))
    · have key (u : State) (hu : u.rg = s.rg) (hc' : u.chans = s.chans) (hm' : u.mem = s.mem) (hv' : u.voteErr = s.voteErr)
          (hl' : u.later = []) (hz : u.causes = s.causes) :
          ∃ t, (u.putRg sysClkSts 2 true).cause frSys fsRefclkLost = t ∧ t.rgBit sysClkSts 2 = true ∧
            bitOf (t.rg (fltOff frSys fltSts)) fsRefclkLost = true ∧
            (∀ o, o ∉ sysClkSts :: reportRegs frSys → t.rg o = s.rg o) ∧ same t := by
        have hmu : (u.putRg sysClkSts 2 true).mild frSys = true := State.mild_of_subset hm (fun o h => hv' ▸ h)
          ((State.rg_putRg_ne _ _ (by decide)).trans (congrFun hu _))
        have c := State.cause_begun (s := u.putRg sysClkSts 2 true) (i := fsRefclkLost) hmu hl' (by decide) (hz ▸ hc)
        refine ⟨_, rfl, ?_, c.set, fun o ho => ?_, c.chans.trans hc', c.mem.trans hm'⟩
        · rw [State.rgBit_congr (c.rg _ (by decide))]
          exact (hsts _ _ (by decide) u).trans (if_pos rfl)
        · obtain ⟨h1, h2⟩ := not_or.1 (mt List.mem_cons.2 ho)
          exact (c.rg o h2).trans ((State.rg_putRg_ne _ _ h1).trans (congrFun hu o))
      by_cases h2 : s.rgBit sysClkSts 2 = true
      · obtain ⟨t, e, r⟩ := key s rfl rfl rfl rfl hl rfl
        exact ⟨t, congrArg Host.Outcome.next (by rw [State.refLost, if_pos hp, if_pos h2, e]), r⟩
      · obtain ⟨t, e, r⟩ := key { s with clk := { s.clk with hold := 0 } } rfl rfl rfl rfl hl rfl
        exact ⟨t, congrArg Host.Outcome.next (by rw [State.refLost, if_pos hp, if_neg h2, e]), r⟩
    · refine ⟨s.refBack, rfl, ?_, ?_, rfl, rfl⟩
      · rw [State.rgBit_refBack, if_pos rfl]
      · rw [State.refBack, State.causes_uncause]
    · refine ⟨(s.refBack.putRg sysClkSts 1 false).putRg sysClkSts 3 true, congrArg Host.Outcome.next (if_pos ⟨h1, h2, h3, h4⟩),
        ?_, ?_, ?_, rfl, rfl⟩
      · rw [hsts _ _ (by decide), if_neg (by decide), hsts _ _ (by decide), if_pos rfl]
      · rw [hsts _ _ (by decide), if_neg (by decide), hsts _ _ (by decide), if_neg (by decide), State.rgBit_refBack,
          if_pos rfl]
      · rw [hsts _ _ (by decide), if_pos rfl]
    · have hrg {o : Nat} (h : o ∉ [sysClkSts, sysRstSts]) : (s.pllLocked false).rg o = s.rg o :=
        (State.rg_putRg_ne _ _ fun e => h (by simp [e])).trans (State.rg_putRg_ne _ _ fun e => h (by simp [e]))
      have c := State.cause_begun (s := s.pllLocked false) (i := fsPllUnlock) (State.mild_of_subset hm (fun _ h => h) (hrg (by decide))) hl
        (by decide) hc
      refine ⟨_, congrArg Host.Outcome.next (if_pos h0), ?_, ?_, c.set, fun o ho => ?_, c.chans, c.mem⟩
      · rw [State.rgBit_congr (c.rg _ (by decide))]
        rw [State.pllLocked, State.rgBit_congr (State.rg_putRg_ne _ _ (by decide)), hsts _ _ (by decide), if_pos rfl]
      · rw [State.rgBit_congr (c.rg _ (by decide))]
        rw [State.pllLocked, State.rgBit_putRg _ (by decide), if_pos rfl]
      · rw [List.mem_append, not_or] at ho
        exact (c.rg o ho.2).trans (hrg ho.1)
  · have hb0 : below.toNat ≠ 0 := fun h => hb (BitVec.eq_of_toNat_eq h)
    obtain ⟨hr, hsts, hcnt, hthr, hvo, hla, hch, hme⟩ := s.droopCounted_frame below.toNat
    have f := State.faultOf (s := s.droopCounted below.toNat) (i := fsDroop)
      (State.mild_of_subset hm (fun o h => hvo ▸ h) (hr _ (by decide))) (hla.trans hl) (by decide)
    refine ⟨_, congrArg Host.Outcome.next ?_, ?_, ?_, fun h => ?_, f.set, fun o ho => ?_, f.chans.trans hch, f.mem.trans hme⟩
    · exact (if_pos hc).trans (by rw [State.votes_none hv, State.droopNow_new hb0 ho])
    · rw [f.rg _ (by decide), hsts]
      exact Nat.mod_eq_of_lt below.isLt
    · rw [f.clk, hthr]
    · rw [f.rg _ (by decide), hcnt h]
    · rw [List.mem_append, not_or] at ho
      exact (f.rg o ho.2).trans (hr o ho.1)
  · have e : execThrottleEnd s = .next s.throttleOver := by rw [execThrottleEnd, State.votes_none hv]
    refine ⟨s.throttleOver, e, ?_⟩
    have h0 : bitsOf ((s.setRg sysDroopSts (setBits (s.rg sysDroopSts) 15 0 0)).rg sysDroopSts) 15 0 = 0 := by
      rw [State.rg_setRg_same, setBits_word (s.rg_lt _) (by decide) (by decide), bitsOf_setBits_same _ _ _ _ (by decide), Nat.zero_mod]
    rw [State.throttleOver, if_neg (by rw [hq]; decide)]
    by_cases ht : s.clk.throttle = true
    · dsimp only
      rw [if_pos (show (s.setRg sysDroopSts (setBits (s.rg sysDroopSts) 15 0 0)).clk.throttle = true from ht)]
      exact ⟨h0, fun _ => rfl, fun hf => absurd ht (by rw [hf]; decide), rfl, rfl⟩
    · dsimp only
      rw [if_neg (show ¬ (s.setRg sysDroopSts (setBits (s.rg sysDroopSts) 15 0 0)).clk.throttle = true from ht)]
      exact ⟨h0, fun h => absurd h ht, fun _ => rfl, rfl, rfl⟩

end Sys2Proof.Proofs
end

section
/-! PROOFS. The cores' commands, watchdogs and timers (R808 to R813). -/

namespace Sys2Proof.Machine

/-! A core starts. -/

theorem State.restartCmd_none {s : State} {x : Nat} (h : s.coreSt x = 0 ∨ 5 ≤ s.coreSt x) : s.restartCmd x = s := if_pos h

/-- Core `x` at its vector, its registers at their reset values. -/
def State.restarted (s : State) (x : Nat) : State :=
  State.coreStart { s with cpu := { s.cpu with halting := s.cpu.halting.filter (· ≠ x) } } x (s.rg (coreOff x coreVec))

theorem State.restartCmd_runs {s : State} {x : Nat} (h : s.coreSt x = 1 ∨ s.coreSt x = 2 ∨ s.coreSt x = 3) :
    s.restartCmd x = (s.restarted x).setCoreSt x 1 := by
  simp only [State.restartCmd]
  rw [if_neg (by omega), if_neg (by omega)]
  rfl

theorem State.restartCmd_gated {s : State} {x : Nat} (h : s.coreSt x = 4) :
    s.restartCmd x = { s.restarted x with cpu := { (s.restarted x).cpu with back := tput (fun _ => 1) (s.restarted x).cpu.back x 1 } } := by
  simp only [State.restartCmd]
  rw [if_neg (by omega), if_pos h]
  rfl

theorem contains_filter_ne (l : List Nat) (x y : Nat) : (l.filter (· ≠ x)).contains y = (l.contains y && decide (y ≠ x)) := by
  by_cases h : y = x <;> simp [h]

theorem State.restarted_frame (s : State) (x : Nat) : (s.restarted x).out = s.out ++ [.start x (s.rg (coreOff x coreVec))] ∧
    (s.restarted x).coreRegs x = { pc := BitVec.ofNat 32 (s.rg (coreOff x coreVec)) } ∧
    (s.restarted x).cpu.halting.contains x = false ∧ (s.restarted x).regs = s.regs ∧
    (s.restarted x).chans = s.chans ∧ (s.restarted x).mem = s.mem := by
  refine ⟨rfl, tget_tput_same _ _ _ _, ?_, rfl, rfl, rfl⟩
  exact (contains_filter_ne s.cpu.halting x x).trans (by simp)

/-! The timer. -/

theorem State.mtimeShow_mtip (s : State) : s.mtimeShow.cpu.mtip = s.cpu.mtip := by
  rw [State.mtimeShow]
  split <;> rfl

theorem State.timerCmp_mtip (s : State) (x cmp : Nat) :
    ((s.timerCmp x cmp).cpu.mtip.contains x = true ↔ cmp ≤ (s.timerCmp x cmp).mtime) ∧
    ∀ y, y ≠ x → (s.timerCmp x cmp).cpu.mtip.contains y = s.cpu.mtip.contains y := by
  have hm : (s.timerCmp x cmp).mtime = s.mtimeShow.mtime := rfl
  have hl : (s.timerCmp x cmp).cpu.mtip =
      if cmp ≤ s.mtimeShow.mtime then x :: s.cpu.mtip.filter (· ≠ x) else s.cpu.mtip.filter (· ≠ x) := by
    rw [← s.mtimeShow_mtip]; rfl
  rw [hm, hl]
  by_cases h : cmp ≤ s.mtimeShow.mtime
  · rw [if_pos h]
    refine ⟨⟨fun _ => h, fun _ => by simp⟩, fun y hy => ?_⟩
    rw [List.contains_cons, contains_filter_ne]
    simp [hy]
  · rw [if_neg h]
    refine ⟨⟨fun hc => ?_, fun hc => absurd hc h⟩, fun y hy => ?_⟩
    · rw [contains_filter_ne] at hc
      simp at hc
    · rw [contains_filter_ne]
      simp [hy]

end Sys2Proof.Machine
namespace Sys2Proof.Proofs
open Sys2Proof.Machine

/-- Settles O45: each command of CORE_CTL is a branch on the core's state, once the core itself is ruled out. -/
theorem cores : Obligations.Cores := by
  refine ⟨fun s a x h => ?_, fun s a x => ?_⟩
  · intro self
    have hstate {c : Bool} (hs : self = c) {eff : State → State} : s.coreCmd a.req x.val eff = if c then s else eff s := by
      rw [State.coreCmd, ← hs]
    have hhalt : exec (.halt a x) s = .next (s.coreCmd a.req x.val (·.haltCmd x.val))  := by
      change execHalt a x s = _
      exact State.mayWrite_next h _ _
    have hrun : exec (.coreRun a x) s = .next (s.coreCmd a.req x.val (·.resumeCmd x.val))  := by
      change execCoreRun a x s = _
      exact State.mayWrite_next h _ _
    have hrestart : exec (.restart a x) s = .next (s.coreCmd a.req x.val (·.restartCmd x.val))  := by
      change execRestart a x s = _
      exact State.mayWrite_next h _ _
    refine ⟨fun hs => ⟨?_, ?_, ?_⟩, fun hs hx hc => ?_, fun hc hx => ?_, fun hs hx => ?_, fun hs hx => ?_, fun hs hx => ?_,
      fun hs hx => ?_, fun hs hx => ?_⟩
    · rw [hhalt, hstate hs]; rfl
    · rw [hrun, hstate hs]; rfl
    · rw [hrestart, hstate hs]; rfl
    · rw [hhalt, hstate hs]
      have hc' : ¬ s.cpu.halting.contains x.val = true := by rw [hc]; decide
      refine congrArg Host.Outcome.next ?_
      rw [if_neg (by decide), State.haltCmd]
      exact if_pos ⟨hx, hc'⟩
    · refine ⟨{ s.setCoreSt x.val 3 with cpu := { s.cpu with halting := s.cpu.halting.filter (· ≠ x.val) } },
        congrArg Host.Outcome.next (if_pos ⟨hc, hx⟩), ?_, ?_, fun y _ hy => ?_, fun o ho => State.rg_setRg_ne s _ ho, rfl, rfl⟩
      · exact (s.coreSt_setCoreSt _ _ (by decide)).trans (if_pos rfl)
      · exact (contains_filter_ne s.cpu.halting _ _).trans (by simp)
      · exact (s.coreSt_setCoreSt _ _ (by decide)).trans (if_neg hy)
    · rw [hrun, hstate hs]
      exact congrArg Host.Outcome.next (if_pos hx)
    · rw [hrun, hstate hs]
      exact congrArg Host.Outcome.next (if_neg hx)
    · obtain ⟨ho, hr, hh, hg, hc, hm⟩ := s.restarted_frame x.val
      refine ⟨_, hrestart.trans (congrArg Host.Outcome.next ((hstate hs).trans (State.restartCmd_runs hx))), ?_, ho, hr, hh,
        fun o hne => (State.rg_setRg_ne _ _ hne).trans (State.rg_congr hg o), hc, hm⟩
      rw [State.coreSt_setCoreSt _ _ _ (by decide), if_pos rfl]
    · obtain ⟨ho, hr, hh, hg, hc, hm⟩ := s.restarted_frame x.val
      refine ⟨_, hrestart.trans (congrArg Host.Outcome.next ((hstate hs).trans (State.restartCmd_gated hx))), ?_,
        tget_tput_same _ _ _ _, hr, hg, hc, hm⟩
      exact (State.coreSt_congr (t := s.restarted x.val) (State.rg_congr hg _)).trans hx
    · rw [hrestart, hstate hs]
      exact congrArg Host.Outcome.next (State.restartCmd_none hx)
  · intro loaded
    refine ⟨tget_tput_same _ _ _ _, fun hr hz hv hm hl => ?_, fun hv hn => ?_, fun h hv => ⟨?_, fun v hne => ?_⟩, fun cmp => ?_⟩
    · have f := State.faultOf (s := s.wdogLoad x.val) (f := frCore x.val) (i := fxWdog) hm hl (by decide)
      refine ⟨(s.wdogLoad x.val).fault (frCore x.val) fxWdog, congrArg Host.Outcome.next ?_, f.set, f.cpu, f.rg, f.chans, f.mem⟩
      rw [State.votes_none hv]
      exact if_pos ⟨hr, hz⟩
    · refine congrArg Host.Outcome.next ?_
      rw [State.votes_none hv]
      exact if_neg fun ⟨h1, h2⟩ => hn.elim (fun h => absurd h1 (by rw [h]; decide)) fun h => h h2
    · change execCoreKick a x _ s = _
      refine (State.mayWrite_next h _ _).trans (congrArg Host.Outcome.next ?_)
      rw [State.votes_none hv]
      exact if_pos rfl
    · change execCoreKick a x _ s = _
      refine (State.mayWrite_next h _ _).trans (congrArg Host.Outcome.next ?_)
      rw [State.votes_none hv]
      exact if_neg fun e => hne (BitVec.eq_of_toNat_eq e)
    · obtain ⟨hx, hy⟩ := s.timerCmp_mtip x.val cmp.toNat
      obtain ⟨r, c, e⟩ := s.mtimeShow_only
      refine ⟨_, rfl, hx, fun hr => ?_, hy, ?_, ?_⟩
      · have hs : s.mtimeShow = s := by rw [State.mtimeShow, if_pos (.inl hr)]
        exact (congrArg State.regs hs :)
      · exact (congrArg State.chans e :)
      · exact (congrArg State.mem e :)

end Sys2Proof.Proofs
end

section
/-! PROOFS. The end of a firmware update whose slot is that of no core (R824, R825). -/

namespace Sys2Proof.Machine

/-- An update of slot 16, from the good image whose header stands at the start of core memory. -/
def slotSixteen : State := { State.reset with mem := headerMem, cpu := { upd := some ⟨16, bootStage⟩ } }

/-- The image is good. -/
theorem slotSixteen_good : slotSixteen.imageWhy bootStage 0x80000 .pass = 0 := by decide

/-- CORE_VEC of slot 16 would stand where SYS_CORE_UPD_STS stands, whose REASON the end of the update clears. -/
theorem slotSixteen_vec : coreOff 16 coreVec = sysCoreUpdSts := rfl

/-- REASON of SYS_CORE_UPD_STS after the end of the update. -/
theorem slotSixteen_reason : bitsOf ((slotSixteen.updEnd .pass).rg sysCoreUpdSts) 11 8 = 0 := by decide

end Sys2Proof.Machine
namespace Sys2Proof.Proofs
open Sys2Proof.Machine

/-- Refutes O46: the statement takes an update of any slot, and slot 16 has no CORE_VEC: its offset is that of
SYS_CORE_UPD_STS, which the end of the update writes after the vector. -/
theorem not_firmwareUpdate : ¬ Obligations.FirmwareUpdate := by
  intro h
  obtain ⟨-, -, hgood⟩ := (h slotSixteen ⟨.host, .priv⟩).2 ⟨16, bootStage⟩ .pass rfl rfl
  obtain ⟨t, ht, -, -, hvec, -⟩ := hgood rfl slotSixteen_good
  cases ht
  have hr := slotSixteen_reason
  rw [← slotSixteen_vec, hvec] at hr
  revert hr
  decide

end Sys2Proof.Proofs
end

section
/-! PROOFS. The patrols of the memories and the training of DDR5 (R164, R817 to R823). -/

namespace Sys2Proof.Machine

/-! What a patrol finds where no word stands in error. -/

section
variable {s : State} (hu : s.memUE = []) (hc : s.memCE = []) (p : Nat → Bool)
include hu hc

theorem State.patrolled_none : s.patrolled p [] = [] := by
  rw [State.patrolled, hu, hc]; rfl

theorem State.patrolled_one (w : Nat) (b : Bool) (hp : p w = true) : s.patrolled p [⟨w, b⟩] = [(codeword w, !b)] := by
  rw [State.patrolled, hu, hc]
  cases b <;> simp [hp, List.eraseDups, List.eraseDupsBy, List.eraseDupsBy.loop]

end

theorem codeword_sram {w : Nat} (h : w < 0x6000000) : codeword w = w / 32 * 32 := if_pos (by omega)
theorem codeword_ddr {w : Nat} (h : ddrBase ≤ w) : codeword w = w / 128 * 128 := if_neg (by unfold ddrBase at h; omega)

theorem codeword_codeword (w : Nat) : codeword (codeword w) = codeword w := by
  by_cases h : w < 0x4000000000
  · have e : codeword w = w / 32 * 32 := if_pos h
    rw [e]
    exact (if_pos (by omega)).trans (by omega)
  · have e : codeword w = w / 128 * 128 := if_neg h
    rw [e]
    exact (if_neg (by omega)).trans (by omega)

/-! An uncorrectable word. -/

/-- An uncorrectable word stands marked, with its address where its memory records it. -/
def State.ueMarked (s : State) (w : Nat) : State :=
  State.ueAt { s with memUE := if s.memUE.contains w then s.memUE else s.memUE ++ [w] } w

theorem State.ueAt_only (s : State) (w : Nat) : ∃ r, s.ueAt w = { s with regs := r } := by
  rw [State.ueAt]; split <;> exact ⟨_, rfl⟩

theorem State.ueMarked_frame {s : State} (hu : s.memUE = []) (w : Nat) : (s.ueMarked w).memUE = [w] ∧ (s.ueMarked w).memCE = s.memCE ∧
    (s.ueMarked w).chans = s.chans ∧ (s.ueMarked w).mem = s.mem ∧ (s.ueMarked w).voteErr = s.voteErr ∧ (s.ueMarked w).later = s.later := by
  obtain ⟨r, e⟩ := State.ueAt_only { s with memUE := if s.memUE.contains w then s.memUE else s.memUE ++ [w] } w
  rw [State.ueMarked, e, hu]
  exact ⟨rfl, rfl, rfl, rfl, rfl, rfl⟩

theorem State.rg_ueMarked_sram (s : State) {w : Nat} (h : w < ddrBase) (o : Nat) : (s.ueMarked w).rg o =
    if o = 0xF0000 + memcSramAddr then w % 4294967296 else s.rg o := by
  rw [State.ueMarked, State.ueAt, if_pos h, State.rg_setRg]
  rfl

/-- The two halves of an address where DDR5 channel `x` records it. -/
theorem State.rg_ueMarked_ddr (s : State) {w x : Nat} (h : ddrBase ≤ w) (hx : ddrOf (w - ddrBase) = x) :
    (s.ueMarked w).rg (ddrOff x memcDdrAddr) = (w - ddrBase) % 4294967296 ∧
    ∀ o, o ∉ [ddrOff x memcDdrAddr, ddrOff x (memcDdrAddr + 4)] → (s.ueMarked w).rg o = s.rg o := by
  rw [State.ueMarked, State.ueAt, if_neg (Nat.not_lt.mpr h)]
  dsimp only
  rw [hx]
  refine ⟨?_, fun o ho => ?_⟩
  · rw [State.rg_setRg_ne _ _ (by unfold ddrOff; omega), State.rg_setRg_same]
    exact Nat.mod_eq_of_lt (Nat.mod_lt _ (by decide))
  · rw [State.rg_setRg_ne _ _ fun e => ho (by simp [e]), State.rg_setRg_ne _ _ fun e => ho (by simp [e])]
    rfl

/-! The patrols. -/

theorem State.sramScrub_one {s : State} (hu : s.memUE = []) (hc : s.memCE = []) {w : Nat} (hw : w < 0x6000000) (b : Bool) :
    s.sramScrub [⟨w, b⟩] = s.sramFound (codeword w) (!b) := by
  rw [State.sramScrub, State.patrolled_one hu hc _ w b (decide_eq_true hw)]
  rfl

theorem State.ddrScrub_one {s : State} (hu : s.memUE = []) (hc : s.memCE = []) {w x : Nat} (hr : s.ddrReady x = true)
    (h1 : ddrBase + 137438953472 * x ≤ w) (h2 : w < ddrBase + 137438953472 * x + s.ddrSize x) (b : Bool) :
    s.ddrScrub x [⟨w, b⟩] = s.ddrFound x (codeword w) (!b) := by
  rw [State.ddrScrub, if_neg (by rw [hr]; decide)]
  dsimp only
  rw [State.patrolled_one hu hc _ w b (by rw [decide_eq_true h1, decide_eq_true h2]; rfl)]
  rfl

theorem ddrBytes_le (c : Nat) : ddrBytes c ≤ 137438953472 := by
  unfold ddrBytes
  split
  · next h =>
    obtain ⟨h1, h5⟩ := h
    interval_cases c <;> decide
  · decide

theorem ddrOf_codeword {w x : Nat} (hx : x < 2) (h1 : ddrBase + 137438953472 * x ≤ w) (h2 : w < ddrBase + 137438953472 * (x + 1)) :
    ddrBase ≤ codeword w ∧ ddrOf (codeword w - ddrBase) = x := by
  unfold ddrBase at *
  have e : codeword w = w / 128 * 128 := codeword_ddr (by unfold ddrBase; omega)
  rw [e, ddrOf]
  refine ⟨by omega, ?_⟩
  split <;> omega

/-- The word is good again, and counted. -/
def State.ceFixed (s : State) (w : Nat) : State := { s with memCE := s.memCE.filter (· ≠ w) }

theorem State.sramFound_ce (s : State) (w : Nat) : s.sramFound w false = (s.ceFixed (codeword w)).fault frMemc fmSramCe := by
  rw [State.sramFound]; exact if_neg (by decide)
theorem State.ddrFound_ce (s : State) (x w : Nat) : s.ddrFound x w false = (s.ceFixed (codeword w)).fault frMemc (fmDdrCe x) := by
  rw [State.ddrFound]; exact if_neg (by decide)
theorem State.ddrFound_ue (s : State) (x w : Nat) : s.ddrFound x w true = (s.ueMarked (codeword w)).fault frMemc (fmDdrUe x) := by
  rw [State.ddrFound]; exact if_pos rfl
theorem State.sramFound_ue (s : State) (w : Nat) : s.sramFound w true =
    if 0x5000000 ≤ codeword w ∧ codeword w < 0x5100000 then
      ((s.ueMarked (codeword w)).fault frMemc fmSramUe).setStale ((codeword w - 0x5000000) / 0x400 / 16)
        ((codeword w - 0x5000000) / 0x400 % 16) false
    else (s.ueMarked (codeword w)).fault frMemc fmSramUe := by
  rw [State.sramFound]; exact if_pos rfl

/-- The fault of a source whose cause is not there yet. -/
theorem State.raise_begun {s : State} {f i : Nat} (h : s.mild f = true) (hl : s.later = []) (hi : i < 20)
    (hc : s.causes.contains (f * 32 + i) = false) : ∃ cs, FaultOf f i { s with causes := cs } (s.raise f i) := by
  have hn : (!(((srcsOf f).getD i ⟨15, false, 0⟩).lvl && s.causes.contains (f * 32 + i))) = true := by rw [hc, Bool.and_false]; rfl
  rw [State.raise, State.onset0, State.onsets0]
  dsimp only
  rw [List.filter_cons_of_pos (by exact hn), List.filter_nil, if_neg (by simp)]
  exact ⟨_, State.faultOf (s := { s with causes := _ }) h hl hi⟩

end Sys2Proof.Machine
namespace Sys2Proof.Proofs
open Sys2Proof.Machine

/-- Settles O47: a patrol of clean memories judges the one word that it is told of; training writes STATE. -/
theorem memoryPatrols : Obligations.MemoryPatrols := by
  intro s a x hm hl st same
  have hx := x.isLt
  have hmild {u : State} (hv : u.voteErr = s.voteErr) (hr : u.rg (fltOff frMemc fltReact) = s.rg (fltOff frMemc fltReact)) :
      u.mild frMemc = true := State.mild_of_subset hm (fun _ h => hv ▸ h) hr
  have hfix (w : Nat) (hc : s.memCE = []) : (s.ceFixed w).memCE = [] := by rw [State.ceFixed, hc]; rfl
  have hsts {u : State} {v : Nat} (hv : v < 8) :
      bitsOf ((u.setRg (ddrOff x.val memcDdrSts) v).rg (ddrOff x.val memcDdrSts)) 2 0 = v := by
    rw [State.rg_setRg_same, Nat.mod_eq_of_lt (by omega)]
    simpa [bitsOf] using hv
  refine ⟨fun hu hc => ⟨?_, ?_, fun w hw => ⟨?_, ?_⟩⟩, fun hu hc w hr h1 h2 => ⟨?_, ?_⟩, fun h hz hs => ?_, fun hs => ?_, fun hs => ?_,
    fun hs hage hcause => ?_⟩
  · refine congrArg Host.Outcome.next ?_
    rw [State.sramScrub, State.patrolled_none hu hc]
    rfl
  · refine congrArg Host.Outcome.next ?_
    rw [State.ddrScrub]
    dsimp only
    rw [State.patrolled_none hu hc]
    exact ite_self s
  · have f := State.faultOf (s := s.ceFixed (codeword (codeword w))) (i := fmSramCe) (hmild rfl rfl) hl (by decide)
    exact ⟨_, congrArg Host.Outcome.next ((State.sramScrub_one hu hc hw true).trans (State.sramFound_ce _ _)), f.set,
      f.memUE.trans hu, f.memCE.trans (hfix _ hc), f.rg, f.chans, f.mem⟩
  · have hlow : codeword w < ddrBase := by rw [codeword_sram hw]; unfold ddrBase; omega
    obtain ⟨mu, mc, ch, me, vo, la⟩ := State.ueMarked_frame hu (codeword w)
    have hrg := s.rg_ueMarked_sram hlow
    have f := State.faultOf (s := s.ueMarked (codeword w)) (i := fmSramUe) (hmild vo ((hrg _).trans (if_neg (by decide)))) (la.trans hl)
      (by decide)
    have e : exec (.sramPatrol [⟨w, false⟩]) s = .next (s.sramFound (codeword w) true) :=
      congrArg Host.Outcome.next (State.sramScrub_one hu hc hw false)
    have hadr : ((s.ueMarked (codeword w)).fault frMemc fmSramUe).rg (0xF0000 + memcSramAddr) = codeword w := by
      rw [f.rg _ (by decide), hrg, if_pos rfl]
      exact Nat.mod_eq_of_lt (by rw [codeword_sram hw]; omega)
    have hout {o : Nat} (ho : o ∉ (0xF0000 + memcSramAddr) :: reportRegs frMemc) :
        ((s.ueMarked (codeword w)).fault frMemc fmSramUe).rg o = s.rg o := by
      rw [List.mem_cons, not_or] at ho
      exact (f.rg o ho.2).trans ((hrg o).trans (if_neg ho.1))
    rw [State.sramFound_ue, codeword_codeword] at e
    by_cases hin : 0x5000000 ≤ codeword w ∧ codeword w < 0x5100000
    · rw [if_pos hin] at e
      refine ⟨_, e, f.set, f.memUE.trans mu, hadr, fun o ho => hout ho, f.mem.trans me, fun h => by omega, fun _ _ => ⟨?_, fun m hne => ?_⟩⟩
      · rw [State.setStale, State.ch_updCh_same]
        rw [BitVec.getLsbD_and, BitVec.getLsbD_not, BitVec.getLsbD_ofNat, Nat.testBit_two_pow]
        simp
      · rw [State.setStale, State.ch_updCh_ne _ _ hne]
        exact State.ch_congr (f.chans.trans ch) m
    · rw [if_neg hin] at e
      exact ⟨_, e, f.set, f.memUE.trans mu, hadr, fun o ho => hout ho, f.mem.trans me, fun _ => f.chans.trans ch,
        fun h h' => absurd ⟨h, h'⟩ hin⟩
  · have f := State.faultOf (s := s.ceFixed (codeword (codeword w))) (i := fmDdrCe x.val) (hmild rfl rfl) hl (by unfold fmDdrCe; omega)
    exact ⟨_, congrArg Host.Outcome.next ((State.ddrScrub_one hu hc hr h1 h2 true).trans (State.ddrFound_ce _ _ _)), f.set,
      f.rg, f.chans, f.mem⟩
  · have hsz : s.ddrSize x.val ≤ 137438953472 := ddrBytes_le _
    obtain ⟨hb, ho⟩ := ddrOf_codeword hx h1 (by omega)
    obtain ⟨mu, -, ch, me, vo, la⟩ := State.ueMarked_frame hu (codeword w)
    obtain ⟨hadr, hrg⟩ := s.rg_ueMarked_ddr hb ho
    have hrep : ∀ r, r < 32 → ddrOff x.val r ∉ reportRegs frMemc := fun r hr => reportRegs_above (by
      rw [frameOff_frMemc]; unfold ddrOff; omega)
    have f := State.faultOf (s := s.ueMarked (codeword w)) (i := fmDdrUe x.val) (hmild vo (hrg _ (by
      simp only [fltOff, frameOff_frMemc, ddrOff, List.mem_cons, List.not_mem_nil, or_false, not_or]
      unfold fltReact memcDdrAddr; omega))) (la.trans hl) (by unfold fmDdrUe; omega)
    refine ⟨_, congrArg Host.Outcome.next ((State.ddrScrub_one hu hc hr h1 h2 false).trans ((State.ddrFound_ue _ _ _).trans ?_)),
      f.set, f.memUE.trans mu, (f.rg _ (hrep _ (by decide))).trans hadr, fun o ho => ?_, f.chans.trans ch, f.mem.trans me⟩
    · rw [codeword_codeword]
    · rw [List.mem_append, not_or] at ho
      exact (f.rg o ho.2).trans (hrg o ho.1)
  · change execInit a x s = _
    exact (State.mayWrite_next h _ _).trans (congrArg Host.Outcome.next (if_pos ⟨hz, hs⟩))
  · exact ⟨_, congrArg Host.Outcome.next (if_pos hs), hsts (by decide), fun o ho => State.rg_setRg_ne s _ ho, rfl, rfl⟩
  · exact congrArg Host.Outcome.next (if_neg hs)
  · have hne {o : Nat} (ho : o ≠ ddrOff x.val memcDdrSts) : (s.setRg (ddrOff x.val memcDdrSts) 4).rg o = s.rg o := State.rg_setRg_ne _ _ ho
    obtain ⟨cs, f⟩ := State.raise_begun (s := s.setRg (ddrOff x.val memcDdrSts) 4) (f := frMemc) (i := fmDdrLink x.val)
      (hmild rfl (hne (by rw [fltOff, frameOff_frMemc]; unfold ddrOff fltReact memcDdrSts; omega))) hl (by unfold fmDdrLink; omega) hcause
    refine ⟨_, congrArg Host.Outcome.next (if_pos ⟨hs, hage⟩), ?_, f.set, fun o ho => ?_, f.chans, f.mem⟩
    · refine (congrArg (bitsOf · 2 0) (f.rg _ (reportRegs_above ?_))).trans (hsts (by decide))
      rw [frameOff_frMemc]; unfold ddrOff memcDdrSts; omega
    · rw [List.mem_cons, not_or] at ho
      exact (f.rg o ho.2).trans (hne ho.1)

end Sys2Proof.Proofs
end

section
/-! PROOFS. The host's DMA engines (R831 to R833). -/

namespace Sys2Proof.Machine

/-! What an engine asks of the host. -/

/-- The read requests of engine `e` for its descriptor, and for the data of one that writes into the device. -/
def State.dmaAsks (s : State) (e : Nat) (d : DmaDesc) : List Out :=
  hostReads s.readMax (s.dmaAt e) 32 32 ++ (if dmaBad d || d.toHost then [] else hostReads s.readMax d.hostAddr.toNat d.len d.len)

theorem State.dmaAsks_head (s : State) (e : Nat) (d : DmaDesc) (ha : s.dmaAt e % 32 = 0) (h : 32 ≤ s.readMax) (hm : s.readMax % 32 = 0) :
    (s.dmaAsks e d).head? = some (.hostRead (s.dmaAt e) 32) := by
  have hq : s.dmaAt e % s.readMax % 32 = 0 := by
    rw [Nat.mod_mod_of_dvd _ (Nat.dvd_of_mod_eq_zero hm)]; exact ha
  have hlt := Nat.mod_lt (s.dmaAt e) (show 0 < s.readMax by omega)
  have hc : min 32 (s.readMax - s.dmaAt e % s.readMax) = 32 := by omega
  rw [State.dmaAsks, hostReads, if_neg (by decide), hc]
  rfl

/-- What the host has been asked. -/
def State.dmaAsked (s : State) (e : Nat) (d : DmaDesc) : State := { s with out := s.out ++ s.dmaAsks e d }

section
variable {s : State} {e : Nat} {ws : List Word} (data : List Byte) (hostErr : Bool) (h : s.dmaReady e = true)
include h

theorem State.dmaTake_bad (hb : dmaBad (dmaDesc ws) = true ∨ hostErr = true) :
    s.dmaTake e ws data hostErr = (s.dmaAsked e (dmaDesc ws)).dmaStop e := by
  simp only [State.dmaTake]
  rw [if_neg (by rw [h]; decide), if_pos hb]
  rfl

theorem State.dmaTake_in (hb : dmaBad (dmaDesc ws) = false) (ht : (dmaDesc ws).toHost = false) {u : State}
    (hin : (s.dmaAsked e (dmaDesc ws)).dmaIn (dmaDesc ws).devAddr (data.take (dmaDesc ws).len) ((dmaDesc ws).len + 1) = (u, true)) :
    s.dmaTake e ws data false = u.setDma e { cur := some (dmaDesc ws) } := by
  simp only [State.dmaTake]
  rw [if_neg (by rw [h]; decide), if_neg (by rw [hb]; decide), if_neg (by rw [ht]; decide)]
  change (if ((s.dmaAsked e (dmaDesc ws)).dmaIn (dmaDesc ws).devAddr (data.take (dmaDesc ws).len) ((dmaDesc ws).len + 1)).2 = true then
      ((s.dmaAsked e (dmaDesc ws)).dmaIn (dmaDesc ws).devAddr (data.take (dmaDesc ws).len) ((dmaDesc ws).len + 1)).1.setDma e
        { cur := some (dmaDesc ws) }
    else ((s.dmaAsked e (dmaDesc ws)).dmaIn (dmaDesc ws).devAddr (data.take (dmaDesc ws).len) ((dmaDesc ws).len + 1)).1.dmaStop e) = _
  rw [hin]
  rfl

end

/-! Eight bytes into a core's memory. -/

theorem State.wordWrite_good {s : State} (hu : s.memUE = []) (hc : s.memCE = []) (a : Nat) (bs : List Byte) :
    s.wordWrite a bs = { st := (s.store a bs).memTouch a bs.length } := by
  simp only [State.wordWrite, hu, hc, List.contains_nil, Bool.false_eq_true, and_false, if_false]

section
variable {a : Nat} (h1 : 0x5400000 ≤ a) (h2 : a < 0x5800000)
include h1 h2

theorem State.memProt_core (s : State) (n : Nat) : s.memProt a n = none := by
  refine State.memProt_cal s (by omega) ?_
  have hobj : calObjAt a = none := by
    unfold calObjAt
    rw [if_neg (by omega), if_neg (by omega), if_neg (by omega)]
  rw [State.calProt, hobj]

theorem State.dmaIn_word {s : State} (h8 : a % 8 = 0) (hu : s.memUE = []) (hc : s.memCE = []) {bs : List Byte}
    (hl : bs.length = 8) (k : Nat) : s.dmaIn a bs (k + 1 + 1) = (s.store a bs, true) := by
  have hb : bs ≠ [] := fun e => by rw [e] at hl; exact absurd hl (by decide)
  have hcw : codeword a = a / 32 * 32 := codeword_sram (by omega)
  have hn : min (codeword a + 32 - a) bs.length = 8 := by rw [hcw, hl]; omega
  have hcause : s.dmaCause true a = 0 := by
    rw [State.dmaCause, if_pos (by omega), if_neg (by omega), State.memProt_core h1 h2]
    rfl
  have hclear : s.dmaClear true a 8 = 1 := by
    rw [State.dmaClear, show (8 / 8 : Nat) = 1 from rfl, show List.range 1 = [0] from rfl,
      List.takeWhile_cons_of_pos (by exact decide_eq_true hcause)]
    rfl
  have hwake : s.ddrWake a = s := if_neg (by unfold ddrBase; omega)
  have htake : bs.take 8 = bs := List.take_of_length_le (by omega)
  have hdrop : bs.drop 8 = [] := List.drop_of_length_le (by omega)
  rw [State.dmaIn, if_neg hb]
  dsimp only
  rw [if_pos (show a < ddrBase by unfold ddrBase; omega), hn, hclear, if_neg (show ¬ a < 0x4000000 by omega),
    if_neg (show ¬ 8 * 1 = 0 by decide), hwake, htake, State.wordWrite_good hu hc, State.memTouch_cal _ (by omega), hdrop]
  dsimp only
  rw [if_neg (by decide), if_neg (by decide), State.dmaIn, if_pos rfl]

end

/-! A descriptor that is done. -/

theorem State.dmaEnd_plain {s : State} {e : Nat} {c : DmaDesc} (h : (s.dma e).cur = some c) (hp : c.postOff = 0) :
    s.dmaEnd e = if c.irq = true ∧ ¬ s.hostp.dmaIrq.contains e = true then
      { (s.setDma e {}).countWrap (dmaOff e dmaRptr) with
        hostp := { (s.setDma e {}).hostp with dmaIrq := s.hostp.dmaIrq ++ [e] } }
      else (s.setDma e {}).countWrap (dmaOff e dmaRptr) := by
  simp only [State.dmaEnd, h]
  rw [if_pos hp]
  rfl

/-- A fault stops the engine. -/
theorem State.dmaStop_stops {s : State} (e : DmaId) (hm : s.mild frHost = true) (hl : s.later = []) :
    FaultOf frHost fhDmaErr (s.dmaHalt e.val) (s.dmaStop e.val) ∧ (s.dmaStop e.val).rgBit (dmaOff e.val dmaCtl) 2 = true ∧
    ∀ o, o ∉ dmaOff e.val dmaCtl :: reportRegs frHost → (s.dmaStop e.val).rg o = s.rg o := by
  have he := e.isLt
  have hne {o : Nat} (h : o ≠ dmaOff e.val dmaCtl) : (s.dmaHalt e.val).rg o = s.rg o := State.rg_putRg_ne _ _ h
  have hf : frameOff frHost = 0xFF000 := rfl
  have hctl : dmaOff e.val dmaCtl < 0xFF000 := by unfold dmaOff dmaCtl; omega
  have f := State.faultOf (s := s.dmaHalt e.val) (i := fhDmaErr)
    (State.mild_of_subset hm (fun _ h => h) (hne (by rw [fltOff, hf]; omega))) hl (by decide)
  refine ⟨f, ?_, fun o ho => ?_⟩
  · exact (State.rgBit_congr (f.rg _ (reportRegs_above (by rw [hf]; exact hctl))) 2).trans
      ((State.rgBit_putRg _ (by decide) _ _ _).trans (if_pos rfl))
  · rw [List.mem_cons, not_or] at ho
    exact (f.rg o ho.2).trans (hne ho.1)

end Sys2Proof.Machine
namespace Sys2Proof.Proofs
open Sys2Proof.Machine

/-- Settles O48: an engine's descriptor is bad, or its eight bytes are stored; its end counts RPTR. -/
theorem hostDma : Obligations.HostDma := by
  intro s a e ws data hostErr d fetched
  have hasked : ∀ t : State, t.out = s.out ++ s.dmaAsks e.val d → fetched t := fun t ht => ⟨_, ht, s.dmaAsks_head e.val d⟩
  refine ⟨fun v h => ?_, fun h => congrArg Host.Outcome.next (if_pos (by rw [h]; decide)), fun h hb hm hl => ?_,
    fun h hb ht h8 hlen h1 h2 hu hc => ?_, fun c hc hp => ?_, fun hc => ?_⟩
  · obtain ⟨r, o, el⟩ := s.linesRise_only
    change execHostDmaWptr a e v s = _
    refine (State.mayWrite_next h _ _).trans ?_
    rw [State.dmaWptrCmd, el]
  · obtain ⟨f, hbit, hrg⟩ := State.dmaStop_stops (s := s.dmaAsked e.val d) e hm hl
    refine ⟨_, congrArg Host.Outcome.next (State.dmaTake_bad data hostErr h hb), hasked _ f.out, hbit, f.set, hrg _ ?_, hrg, f.chans, f.mem⟩
    have he := e.isLt
    have hf : frameOff frHost = 0xFF000 := rfl
    rw [List.mem_cons, not_or]
    exact ⟨by unfold dmaOff dmaRptr dmaCtl; omega, reportRegs_above (by rw [hf]; unfold dmaOff dmaRptr; omega)⟩
  · have htk : data.take d.len = data := List.take_of_length_le (by omega)
    have hd8 : d.devAddr % 8 = 0 := by
      by_contra hne
      have : dmaBad d = true := by simp [dmaBad, hne]
      rw [hb] at this
      exact absurd this (by decide)
    have hin : (s.dmaAsked e.val d).dmaIn d.devAddr (data.take d.len) (d.len + 1) = ((s.dmaAsked e.val d).store d.devAddr data, true) := by
      rw [htk, h8]
      exact State.dmaIn_word (s := s.dmaAsked e.val d) h1 h2 hd8 hu hc hlen 7
    refine ⟨_, congrArg Host.Outcome.next (State.dmaTake_in data h hb ht hin), hasked _ ?_, ?_, ?_, fun b hb => ?_, ?_, fun o ho => ?_⟩
    · exact State.store_out _ _ _
    · have hbytes := (s.dmaAsked e.val d).store_bytes d.devAddr data
      rw [hlen] at hbytes
      exact hbytes
    · exact congrArg Dma.cur (tget_tput_same _ _ _ _)
    · exact State.store_byte_out _ _ _ _ (by omega)
    · exact State.store_chans _ _ _
    · exact State.store_rg _ _ _ _ ho
  · have hr (o : Nat) : ((s.setDma e.val {}).countWrap (dmaOff e.val dmaRptr)).rg o =
        if o = dmaOff e.val dmaRptr then wrapAdd (s.rg (dmaOff e.val dmaRptr)) 1 else s.rg o := by
      rw [State.countWrap, State.rg_setRg]
      by_cases ho : o = dmaOff e.val dmaRptr
      · rw [if_pos ho, if_pos ho]
        exact Nat.mod_eq_of_lt (Nat.mod_lt _ (by decide))
      · rw [if_neg ho, if_neg ho]; rfl
    have hcur : (((s.setDma e.val {}).dma e.val).cur) = none := congrArg Dma.cur (tget_tput_same _ _ _ _)
    refine ⟨_, congrArg Host.Outcome.next (State.dmaEnd_plain hc hp), ?_⟩
    by_cases hi : c.irq = true ∧ ¬ s.hostp.dmaIrq.contains e.val = true
    · rw [if_pos hi]
      refine ⟨hcur, (hr _).trans (if_pos rfl), fun _ => ?_, fun o ho => (hr o).trans (if_neg ho), rfl, rfl⟩
      exact List.contains_iff_mem.2 (List.mem_append_right _ (List.mem_singleton.2 rfl))
    · rw [if_neg hi]
      exact ⟨hcur, (hr _).trans (if_pos rfl), fun h => not_not.1 fun hn => hi ⟨h, hn⟩, fun o ho => (hr o).trans (if_neg ho), rfl, rfl⟩
  · refine congrArg Host.Outcome.next ?_
    rw [State.dmaEnd, hc]

end Sys2Proof.Proofs
end

section
/-! PROOFS. Packets from the host, and the PCI Express link (R673, R827 to R829, R833). -/

namespace Sys2Proof.Machine

/-! A word of a core's memory. -/

section
variable {s : State} {r : Req} {a : Nat} (h1 : 0x5400000 ≤ a) (h2 : a < 0x5800000) (h4 : a % 4 = 0)
include h1 h2 h4

theorem State.memCause_core (wr : Bool) : s.memCause r wr a 4 = 0 := by
  have hg : memGuarded a = false := by
    simp only [memGuarded, Bool.or_eq_false_iff, Bool.and_eq_false_iff, decide_eq_false_iff_not]
    omega
  rw [State.memCause, if_neg (by decide), if_neg (not_not.mpr h4), if_pos (by omega), hg, if_neg (by simp)]

variable (hu : s.memUE = []) (hc : s.memCE = [])
include hu hc

theorem State.busWrite_core {bs : List Byte} (hl : bs.length = 4) : s.busWrite r a bs = { st := s.store a bs } := by
  have hwake : s.ddrWake a = s := if_neg (by unfold ddrBase; omega)
  rw [State.busWrite_mem _ _ (by omega), State.memWrite]
  dsimp only
  rw [hl, State.memCause_core h1 h2 h4, if_neg (by decide), if_neg (show ¬ a < 0x4000000 by omega), State.memProt_core h1 h2]
  dsimp only
  rw [hwake, State.wordWrite_good hu hc, State.memTouch_cal _ (by omega)]
  exact Acs.told_good rfl _ _

variable (hr : r = .host ∨ r = .fabric)
include hr

theorem State.busRead_core : s.busRead r a 4 = { st := s, data := s.bytes a 4 } := by
  have hin : ¬ inRegs a = true := by
    rw [inRegs, decide_eq_false (by omega : ¬ 0x10000000 ≤ a)]; exact Bool.false_ne_true
  have hwake : s.ddrWake a = s := if_neg (by unfold ddrBase; omega)
  rw [State.busRead, show s.coreAddr r a = a by obtain rfl | rfl := hr <;> rfl]
  rw [if_neg hin, State.memRead]
  rw [State.memCause_core h1 h2 h4, if_neg (by decide), hwake, State.wordRead, hu, hc]
  exact Acs.told_good rfl _ _

end

/-- A packet of one whole word is one access. -/
theorem State.tlpIn_word {s : State} {off : Nat} (hl : s.hostp.linkUp = true) (h : off < 0x8000000) (h4 : off % 4 = 0) (wr : Bool) (w : Word) :
    s.tlpIn .bar4 off wr 15 0 [w] =
      (let r := s.tlpRun wr (leBytes 4 w.toNat) [] [(off, 0, 4)]
       if wr then r.1 else { r.1 with out := r.1.out ++ [.cpl r.2] }) := by
  have hb : tlpBad .bar4 off wr 15 0 1 = none := by
    have hs : ¬ barSize .bar4 ≤ off := by rw [show barSize .bar4 = 0x8000000 from rfl]; omega
    rw [tlpBad, if_neg hs, if_neg (by rw [h4]; decide), if_neg (by decide), if_neg (by simp)]
  simp only [State.tlpIn]
  rw [if_neg (by rw [hl]; decide), if_neg (by decide)]
  simp only [barAddr, List.length_singleton, hb]
  rfl

/-! The link. -/

theorem State.dmaHalt_frame (s : State) (e : Nat) : (s.dmaHalt e).chans = s.chans ∧ (s.dmaHalt e).mem = s.mem ∧
    (s.dmaHalt e).voteErr = s.voteErr ∧ (s.dmaHalt e).later = s.later ∧ (s.dmaHalt e).causes = s.causes ∧
    (s.dmaHalt e).hostp.linkUp = s.hostp.linkUp ∧
    (∀ o, o ≠ dmaOff e dmaCtl → (s.dmaHalt e).rg o = s.rg o) ∧ (s.dmaHalt e).rgBit (dmaOff e dmaCtl) 2 = true :=
  ⟨rfl, rfl, rfl, rfl, rfl, rfl, fun o h => State.rg_putRg_ne (s.setDma e {}) _ h,
    (State.rgBit_putRg (s.setDma e {}) (by decide) _ true 2).trans (if_pos rfl)⟩

theorem dmaCtl_inj {d e : Nat} (h : d ≠ e) : dmaOff d dmaCtl ≠ dmaOff e dmaCtl := by unfold dmaOff; omega

/-- The engines of a list stop. -/
structure DmaHalted (l : List Nat) (s t : State) : Prop where
  chans : t.chans = s.chans
  mem : t.mem = s.mem
  voteErr : t.voteErr = s.voteErr
  later : t.later = s.later
  causes : t.causes = s.causes
  link : t.hostp.linkUp = s.hostp.linkUp
  rg : ∀ o, (∀ e ∈ l, o ≠ dmaOff e dmaCtl) → t.rg o = s.rg o
  err : ∀ e, e ∈ l ∨ s.rgBit (dmaOff e dmaCtl) 2 = true → t.rgBit (dmaOff e dmaCtl) 2 = true

theorem State.foldl_dmaHalt (l : List Nat) : ∀ s : State, DmaHalted l s (l.foldl State.dmaHalt s) := by
  induction l with
  | nil => exact fun s => ⟨rfl, rfl, rfl, rfl, rfl, rfl, fun _ _ => rfl, fun e h => h.resolve_left List.not_mem_nil⟩
  | cons d r ih =>
    intro s
    obtain ⟨hc, hm, hv, hl, hz, hk, hr, hb⟩ := s.dmaHalt_frame d
    have h := ih (s.dmaHalt d)
    refine ⟨h.chans.trans hc, h.mem.trans hm, h.voteErr.trans hv, h.later.trans hl, h.causes.trans hz, h.link.trans hk,
      fun o ho => (h.rg o fun e he => ho e (List.mem_cons_of_mem _ he)).trans (hr o (ho d List.mem_cons_self)), fun e he => ?_⟩
    refine h.err e ?_
    by_cases hd : e = d
    · exact .inr (hd ▸ hb)
    · exact he.imp (fun he => (List.mem_cons.1 he).resolve_left hd) fun he => (State.rgBit_congr (hr _ (dmaCtl_inj hd)) 2).trans he

/-- The link is down, and every engine that ran has stopped. -/
def State.linkDropped (s : State) : State :=
  s.linesRise.dmaOn.foldl State.dmaHalt { s.linesRise with hostp := { s.linesRise.hostp with linkUp := false } }

/-- The sources that the loss of the link reports. -/
def State.dropSources (s : State) : List (Nat × Nat) :=
  (fhLinkDown, srcCls frHost fhLinkDown) :: (if s.linesRise.dmaOn = [] then [] else [(fhDmaErr, srcCls frHost fhDmaErr)])

theorem State.linkDropped_halted (s : State) : DmaHalted s.linesRise.dmaOn
    { s.linesRise with hostp := { s.linesRise.hostp with linkUp := false } } s.linkDropped := State.foldl_dmaHalt _ _

theorem State.pcieDown_reports {s : State} (hl : s.hostp.linkUp = true)
    (hc : s.causes.contains (frHost * 32 + fhLinkDown) = false) :
    s.pcieDown = State.report { s.linkDropped with causes := (frHost * 32 + fhLinkDown) :: s.linkDropped.causes } frHost s.dropSources := by
  have hz : s.linkDropped.causes = s.causes := (s.linkDropped_halted).causes.trans s.linesRise_keeps.2
  simp only [State.pcieDown]
  rw [if_neg (by rw [hl]; decide)]
  change State.report { s.linkDropped with causes := if s.linkDropped.causes.contains (frHost * 32 + fhLinkDown) = true then s.linkDropped.causes
      else (frHost * 32 + fhLinkDown) :: s.linkDropped.causes } frHost ((if s.linkDropped.causes.contains (frHost * 32 + fhLinkDown) = true then []
      else [(fhLinkDown, srcCls frHost fhLinkDown)]) ++ (if s.linesRise.dmaOn = [] then [] else [(fhDmaErr, srcCls frHost fhDmaErr)])) = _
  rw [if_neg (by rw [hz, hc]; decide), if_neg (by rw [hz, hc]; decide)]
  rfl

/-- The engines that run, and those that have stopped. -/
theorem State.mem_dmaOn {s : State} {e : Nat} (he : e < 8) (h : s.rgBit (dmaOff e dmaCtl) 0 = true) :
    e ∈ s.dmaOn ∨ s.rgBit (dmaOff e dmaCtl) 2 = true := by
  by_cases h2 : s.rgBit (dmaOff e dmaCtl) 2 = true
  · exact .inr h2
  · exact .inl (List.mem_filter.2 ⟨List.mem_range.2 he, by rw [h, Bool.eq_false_iff.2 h2]; rfl⟩)

/-- The loss of the link, where its frame asks for no more than a record. -/
theorem State.pcieDown_leaves {s : State} (hl : s.hostp.linkUp = true) (hm : s.mild frHost = true) (hla : s.later = [])
    (hc : s.causes.contains (frHost * 32 + fhLinkDown) = false) :
    s.pcieDown.hostp.linkUp = false ∧ bitOf (s.pcieDown.rg (fltOff frHost fltSts)) fhLinkDown = true ∧
      (∀ e, e < 8 → s.rgBit (dmaOff e dmaCtl) 0 = true → s.pcieDown.rgBit (dmaOff e dmaCtl) 2 = true) ∧
      (∀ o, (∀ e, e < 8 → o ≠ dmaOff e dmaCtl) → o ∉ pbaRegs ++ reportRegs frHost → s.pcieDown.rg o = s.rg o) ∧
      s.pcieDown.chans = s.chans ∧ s.pcieDown.mem = s.mem := by
  obtain ⟨r0, o0, e0⟩ := s.linesRise_only
  have hk := s.linesRise_keeps.1
  have h := s.linkDropped_halted
  have hoff : frameOff frHost = 0xFF000 := rfl
  have hctl (e : Nat) (he : e < 8) : dmaOff e dmaCtl ∉ pbaRegs ∧ dmaOff e dmaCtl ∉ reportRegs frHost := by
    refine ⟨?_, reportRegs_above (by rw [hoff]; unfold dmaOff dmaCtl; omega)⟩
    simp only [pbaRegs, List.mem_cons, List.not_mem_nil, or_false, not_or]
    unfold dmaOff dmaCtl hostHostMsixPba
    omega
  have hon : ∀ e ∈ s.linesRise.dmaOn, e < 8 := fun e he => List.mem_range.1 (List.mem_of_mem_filter he)
  have hmd : s.linkDropped.mild frHost = true := by
    refine State.mild_of_subset hm (fun o ho => ?_) ?_
    · rw [h.voteErr, e0] at ho; exact ho
    · refine (h.rg _ fun e he => ?_).trans (hk _ (by decide))
      have := hon e he
      rw [fltOff, hoff]
      unfold dmaOff dmaCtl
      omega
  obtain ⟨r, q, fr, al, e, hr, hb, -⟩ := State.report_mild
    { s.linkDropped with causes := (frHost * 32 + fhLinkDown) :: s.linkDropped.causes } frHost s.dropSources hmd
    (h.later.trans (by rw [e0]; exact hla)) (by
      intro p hp
      rw [State.dropSources, List.mem_cons] at hp
      obtain rfl | hp := hp
      · decide
      · by_cases hn : s.linesRise.dmaOn = []
        · rw [if_pos hn] at hp; exact absurd hp List.not_mem_nil
        · rw [if_neg hn, List.mem_singleton] at hp
          subst hp
          decide)
  have hrg (o : Nat) (ho : o ∉ reportRegs frHost) : s.pcieDown.rg o = s.linkDropped.rg o := by
    rw [State.pcieDown_reports hl hc, e]
    exact congrArg BitVec.toNat (hr o ho)
  refine ⟨?_, ?_, fun i hi h0 => ?_, fun o hd ho => ?_, ?_, ?_⟩
  · rw [State.pcieDown_reports hl hc, e]
    exact h.link
  · rw [State.pcieDown_reports hl hc, e]
    exact (hb fhLinkDown (by decide)).2 (.inr ⟨_, List.mem_cons_self, rfl⟩)
  · rw [State.rgBit_congr (hrg _ (hctl i hi).2)]
    exact h.err i (State.mem_dmaOn hi ((State.rgBit_congr (hk _ (hctl i hi).1) 0).trans h0))
  · rw [List.mem_append, not_or] at ho
    exact (hrg o ho.2).trans ((h.rg o fun e he => hd e (hon e he)).trans (hk o ho.1))
  · rw [State.pcieDown_reports hl hc, e]
    exact h.chans.trans (by rw [e0])
  · rw [State.pcieDown_reports hl hc, e]
    exact h.mem.trans (by rw [e0])

end Sys2Proof.Machine
namespace Sys2Proof.Proofs
open Sys2Proof.Machine

/-- Settles O49: a packet of one word is one access of the bus; the link comes up and goes down as its conditions say. -/
theorem hostPackets : Obligations.HostPackets := by
  intro s off w
  refine ⟨fun hl h1 h2 h4 hu hc => ⟨?_, ?_⟩, fun bar wr fbe lbe ws hl => congrArg Host.Outcome.next (if_pos (by rw [hl]; decide)),
    fun hp hr hh => ?_, fun hn => ?_, fun hl hm hla hc => ⟨_, rfl, State.pcieDown_leaves hl hm hla hc⟩,
    fun hl => congrArg Host.Outcome.next (if_pos (by rw [hl]; decide))⟩
  · have hlen : (leBytes 4 w.toNat).length = 4 := rfl
    have e : s.tlpIn .bar4 off true 15 0 [w] = s.store off (leBytes 4 w.toNat) := by
      rw [State.tlpIn_word hl (by omega) h4]
      simp only [State.tlpRun, if_true, List.drop_zero]
      rw [show (leBytes 4 w.toNat).take 4 = leBytes 4 w.toNat from rfl, State.busWrite_core h1 h2 h4 hu hc hlen]
      rfl
    exact ⟨_, congrArg Host.Outcome.next e, State.store_bytes s off (leBytes 4 w.toNat), State.store_out _ _ _,
      fun b hb => State.store_byte_out _ _ _ _ hb, fun o ho => State.store_rg _ _ _ _ ho, State.store_chans _ _ _⟩
  · refine congrArg Host.Outcome.next ?_
    refine (State.tlpIn_word hl (by omega) h4 false 0).trans ?_
    simp only [State.tlpRun, Bool.false_eq_true, if_false]
    rw [State.busRead_core h1 h2 h4 hu hc (.inl rfl)]
    rfl
  · obtain ⟨r, o, e⟩ := s.linesRise_only
    have hlanes : ∀ k : Fin 3, 2 ^ k.val = 1 ∨ 2 ^ k.val = 2 ∨ 2 ^ k.val = 4 := by decide
    refine ⟨_, congrArg Host.Outcome.next (if_pos ⟨hp, hr, by rw [hh]; decide⟩), rfl, ⟨Nat.le_add_left 1 _, ?_⟩, hlanes _,
      fun o ho => s.linesRise_keeps.1 o ho, ?_, ?_⟩
    · exact Nat.succ_le_of_lt (Fin.isLt _)
    · rw [e]; rfl
    · rw [e]; rfl
  · refine congrArg Host.Outcome.next (if_neg fun h => ?_)
    obtain ⟨h1, -, h2⟩ := h
    exact hn.elim (fun h => absurd h1 (by rw [h]; decide)) fun h => h2 h

end Sys2Proof.Proofs
end

section
/-! PROOFS. The xSPI unit, the UART and the test port (R668, R834 to R837). -/

namespace Sys2Proof.Machine

/-- XSPI_CMD as a command with GO leaves it: BUSY and its lower fields. -/
def xspiWord (v : Nat) : Nat := v % 0x40000 + 0x40000000

theorem xspiWord_busy (v : Nat) : bitOf (xspiWord v) 30 = true := by
  have : xspiWord v / 2 ^ 30 % 2 = 1 := by unfold xspiWord; omega
  exact decide_eq_true this

theorem xspiGo_bits (v : Word) : bitOf (v.toNat ||| 0x80000000) 31 = true ∧ bitsOf (v.toNat ||| 0x80000000) 7 0 = bitsOf v.toNat 7 0 := by
  refine ⟨?_, ?_⟩
  · rw [bitOf_eq_testBit, Nat.testBit_or, show (0x80000000 : Nat) = 2 ^ 31 from rfl, Nat.testBit_two_pow_self, Bool.or_true]
  · simp only [bitsOf, Nat.pow_zero, Nat.div_one]
    refine Nat.eq_of_testBit_eq fun i => ?_
    rw [Nat.testBit_mod_two_pow, Nat.testBit_mod_two_pow, Nat.testBit_or]
    by_cases h : i < 7 + 1 - 0
    · have h31 : (0x80000000 : Nat).testBit i = false := by
        rw [show (0x80000000 : Nat) = 2 ^ 31 from rfl, Nat.testBit_two_pow]
        exact decide_eq_false (by omega)
      rw [h31, Bool.or_false]
    · simp [h]

/-- The state in which a command of the xSPI unit runs. -/
def State.xspiRuns (s : State) (v : Nat) : State := s.linesRise.setRg (hostOff hostXspiCmd) (xspiWord v)

theorem State.xspiCmd_go {s : State} {v : Nat} (h : s.xspiBusy = false) (hv : bitOf v 31 = true) :
    ∃ z, s.xspiCmd v = { s.xspiRuns v with
      out := s.linesRise.out ++ [.xspi (bitsOf v 7 0) ((s.xspiRuns v).rg (hostOff hostXspiAddr)) z]
      hostp := { s.linesRise.hostp with xspiIrq := false } } := by
  refine ⟨if bitOf v 17 then (s.xspiRuns v).xspiBytes (min 256 (bitsOf v 16 8)) else [], ?_⟩
  simp only [State.xspiCmd]
  rw [if_neg (by rw [h]; decide), if_pos hv, if_pos hv]
  rfl

theorem State.rg_xspiRuns (s : State) (v : Nat) {o : Nat} (h : o ∉ hostOff hostXspiCmd :: pbaRegs) : (s.xspiRuns v).rg o = s.rg o := by
  rw [List.mem_cons, not_or] at h
  exact (State.rg_setRg_ne _ _ h.1).trans (s.linesRise_keeps.1 o h.2)

theorem State.xspiRuns_busy (s : State) (v : Nat) : (s.xspiRuns v).xspiBusy = true := by
  have hlt : xspiWord v < 4294967296 := by unfold xspiWord; omega
  rw [State.xspiBusy, State.rgBit, State.xspiRuns, State.rg_setRg_same, Nat.mod_eq_of_lt hlt]
  exact xspiWord_busy v

/-- A command that reads nothing back ends. -/
theorem State.xspiEnd_busy {s : State} (h : s.xspiBusy = true) :
    s.xspiEnd [] = { s.putRg (hostOff hostXspiCmd) 30 false with hostp := { s.hostp with xspiIrq := true } } := by
  have hfill : ∀ n, s.xspiFill 0 (([] : List Byte).take n) = s := fun n => by rw [List.take_nil]; rfl
  simp only [State.xspiEnd]
  rw [if_neg (by rw [h]; decide), hfill, ite_self]

end Sys2Proof.Machine
namespace Sys2Proof.Proofs
open Sys2Proof.Machine

/-- Settles O50: the serial units' commands are branches on what waits; an instruction of the test port is its effect. -/
theorem serialAndTestPorts : Obligations.SerialAndTestPorts := by
  refine ⟨fun s a v b => ⟨fun h => ⟨fun hb => ?_, fun hb => ?_⟩, fun hb => ?_, fun hb => ?_, fun h => ⟨fun ht => ?_, fun ht => ?_⟩,
    fun hl => ?_, fun hl hs hb => ?_, fun hl hs => ?_, fun hl => ?_⟩, fun s => ?_⟩
  · change execXspiGo a v s = _
    exact (State.mayWrite_next h _ _).trans (congrArg Host.Outcome.next (if_pos hb))
  · obtain ⟨h31, h7⟩ := xspiGo_bits v
    obtain ⟨z, e⟩ := State.xspiCmd_go hb h31
    obtain ⟨r, o, el⟩ := s.linesRise_only
    refine ⟨s.xspiCmd (v.toNat ||| 0x80000000), bitsOf (v.toNat ||| 0x80000000) 7 0,
      (s.xspiRuns (v.toNat ||| 0x80000000)).rg (hostOff hostXspiAddr), z, ?_, ?_, ?_, ?_, h7, s.rg_xspiRuns _ (by decide),
      fun p hp => ?_, ?_, ?_⟩
    · change execXspiGo a v s = _
      exact State.mayWrite_next h _ _
    · rw [e]; exact s.xspiRuns_busy _
    · rw [e]
    · rw [e]
    · rw [e]; exact s.rg_xspiRuns _ hp
    · rw [e]; exact (congrArg State.chans el :)
    · rw [e]; exact (congrArg State.mem el :)
  · refine ⟨_, congrArg Host.Outcome.next (State.xspiEnd_busy hb), ?_, rfl, fun o ho => State.rg_putRg_ne s _ ho, rfl, rfl⟩
    exact (State.rgBit_putRg s (by decide) _ false 30).trans (if_pos rfl)
  · exact congrArg Host.Outcome.next (if_pos (by rw [hb]; decide))
  · change execUartTx a b s = _
    exact (State.mayWrite_next h _ _).trans (congrArg Host.Outcome.next (if_pos ht))
  · change execUartTx a b s = _
    exact (State.mayWrite_next h _ _).trans (congrArg Host.Outcome.next (if_neg (by omega)))
  · exact congrArg Host.Outcome.next (if_neg (by rw [hl]; decide))
  · refine congrArg Host.Outcome.next ?_
    rw [State.uartIn, if_pos hl, State.loaderByte, hs]
    exact if_pos hb
  · exact congrArg Host.Outcome.next (if_pos ⟨hl, hs⟩)
  · exact congrArg Host.Outcome.next (if_neg fun ⟨h, _⟩ => absurd h (by rw [hl]; decide))
  · intro takes
    have hsys (d : List Nat) (h : s.sysrdData = d) : exec .sysrd s = .next (takes 4 d) := by subst h; rfl
    exact ⟨rfl, rfl, rfl, rfl, fun h => hsys _ (if_pos h), fun h => hsys _ (if_neg h), rfl, rfl⟩

end Sys2Proof.Proofs
end

section
/-! PROOFS. Snapshots, rail registers, PWM periods and off-ramps (R79, R99 to R101, R192, R720, R865). -/

namespace Sys2Proof.Machine

/-! Rail registers. -/

theorem locate_ch {n r : Nat} (hn : n < 64) (hr : r < 0xF00) : locate (chOff n r) = some ⟨.ch, n, r⟩ := by
  have hinst : (0x100000 + 0x1000 * n + r - 0x100000) / 0x1000 = n := by omega
  have hrel : (0x100000 + 0x1000 * n + r) % 0x1000 = r := by omega
  rw [chOff, locate, if_neg (by omega), if_neg (by omega), if_neg (by omega), if_neg (by omega), if_neg (by omega), if_neg (by omega),
    if_neg (by omega), if_neg (by omega), if_neg (by omega), if_neg (by omega), if_neg (by omega), if_neg (by omega), if_neg (by omega),
    if_neg (by omega), if_pos (by omega)]
  dsimp only
  rw [hrel, if_neg (by omega), hinst]

/-- A write of a voted register of a channel, without an injection. -/
theorem State.voteWrite_ch {s : State} {n r : Nat} (hn : n < 64) (hr : r < 0xF00) (hi : s.injHit (frCh n) 5 none = false) :
    s.voteWrite (chOff n r) = { s with voteErr := s.voteErr.filter (· ≠ chOff n r) } := by
  rw [State.voteWrite, locate_ch hn hr]
  exact if_neg (by rw [show voteFrame ⟨.ch, n, r⟩ = frCh n from rfl]; exact Bool.eq_false_iff.1 hi)

theorem State.injHit_congr {s t : State} {f : Nat} (h : t.rg (frameOff f + fltInj) = s.rg (frameOff f + fltInj)) (k : Nat) (u : Option Nat) :
    t.injHit f k u = s.injHit f k u := by
  unfold State.injHit
  rw [h]

/-! A step that changes channel `n` alone. -/

/-- No other channel, no byte of memory and not the channel's state. -/
structure ChStep (n : Nat) (s t : State) : Prop where
  others : ∀ m, m ≠ n → t.ch m = s.ch m
  mem : t.mem = s.mem
  state : (t.ch n).state = (s.ch n).state

theorem ChStep.refl (n : Nat) (s : State) : ChStep n s s := ⟨fun _ _ => rfl, rfl, rfl⟩
theorem ChStep.trans {n : Nat} {s t u : State} (h : ChStep n s t) (h' : ChStep n t u) : ChStep n s u :=
  ⟨fun m hm => (h'.others m hm).trans (h.others m hm), h'.mem.trans h.mem, h'.state.trans h.state⟩
theorem ChStep.of_chans {n : Nat} {s t : State} (hc : t.chans = s.chans) (hm : t.mem = s.mem) : ChStep n s t :=
  ⟨fun m _ => State.ch_congr hc m, hm, by rw [State.ch_congr hc]⟩
theorem ChStep.updCh {n : Nat} (s : State) {f : Chan → Chan} (hf : (f (s.ch n)).state = (s.ch n).state) : ChStep n s (s.updCh n f) :=
  ⟨fun _ hm => State.ch_updCh_ne _ _ hm, rfl, by rw [State.ch_updCh_same]; exact hf⟩
theorem ChStep.setCr {n : Nat} (s : State) (r v : Nat) : ChStep n s (s.setCr n r v) := ChStep.of_chans rfl rfl
theorem ChStep.cflag {n : Nat} (s : State) (r v : Nat) : ChStep n s (s.cflag n r v) := ChStep.of_chans (s.flag_chans _ _) (s.flag_mem _ _)
theorem ChStep.ccount {n : Nat} (s : State) (r k : Nat) : ChStep n s (s.ccount n r k) := ChStep.of_chans rfl rfl

theorem ChStep.leAbort (s : State) (n why : Nat) : ChStep n s (s.leAbort n why) := by
  simp only [State.leAbort]
  split
  · exact ((ChStep.updCh s (f := fun c => { c with le := { fit := c.le.fit } }) rfl).trans (ChStep.setCr _ _ _)).trans (ChStep.cflag _ _ _)
  · exact ChStep.refl n s

theorem ChStep.fireCh (s : State) (k n c : Nat) : ChStep n s (s.fireCh k n c) := ChStep.of_chans (s.chans_fireCh _ _ _) (s.mem_fireCh _ _ _)

theorem ChStep.endCompl (s : State) (n : Nat) : ChStep n s (s.endCompl n) := by
  rw [State.endCompl]
  split
  · exact (ChStep.updCh s rfl).trans (ChStep.fireCh _ _ _ _)
  · exact ChStep.refl n s

theorem ChStep.hoDrop (s : State) (n why : Nat) : ChStep n s (s.hoDrop n why) := by
  have h : ChStep n s (((s.setCr n chHoFail (why + 16 * b2n (s.ch n).ho.volt + 256 * (s.ch n).ho.frm + 4096 * (s.ch n).ho.dst)).cflag n
      chHoFlags 2).ccount n chHoFails) := ((ChStep.setCr s _ _).trans (ChStep.cflag _ _ _)).trans (ChStep.ccount _ _ _)
  exact h.trans (ChStep.updCh _ (f := fun c => { c with ho := { (s.ch n).ho with st := .idle, abandon := none } }) rfl)

theorem ChStep.hoFinish (s : State) (n : Nat) : ChStep n s (s.hoFinish n) := by
  rw [State.hoFinish]
  split
  · exact ((ChStep.cflag s _ _).trans (ChStep.ccount _ _ _)).trans (ChStep.updCh _ rfl)
  · exact ChStep.refl n s

/-! PWM outputs. -/

/-- A rail but for the levels of its outputs and their falls. -/
def Rail.core (r : Rail) : Rail := { r with hiH := false, hiL := false, fallH := none, fallL := none }

theorem Rail.core_setOut (r : Rail) (k : Nat) (b : Bool) (f : Option Nat) : (r.setOut k b f).core = r.core := by
  rw [Rail.setOut]
  split <;> rfl

/-- A step of the outputs of channel `n`. -/
structure PwmStep (n : Nat) (s t : State) : Prop extends ChStep n s t where
  regs : t.regs = s.regs
  tick : t.tick = s.tick
  core : (t.ch n).rail.core = (s.ch n).rail.core

theorem PwmStep.refl (n : Nat) (s : State) : PwmStep n s s := ⟨ChStep.refl n s, rfl, rfl, rfl⟩
theorem PwmStep.trans {n : Nat} {s t u : State} (h : PwmStep n s t) (h' : PwmStep n t u) : PwmStep n s u :=
  ⟨h.toChStep.trans h'.toChStep, h'.regs.trans h.regs, h'.tick.trans h.tick, h'.core.trans h.core⟩

theorem PwmStep.setOut (s : State) (n k : Nat) (b : Bool) (f : Option Nat) :
    PwmStep n s (s.updCh n fun x => { x with rail := x.rail.setOut k b f }) :=
  ⟨ChStep.updCh s rfl, rfl, rfl, by rw [State.ch_updCh_same]; exact Rail.core_setOut _ _ _ _⟩

theorem PwmStep.pwmEdge (s : State) (n k : Nat) (up : Bool) (c : Nat) : PwmStep n s (s.pwmEdge n k up c) := by
  rw [State.pwmEdge]
  obtain ⟨p, e⟩ := State.pscSee_only (4 * (n % 16) + (2 * k + b2n (!up))) c ((List.range 4).map (4 * (n / 16) + ·))
    (State.fireChAt (s.updCh n fun x => { x with rail := x.rail.setOut k up none }) (18 + (2 * k + b2n (!up))) n c)
  obtain ⟨q, e'⟩ := State.fireChAt_only (s.updCh n fun x => { x with rail := x.rail.setOut k up none }) (18 + (2 * k + b2n (!up))) n c
  rw [e, e']
  have h := PwmStep.setOut s n k up none
  exact ⟨⟨h.others, h.mem, h.state⟩, h.regs, h.tick, h.core⟩

theorem PwmStep.pwmTo (s : State) (n k : Nat) (up : Bool) (c : Nat) : PwmStep n s (s.pwmTo n k up c) := by
  rw [State.pwmTo]
  split
  · exact PwmStep.setOut s n k up none
  · exact PwmStep.pwmEdge s n k up c

theorem PwmStep.pwmFall (s : State) (z n k : Nat) : PwmStep n s (s.pwmFall z n k) := by
  rw [State.pwmFall]
  split
  · split
    · exact PwmStep.pwmEdge s n k false _
    · exact PwmStep.refl n s
  · exact PwmStep.refl n s

theorem PwmStep.pwmOut (s : State) (n k on per c : Nat) : PwmStep n s (s.pwmOut n k on per c) :=
  PwmStep.trans (t := s.pwmTo n k (decide (0 < on)) c) (PwmStep.pwmTo s n k _ c)
    ⟨ChStep.updCh _ (f := fun x => { x with rail := x.rail.setOut k (x.rail.hi k) (if 0 < on ∧ on < per then some (c + on) else none) }) rfl,
      rfl, rfl, by
        rw [State.pwmOut, State.ch_updCh_same]
        exact Rail.core_setOut _ _ _ _⟩

theorem ChStep.pwmLow (s : State) (n : Nat) : ChStep n s (s.pwmLow n) :=
  ((PwmStep.pwmTo s n 0 false _).trans (PwmStep.pwmTo _ n 1 false _)).toChStep

/-- The rail with the duty of a period that begins, by the modes of PWM_CTL (R99, R100, R720). -/
def State.periodRail (s : State) (n : Nat) (r : Rail) : Rail :=
  let per := bitsOf (s.cr n chPwmPer) 9 0
  if bitOf (s.cr n chPwmCtl) 0 then
    let a := gtOn (bitsOf (s.cr n chGtCfg) 1 0) (bitsOf (s.cr n chGtDuty) 9 0) per
    let b := gtOn (bitsOf (s.cr n chGtCfg) 3 2) (bitsOf (s.cr n chGtDuty) 25 16) per
    { r with onH := a, onL := b, dutyH := dutyOf a per, dutyL := dutyOf b per }
  else if bitOf (s.cr n chPwmCtl) 1 then
    let fs := f32v r.fs * 1073741824
    { r with onH := (pwmOn r.th fs r.ditH per).1, onL := (pwmOn r.tl fs r.ditL per).1, ditH := (pwmOn r.th fs r.ditH per).2
             ditL := (pwmOn r.tl fs r.ditL per).2, dutyH := dutyOf r.th fs, dutyL := dutyOf r.tl fs }
  else { r with onH := 0, onL := 0, ditH := 0, ditL := 0, dutyH := 0, dutyL := 0 }

theorem State.pwmPeriod_begins {s : State} {n : Nat} (h : (s.ch n).state = .armed ∨ (s.ch n).state = .active) :
    s.pwmPeriod n = s.setCh n { s.ch n with rail := s.periodRail n (s.ch n).rail } := by
  have hn : ¬ ((s.ch n).state ≠ .armed ∧ (s.ch n).state ≠ .active) := fun ⟨h1, h2⟩ => h.elim h1 h2
  simp only [State.pwmPeriod, State.periodRail]
  rw [if_neg hn]
  split
  · rfl
  · split <;> rfl

theorem State.core_periodRail (s : State) (n : Nat) {r q : Rail} (h : r.core = q.core) :
    (s.periodRail n r).core = (s.periodRail n q).core := by
  obtain ⟨⟩ := r
  obtain ⟨⟩ := q
  simp only [Rail.core, Rail.mk.injEq] at h
  obtain ⟨rfl, rfl, rfl, rfl, rfl, rfl, rfl, rfl, rfl, rfl, rfl, rfl, -⟩ := h
  simp only [State.periodRail]
  split
  · rfl
  · split <;> rfl

/-- A period begins: the channel's rail but for its levels, the registers, and what is no part of the channel. -/
theorem State.pwmBegin_begins {s : State} {n : Nat} (h : (s.ch n).state = .armed ∨ (s.ch n).state = .active) (cyc : Nat) :
    (s.pwmBegin n cyc).regs = s.regs ∧ (∀ m, m ≠ n → (s.pwmBegin n cyc).ch m = s.ch m) ∧ (s.pwmBegin n cyc).mem = s.mem ∧
      ((s.pwmBegin n cyc).ch n).rail.core = (s.periodRail n (s.ch n).rail).core := by
  have hn : ¬ ((s.ch n).state ≠ .armed ∧ (s.ch n).state ≠ .active) := fun ⟨h1, h2⟩ => h.elim h1 h2
  have f := (PwmStep.pwmFall s (s.at_ cyc - 1) n 0).trans (PwmStep.pwmFall (s.pwmFall (s.at_ cyc - 1) n 0) (s.at_ cyc - 1) n 1)
  simp only [State.pwmBegin]
  rw [if_neg hn]
  generalize (s.pwmFall (s.at_ cyc - 1) n 0).pwmFall (s.at_ cyc - 1) n 1 = u at f ⊢
  have hu : (u.ch n).state = .armed ∨ (u.ch n).state = .active := by rw [f.state]; exact h
  have hper (r : Rail) : u.periodRail n r = s.periodRail n r := by
    have hcr (o : Nat) : u.cr n o = s.cr n o := State.rg_congr f.regs _
    simp only [State.periodRail, hcr]
  rw [State.pwmPeriod_begins hu]
  have hrail : ((u.setCh n { u.ch n with rail := u.periodRail n (u.ch n).rail }).ch n).rail = u.periodRail n (u.ch n).rail := by
    rw [State.ch_setCh_same]
  generalize hv : u.setCh n { u.ch n with rail := u.periodRail n (u.ch n).rail } = v at hrail ⊢
  have p0 := PwmStep.pwmOut v n 0 (v.ch n).rail.onH (bitsOf (v.cr n chPwmPer) 9 0) (v.at_ cyc)
  generalize v.pwmOut n 0 (v.ch n).rail.onH (bitsOf (v.cr n chPwmPer) 9 0) (v.at_ cyc) = w at p0 ⊢
  have p := p0.trans (PwmStep.pwmOut w n 1 (w.ch n).rail.onL (bitsOf (v.cr n chPwmPer) 9 0) (w.at_ cyc))
  refine ⟨p.regs.trans (hv ▸ f.regs), fun m hm => (p.others m hm).trans ?_, p.mem.trans (hv ▸ f.mem), p.core.trans ?_⟩
  · rw [← hv, State.ch_setCh_ne _ _ hm]
    exact f.others m hm
  · rw [hrail, hper]
    exact s.core_periodRail n f.core

/-! Off-ramps. -/

/-- A command that ends the ramp leaves its state, without the ramp. -/
structure RampEnded (n : Nat) (st : ChState) (s t : State) : Prop where
  others : ∀ m, m ≠ n → t.ch m = s.ch m
  mem : t.mem = s.mem
  state : (t.ch n).state = st
  offCmd : (t.ch n).sup.offCmd = none

theorem State.toArmed_ended (s : State) (n : Nat) : RampEnded n .armed s (s.toArmed n) := by
  have h := (ChStep.leAbort s n 3).trans (ChStep.endCompl _ n)
  rw [State.toArmed]
  generalize (s.leAbort n 3).endCompl n = u at h ⊢
  refine ⟨fun m hm => (State.ch_updCh_ne _ _ hm).trans (h.others m hm), h.mem, ?_, ?_⟩ <;> rw [State.ch_updCh_same] <;> rfl

/-- The handover that runs is abandoned. -/
def State.hoStop (s : State) (n : Nat) : State := if (s.ch n).ho.st ≠ .idle then s.hoAbandon n 3 else s

/-- A waiting snapshot goes. -/
def State.snapDrop (s : State) (n : Nat) : State := if (s.ch n).law.snap.isSome then s.setCr n chLawSnap 0 else s

theorem State.toOff_ended {s : State} {n : Nat} (ha : (s.ch n).state = .active) : RampEnded n .off s (s.toOff n) := by
  have hstop (u : State) : ChStep n u (u.hoStop n) := by
    rw [State.hoStop]
    split
    · exact ChStep.hoDrop u n 3
    · exact ChStep.refl n u
  have hsnap (u : State) : ChStep n u (u.snapDrop n) := by
    rw [State.snapDrop]
    split
    · exact ChStep.setCr u _ _
    · exact ChStep.refl n u
  have h1 := (((ChStep.leAbort s n 3).trans (ChStep.endCompl _ n)).trans (ChStep.pwmLow _ n)).trans (hstop _)
  have e : s.toOff n = if (((((s.leAbort n 3).endCompl n).pwmLow n).hoStop n).ch n).state = .fenced then
      (((s.leAbort n 3).endCompl n).pwmLow n).hoStop n
    else (((((((s.leAbort n 3).endCompl n).pwmLow n).hoStop n).snapDrop n).updCh n fun c =>
      { c.drop with state := .off, ho := c.ho.rest, rng := ⟨15, c.rng.v⟩ }).safeEnd n).freeSlot n := rfl
  rw [e]
  generalize (((s.leAbort n 3).endCompl n).pwmLow n).hoStop n = u at h1 ⊢
  rw [if_neg (by rw [h1.state, ha]; decide)]
  have h2 := h1.trans (hsnap u)
  generalize u.snapDrop n = v at h2 ⊢
  have hc (m : Nat) : (State.freeSlot ((v.updCh n fun c => { c.drop with state := .off, ho := c.ho.rest, rng := ⟨15, c.rng.v⟩ }).safeEnd n) n).ch m =
      if m = n then { (v.ch n).drop with state := .off, ho := (v.ch n).ho.rest, rng := ⟨15, (v.ch n).rng.v⟩, slot := false } else v.ch m := by
    rw [State.freeSlot, State.ch_updCh]
    have hsafe (m : Nat) : ((v.updCh n fun c => { c.drop with state := .off, ho := c.ho.rest, rng := ⟨15, c.rng.v⟩ }).safeEnd n).ch m =
        (v.updCh n fun c => { c.drop with state := .off, ho := c.ho.rest, rng := ⟨15, c.rng.v⟩ }).ch m := rfl
    by_cases hm : m = n
    · rw [if_pos hm, if_pos hm, hsafe, State.ch_updCh_same]
    · rw [if_neg hm, if_neg hm, hsafe, State.ch_updCh_ne _ _ hm]
  refine ⟨fun m hm => (hc m).trans ((if_neg hm).trans (h2.others m hm)), h2.mem, ?_, ?_⟩
  · rw [hc, if_pos rfl]
  · rw [hc, if_pos rfl]; rfl

/-- The command that a ramp has waited for, at the boundary that ends the tick. -/
theorem State.offRampDone_due {s : State} {n k : Nat} (hk : (s.ch n).sup.offCmd = some k) (hz : (s.ch n).sup.offZero = true)
    (hd : (s.tick + 1) % s.srDiv n = 0) :
    s.offRampDone n = { (({ s with tick := s.tick + 1 } : State).hoFinish n).cmdApply n k false with tick := s.tick } := by
  simp only [State.offRampDone, hk]
  exact if_pos ⟨hz, hd⟩

theorem State.offRampDone_none {s : State} {n : Nat}
    (h : (s.ch n).sup.offCmd = none ∨ (s.ch n).sup.offZero = false ∨ (s.tick + 1) % s.srDiv n ≠ 0) : s.offRampDone n = s := by
  simp only [State.offRampDone]
  cases hk : (s.ch n).sup.offCmd with
  | none => rfl
  | some k =>
    refine if_neg fun ⟨hz, hd⟩ => ?_
    obtain h | h | h := h
    · rw [hk] at h; cases h
    · rw [h] at hz; cases hz
    · exact h hd

/-- A rail register that a write is not ignored of takes the value and nothing else changes (R865). -/
theorem State.railWrite_taken {s : State} {n : Nat} {r : RailReg} {v : Nat} (hn : n < 64) (ht : s.railTakes n (railRel r) v = true)
    (hi : s.injHit (frCh n) 5 none = false) (hv : v < 4294967296) :
    ∃ t, (if r ≠ .settle ∧ s.railTakes n (railRel r) v then (s.railWrite n (railRel r) v).voteWrite (chOff n (railRel r))
        else s.railWrite n (railRel r) v) = t ∧
      t.rg (chOff n (railRel r)) = (if r = .settle then v % 65536 else v) ∧ (∀ p, p ≠ chOff n (railRel r) → t.rg p = s.rg p) ∧
      t.shadow = s.shadow ∧ t.chans = s.chans ∧ t.mem = s.mem := by
  have hset (k w : Nat) (hw : w < 4294967296) : (s.setCr n k w).rg (chOff n k) = w ∧ ∀ p, p ≠ chOff n k → (s.setCr n k w).rg p = s.rg p :=
    ⟨(State.rg_setRg_same _ _ _).trans (Nat.mod_eq_of_lt hw), fun p hp => State.rg_setRg_ne _ _ hp⟩
  have hvote (k w : Nat) (hk : k < 0xF00) (hw : w < 4294967296) : ((s.setCr n k w).voteWrite (chOff n k)).rg (chOff n k) = w ∧
      (∀ p, p ≠ chOff n k → ((s.setCr n k w).voteWrite (chOff n k)).rg p = s.rg p) ∧
      ((s.setCr n k w).voteWrite (chOff n k)).shadow = s.shadow ∧ ((s.setCr n k w).voteWrite (chOff n k)).chans = s.chans ∧
      ((s.setCr n k w).voteWrite (chOff n k)).mem = s.mem := by
    have hne : frameOff (frCh n) + fltInj ≠ chOff n k := by
      have : frameOff (frCh n) = chOff n 0xF00 := by
        unfold frameOff frCh
        rw [if_neg (by omega), if_neg (by omega), if_neg (by omega), if_neg (by omega), if_neg (by omega), if_neg (by omega),
          if_neg (by omega), if_neg (by omega), if_neg (by omega), chOff]
        omega
      unfold chOff at this ⊢
      omega
    rw [State.voteWrite_ch hn hk ((State.injHit_congr ((hset k w hw).2 _ hne) _ _).trans hi)]
    exact ⟨(hset k w hw).1, (hset k w hw).2, rfl, rfl, rfl⟩
  cases r with
  | settle =>
    refine ⟨_, rfl, ?_⟩
    rw [if_neg fun h => h.1 rfl, State.railWrite, if_neg (not_not.2 ht)]
    obtain ⟨h1, h2⟩ := hset chRailSettle (v % 65536) (by omega)
    exact ⟨h1, h2, rfl, rfl, rfl⟩
  | fs =>
    refine ⟨_, rfl, ?_⟩
    rw [if_pos ⟨by decide, ht⟩, State.railWrite, if_neg (not_not.2 ht)]
    exact hvote chRailFs v (by decide) hv
  | min =>
    refine ⟨_, rfl, ?_⟩
    rw [if_pos ⟨by decide, ht⟩, State.railWrite, if_neg (not_not.2 ht)]
    exact hvote chRailMin v (by decide) hv

/-- The values that a rail register ignores. -/
def State.railIgnores (s : State) (n : Nat) (r : RailReg) (v : Nat) : Prop :=
  match r with
  | .settle => (if r = .settle then v % 65536 else v) = 0
  | .fs => bitOf (s.cr n chPwmCtl) 1 = true ∧
      ¬ (f32pos (if r = .settle then v % 65536 else v) = true ∧ f32le (s.cr n chRailMin) (if r = .settle then v % 65536 else v) = true)
  | .min => bitOf (s.cr n chPwmCtl) 1 = true ∧
      ¬ (f32le 0 (if r = .settle then v % 65536 else v) = true ∧ f32le (if r = .settle then v % 65536 else v) (s.cr n chRailFs) = true)

theorem State.railIgnores_iff (s : State) (n : Nat) (r : RailReg) (v : Nat) :
    s.railIgnores n r v ↔ s.railTakes n (railRel r) v = false := by
  have h1 : chRailFs ≠ chRailSettle := by decide
  have h2 : chRailMin ≠ chRailSettle := by decide
  have h3 : chRailMin ≠ chRailFs := by decide
  cases r <;> simp [State.railIgnores, State.railTakes, railRel, h1, h2, h3]

theorem State.cmdApply_disable {s : State} {n : Nat} (h : (s.ch n).state = .active) : s.cmdApply n 3 false = s.toArmed n := by
  simp only [State.cmdApply, h]
  rfl

theorem State.cmdApply_disarm {s : State} {n : Nat} (h : (s.ch n).state = .active) : s.cmdApply n 4 false = s.toOff n := by
  simp only [State.cmdApply, h]
  rfl

/-- The command that a ramp has waited for takes effect. -/
theorem State.offRampDone_ended {s : State} {n k : Nat} {st : ChState} (hk : (s.ch n).sup.offCmd = some k)
    (hz : (s.ch n).sup.offZero = true) (hd : (s.tick + 1) % s.srDiv n = 0)
    (h : RampEnded n st (({ s with tick := s.tick + 1 } : State).hoFinish n)
      ((({ s with tick := s.tick + 1 } : State).hoFinish n).cmdApply n k false)) : RampEnded n st s (s.offRampDone n) := by
  have hf := ChStep.hoFinish { s with tick := s.tick + 1 } n
  rw [State.offRampDone_due hk hz hd]
  exact ⟨fun m hm => (h.others m hm).trans (hf.others m hm), h.mem.trans hf.mem, h.state, h.offCmd⟩

end Sys2Proof.Machine
namespace Sys2Proof.Proofs
open Sys2Proof.Machine

/-- Settles O51: writes and ends of the channel's supply are branches; a period and an off-ramp's end change their channel alone. -/
theorem railsAndRamps : Obligations.RailsAndRamps := by
  refine fun s a n => ⟨fun h => ⟨fun hs => ?_, fun hs => ?_⟩, fun r v h => ⟨fun hig => ?_, fun hig hi => ?_⟩, fun hok hr => ?_,
    fun hr => ?_, fun cyc => ⟨fun hst => ?_, fun h1 h2 => ?_⟩, fun ha hz hd => ⟨fun hk => ?_, fun hk => ?_⟩, fun h => ?_⟩
  · change execSnap a n s = _
    refine (State.mayWrite_next h _ _).trans (congrArg Host.Outcome.next ?_)
    simp only [State.snapCmd, hs]
  · change execSnap a n s = _
    obtain ⟨x, hx⟩ := Option.ne_none_iff_exists'.1 hs
    refine (State.mayWrite_next h _ _).trans (congrArg Host.Outcome.next ?_)
    simp only [State.snapCmd, hx]
  · have ht := (s.railIgnores_iff n.val r v.toNat).1 hig
    change execRailWrite a n r v s = _
    refine (State.mayWrite_next h _ _).trans (congrArg Host.Outcome.next ?_)
    dsimp only
    rw [if_neg (fun h => by rw [ht] at h; exact absurd h.2 (by decide)), State.railWrite, if_pos (by rw [ht]; decide)]
  · have ht : s.railTakes n.val (railRel r) v.toNat = true :=
      Bool.eq_true_of_not_eq_false fun e => hig ((s.railIgnores_iff n.val r v.toNat).2 e)
    obtain ⟨t, e, ht⟩ := State.railWrite_taken n.isLt ht hi v.isLt
    refine ⟨t, ?_, ht⟩
    change execRailWrite a n r v s = _
    rw [← e]
    exact State.mayWrite_next h _ _
  · change execRailSettleEnd n s = _
    refine congrArg Host.Outcome.next ?_
    rw [State.railSettle]
    exact if_pos ⟨by rw [hok]; decide, hr⟩
  · change execRailSettleEnd n s = _
    refine congrArg Host.Outcome.next ?_
    rw [State.railSettle]
    refine if_neg fun ⟨h1, h2⟩ => ?_
    obtain h | h := hr
    · exact h1 h
    · exact absurd h2 (Nat.not_le.2 h)
  · obtain ⟨hregs, hothers, hmem, hcore⟩ := State.pwmBegin_begins hst cyc.val
    obtain ⟨p, e⟩ := (s.pwmBegin n.val cyc.val).passed_only cyc.val
    have hu {α : Type} (f : Rail → α) (hf : ∀ r, f r.core = f r) :
        f (((s.pwmBegin n.val cyc.val).ch n.val).rail) = f (s.periodRail n.val (s.ch n.val).rail) := by
      rw [← hf, hcore, hf]
    refine ⟨_, rfl, ?_⟩
    rw [e]
    refine ⟨hregs, ⟨hothers, fun b => State.byte_congr hmem b⟩, fun hg => ?_, fun hg ht => ?_, fun hg ht => ?_⟩
    · have hp := hu (fun r => (r.onH, r.onL)) fun _ => rfl
      simp only [State.periodRail, hg, if_true] at hp
      exact ⟨(Prod.mk.inj hp).1, (Prod.mk.inj hp).2⟩
    · have hp := hu (fun r => (r.dutyH, r.dutyL, (r.onH, r.ditH), r.onL, r.ditL)) fun _ => rfl
      simp only [State.periodRail, hg, ht, Bool.false_eq_true, if_false, if_true] at hp
      simp only [Prod.mk.injEq] at hp
      obtain ⟨d1, d2, ⟨h1, e1⟩, h2, e2⟩ := hp
      exact ⟨d1, d2, Prod.ext h1 e1, Prod.ext h2 e2⟩
    · have hp := hu (fun r => (r.onH, r.onL)) fun _ => rfl
      simp only [State.periodRail, hg, ht, Bool.false_eq_true, if_false] at hp
      exact ⟨(Prod.mk.inj hp).1, (Prod.mk.inj hp).2⟩
  · change execPwmPeriod n cyc s = _
    refine congrArg (fun t : State => Host.Outcome.next (t.passed cyc.val)) ?_
    rw [State.pwmBegin, if_pos ⟨h1, h2⟩]
  · have hf := ChStep.hoFinish { s with tick := s.tick + 1 } n.val
    have hr := State.offRampDone_ended hk hz hd (by
      rw [State.cmdApply_disable (hf.state.trans ha)]
      exact State.toArmed_ended _ _)
    exact ⟨_, rfl, hr.state, hr.offCmd, hr.others, fun b => State.byte_congr hr.mem b⟩
  · have hf := ChStep.hoFinish { s with tick := s.tick + 1 } n.val
    have hr := State.offRampDone_ended hk hz hd (by
      rw [State.cmdApply_disarm (hf.state.trans ha)]
      exact State.toOff_ended (hf.state.trans ha))
    exact ⟨_, rfl, hr.state, hr.offCmd, hr.others, fun b => State.byte_congr hr.mem b⟩
  · exact congrArg Host.Outcome.next (State.offRampDone_none h)

end Sys2Proof.Proofs
end

section
/-! PROOFS. Unfences, injections, scrubs and the ALIVE pin (R595 to R606, R632). -/

namespace Sys2Proof.Machine

/-- A unit other than a channel leaves its fence alone. -/
theorem State.unfenceUnit_frame (s : State) {u : Nat} (hu : u < 64) :
    (s.unfenceUnit u).fenced = s.fenced.filter (· ≠ u) ∧ (s.unfenceUnit u).chans = s.chans ∧ (s.unfenceUnit u).mem = s.mem := by
  simp only [State.unfenceUnit]
  rw [if_neg (Nat.not_le.2 hu)]
  split
  · exact ⟨rfl, rfl, rfl⟩
  · split
    · obtain ⟨c, e⟩ := State.linkLevel_only (({ s with fenced := s.fenced.filter (· ≠ u) } : State).setPortSt (u - 32) 1) (u - 32)
      rw [e]
      exact ⟨rfl, rfl, rfl⟩
    · split
      · simp only [State.coreLeaves]
        split <;> exact ⟨rfl, rfl, rfl⟩
      · exact ⟨rfl, rfl, rfl⟩

theorem State.isFenced_unfenceUnit (s : State) {u : Nat} (hu : u < 64) (k : Nat) :
    (s.unfenceUnit u).isFenced k = (s.isFenced k && decide (k ≠ u)) := by
  rw [State.isFenced, (s.unfenceUnit_frame hu).1, State.isFenced]
  by_cases hk : k = u
  · simp [hk]
  · simp [hk]

theorem exec_unfence_of_mayWrite {s : State} {a : Acc} {u : FenceUnit} (h : s.mayWrite a (unfenceReg u).1)
    (hu : s.unpaired a (unfenceReg u).1 = true) :
    exec (.unfence a u) s = .next (s.unfenceCmd (unitCode u) (unfenceReg u).2.2) := by
  change execUnfence a u s = _
  rw [execUnfence, State.viaGrd, State.mayWrite_next h, State.pairDrop_unpaired hu]

theorem exec_faultInject_of_mayWrite {s : State} {a : Acc} {b : Block} {v : Word} (h : s.mayWrite a (fltOff (blockFrame b) fltInj))
    (hu : s.unpaired a (fltOff (blockFrame b) fltInj) = true) :
    exec (.faultInject a b v) s = .next (s.injectCmd (blockFrame b) v.toNat) := by
  change execFaultInject a b v s = _
  rw [execFaultInject, State.viaGrd, State.mayWrite_next h, State.pairDrop_unpaired hu]

theorem voteSource_lt (l : Loc) : (voteSource l).2 < 20 := by
  unfold voteSource
  dsimp only
  repeat' split
  all_goals exact of_decide_eq_true rfl

/-- A scrub of a sound device that finds one changed copy corrects it with a fault of the block's VOTE source. -/
theorem State.scrub_one {s : State} {o : Nat} {l : Loc} (hs : s.voteErr = []) (ho : isVoted o = true) (hl : locate o = some l) :
    s.scrub [o] = s.fault (voteSource l).1 (voteSource l).2 := by
  have hlist : (s.voteErr ++ [o].filter isVoted).eraseDups = [o] := by
    rw [hs, List.filter_cons_of_pos ho]
    rfl
  have hsame : ({ s with voteErr := s.voteErr.filter (· ≠ o) } : State) = s := by
    rw [hs]
    exact congrArg (fun e => ({ s with voteErr := e } : State)) hs.symm
  rw [State.scrub, hlist, State.voteFixes, State.voteFixes, State.voteFix, hsame]
  simp only [hl]

theorem State.aliveToggle_due {s : State} (h : s.alive.on = true ∧ s.alive.left = 0) (hs : s.aliveStop = false) (hh : s.alive.held = false) :
    s.aliveToggle = { s with alive := s.alive.turn } :=
  if_pos ⟨h.1, h.2, by rw [hh]; decide, by rw [hs]; decide⟩

theorem State.aliveToggle_late {s : State} (h : s.alive.on = true ∧ s.alive.left = 0) (hs : s.aliveStop = true) (hh : s.alive.held = true)
    (h0 : 0 < s.alive.soon) :
    s.aliveToggle = if Config.aliveRuns s.tick then { s with alive := { s.alive with level := !s.alive.level, left := 400 } } else s := by
  rw [State.aliveToggle, if_neg fun hd => hd.2.2.2 hs]
  by_cases hr : Config.aliveRuns s.tick = true
  · rw [if_pos ⟨h.1, h.2, hh, hs, h0, hr⟩, if_pos hr]
    exact congrArg (fun b => ({ s with alive := { s.alive with level := !s.alive.level, left := 400, held := b } } : State)) hh.symm
  · rw [if_neg fun hd => hr hd.2.2.2.2.2, if_neg hr]

theorem State.aliveToggle_none {s : State}
    (hl : ¬ ((s.alive.on = true ∧ s.alive.left = 0) ∧ s.aliveStop = true ∧ s.alive.held = true ∧ 0 < s.alive.soon))
    (hd : ¬ ((s.alive.on = true ∧ s.alive.left = 0) ∧ s.aliveStop = false) ∨ s.alive.held = true) : s.aliveToggle = s := by
  rw [State.aliveToggle, if_neg, if_neg]
  · exact fun ⟨h1, h2, h3, h4, h5, _⟩ => hl ⟨⟨h1, h2⟩, h4, h3, h5⟩
  · exact fun ⟨h1, h2, h3, h4⟩ => hd.elim (fun h => h ⟨⟨h1, h2⟩, Bool.eq_false_iff.2 h4⟩) h3

end Sys2Proof.Machine
namespace Sys2Proof.Proofs
open Sys2Proof.Machine

/-- Settles O21: the key is refused, releases the unit, or finds it free, by what is fenced; an injection is the branch of its checker. -/
theorem unfenceAndInject : Obligations.UnfenceAndInject := by
  refine ⟨fun s a u h hu => ⟨fun hr => ?_, fun hf hn hfen => ⟨fun hlt => ?_, fun n hun => ?_⟩, fun hf hn hfen => ?_, fun n hn => ⟨fun hunf => ?_, fun hunf => ?_⟩⟩,
    fun s a b v h hu => ⟨fun ht => ?_, fun ht => ?_⟩⟩
  · rw [exec_unfence_of_mayWrite h hu, State.unfenceCmd, if_pos hr]
  · have hno : ¬ (s.fenceFlag (unitCode u) = true ∨ 64 ≤ unitCode u ∧ s.isFenced (unTile (tileOf (unitCode u - 64))) = true) :=
      fun hr => hr.elim (fun e => by rw [hf] at e; cases e) hn
    obtain ⟨-, hc, hm⟩ := s.unfenceUnit_frame hlt
    refine ⟨s.unfenceUnit (unitCode u), ?_, ?_, fun k hk hne => ?_, hc, hm⟩
    · rw [exec_unfence_of_mayWrite h hu, State.unfenceCmd, if_neg hno, if_pos hfen]
    · rw [State.unitFenced, if_neg (Nat.not_le.2 hlt), s.isFenced_unfenceUnit hlt]
      simp
    · rw [s.isFenced_unfenceUnit hlt, decide_eq_true hne, Bool.and_true]
  · have hno : ¬ (s.fenceFlag (unitCode u) = true ∨ 64 ≤ unitCode u ∧ s.isFenced (unTile (tileOf (unitCode u - 64))) = true) :=
      fun hr => hr.elim (fun e => by rw [hf] at e; cases e) hn
    rw [exec_unfence_of_mayWrite h hu, State.unfenceCmd, if_neg hno, if_pos hfen, hun, unitCode, State.unfenceUnit,
      if_pos (Nat.le_add_right _ _), Nat.add_sub_cancel_left]
  · have hno : ¬ (s.fenceFlag (unitCode u) = true ∨ 64 ≤ unitCode u ∧ s.isFenced (unTile (tileOf (unitCode u - 64))) = true) :=
      fun hr => hr.elim (fun e => by rw [hf] at e; cases e) hn
    rw [exec_unfence_of_mayWrite h hu, State.unfenceCmd, if_neg hno, if_neg (by rw [hfen]; decide)]
  · exact if_pos ⟨hn, hunf⟩
  · exact if_neg fun hd => by rw [hunf] at hd; exact absurd hd.2 (by decide)
  · rw [exec_faultInject_of_mayWrite h hu, State.injectCmd]
    exact congrArg Host.Outcome.next (if_pos ht)
  · rw [exec_faultInject_of_mayWrite h hu, State.injectCmd]
    exact congrArg Host.Outcome.next (if_neg ht)

/-- Settles O22: a scrub is the fault of the copy's VOTE source; ALIVE's transitions are the branches of its pin. -/
theorem voteScrubAndAlive : Obligations.VoteScrubAndAlive := by
  refine ⟨fun s hs => ⟨?_, fun o l ho hl hm hlat hset => ?_⟩, fun s => ⟨fun hd hh => ?_, fun hl => ?_, fun hl hd => ?_, fun hd hh => ?_, fun hd => ?_⟩⟩
  · refine congrArg Host.Outcome.next ?_
    rw [State.scrub, hs]
    rfl
  · have hfault := State.faultOf hm hlat (voteSource_lt l)
    refine ⟨_, congrArg Host.Outcome.next (State.scrub_one hs ho hl), hfault.voteErr.trans hs, hfault.set, hfault.cnt hset, hfault.rg,
      hfault.chans, hfault.fenced, hfault.mem⟩
  · exact congrArg Host.Outcome.next (State.aliveToggle_due hd.1 hd.2 hh)
  · exact congrArg Host.Outcome.next (State.aliveToggle_late hl.1 hl.2.1 hl.2.2.1 hl.2.2.2)
  · exact congrArg Host.Outcome.next (State.aliveToggle_none hl hd)
  · refine congrArg Host.Outcome.next ?_
    rw [State.aliveResume]
    exact if_pos ⟨hd.1.1, hd.1.2, hh, by rw [hd.2]; decide⟩
  · refine congrArg Host.Outcome.next ?_
    rw [State.aliveResume]
    refine if_neg fun ⟨h1, h2, h3, h4⟩ => hd.elim (fun h => h ⟨⟨h1, h2⟩, Bool.eq_false_iff.2 h4⟩) fun h => ?_
    rw [h] at h3
    cases h3

end Sys2Proof.Proofs
end

section
/-! PROOFS. Clears of status registers by software (R598, R599, R627, R645). -/

namespace Sys2Proof.Machine

/-- The flags after a clear: those that it does not name, and those of kind-L sources whose cause is present. -/
theorem State.fltDrop_bit (s : State) (f m : Nat) {i : Nat} (hi : i < 24) :
    bitOf ((s.fltDrop f m).rg (fltOff f fltSts)) i = (bitOf (s.rg (fltOff f fltSts)) i && !bitOf m i || decide (i ∈ s.fltAgain f m)) := by
  obtain ⟨⟨seq, hsts⟩, -, -⟩ := s.rg_fltDrop f m
  have hw : bitOf (s.rg (fltOff f fltSts) % 16777216) i = bitOf (s.rg (fltOff f fltSts)) i := bitOf_mod _ i hi
  generalize s.rg (fltOff f fltSts) % 16777216 = w at hsts hw
  have hdisjoint : (w - (w &&& m)) &&& maskOf (s.fltAgain f m) = 0 := by
    apply Nat.eq_of_testBit_eq
    intro j
    rw [Nat.testBit_and, testBit_sub_and, testBit_maskOf (s.fltAgain_nodup f m), Nat.zero_testBit]
    by_cases hj : j ∈ s.fltAgain f m
    · obtain ⟨-, -, hmj⟩ := (s.mem_fltNamed f m j).1 ((s.mem_fltAgain f m j).1 hj).1
      rw [← bitOf_eq_testBit m, hmj]; simp
    · simp [hj]
  have hlow : ∀ x, (x + 16777216 * seq) % 4294967296 % 16777216 = x % 16777216 := by omega
  rw [hsts, ← bitOf_mod _ i hi, hlow, bitOf_mod _ i hi, add_eq_or_of_and_eq_zero _ _ hdisjoint, bitOf_eq_testBit,
    Nat.testBit_or, testBit_sub_and, ← bitOf_eq_testBit m, ← bitOf_eq_testBit w, hw, testBit_maskOf (s.fltAgain_nodup f m)]

/-- A clear changes three registers of its frame, and pending bits of MSI-X vectors. -/
theorem State.fltDrop_frame (s : State) (f m : Nat) :
    (∀ o, o ∉ [fltOff f fltSts, fltOff f fltPers, fltOff f fltEsc] ++ pbaRegs → (s.fltDrop f m).rg o = s.rg o) ∧
      (s.fltDrop f m).chans = s.chans ∧ (s.fltDrop f m).fenced = s.fenced ∧ (s.fltDrop f m).mem = s.mem := by
  refine ⟨fun o ho => ?_, ?_⟩
  · simp only [List.cons_append, List.nil_append, List.mem_cons, not_or] at ho
    obtain ⟨h1, h2, h3, hp⟩ := ho
    have hregs := s.regs_fltDrop f m
    dsimp only at hregs
    rw [State.rg_congr hregs, State.rg_setRg_ne _ _ h3, State.rg_setRg_ne _ _ h2, State.rg_setRg_ne _ _ h1, s.linesRise_keeps.1 o hp]
  · obtain ⟨r, q, e⟩ := s.linesRise_only
    have hchans : s.linesRise.chans = s.chans := by rw [e]
    have hfenced : s.linesRise.fenced = s.fenced := by rw [e]
    have hmem : s.linesRise.mem = s.mem := by rw [e]
    rw [← hchans, ← hfenced, ← hmem]
    have hite : ∀ (p : Prop) [Decidable p] (a b : State), (a.chans = b.chans ∧ a.fenced = b.fenced ∧ a.mem = b.mem) →
        (if p then a else b).chans = b.chans ∧ (if p then a else b).fenced = b.fenced ∧ (if p then a else b).mem = b.mem := by
      intro p _ a b hab
      split
      · exact hab
      · exact ⟨rfl, rfl, rfl⟩
    unfold State.fltDrop
    exact hite _ _ _ ⟨rfl, rfl, rfl⟩

theorem State.lineSee_frame (s : State) (l : Loc) :
    (s.lineSee l).chans = s.chans ∧ (s.lineSee l).mem = s.mem ∧ (s.lineSee l).tick = s.tick ∧ (s.lineSee l).cyc = s.cyc ∧
      ∀ p, p ∉ pbaRegs → (s.lineSee l).rg p = s.rg p := by
  rw [State.lineSee]
  split
  · obtain ⟨r, q, e⟩ := s.linesRise_only
    exact ⟨by rw [e], by rw [e], by rw [e], by rw [e], s.linesRise_keeps.1⟩
  · exact ⟨rfl, rfl, rfl, rfl, fun _ _ => rfl⟩

/-- A write of a status register outside the fault frames. -/
theorem State.regPut_sts {s : State} {a : Acc} {o v i : Nat} {l : Loc} {row : RegRow} (hl : locate o = some l)
    (hr : rowAt l = some (row, i)) (hc : row.cls = .sts) : s.regPut a o v = ((s.lineSee l).stsMeets o v).stsPut l row.fl o v := by
  simp only [State.regPut, hl, hr, hc]

/-- SEQ has gone on where a flag that the write would clear is set in its own cycle. -/
theorem State.stsMeets_seq {s : State} {o v k : Nat} (hk : k < 24) (hv : bitOf v k = true)
    (hb : bitOf ((s.catchTo (s.at_ s.wcyc - 1)).rg o) k = true) (hseq : v / 16777216 = (s.catchTo (s.at_ s.wcyc - 1)).rg o / 16777216)
    (hset : bitOf ((State.catchTo ((s.catchTo (s.at_ s.wcyc - 1)).setRg o ((s.catchTo (s.at_ s.wcyc - 1)).rg o -
      (s.catchTo (s.at_ s.wcyc - 1)).rg o % 16777216)) (s.at_ s.wcyc)).rg o) k = true) :
    v / 16777216 ≠ (s.stsMeets o v).rg o / 16777216 := by
  simp only [State.stsMeets]
  generalize s.catchTo (s.at_ s.wcyc - 1) = b at hb hseq hset ⊢
  generalize (State.catchTo (b.setRg o (b.rg o - b.rg o % 16777216)) (s.at_ s.wcyc)).rg o = hit at hset ⊢
  generalize b.catchTo (s.at_ s.wcyc) = t
  have hbit : (hit &&& v &&& b.rg o) % 16777216 ≠ 0 := by
    intro h0
    have : bitOf ((hit &&& v &&& b.rg o) % 16777216) k = true := by
      rw [bitOf_mod _ k hk, bitOf_eq_testBit, Nat.testBit_and, Nat.testBit_and, ← bitOf_eq_testBit, ← bitOf_eq_testBit,
        ← bitOf_eq_testBit, hset, hv, hb]
      rfl
    rw [h0, bitOf_eq_testBit, Nat.zero_testBit] at this
    cases this
  split
  · rw [State.rg_setRg_same]
    omega
  · next hn =>
    rw [hseq]
    exact fun h => hn ⟨h.symm, hbit⟩

end Sys2Proof.Machine
namespace Sys2Proof.Proofs
open Sys2Proof.Machine

/-- Settles O20: a clear drops the flags that it names and does not set again; SEQ decides between the clear and SEQ_ERR. -/
theorem statusClears : Obligations.StatusClears := by
  refine ⟨fun s0 a b v h => ⟨fun hseq => ?_, fun hseq => ?_⟩, fun s a o l row i v hl hr h hc hg => ?_⟩
  · have he := (exec_faultClear s0 a b v).trans (State.mayWrite_next h _ _)
    generalize s0.stsMeets (fltOff (blockFrame b) fltSts) v.toNat = s at he hseq ⊢
    generalize blockFrame b = f at he hseq ⊢
    have hm (i : Nat) (hi : i < 24) : bitOf (v.toNat % 16777216) i = bitOf v.toNat i := bitOf_mod _ i hi
    refine ⟨s.fltDrop f (v.toNat % 16777216), ?_, fun i hi => ?_, fun i h20 hi => ?_, s.fltDrop_frame f _⟩
    · rw [he, State.fltClear, if_pos hseq]
    · have ha := s.mem_fltAgain f (v.toNat % 16777216) i
      rw [s.mem_fltNamed, hm i (by omega)] at ha
      rw [s.fltDrop_bit f _ (by omega), hm i (by omega), Bool.or_eq_true, decide_eq_true_eq, ha, State.fltStays, Bool.and_eq_true,
        Bool.and_eq_true, Bool.not_eq_true']
      by_cases hv : bitOf v.toNat i = true <;> simp [hv, hi]
    · have ha : i ∉ s.fltAgain f (v.toNat % 16777216) := fun hi' =>
        absurd ((s.mem_fltNamed f _ i).1 ((s.mem_fltAgain f _ i).1 hi').1).1 (Nat.not_lt.2 h20)
      rw [s.fltDrop_bit f _ hi, hm i hi, decide_eq_false ha, Bool.or_false, Bool.and_eq_true, Bool.not_eq_true']
  · rw [exec_faultClear, State.mayWrite_next h, State.fltClear, if_neg hseq]
  · have he : exec (.stsClear a o v) s = .next (((s.lineSee l).stsMeets o v.toNat).stsPut l row.fl o v.toNat) := by
      change execStsClear a o v s = _
      exact (State.mayWrite_next h _ _).trans (congrArg Host.Outcome.next (State.regPut_sts hl hr hc))
    obtain ⟨hch, hmem, htick, hcyc, hrg⟩ := s.lineSee_frame l
    refine ⟨fun hseq => ?_, fun hseq hne => ?_, fun k hk hv hb hs _ hset => ?_, hch, hmem, hrg⟩
    · rw [he, State.stsPut, if_neg hg, if_pos hseq, State.stsDrop]
    · rw [he, State.stsPut, if_neg hg, if_neg hseq, if_neg fun hd => hne hd.1 hd.2]
    · have hz : s.at_ s.wcyc = (s.lineSee l).at_ (s.lineSee l).wcyc := by
        rw [State.at_, State.at_, State.wcyc, State.wcyc, htick, hcyc]
      simp only [hz] at hb hs hset
      exact State.stsMeets_seq hk hv hb hs hset

end Sys2Proof.Proofs
end

section
/-! PROOFS. Frames that go out and transactions that complete (R730, R751), without injections: the layer that the fabric's statements use. -/

namespace Sys2Proof.Machine

/-! Frames. -/

/-- The frame `f` has gone out of port `p`, whole. -/
def State.framed (s : State) (p : Nat) (f : Frame) : State :=
  let v := s.port p
  let u := s.setPort p { v with lseq := (v.lseq + 1) % 256, sent := v.sent ++ [{ frame := f, lseq := v.lseq, tries := 1 }] }
  { u with out := u.out ++ [frameOut p v.lseq f] }

theorem State.emit_plain {s : State} {p : Nat} (h : s.injHit 15 4 (some p) = false) (f : Frame) : s.emit p f = s.framed p f := by
  rw [State.emit]
  exact State.wire_plain _ _ _ _ h

theorem State.sendFrame_plain {s : State} {f : Frame} {e : Nat} (hf : s.egress f.dst.toNat = e) (he : e < 4) (hp : s.portSt e = 3)
    (hi : s.injHit 15 4 (some e) = false) : s.sendFrame f = s.framed e f := by
  simp only [State.sendFrame, hf]
  rw [if_pos ⟨he, hp⟩, State.emit_plain hi]

theorem State.answer_plain {s : State} {dst e : Nat} (hf : s.egress (dst % 4096) = e) (he : e < 4) (hp : s.portSt e = 3)
    (hi : s.injHit 15 4 (some e) = false) (tag status cause done : Nat) (data : List Byte) :
    s.answer dst tag status cause done data = s.framed e (replyFrame s.addr dst tag status cause done data) :=
  State.sendFrame_plain (by rw [replyFrame, BitVec.toNat_ofNat]; exact hf) he hp hi

theorem State.port_congr {s t : State} (h : t.fab.ports = s.fab.ports) (p : Nat) : t.port p = s.port p := by
  rw [State.port, State.port, h]

/-! Stores and completions in the on-chip memory. -/

theorem State.store_sram {s : State} {a : Nat} (ha : a < ddrBase) (hi : s.injHit 17 1 none = false) (bs : List Byte) :
    s.store a bs = s.storeRaw a bs := State.store_plain _ _ _ (by rw [if_pos ha]; exact hi)

theorem State.fabPut_sram {s : State} {a : Nat} (ha : a < ddrBase) (hu : s.memUE = []) (hi : s.injHit 17 1 none = false) (bs : List Byte) :
    s.fabPut a bs = s.storeRaw a bs := by
  have hp : s.put a bs = (s.storeRaw a bs, []) := by rw [State.put, if_pos hu, State.store_sram ha hi]
  rw [State.fabPut, hp]
  rfl

theorem State.memUE_storeRaw {s : State} (hu : s.memUE = []) (a : Nat) (bs : List Byte) : (s.storeRaw a bs).memUE = [] := by
  simp only [State.storeRaw, hu, List.filter_nil]

theorem State.storeRaw_bytes (s : State) (a : Nat) (bs : List Byte) : (s.storeRaw a bs).bytes a bs.length = bs := tslice_tputs _ _ _ _

theorem State.storeRaw_byte_out (s : State) {a b : Nat} {bs : List Byte} (h : b < a ∨ a + bs.length ≤ b) :
    (s.storeRaw a bs).byte b = s.byte b := tget_tputs_out _ _ _ _ _ h

theorem State.bytes_take (s : State) (a : Nat) {k n : Nat} (h : k ≤ n) : s.bytes a k = (s.bytes a n).take k := by
  simp only [State.bytes, tslice, ← List.map_take, List.take_range, Nat.min_eq_left h]

/-- Bytes that agree one by one. -/
theorem State.bytes_of_byte {s t : State} {a n : Nat} (h : ∀ b, a ≤ b → b < a + n → t.byte b = s.byte b) : t.bytes a n = s.bytes a n := by
  simp only [State.bytes, tslice]
  refine List.map_congr_left fun i hi => ?_
  exact h (a + i) (Nat.le_add_right _ _) (by have := List.mem_range.1 hi; omega)

/-- Where the next completion record stands. -/
def State.cqAt (s : State) : Nat :=
  fabBuf + 32 * bitsOf (s.fr fabCqBase) 15 0 + 16 * (s.fr fabCqWptr % max 1 (bitsOf (s.fr fabCqSize) 15 0))

theorem State.cqAt_lt (s : State) : s.cqAt + 16 ≤ ddrBase := by
  have h1 := bitsOf_lt (s.fr fabCqBase) 15 0
  have h2 := bitsOf_lt (s.fr fabCqSize) 15 0
  have h3 := Nat.mod_lt (s.fr fabCqWptr) (y := max 1 (bitsOf (s.fr fabCqSize) 15 0)) (by omega)
  unfold State.cqAt fabBuf ddrBase
  omega

/-- A completion record. -/
def State.cqRec (s : State) (tag status cause done user : Nat) : List Byte :=
  leBytes 4 (tag % 4096 + 4096 * status + 65536 * cause + 1048576 * done) ++ leBytes 4 user
    ++ leBytes 4 ((BitVec.ofInt 64 s.now).toNat % 4294967296) ++ leBytes 4 0

theorem State.cqRec_length (s : State) (tag status cause done user : Nat) : (s.cqRec tag status cause done user).length = 16 := by
  simp only [State.cqRec, List.length_append, leBytes_length]

theorem State.cqRec_take (s : State) (tag status cause done user : Nat) :
    (s.cqRec tag status cause done user).take 4 = leBytes 4 (tag % 4096 + 4096 * status + 65536 * cause + 1048576 * done) := by
  rw [State.cqRec, List.append_assoc, List.append_assoc, List.take_left' (leBytes_length _ _)]

/-- A record is written in the ring. -/
def State.recorded (s : State) (tag status cause done user : Nat) : State :=
  (s.storeRaw s.cqAt (s.cqRec tag status cause done user)).setRg (fabOff fabCqWptr) ((s.fr fabCqWptr + 1) % 4294967296)

theorem State.recorded_mem (s : State) (tag status cause done user : Nat) :
    (s.recorded tag status cause done user).mem = (s.storeRaw s.cqAt (s.cqRec tag status cause done user)).mem := rfl

theorem State.recorded_rest (s : State) (tag status cause done user : Nat) :
    (s.recorded tag status cause done user).fab = s.fab ∧ (s.recorded tag status cause done user).chans = s.chans ∧
      (s.recorded tag status cause done user).out = s.out ∧ (s.recorded tag status cause done user).later = s.later := by
  simp only [State.recorded, State.setRg, State.storeRaw, and_self]

theorem State.cqPut_plain {s : State} (hu : s.memUE = []) (hi : s.injHit 17 1 none = false) (tag status cause done user : Nat) :
    s.cqPut tag status cause done user = s.recorded tag status cause done user := by
  have h : s.cqAt < ddrBase := by have := s.cqAt_lt; omega
  exact congrArg (fun u : State => u.setRg (fabOff fabCqWptr) ((s.fr fabCqWptr + 1) % 4294967296)) (State.fabPut_sram h hu hi _)

/-- What the completion of transaction `t` leaves. -/
structure Completes (s u : State) (t : Txn) (status cause done : Nat) (data : List Byte) : Prop where
  txns : u.fab.txns = s.fab.txns.filter fun x => x.tag ≠ t.tag
  wptr : u.fr fabCqWptr = wrapAdd (s.fr fabCqWptr) 1
  record : u.bytes s.cqAt 4 = leBytes 4 (t.tag % 4096 + 4096 * status + 65536 * cause + 1048576 * done)
  bytes : u.bytes (fabBuf + t.dptr) data.length = data
  byte : ∀ b, b < s.cqAt ∨ s.cqAt + 16 ≤ b → b < fabBuf + t.dptr ∨ fabBuf + t.dptr + data.length ≤ b → u.byte b = s.byte b
  chans : u.chans = s.chans
  rg : ∀ o, o ≠ fabOff fabCqWptr → u.rg o = s.rg o
  out : u.out = s.out
  later : u.later = s.later

/-- The bytes of a transaction's answer stand at its DPTR, and it is not outstanding any more. -/
def State.dataIn (s : State) (t : Txn) (data : List Byte) : State :=
  let u := if data = [] then s else s.storeRaw (fabBuf + t.dptr) data
  { u with fab := { u.fab with txns := s.fab.txns.filter fun x => x.tag ≠ t.tag } }

/-- What `State.dataIn` changes. -/
structure DataIn (s v : State) (t : Txn) (data : List Byte) : Prop where
  txns : v.fab.txns = s.fab.txns.filter fun x => x.tag ≠ t.tag
  mem : v.mem = (s.storeRaw (fabBuf + t.dptr) data).mem
  memUE : v.memUE = (s.storeRaw (fabBuf + t.dptr) data).memUE
  regs : v.regs = s.regs
  chans : v.chans = s.chans
  out : v.out = s.out
  later : v.later = s.later

theorem State.dataIn_in {s : State} (hu : s.memUE = []) (t : Txn) (data : List Byte) : DataIn s (s.dataIn t data) t data := by
  rw [State.dataIn]
  split
  · next h => rw [h]; exact ⟨rfl, rfl, by rw [State.memUE_storeRaw hu]; exact hu, rfl, rfl, rfl, rfl⟩
  · exact ⟨rfl, rfl, rfl, rfl, rfl, rfl, rfl⟩

theorem State.finish_plain {s : State} (t : Txn) (status cause done : Nat) {data : List Byte} (hf : s.cqFull = false)
    (hu : s.memUE = []) (hi : s.injHit 17 1 none = false) (hd : data = [] ∨ fabBuf + t.dptr < ddrBase) :
    s.finish t status cause done data none = (s.dataIn t data).recorded t.tag status cause done t.user := by
  have hput : (if data = [] then s else s.fabPut (fabBuf + t.dptr) data) = if data = [] then s else s.storeRaw (fabBuf + t.dptr) data := by
    split
    · rfl
    · next hne => exact State.fabPut_sram (hd.resolve_left hne) hu hi _
  have hk : (if t.dtag = none then t else { t with age := 0 }).tag = t.tag ∧ (if t.dtag = none then t else { t with age := 0 }).dptr = t.dptr ∧
      (if t.dtag = none then t else { t with age := 0 }).user = t.user := by split <;> exact ⟨rfl, rfl, rfl⟩
  obtain ⟨htag, hdptr, huser⟩ := hk
  have h := State.dataIn_in hu t data
  have hcq := State.cqPut_plain (s := s.dataIn t data) (h.memUE.trans (State.memUE_storeRaw hu _ _))
    (show (s.dataIn t data).injHit 17 1 none = false from (State.injHit_congr (State.rg_congr h.regs _) 1 none).trans hi)
    t.tag status cause done t.user
  rw [← hcq]
  simp only [State.finish]
  rw [if_neg (by rw [hf]; decide), htag, hdptr, huser, hput, State.dataIn]
  rfl

/-- A record written after the answer's bytes, which lie before it. -/
theorem State.recorded_completes {s v : State} {t : Txn} (status cause done : Nat) {data : List Byte} (h : DataIn s v t data)
    (hd : data = [] ∨ fabBuf + t.dptr + data.length ≤ s.cqAt) :
    Completes s (v.recorded t.tag status cause done t.user) t status cause done data := by
  have hfr : ∀ r, v.fr r = s.fr r := fun r => State.rg_congr h.regs _
  have hat : v.cqAt = s.cqAt := by rw [State.cqAt, State.cqAt, hfr, hfr, hfr]
  have hlen := v.cqRec_length t.tag status cause done t.user
  have hbyte : ∀ b, b < s.cqAt ∨ s.cqAt + 16 ≤ b → (v.recorded t.tag status cause done t.user).byte b = v.byte b := fun b hb => by
    rw [State.byte_congr (v.recorded_mem _ _ _ _ _)]
    exact v.storeRaw_byte_out (by rw [hlen, hat]; exact hb)
  have hrec : (v.recorded t.tag status cause done t.user).bytes s.cqAt 16 = v.cqRec t.tag status cause done t.user := by
    have h16 := v.storeRaw_bytes v.cqAt (v.cqRec t.tag status cause done t.user)
    rw [hlen, hat] at h16
    rw [State.bytes, v.recorded_mem, hat]
    exact h16
  obtain ⟨hfab, hchans, hout, hlater⟩ := v.recorded_rest t.tag status cause done t.user
  refine ⟨by rw [hfab]; exact h.txns, ?_, ?_, ?_, fun b hb hb' => ?_, hchans.trans h.chans, fun o hne => ?_, hout.trans h.out, hlater.trans h.later⟩
  · rw [State.recorded, State.fr, State.rg_setRg_same, hfr]
    unfold wrapAdd
    omega
  · have h4 := (v.recorded t.tag status cause done t.user).bytes_take s.cqAt (k := 4) (n := 16) (by decide)
    rw [h4, hrec]
    exact v.cqRec_take _ _ _ _ _
  · obtain rfl | hd := hd
    · rfl
    · have hsame : (v.recorded t.tag status cause done t.user).bytes (fabBuf + t.dptr) data.length = v.bytes (fabBuf + t.dptr) data.length := by
        refine State.bytes_of_byte fun b h1 h2 => hbyte b (.inl ?_)
        exact Nat.lt_of_lt_of_le h2 hd
      rw [hsame, State.bytes, h.mem]
      exact s.storeRaw_bytes _ _
  · rw [hbyte b hb, State.byte_congr h.mem]
    exact s.storeRaw_byte_out hb'
  · rw [State.recorded, State.rg_setRg_ne _ _ hne]
    exact State.rg_congr h.regs _

/-- A transaction that the ring has room for completes. -/
theorem State.complete_completes {s : State} (t : Txn) (status cause done : Nat) {data : List Byte} (hf : s.cqFull = false)
    (hu : s.memUE = []) (hi : s.injHit 17 1 none = false) (hd : data = [] ∨ fabBuf + t.dptr + data.length ≤ s.cqAt) :
    Completes s (s.complete t status cause done data none) t status cause done data := by
  have hlt := s.cqAt_lt
  have h := State.recorded_completes status cause done (State.dataIn_in hu t data) hd
  rw [← State.finish_plain t status cause done hf hu hi (hd.imp id fun h => by omega)] at h
  simp only [State.complete]
  rw [if_pos h.later]
  exact h

end Sys2Proof.Machine
end

section
/-! PROOFS. A reply of firmware whose queue entry cannot be read, while the source of a channel waits to be reported (R578, R780). -/

namespace Sys2Proof.Machine

/-- The one queued request, of node 0. -/
def replyReq : FwReq := { dtag := 0, slot := 0, key := 0, write := false, src := 0, loc := false, tag := 0, room := 0 }

/-- Port 0 is UP and the route to node 0 leads there; the queue's entry has an uncorrectable error; the dictionary's reaction table
names no reaction, and source 5 of channel 0, whose severity has FENCE, waits to be reported. -/
def replyWaits : State := { State.reset with
  regs := [(fabOff fabRt, 0), (fabOff fabPortSts, 3), (fltOff frOde fltReact, 0)], fwq := [replyReq], memUE := [0x5E00000], later := [(frCh 0, 5)] }

theorem replyWaits_mayWrite : replyWaits.mayWrite ⟨.host, .priv⟩ (odeOff odeFwReply1) := fun _ => rfl

/-- The fault of the entry brings the waiting report about, which fences channel 0. -/
theorem replyWaits_fences : (replyWaits.fwReplyCmd 1).chans ≠ replyWaits.chans := by decide

end Sys2Proof.Machine
namespace Sys2Proof.Proofs
open Sys2Proof.Machine

/-- Refutes O44: where the entry cannot be read and a channel's source waits to be reported, the fault DICT_ECC brings that report
about as well, and its FENCE changes the channel; the statement keeps the channels without the condition that nothing waits. -/
theorem not_deferredRequests : ¬ Obligations.DeferredRequests := by
  unfold Obligations.DeferredRequests
  intro h
  obtain ⟨-, hreply⟩ := (h replyWaits).1 ⟨.host, .priv⟩ 1 replyWaits_mayWrite
  obtain ⟨t, f, he, -, -, -, -, -, -, -, hchans, -⟩ :=
    hreply replyReq rfl rfl rfl (by decide) (by decide) (by decide) (by decide) (by decide)
  have hexec : exec (.fwReply ⟨.host, .priv⟩ 1) replyWaits = .next (replyWaits.fwReplyCmd 1) := by
    change execFwReply ⟨.host, .priv⟩ 1 replyWaits = _
    exact State.mayWrite_next replyWaits_mayWrite _ _
  rw [hexec] at he
  exact replyWaits_fences ((congrArg State.chans (Host.Outcome.next.inj he)).trans hchans)

end Sys2Proof.Proofs
end

section
/-! PROOFS. The dictionary's requests, from a link and from a descriptor, and APPLY (R774, R784 to R789, R797, R799). -/

namespace Sys2Proof.Machine

/-! The engine. -/

/-- A request has come to the engine. -/
def State.asked1 (s : State) : State := { s with fab := { s.fab with asks := s.fab.asks ++ [0] } }

theorem State.engBusy_room {s : State} (h : s.fab.asks.length < 16) : s.engBusy = false := by
  rw [State.engBusy, decide_eq_false (Nat.not_le.2 h), Bool.and_false, Bool.false_and]

theorem State.engBusy_off {s : State} (h : bitOf (s.rg (odeOff odeCtl)) 0 = false) : s.engBusy = false := by
  rw [State.engBusy, h, Bool.false_and, Bool.false_and]

theorem State.dictServe_answered {s : State} (hb : s.engBusy = false) (q : DAsk) {ecc : Bool} {r : DRes}
    (hs : s.asked1.serve q.idx q.sub q.raw q.priv ecc q.write (if q.loc ∧ q.write = none then some q.room else none) = .answered r) :
    s.dictServe q ecc = r.st.dictSend q r.word (if r.abort = 0 then r.data else []) := by
  simp only [State.dictServe]
  rw [if_neg (by rw [hb]; decide)]
  change (match s.asked1.serve q.idx q.sub q.raw q.priv ecc q.write (if q.loc ∧ q.write = none then some q.room else none) with
    | .answered r => _
    | .queued => _) = _
  rw [hs]

theorem State.serve_off {s : State} (h : bitOf (s.rg (odeOff odeCtl)) 0 = false) (idx sub : Nat) (raw priv ecc : Bool)
    (w : Option (List Byte)) (room : Option Nat) :
    s.serve idx sub raw priv ecc w room = .answered { st := s, abort := 17 } := by
  rw [State.serve]
  exact if_pos (by rw [h]; decide)

theorem State.serve_noObject {s : State} {idx sub c : Nat} (h : bitOf (s.rg (odeOff odeCtl)) 0 = true) (ho : objAt idx sub = .inr c)
    (raw priv : Bool) (w : Option (List Byte)) (room : Option Nat) :
    s.serve idx sub raw priv false w room = .answered { st := s, abort := c } := by
  simp only [State.serve, ho]
  rw [if_neg (not_not.2 h), if_neg (by decide)]

/-- The answer to a read of a constant object. -/
def litAnswer (s : State) (bs : List Byte) (room : Option Nat) : DRes :=
  if room.any fun k => decide (k < 4 + bs.length) then { st := s, abort := 8 } else { st := s, data := bs }

theorem State.serve_lit {s : State} {idx sub : Nat} {o : Obj} {bs : List Byte} (h : bitOf (s.rg (odeOff odeCtl)) 0 = true)
    (ho : objAt idx sub = .inl o) (hb : o.at_ = .lit bs) (hr : readBad o = false) (raw priv : Bool) (room : Option Nat) :
    s.serve idx sub raw priv false none room = .answered (litAnswer s bs room) := by
  simp only [State.serve, ho, hb, hr, State.objRead]
  rw [if_neg (not_not.2 h), if_neg (by decide), if_neg (by decide), if_neg (fun h => nomatch h), litAnswer]
  cases room with
  | none => rfl
  | some k => simp

/-- A privileged write of a Harvest map object. -/
theorem State.serve_map {s : State} {idx sub : Nat} {o : Obj} {i j : Nat} {bs : List Byte} (h : bitOf (s.rg (odeOff odeCtl)) 0 = true)
    (ho : objAt idx sub = .inl o) (hb : o.at_ = .map i j) (hw : writeBad o true = 0) (hl : lenBad o bs.length = 0) (ht : o.typ ≠ 1)
    (raw : Bool) (room : Option Nat) :
    s.serve idx sub raw true false (some bs) room = .answered (s.mapPut i j (leNat bs)) := by
  simp only [State.serve, ho, hb, hw, hl, State.objWrite]
  rw [if_neg (not_not.2 h), if_neg (by decide), if_neg (by decide), if_neg (by decide), if_neg (fun h => nomatch h), if_neg fun h => ht h.1]

/-! The answer to a link. -/

/-- What an answer of data `d` with status word `w` leaves of a request from node `src`. -/
structure Answered (s t : State) (src tag w : Nat) (d : List Byte) : Prop where
  out : t.out = s.out ++ [frameOut (s.egress (src % 4096)) (s.port (s.egress (src % 4096))).lseq
    (replyFrame s.addr src tag 0 0 (4 + d.length) (leBytes 4 w ++ d))]
  reqs : t.rg (odeOff odeReqs) = wrapAdd (s.rg (odeOff odeReqs)) 1
  aborts : t.rg (odeOff odeAborts) = if w % 256 = 0 then s.rg (odeOff odeAborts) else holdAdd (s.rg (odeOff odeAborts)) 1
  rg : ∀ o, o ∉ [odeOff odeReqs, odeOff odeAborts] → t.rg o = s.rg o
  chans : t.chans = s.chans
  mem : t.mem = s.mem
  hv : t.fab.hv = s.fab.hv

/-- The requests and the aborts are counted. -/
def State.dictCount (s : State) (w : Nat) : State :=
  if w % 256 = 0 then s.countWrap (odeOff odeReqs) else (s.countWrap (odeOff odeReqs)).count (odeOff odeAborts)

theorem State.rg_dictCount (s : State) (w : Nat) {o : Nat} (h : o ∉ [odeOff odeReqs, odeOff odeAborts]) : (s.dictCount w).rg o = s.rg o := by
  simp only [List.mem_cons, List.not_mem_nil, or_false, not_or] at h
  rw [State.dictCount]
  split
  · exact State.rg_countWrap_ne _ _ h.1
  · exact (State.rg_count_ne _ _ h.2).trans (State.rg_countWrap_ne _ _ h.1)

theorem State.rg_dictCount_reqs (s : State) (w : Nat) : (s.dictCount w).rg (odeOff odeReqs) = wrapAdd (s.rg (odeOff odeReqs)) 1 := by
  rw [State.dictCount]
  split
  · exact State.rg_countWrap_same _ _ _
  · exact (State.rg_count_ne _ _ (by decide)).trans (State.rg_countWrap_same _ _ _)

theorem State.rg_dictCount_aborts (s : State) (w : Nat) :
    (s.dictCount w).rg (odeOff odeAborts) = if w % 256 = 0 then s.rg (odeOff odeAborts) else holdAdd (s.rg (odeOff odeAborts)) 1 := by
  rw [State.dictCount]
  split
  · exact State.rg_countWrap_ne _ _ (by decide)
  · rw [State.rg_count_same, State.rg_countWrap_ne _ _ (by decide)]

theorem State.dictCount_rest (s : State) (w : Nat) : (s.dictCount w).out = s.out ∧ (s.dictCount w).fab = s.fab ∧
    (s.dictCount w).chans = s.chans ∧ (s.dictCount w).mem = s.mem ∧ (s.dictCount w).memUE = s.memUE ∧ (s.dictCount w).tick = s.tick := by
  rw [State.dictCount]
  split <;> exact ⟨rfl, rfl, rfl, rfl, rfl, rfl⟩

theorem odeCounts_ne {o : Nat} (h : o < 0xE0000) : o ∉ [odeOff odeReqs, odeOff odeAborts] := by
  simp only [odeOff, List.mem_cons, List.not_mem_nil, or_false, not_or]
  omega

theorem State.egress_dictCount (s : State) (w : Nat) {d : Nat} (hd : d < 4096) : (s.dictCount w).egress d = s.egress d :=
  congrArg (bitsOf · 2 0) (s.rg_dictCount w (odeCounts_ne (by unfold fabOff fabRt; omega)))

/-- An answer goes out over the route to its requester. -/
theorem State.dictSend_link {s : State} {q : DAsk} (hq : q.loc = false) (he : s.egress (q.src % 4096) < 4)
    (hp : s.portSt (s.egress (q.src % 4096)) = 3) (hi : s.injHit 15 4 (some (s.egress (q.src % 4096))) = false) (w : Nat) (d : List Byte) :
    Answered s (s.dictSend q w d) q.src q.tag w d := by
  have heg := s.egress_dictCount w (Nat.mod_lt q.src (by decide : 0 < 4096))
  have haddr : (s.dictCount w).addr = s.addr := congrArg (bitsOf · 11 0) (s.rg_dictCount w (by decide))
  obtain ⟨hout, hfab, hchans, hmem, -, -⟩ := s.dictCount_rest w
  have h : s.dictSend q w d = (s.dictCount w).framed (s.egress (q.src % 4096))
      (replyFrame s.addr q.src q.tag 0 0 (4 + d.length) (leBytes 4 w ++ d)) := by
    simp only [State.dictSend, hq]
    rw [if_neg (by decide), ← haddr]
    exact State.answer_plain heg he ((State.portSt_congr (s.rg_dictCount w (by decide)) _).trans hp)
      ((State.injHit_congr (s.rg_dictCount w (by decide)) _ _).trans hi) _ _ _ _ _
  rw [h]
  refine ⟨?_, s.rg_dictCount_reqs w, s.rg_dictCount_aborts w, fun o ho => s.rg_dictCount w ho, hchans, hmem, ?_⟩
  · have hport : (s.dictCount w).port (s.egress (q.src % 4096)) = s.port (s.egress (q.src % 4096)) := State.port_congr (by rw [hfab]) _
    simp only [State.framed, State.setPort, hport, hout]
  · simp only [State.framed, State.setPort, hfab]

/-! Requests. -/

/-- The acknowledgement of the frame with sequence number `n` on port `p`. -/
def State.acked (s : State) (p n : Nat) : State := { s with out := s.out ++ [.ctrl p false n] }

theorem State.locServes_none {s : State} (h : ∀ t ∈ s.fab.txns, t.ask = none) : s.locServes = s := by
  have hfold (l : List Txn) (u : State) (hl : ∀ t ∈ l, t.ask = none) : l.foldl (fun s t => s.locDo false t) u = u := by
    induction l generalizing u with
    | nil => rfl
    | cons t r ih =>
      have ht : u.locDo false t = u := by
        simp only [State.locDo, hl t List.mem_cons_self]
      rw [List.foldl_cons, ht]
      exact ih u fun x hx => hl x (List.mem_cons_of_mem _ hx)
  exact hfold _ _ h

theorem State.dictAsk_link {s : State} {d : DictReq} {p : PortId} {n : BitVec 8} (hl : d.link = some (p, n)) (he : d.ecc = false)
    (hp : s.portSt p.val = 3) (ha : s.assigned = true) (ht : d.priv = true → s.fabTrusted d.src.toNat = true)
    (hno : ∀ t ∈ s.fab.txns, t.ask = none) (room : Nat) (write : Option (List Byte)) :
    s.dictAsk d room write = (s.acked p.val n.toNat).dictServe
      ⟨d.index.toNat, d.sub.toNat, d.raw, d.priv, d.src.toNat, false, d.tag.toNat, room, write⟩ false := by
  simp only [State.dictAsk, hl]
  refine (if_neg (not_not.2 hp)).trans ((if_neg (not_not.2 ha)).trans ((if_neg fun h => h.2 (ht h.1)).trans ?_))
  rw [he]
  exact congrArg (fun u : State => u.dictServe _ false) (State.locServes_none (s := s.acked p.val n.toNat) hno)

/-- The one local request, of the transaction `t`. -/
theorem State.locServe_one {s : State} {t : Txn} {k : LocAsk} (ht : s.fab.txns = [t]) (hk : t.ask = some k) (ecc : Bool) :
    s.locServe k.write.isSome t.tag ecc = State.dictServe { s with fab := { s.fab with txns := [{ t with ask := none }] } }
      ⟨k.idx, k.sub, k.raw, true, s.addr, true, t.tag, t.room, k.write⟩ ecc := by
  simp only [State.locServe, ht]
  rw [List.find?_cons_of_pos (by simp [hk])]
  simp [hk, State.locDo, ht]
  rfl

theorem State.locServe_other {s : State} {t : Txn} {k : LocAsk} (ht : s.fab.txns = [t]) (hk : t.ask = some k) {write : Bool}
    (hw : k.write.isSome ≠ write) (tag : Nat) (ecc : Bool) : s.locServe write tag ecc = s := by
  have hb : (k.write.isSome == write) = false := beq_eq_false_iff_ne.2 hw
  simp only [State.locServe, ht]
  rw [List.find?_cons_of_neg (by simp [hk, hb])]
  rfl

/-- A request of a link that is answered: what the answer leaves of the present state, besides what the object's access did. -/
structure LinkAnswered (s t : State) (d : DictReq) (p n : Nat) (r : DRes) : Prop where
  sent : t.out = s.out ++ [.ctrl p false n, frameOut (s.egress d.src.toNat) (s.port (s.egress d.src.toNat)).lseq
    (replyFrame s.addr d.src.toNat d.tag.toNat 0 0 (leBytes 4 r.word ++ if r.abort = 0 then r.data else []).length
      (leBytes 4 r.word ++ if r.abort = 0 then r.data else []))]
  reqs : t.rg (odeOff odeReqs) = wrapAdd (s.rg (odeOff odeReqs)) 1
  aborts : t.rg (odeOff odeAborts) = if r.word % 256 = 0 then s.rg (odeOff odeAborts) else holdAdd (s.rg (odeOff odeAborts)) 1
  rg : ∀ o, o ∉ [odeOff odeReqs, odeOff odeAborts] → t.rg o = r.st.rg o
  chans : t.chans = s.chans
  mem : t.mem = s.mem
  hv : t.fab.hv = r.st.fab.hv

/-- The object's access leaves what an answer goes by. -/
structure LinkServed (s u : State) : Prop where
  below : ∀ o, o < 0xE0000 → u.rg o = s.rg o
  reqs : u.rg (odeOff odeReqs) = s.rg (odeOff odeReqs)
  aborts : u.rg (odeOff odeAborts) = s.rg (odeOff odeAborts)
  ports : u.fab.ports = s.fab.ports
  out : u.out = s.out
  chans : u.chans = s.chans
  mem : u.mem = s.mem

theorem State.dictAsk_answered {s : State} {d : DictReq} {p : PortId} {n : BitVec 8} {write : Option (List Byte)} {r : DRes}
    (hl : d.link = some (p, n)) (he : d.ecc = false) (hp : s.portSt p.val = 3) (ha : s.assigned = true)
    (ht : d.priv = true → s.fabTrusted d.src.toNat = true) (hno : ∀ t ∈ s.fab.txns, t.ask = none) (hb : s.engBusy = false)
    (hlt : s.egress d.src.toNat < 4) (heg : s.portSt (s.egress d.src.toNat) = 3)
    (hi : s.injHit 15 4 (some (s.egress d.src.toNat)) = false) (room : Nat)
    (hs : (s.acked p.val n.toNat).asked1.serve d.index.toNat d.sub.toNat d.raw d.priv false write none = .answered r)
    (hu : LinkServed (s.acked p.val n.toNat) r.st) : LinkAnswered s (s.dictAsk d room write) d p.val n.toNat r := by
  have hsrc : d.src.toNat < 4096 := d.src.isLt
  have hmod : d.src.toNat % 4096 = d.src.toNat := Nat.mod_eq_of_lt hsrc
  have hegress : r.st.egress d.src.toNat = s.egress d.src.toNat := congrArg (bitsOf · 2 0) (hu.below _ (by unfold fabOff fabRt; omega))
  have haddr : r.st.addr = s.addr := congrArg (bitsOf · 11 0) (hu.below _ (by decide))
  have hask := (State.dictAsk_link hl he hp ha ht hno room write).trans
    (State.dictServe_answered (s := s.acked p.val n.toNat) hb
      (q := ⟨d.index.toNat, d.sub.toNat, d.raw, d.priv, d.src.toNat, false, d.tag.toNat, room, write⟩) (r := r) (by
        rw [if_neg fun h => Bool.false_ne_true h.1]
        exact hs))
  have hsend := State.dictSend_link (s := r.st)
    (q := ⟨d.index.toNat, d.sub.toNat, d.raw, d.priv, d.src.toNat, false, d.tag.toNat, room, write⟩) rfl
    (by rw [hmod, hegress]; exact hlt) (by rw [hmod, hegress]; exact (State.portSt_congr (hu.below _ (by decide)) _).trans heg)
    (by rw [hmod, hegress]; exact (State.injHit_congr (hu.below _ (by decide)) _ _).trans hi) r.word (if r.abort = 0 then r.data else [])
  rw [← hask] at hsend
  refine ⟨?_, hsend.reqs.trans (by rw [hu.reqs]; rfl), hsend.aborts.trans (by rw [hu.aborts]; rfl), hsend.rg, hsend.chans.trans hu.chans,
    hsend.mem.trans hu.mem, hsend.hv⟩
  rw [hsend.out, hu.out, State.acked, List.append_assoc]
  dsimp only
  rw [hmod, hegress, haddr, State.port_congr hu.ports, List.length_append, leBytes_length]
  rfl

/-! The local request of a descriptor. -/

/-- An answer without a deferred tag completes the one transaction that waits. -/
theorem State.dictSend_local {s : State} {t : Txn} {q : DAsk} (ht : s.fab.txns = [t]) (hd : t.dtag = none) (hh : t.held = none)
    (hq : q.loc = true) (htag : q.tag = t.tag) {w : Nat} (hw : bitOf w 9 = false) (data : List Byte) :
    s.dictSend q w data = (s.dictCount w).complete t 0 0 (dictBytes t w data).length (dictBytes t w data) none := by
  have ht' : (s.dictCount w).fab.txns = [t] := by rw [(s.dictCount_rest w).2.1, ht]
  have hfind : (s.dictCount w).fab.txns.find? (fun x => decide (x.tag = q.tag) && x.dtag.isNone && x.held.isNone) = some t := by
    rw [ht']
    exact List.find?_cons_of_pos (by simp [htag, hd, hh])
  have he : s.dictSend q w data = (match (s.dictCount w).fab.txns.find? (fun x => decide (x.tag = q.tag) && x.dtag.isNone && x.held.isNone) with
      | some t => if bitOf w 9 then (s.dictCount w).complete t 0 0 0 [] (some (bitsOf w 31 16)) else (s.dictCount w).dictDone t w data
      | none => (s.dictCount w).count (fabOff fabLate)) := by
    simp only [State.dictSend, hq]
    rfl
  rw [he, hfind]
  dsimp only
  rw [if_neg (by rw [hw]; decide)]
  rfl

/-- The bytes that a read of a constant places at DPTR: the value, or SHORT_BUF. -/
def litBytes (room : Nat) (bs : List Byte) : List Byte := if room < 4 + bs.length then leBytes 4 8 else leBytes 4 0 ++ bs

theorem litBytes_length (room : Nat) (bs : List Byte) : (litBytes room bs).length ≤ max 4 room := by
  rw [litBytes]
  split
  · rw [leBytes_length]; omega
  · rw [List.length_append, leBytes_length]; omega

/-- The transaction as the engine serves its request. -/
def Txn.served (t : Txn) : Txn := { t with ask := none }

/-- The state in which a read of the one local request completes. -/
def State.locRead (s : State) (t : Txn) (w : Nat) : State :=
  State.dictCount { s with fab := { s.fab with txns := [t.served], asks := s.fab.asks ++ [0] } } w

/-- A local read of a constant object completes its transaction. -/
theorem State.locServe_lit {s : State} {t : Txn} {k : LocAsk} {o : Obj} {bs : List Byte} (ht : s.fab.txns = [t]) (hk : t.ask = some k)
    (hw : k.write = none) (hd : t.dtag = none) (hh : t.held = none) (hb : s.fab.asks.length < 16)
    (hon : bitOf (s.rg (odeOff odeCtl)) 0 = true) (ho : objAt k.idx k.sub = .inl o) (hl : o.at_ = .lit bs) (hr : readBad o = false) :
    ∃ w, s.locServe false t.tag false =
      (s.locRead t w).complete t.served 0 0 (litBytes t.room bs).length (litBytes t.room bs) none := by
  have hone := State.locServe_one ht hk false
  rw [hw] at hone
  refine ⟨if t.room < 4 + bs.length then 8 else 0, hone.trans ?_⟩
  have hserve := State.dictServe_answered (s := { s with fab := { s.fab with txns := [t.served] } }) (State.engBusy_room hb)
    (q := ⟨k.idx, k.sub, k.raw, true, s.addr, true, t.tag, t.room, none⟩) (ecc := false)
    (State.serve_lit (s := State.asked1 { s with fab := { s.fab with txns := [t.served] } }) hon ho hl hr k.raw true (some t.room))
  refine hserve.trans ?_
  by_cases hroom : t.room < 4 + bs.length
  · have hans : litAnswer (State.asked1 { s with fab := { s.fab with txns := [t.served] } }) bs (some t.room) =
        { st := State.asked1 { s with fab := { s.fab with txns := [t.served] } }, abort := 8 } := by simp [litAnswer, hroom]
    have hbytes : dictBytes t.served 8 [] = litBytes t.room bs := by
      rw [dictBytes, litBytes, if_pos hroom]
      split
      · rfl
      · exact List.append_nil _
    rw [hans, if_pos hroom, ← hbytes]
    exact State.dictSend_local (s := State.asked1 { s with fab := { s.fab with txns := [t.served] } }) (t := t.served) (w := 8) rfl hd hh rfl rfl
      (by decide) _
  · have hans : litAnswer (State.asked1 { s with fab := { s.fab with txns := [t.served] } }) bs (some t.room) =
        { st := State.asked1 { s with fab := { s.fab with txns := [t.served] } }, data := bs } := by simp [litAnswer, hroom]
    have hbytes : dictBytes t.served 0 bs = litBytes t.room bs := by
      rw [dictBytes, litBytes, if_neg hroom]
      exact if_neg hroom
    rw [hans, if_neg hroom, ← hbytes]
    exact State.dictSend_local (s := State.asked1 { s with fab := { s.fab with txns := [t.served] } }) (t := t.served) (w := 0) rfl hd hh rfl rfl
      (by decide) _

/-- What that completion leaves. -/
theorem State.locRead_completes {s : State} {t : Txn} {w : Nat} {d : List Byte} (hf : s.cqFull = false) (hu : s.memUE = [])
    (hi : s.injHit 17 1 none = false) (hb : fabBuf + t.dptr + d.length ≤ s.cqAt) (htag : t.tag < 4096) :
    let u := (s.locRead t w).complete t.served 0 0 d.length d none
    u.fab.txns = [] ∧ u.bytes s.cqAt 4 = leBytes 4 (t.tag + 1048576 * d.length) ∧ u.bytes (fabBuf + t.dptr) d.length = d ∧
      u.fr fabCqWptr = wrapAdd (s.fr fabCqWptr) 1 ∧ u.chans = s.chans ∧
      (∀ b, b < s.cqAt ∨ s.cqAt + 16 ≤ b → b < fabBuf + t.dptr ∨ fabBuf + t.dptr + d.length ≤ b → u.byte b = s.byte b) ∧
      ∀ o, o ∉ [fabOff fabCqWptr, odeOff odeReqs, odeOff odeAborts] → u.rg o = s.rg o := by
  obtain ⟨-, hfab, hchans, hmem, hmemUE, -⟩ :=
    State.dictCount_rest { s with fab := { s.fab with txns := [t.served], asks := s.fab.asks ++ [0] } } w
  have hrg (o : Nat) (ho : o ∉ [odeOff odeReqs, odeOff odeAborts]) : (s.locRead t w).rg o = s.rg o := State.rg_dictCount _ _ ho
  have hfr (r : Nat) (h : r < 0x10000) : (s.locRead t w).fr r = s.fr r := hrg _ (odeCounts_ne (by unfold fabOff; omega))
  have hat : (s.locRead t w).cqAt = s.cqAt := by
    rw [State.cqAt, State.cqAt, hfr _ (by decide), hfr _ (by decide), hfr _ (by decide)]
  have hfull : (s.locRead t w).cqFull = false := by
    rw [State.cqFull, hfr _ (by decide), hfr _ (by decide), hfr _ (by decide)]
    exact hf
  have hc := State.complete_completes (s := s.locRead t w) t.served 0 0 d.length (data := d) hfull (hmemUE.trans hu)
    ((State.injHit_congr (hrg _ (by decide)) _ _).trans hi) (.inr (by rw [hat]; exact hb))
  have htxns : (s.locRead t w).fab.txns = [t.served] := by rw [State.locRead, hfab]
  refine ⟨?_, ?_, hc.bytes, ?_, hc.chans.trans hchans, fun b h1 h2 => ?_, fun o ho => ?_⟩
  · rw [hc.txns, htxns]
    simp
  · have h := hc.record
    rw [hat, show t.served.tag = t.tag from rfl, Nat.mod_eq_of_lt htag] at h
    simpa using h
  · rw [hc.wptr, hfr _ (by decide)]
  · rw [hc.byte b (by rw [hat]; exact h1) h2]
    exact State.byte_congr hmem b
  · rw [List.mem_cons, not_or] at ho
    rw [hc.rg o ho.1, hrg o ho.2]

/-! Harvest maps. -/

theorem objAt_code {i sub c : Nat} (h : objAt i sub = .inr c) : c = 1 ∨ c = 2 := by
  simp only [objAt] at h
  split at h
  · exact .inl (Sum.inr.inj h).symm
  · split at h
    · cases h
    · split at h
      · exact .inr (Sum.inr.inj h).symm
      · split at h <;> cases h

theorem objAt_map {sub : Nat} (h1 : 1 ≤ sub) (h2 : sub ≤ 64) : objAt 0xA000 sub = .inl ⟨5, .rwp, .map 0xA000 sub, 0, 0, 0⟩ := by
  rw [objAt]
  exact (if_neg (by decide)).trans ((if_neg (by omega)).trans ((if_neg (Nat.not_lt.2 h2)).trans rfl))

theorem leNat_leBytes_lt {n v : Nat} (h : v < 256 ^ n) : leNat (leBytes n v) = v := by rw [leNat_leBytes, Nat.mod_eq_of_lt h]

/-- An entry with its reserved bits zero is stored. -/
theorem State.mapPut_entry (s : State) (sub : Nat) {v : Nat} (hv : v < 2 ^ 25) :
    s.mapPut 0xA000 sub v = { st := { s with fab := { s.fab with hv := { s.fab.hv with
      objs := tput (fun _ => 0) s.fab.hv.objs (256 * 0xA000 + sub) v } } } } := by
  have h1 : bitsOf v 31 25 = 0 := by simp only [bitsOf]; omega
  have h2 : bitsOf v 63 48 = 0 := by simp only [bitsOf]; omega
  have hbad : mapBad 0xA000 sub v = false := by
    rw [mapBad, if_neg (by decide), h1, h2]
    rfl
  simp only [State.mapPut, hbad]
  rw [if_neg (by decide), if_neg fun h => absurd h.1 (by decide)]

/-- APPLY, served. -/
theorem State.mapPut_apply (s : State) : s.mapPut 0xA200 4 1 = { st := s.applyMaps } := rfl

theorem State.mapsOk_congr {s t : State} (hr : t.regs = s.regs) (ho : t.fab.hv.objs = s.fab.hv.objs) : t.mapsOk = s.mapsOk := by
  have hrg (o : Nat) : t.rg o = s.rg o := State.rg_congr hr o
  have hval (i k : Nat) : t.mapVal i k = s.mapVal i k := by rw [State.mapVal, State.mapVal, ho]
  have hent (i : Nat) : t.mapEntries i = s.mapEntries i := by simp only [State.mapEntries, hval]
  have hroot : t.isRoot = s.isRoot := by simp only [State.isRoot, State.svcHold, State.strapCode, hrg]
  have hsize (x : Nat) : t.ddrSize x = s.ddrSize x := by rw [State.ddrSize, State.ddrSize, hrg]
  have hddr (o k : Nat) : t.ddrIn o k = s.ddrIn o k := by rw [State.ddrIn, State.ddrIn, hsize, hsize]
  simp only [State.mapsOk, hval, hent, hroot, hddr]

end Sys2Proof.Machine
namespace Sys2Proof.Proofs
open Sys2Proof.Machine

/-- Settles O43: a request is served by its object and answered to its link or its transaction; APPLY is the branch of its maps. -/
theorem dictionary : Obligations.Dictionary := by
  refine ⟨fun s d p n room hl he hp ha ht => ?_, fun s d t k room v hl he htag hk hd hh htx hf hu hi hon hb => ?_,
    fun s d p n hl he hp ha hpriv ht hon hno hb hlt heg hi => ?_⟩
  · intro e hlt heg hi hno answered
    have hans {write : Option (List Byte)} {r : DRes} (hb : s.engBusy = false)
        (hs : (s.acked p.val n.toNat).asked1.serve d.index.toNat d.sub.toNat d.raw d.priv false write none = .answered r)
        (hu : LinkServed (s.acked p.val n.toNat) r.st) (room : Nat) : LinkAnswered s (s.dictAsk d room write) d p.val n.toNat r :=
      State.dictAsk_answered hl he hp ha ht hno hb hlt heg hi room hs hu
    have hserved : LinkServed (s.acked p.val n.toNat) (s.acked p.val n.toNat).asked1 := ⟨fun _ _ => rfl, rfl, rfl, rfl, rfl, rfl, rfl⟩
    refine ⟨fun hon hb => ⟨fun o bs ho hbs hr => ?_, fun c data ho => ?_, fun v hidx h1 h2 hpriv hv => ?_⟩, fun hoff => ?_⟩
    · have h := hans (State.engBusy_room hb)
        (State.serve_lit (s := (s.acked p.val n.toNat).asked1) hon ho hbs hr d.raw d.priv none) hserved room
      exact ⟨_, rfl, h.sent, h.reqs, h.chans, h.mem, h.rg⟩
    · have hw : (DRes.mk (s.acked p.val n.toNat).asked1 c false 0 []).word = c := rfl
      have hcode := objAt_code ho
      have hne : c % 256 ≠ 0 := by omega
      have hread := hans (State.engBusy_room hb)
        (State.serve_noObject (s := (s.acked p.val n.toNat).asked1) hon ho d.raw d.priv none none) hserved room
      have hwrite := hans (State.engBusy_room hb)
        (State.serve_noObject (s := (s.acked p.val n.toNat).asked1) hon ho d.raw d.priv (some data) none) hserved 4
      have hc0 : c ≠ 0 := by omega
      have hsr := hread.sent
      have hsw := hwrite.sent
      simp only [hw, if_neg hc0, List.append_nil] at hsr hsw
      exact ⟨⟨_, rfl, ⟨hsr, hread.reqs, hread.chans, hread.mem, hread.rg⟩, hread.aborts.trans (if_neg hne)⟩,
        _, rfl, hsw, hwrite.reqs, hwrite.chans, hwrite.mem, hwrite.rg⟩
    · have hidx' : d.index.toNat = 0xA000 := by rw [hidx]; rfl
      have hserve := State.serve_map (s := (s.acked p.val n.toNat).asked1) hon (objAt_map h1 h2) rfl rfl (bs := leBytes 8 v.toNat)
        (by rw [leBytes_length]; rfl) (fun h => absurd h (by decide : (5 : Nat) ≠ 1)) d.raw none
      rw [leNat_leBytes_lt (by have := v.isLt; omega), State.mapPut_entry _ _ hv] at hserve
      have h := hans (State.engBusy_room hb) (by rw [hidx', hpriv]; exact hserve) ⟨fun _ _ => rfl, rfl, rfl, rfl, rfl, rfl, rfl⟩ 4
      refine ⟨_, rfl, ⟨h.sent, h.reqs, h.chans, h.mem, h.rg⟩, ?_, fun i k hne => ?_⟩
      · rw [State.mapVal, h.hv]
        exact tget_tput_same (fun _ => 0) s.fab.hv.objs _ _
      · rw [State.mapVal, State.mapVal, h.hv]
        exact tget_tput_ne (fun _ => 0) s.fab.hv.objs _ hne
    · have h := hans (State.engBusy_off hoff)
        (State.serve_off (s := (s.acked p.val n.toNat).asked1) hoff d.index.toNat d.sub.toNat d.raw d.priv false none none) hserved room
      exact ⟨_, rfl, h.sent, h.reqs, h.chans, h.mem, h.rg⟩
  · intro w at_ hfit completed
    have hask (room : Nat) (write : Option (List Byte)) : s.dictAsk d room write = s.locServe write.isSome t.tag false := by
      simp only [State.dictAsk, hl, he, htag]
    have htag' : t.tag < 4096 := htag ▸ d.tag.isLt
    refine ⟨fun o bs hw ho hbs hr => ?_, fun hw => ?_, fun hw => ?_⟩
    · obtain ⟨c, hserve⟩ := State.locServe_lit htx hk hw hd hh hb hon ho hbs hr
      have hlen := litBytes_length t.room bs
      have hc := State.locRead_completes (t := t) (w := c) (d := litBytes t.room bs) hf hu hi
        (Nat.le_trans (by omega) (show fabBuf + t.dptr + max 4 t.room ≤ s.cqAt from hfit)) htag'
      have he : exec (.dictRead d room) s = .next _ := congrArg Host.Outcome.next ((hask room none).trans hserve)
      refine ⟨fun hroom => ⟨_, he, ?_⟩, fun hroom => ⟨_, he, ?_⟩⟩
      · have hlit : litBytes t.room bs = leBytes 4 0 ++ bs := if_neg (Nat.not_lt.2 hroom)
        rw [hlit] at hc ⊢
        exact hc
      · have hlit : litBytes t.room bs = leBytes 4 8 := if_pos hroom
        rw [hlit] at hc ⊢
        exact hc
    · exact congrArg Host.Outcome.next ((hask 4 (some v)).trans (State.locServe_other htx hk (by rw [hw]; exact Bool.false_ne_true) _ _))
    · exact congrArg Host.Outcome.next ((hask room none).trans (State.locServe_other htx hk (by rw [hw]; decide) _ _))
  · have hserve := State.serve_map (s := (s.acked p.val n.toNat).asked1) (idx := 0xA200) (sub := 4) (bs := [1]) hon rfl rfl rfl rfl
      (fun h => absurd h (by decide : (2 : Nat) ≠ 1)) false none
    rw [show leNat [1] = 1 from rfl, State.mapPut_apply] at hserve
    have hans (hu : LinkServed (s.acked p.val n.toNat) (s.acked p.val n.toNat).asked1.applyMaps) :=
      State.dictAsk_answered (d := { d with index := 0xA200, sub := 4, raw := false }) (write := some [1]) hl he hp ha (fun _ => ht) hno
        (State.engBusy_room hb) hlt heg hi 4 (r := { st := (s.acked p.val n.toNat).asked1.applyMaps }) (by rw [hpriv]; exact hserve) hu
    have hmaps : (s.acked p.val n.toNat).asked1.mapsOk = s.mapsOk := State.mapsOk_congr rfl rfl
    have hrest {t : State} {r : DRes} (hw : r.word % 256 = 0) (h : LinkAnswered s t { d with index := 0xA200, sub := 4, raw := false } p.val n.toNat r)
        {o : Nat} (ho : o ≠ odeOff odeReqs) (hr : r.st.rg o = s.rg o) : t.rg o = s.rg o := by
      by_cases hab : o = odeOff odeAborts
      · rw [hab, h.aborts, if_pos hw]
      · exact (h.rg o (by simp only [List.mem_cons, List.not_mem_nil, or_false, not_or]; exact ⟨ho, hab⟩)).trans hr
    refine ⟨fun hok => ?_, fun hok => ?_⟩
    · rw [State.applyMaps, if_pos (hmaps.trans hok)] at hans
      have h := hans ⟨fun _ _ => rfl, rfl, rfl, rfl, rfl, rfl, rfl⟩
      refine ⟨_, rfl, h.chans, h.mem, h.hv, fun o ho => hrest rfl h (fun e => ho (e ▸ List.mem_cons_self)) rfl⟩
    · rw [State.applyMaps, if_neg (by rw [hmaps, hok]; decide)] at hans
      have hne (o : Nat) (ho : o ≠ odeOff odeFlags) : ((s.acked p.val n.toNat).asked1.flag (odeOff odeFlags) 1).rg o = s.rg o :=
        State.flag_rg_ne _ _ ho
      have h := hans ⟨fun o ho => hne o (by unfold odeOff; omega), hne _ (by decide), hne _ (by decide), by rw [State.flag_fab]; rfl,
        State.flag_out _ _ _, State.flag_chans _ _ _, State.flag_mem _ _ _⟩
      refine ⟨_, rfl, ?_, ?_, fun o ho => ?_, h.chans, h.mem⟩
      · have hrg := h.rg (odeOff odeFlags) (by decide)
        refine (congrArg (bitOf · 0) hrg).trans ?_
        refine (State.flag_bit _ _ 1 0 (by decide) (by decide)).trans ?_
        rw [show bitOf 1 0 = true from rfl, Bool.or_true]
      · refine h.hv.trans ?_
        dsimp only
        rw [State.flag_fab]
        rfl
      · simp only [List.mem_cons, List.not_mem_nil, or_false, not_or] at ho
        exact hrest rfl h ho.2 (hne o ho.1)

end Sys2Proof.Proofs
end

section
/-! PROOFS. READ, WRITE and BCAST_WRITE frames of one word of a core's memory (R731, R739, R747 to R749). -/

namespace Sys2Proof.Machine

/-- A good frame is acknowledged and taken. -/
theorem State.rxLink_good {s : State} {rx : Rx} {f : Frame} (hp : s.portSt rx.port.val = 3) (he : rx.endOk = true) (hc : crcHolds rx = true)
    (take : State → State) : s.rxLink rx f take = take (s.acked rx.port.val rx.lseq.toNat) := by
  simp only [State.rxLink]
  rw [if_neg (not_not.2 hp), if_neg (by rw [he]; decide), if_neg (by rw [hc]; decide)]
  rfl

theorem State.deliver_here {s : State} {f : Frame} (ha : s.assigned = true) (hd : f.dst.toNat = s.addr) (p : Nat) (take : State → State) :
    s.deliver p f take = take s := by
  rw [State.deliver]
  refine if_pos ?_
  rw [State.forMe, Bool.and_eq_true]
  exact ⟨ha, decide_eq_true hd⟩

/-- One access that succeeds. -/
theorem Ran.go_one {priv : Bool} {w a : Nat} {wr : Option (List Byte)} {r : Ran} {x : Acs}
    (hx : r.st.reqOne priv a w (wr.map (·.take w)) = x) (hc : x.cause = 0) (hu : x.ue = false) :
    Ran.go priv w 1 a wr r = { r with st := x.st, done := r.done + w, data := r.data ++ x.data } := by
  rw [Ran.go, hx]
  refine (if_neg ?_).trans ?_
  · rw [hc, hu]
    decide
  · rw [Ran.go]

theorem State.reqOne_read {s : State} {priv : Bool} {a b w : Nat} (h : reqAddr priv a = some b) :
    s.reqOne priv a w none = s.busRead .fabric b w := by
  unfold State.reqOne
  rw [h]

theorem State.reqOne_write {s : State} {priv : Bool} {a b w : Nat} {bs : List Byte} (h : reqAddr priv a = some b) :
    s.reqOne priv a w (some bs) = s.busWrite .fabric b bs := by
  unfold State.reqOne
  rw [h]

section
variable {s : State} {f : Frame} (h1 : 0x5400000 ≤ frameAddr f) (h2 : frameAddr f < 0x5800000)
include h1 h2

theorem State.reqAddr_core : reqAddr f.priv (frameAddr f) = some (frameAddr f) := by
  rw [reqAddr, if_pos]
  rw [inRegs, decide_eq_false (by omega : ¬ 0x10000000 ≤ frameAddr f)]
  exact Bool.false_ne_true

variable (h4 : frameAddr f % 4 = 0) (hu : s.memUE = []) (hc : s.memCE = []) (hw : frameWidth f = 4)
include h4 hu hc hw

theorem State.runReq_read (hn : frameCount f = 4) :
    s.runReq f false = { st := s, done := 4, data := s.bytes (frameAddr f) 4 } := by
  have hone : s.reqOne f.priv (frameAddr f) 4 none = { st := s, data := s.bytes (frameAddr f) 4 } :=
    (State.reqOne_read (State.reqAddr_core h1 h2)).trans (State.busRead_core h1 h2 h4 hu hc (.inr rfl))
  have hrun : s.runReq f false = Ran.go f.priv (frameWidth f) (frameCount f / frameWidth f) (frameAddr f) none { st := s } := by
    simp only [State.runReq, Bool.false_eq_true, if_false]
  rw [hrun, hw, hn, Nat.div_self (by decide)]
  exact Ran.go_one (w := 4) (wr := none) (r := { st := s }) hone rfl rfl

theorem State.runReq_write (hn : f.len = 4) (hl : f.data.length = 4) :
    s.runReq f true = { st := s.store (frameAddr f) f.data, done := 4 } := by
  have hone : s.reqOne f.priv (frameAddr f) 4 (some (f.data.take 4)) = { st := s.store (frameAddr f) f.data } := by
    rw [List.take_of_length_le (Nat.le_of_eq hl), State.reqOne_write (State.reqAddr_core h1 h2)]
    exact State.busWrite_core h1 h2 h4 hu hc hl
  have hrun : s.runReq f true = Ran.go f.priv (frameWidth f) (f.len.toNat / frameWidth f) (frameAddr f) (some f.data) { st := s } := by
    simp only [State.runReq, if_true]
  rw [hrun, hw, hn, show BitVec.toNat (4 : BitVec 10) = 4 from rfl, Nat.div_self (by decide)]
  exact Ran.go_one (w := 4) (wr := some f.data) (r := { st := s }) hone rfl rfl

end

/-- The reply to a request at this node. -/
theorem State.reqServe_replied {s : State} {f : Frame} {wr : Bool} {r : Ran} (hd : s.reqDenied f = false) (hr : s.runReq f wr = r) :
    s.reqServe f wr = r.st.answer f.src.toNat f.tag.toNat (b2n r.bad) r.cause r.done r.data := by
  rw [State.reqServe, if_neg (by rw [hd]; decide), hr]

theorem State.reqServe_denied {s : State} {f : Frame} {wr : Bool} (hd : s.reqDenied f = true) :
    s.reqServe f wr = s.answer f.src.toNat f.tag.toNat 3 0 0 [] := by
  rw [State.reqServe, if_pos hd]

theorem bitOf_of_low_zero {w q : Nat} (h : bitsOf w 3 0 = 0) (hq : q < 4) : bitOf w q = false := by
  have : w / 2 ^ q % 2 = 0 := by
    simp only [bitsOf] at h
    interval_cases q <;> omega
  rw [bitOf, this]
  rfl

/-- Where no port broadcasts, a broadcast goes no further. -/
theorem State.bcastOn_none {s : State} (h : bitsOf (s.fr fabBcast) 3 0 = 0) (p : Nat) (f : Frame) : s.bcastOn p f = s := by
  have hon : ([0, 1, 2, 3].any fun q => bitOf (s.fr fabBcast) q && decide (q ≠ p) && decide (s.portSt q = 3)) = false := by
    simp only [List.any_cons, List.any_nil, bitOf_of_low_zero h (by decide : 0 < 4), bitOf_of_low_zero h (by decide : 1 < 4),
      bitOf_of_low_zero h (by decide : 2 < 4), bitOf_of_low_zero h (by decide : 3 < 4), Bool.false_and, Bool.or_false]
  simp only [State.bcastOn]
  rw [if_pos (by rw [hon]; decide)]

theorem State.bcastHere_write {s : State} {f : Frame} {r : Ran} (hm : s.isMember = false) (hd : s.reqDenied f = false)
    (hr : s.runReq f true = r) : s.bcastHere f = r.st := by
  rw [State.bcastHere, if_neg fun h => by rw [hm] at h; exact Bool.false_ne_true h.2.2, if_neg (by rw [hd]; decide), hr]

/-- A reply that goes out of the state `u`, which differs from `s` in its memory and in what it has sent. -/
theorem State.answer_replies {s u : State} {src : BitVec 12} (hr : u.regs = s.regs) (hf : u.fab.ports = s.fab.ports) (he : s.egress src.toNat < 4)
    (hp : s.portSt (s.egress src.toNat) = 3) (hi : s.injHit 15 4 (some (s.egress src.toNat)) = false) (tag status cause done : Nat)
    (data : List Byte) :
    let t := u.answer src.toNat tag status cause done data
    t.out = u.out ++ [frameOut (s.egress src.toNat) (s.port (s.egress src.toNat)).lseq (replyFrame s.addr src.toNat tag status cause done data)] ∧
      t.chans = u.chans ∧ t.regs = s.regs ∧ t.mem = u.mem := by
  have hrg (o : Nat) : u.rg o = s.rg o := State.rg_congr hr o
  have heg : u.egress (src.toNat % 4096) = s.egress src.toNat := by
    rw [Nat.mod_eq_of_lt src.isLt]
    exact congrArg (bitsOf · 2 0) (hrg _)
  have haddr : u.addr = s.addr := congrArg (bitsOf · 11 0) (hrg _)
  have ha := State.answer_plain heg he ((State.portSt_congr (hrg _) _).trans hp) ((State.injHit_congr (hrg _) _ _).trans hi) tag status cause
    done data
  have hport := State.port_congr (s := s) (t := u) hf (s.egress src.toNat)
  intro t
  have ht : t = u.framed (s.egress src.toNat) (replyFrame s.addr src.toNat tag status cause done data) := by rw [← haddr]; exact ha
  rw [ht, ← hport]
  exact ⟨rfl, rfl, hr, rfl⟩

end Sys2Proof.Machine
namespace Sys2Proof.Proofs
open Sys2Proof.Machine

/-- Settles O39: a word of a core's memory is one access; the reply goes out of the state that it leaves. -/
theorem remoteAccess : Obligations.RemoteAccess := by
  intro s rx hp hend hcrc ha f a e acked replies he hport hi hi17 hu hc h1 h2 h4 hw
  have hlt : a < ddrBase := by unfold ddrBase; omega
  have hstore : ∀ bs, State.store (s.acked rx.port.val rx.lseq.toNat) a bs = (s.acked rx.port.val rx.lseq.toNat).storeRaw a bs := fun bs =>
    State.store_sram (s := s.acked rx.port.val rx.lseq.toNat) hlt hi17 bs
  have hrep {u : State} (hr : u.regs = s.regs) (hf : u.fab.ports = s.fab.ports) (status done : Nat) (data : List Byte) :=
    State.answer_replies hr hf he hport hi f.tag.toNat status 0 done data
  have hgood (f : Frame) (take : State → State) := State.rxLink_good (f := f) hp hend hcrc take
  have hhere (f : Frame) (hd : f.dst.toNat = s.addr) (take : State → State) :
      (s.acked rx.port.val rx.lseq.toNat).deliver rx.port.val f take = take (s.acked rx.port.val rx.lseq.toNat) :=
    State.deliver_here (s := s.acked rx.port.val rx.lseq.toNat) ha hd _ take
  have hwrite (t : BitVec 4) (hn : f.len = 4) (hl : f.data.length = 4) : (s.acked rx.port.val rx.lseq.toNat).runReq { f with typ := t } true =
      { st := (s.acked rx.port.val rx.lseq.toNat).storeRaw a f.data, done := 4 } :=
    (State.runReq_write (s := s.acked rx.port.val rx.lseq.toNat) (f := { f with typ := t }) h1 h2 h4 hu hc hw hn hl).trans
      (congrArg (fun u : State => ({ st := u, done := 4 } : Ran)) (hstore f.data))
  refine ⟨fun hd hden hn => ⟨?_, ?_⟩, fun hd hden hlen hl => ?_, fun hd hden => ⟨fun late => ?_, ?_⟩, fun hm hden hlen hl hb => ?_⟩
  · have hrun := State.runReq_read (s := s.acked rx.port.val rx.lseq.toNat) (f := { f with typ := 1 }) h1 h2 h4 hu hc hw hn
    obtain ⟨hout, hchans, hregs, hmem⟩ := hrep (u := s.acked rx.port.val rx.lseq.toNat) rfl rfl 0 4 (s.bytes a 4)
    exact ⟨_, congrArg Host.Outcome.next ((hgood _ _).trans ((hhere { f with typ := 1 } hd _).trans
      (State.reqServe_replied (s := s.acked rx.port.val rx.lseq.toNat) hden hrun))), hout, hchans, hregs, hmem⟩
  · exact congrArg Host.Outcome.next ((hgood _ _).trans ((hhere { f with typ := 1 } hd _).trans
      (if_pos ⟨rfl, Bool.eq_false_iff.1 hden⟩)))
  · have hrun := hwrite 2 hlen hl
    obtain ⟨hout, hchans, hregs, hmem⟩ := hrep (u := (s.acked rx.port.val rx.lseq.toNat).storeRaw a f.data) rfl rfl 0 4 []
    refine ⟨_, congrArg Host.Outcome.next ((hgood _ _).trans ((hhere { f with typ := 2 } hd _).trans
      (State.reqServe_replied (s := s.acked rx.port.val rx.lseq.toNat) hden hrun))), hout, ?_, fun b hb => ?_, hchans, hregs⟩
    · have h := State.storeRaw_bytes (s.acked rx.port.val rx.lseq.toNat) a f.data
      rw [hl] at h
      exact (congrArg (tslice memDef · a 4) hmem).trans h
    · exact (State.byte_congr hmem b).trans (State.storeRaw_byte_out (s.acked rx.port.val rx.lseq.toNat) (hl ▸ hb))
  · obtain ⟨hout, hchans, hregs, hmem⟩ := hrep (u := s.acked rx.port.val rx.lseq.toNat) rfl rfl 3 0 []
    refine ⟨_, congrArg Host.Outcome.next ((hgood _ _).trans ((hhere { f with typ := 1 } hd _).trans ((if_neg ?_).trans
      (State.reqServe_denied (s := s.acked rx.port.val rx.lseq.toNat) hden)))), hout, hchans, hregs, hmem⟩
    exact fun h => h.2 hden
  · obtain ⟨hout, hchans, hregs, hmem⟩ := hrep (u := s.acked rx.port.val rx.lseq.toNat) rfl rfl 3 0 []
    exact ⟨_, congrArg Host.Outcome.next ((hgood _ _).trans ((hhere { f with typ := 2 } hd _).trans
      (State.reqServe_denied (s := s.acked rx.port.val rx.lseq.toNat) hden))), hout, hchans, hregs, hmem⟩
  · have hrun := hwrite 4 hlen hl
    have hcast := State.bcastHere_write (s := s.acked rx.port.val rx.lseq.toNat) (f := { f with typ := 4 }) hm hden hrun
    have hnone := State.bcastOn_none (s := (s.acked rx.port.val rx.lseq.toNat).storeRaw a f.data) hb rx.port.val { f with typ := 4 }
    refine ⟨(s.acked rx.port.val rx.lseq.toNat).storeRaw a f.data, congrArg Host.Outcome.next ((hgood _ _).trans ((if_pos ha).trans ?_)),
      rfl, ?_, fun b hb => ?_, rfl, rfl⟩
    · exact (congrArg (fun u : State => u.bcastOn rx.port.val { f with typ := 4 }) hcast).trans hnone
    · have h := State.storeRaw_bytes (s.acked rx.port.val rx.lseq.toNat) a f.data
      rw [hl] at h
      exact h
    · exact State.storeRaw_byte_out (s.acked rx.port.val rx.lseq.toNat) (hl ▸ hb)

end Sys2Proof.Proofs
end

section
/-! PROOFS. Fabric ports that go down, and the faults that follow (R727, R728, R744, R752). -/

namespace Sys2Proof.Machine

/-! Waiting sources of frames that name no reaction. -/

/-- The frames whose sources a port that goes down leaves to report: LINK, and SRAM_UE where a record cannot be written. -/
def linkFaults : List Nat := [frFab, frMemc]

/-- Neither frame's table names NMI, FENCE or CHIPRST. -/
def State.linkMild (s : State) : Prop := ∀ f ∈ linkFaults, s.mild f = true

/-- Only sources of these frames wait. -/
def State.linkLater (s : State) : Prop := ∀ x ∈ s.later, x.1 ∈ linkFaults ∧ x.2 < 20

/-- A step that leaves the channels, the votes and the registers of a list. -/
structure Leaves (os : List Nat) (s t : State) : Prop where
  chans : t.chans = s.chans
  voteErr : t.voteErr = s.voteErr
  rg : ∀ o ∈ os, t.rg o = s.rg o

theorem Leaves.refl (os : List Nat) (s : State) : Leaves os s s := ⟨rfl, rfl, fun _ _ => rfl⟩
theorem Leaves.trans {os : List Nat} {s t u : State} (h : Leaves os s t) (h' : Leaves os t u) : Leaves os s u :=
  ⟨h'.chans.trans h.chans, h'.voteErr.trans h.voteErr, fun o ho => (h'.rg o ho).trans (h.rg o ho)⟩

/-- The registers that say how the two frames react, and the states of the ports. -/
def linkRegs : List Nat := [fltOff frFab fltReact, fltOff frMemc fltReact, fabOff fabPortSts]

theorem Leaves.mild {s t : State} (h : Leaves linkRegs s t) (hm : s.linkMild) : t.linkMild := by
  intro f hf
  refine (State.mild_congr h.voteErr ?_).trans (hm f hf)
  simp only [linkFaults, List.mem_cons, List.not_mem_nil, or_false] at hf
  obtain rfl | rfl := hf
  · exact h.rg _ (by decide)
  · exact h.rg _ (by decide)

theorem Leaves.portSt {s t : State} (h : Leaves linkRegs s t) (q : Nat) : t.portSt q = s.portSt q :=
  State.portSt_congr (h.rg _ (by decide)) q

/-- A report of a frame whose table names no reaction, whatever waits. -/
theorem State.report0_mild {s : State} {f : Nat} {rs : List (Nat × Nat)} (h : s.mild f = true) (h20 : ∀ p ∈ rs, p.1 < 20) :
    (s.report0 f rs).chans = s.chans ∧ (s.report0 f rs).voteErr = s.voteErr ∧ (s.report0 f rs).later = s.later ∧
      ∀ o, o ∉ reportRegs f → (s.report0 f rs).rg o = s.rg o := by
  have hjudge (u : State) (sts : Nat) : ∀ (l : List (Nat × Nat)) (seen : List Nat), (u.judge f sts seen l).map (·.src) = l.map (·.1) := by
    intro l
    induction l with
    | nil => intros; rfl
    | cons p l ih => intro seen; rw [State.judge, List.map_cons, List.map_cons, ih]
  generalize hs1 : (if (rs.filter fun p => bitOf (s.rg (fltOff f fltSts)) p.1).length = 0 then s
    else s.count (fltOff f fltRepeats) (rs.filter fun p => bitOf (s.rg (fltOff f fltSts)) p.1).length) = s1
  have h1 : s1.chans = s.chans ∧ s1.voteErr = s.voteErr ∧ s1.later = s.later ∧ ∀ o, o ≠ fltOff f fltRepeats → s1.rg o = s.rg o := by
    rw [← hs1]
    split
    · exact ⟨rfl, rfl, rfl, fun _ _ => rfl⟩
    · exact ⟨rfl, rfl, rfl, fun o ho => State.rg_count_ne _ _ ho⟩
  obtain ⟨hc, hv, hl, hr⟩ := h1
  have hm1 : s1.mild f = true := (State.mild_congr hv (hr _ (fltOff_ne f (by decide)))).trans h
  have he : s.report0 f rs = s1.register f (s1.judge f (s.rg (fltOff f fltSts)) [] (rs.filter fun p => !bitOf (s.rg (fltOff f fltSts)) p.1)) := by
    unfold State.report0
    dsimp only
    rw [hs1, s1.mild_votes hm1]
  obtain ⟨r, q, fr, al, e, hrr, -, -⟩ := State.register_mild s1 f
    (s1.judge f (s.rg (fltOff f fltSts)) [] (rs.filter fun p => !bitOf (s.rg (fltOff f fltSts)) p.1)) (judge_mild s1 f _ hm1 _ []) (by
      intro g hg
      have hg' : g.src ∈ (rs.filter fun p => !bitOf (s.rg (fltOff f fltSts)) p.1).map (·.1) := hjudge s1 _ _ [] ▸ List.mem_map_of_mem hg
      obtain ⟨p, hp, he⟩ := List.mem_map.1 hg'
      exact he ▸ h20 p (List.mem_of_mem_filter hp))
  rw [he, e]
  refine ⟨hc, hv, hl, fun o ho => (congrArg BitVec.toNat (hrr o ho)).trans (hr o ?_)⟩
  rintro rfl
  exact ho (by simp [reportRegs])

theorem State.onsets0_leaves {s : State} (hm : s.linkMild) {f : Nat} (hf : f ∈ linkFaults) {is : List Nat} (h20 : ∀ i ∈ is, i < 20) :
    Leaves linkRegs s (s.onsets0 f is) ∧ (s.onsets0 f is).later = s.later := by
  simp only [State.onsets0]
  split
  · exact ⟨Leaves.refl _ _, rfl⟩
  · generalize hnew : (is.filter fun i => !(((srcsOf f).getD i ⟨15, false, 0⟩).lvl && s.causes.contains (f * 32 + i))) = new
    have hmem : ∀ p ∈ new.map (fun i => (i, srcCls f i)), p.1 < 20 := by
      intro p hp
      obtain ⟨i, hi, rfl⟩ := List.mem_map.1 hp
      exact h20 i (List.mem_of_mem_filter (hnew ▸ hi))
    obtain ⟨hc, hv, hl, hr⟩ := State.report0_mild
      (s := { s with causes := (new.filter fun i => ((srcsOf f).getD i ⟨15, false, 0⟩).lvl).map (f * 32 + ·) ++ s.causes }) (hm f hf) hmem
    refine ⟨⟨hc, hv, fun o ho => hr o ?_⟩, hl⟩
    simp only [linkFaults, List.mem_cons, List.not_mem_nil, or_false] at hf
    have hall : ∀ f ∈ linkFaults, ∀ o ∈ linkRegs, o ∉ reportRegs f := by decide
    exact hall f (by simpa [linkFaults] using hf) o ho

theorem State.drain_leaves (k : Nat) : ∀ {s : State}, s.linkMild → s.linkLater → Leaves linkRegs s (s.drain k) := by
  induction k with
  | zero => intro s _ _; exact Leaves.refl _ _
  | succ k ih =>
    intro s hm hl
    rw [State.drain]
    split
    · exact Leaves.refl _ _
    · next f i r hs =>
      obtain ⟨hf, hi⟩ := hl (f, i) (hs ▸ List.mem_cons_self)
      have hr : ∀ x ∈ r, x.1 ∈ linkFaults ∧ x.2 < 20 := fun x hx => hl x (hs ▸ List.mem_cons_of_mem _ hx)
      have h20 : ∀ j ∈ (i :: (r.takeWhile fun p => decide (p.1 = f)).map (·.2)).eraseDups, j < 20 := by
        intro j hj
        rw [List.mem_eraseDups, List.mem_cons] at hj
        obtain rfl | hj := hj
        · exact hi
        · obtain ⟨x, hx, rfl⟩ := List.mem_map.1 hj
          exact (hr x (List.takeWhile_subset _ hx)).2
      obtain ⟨h, hlater⟩ := State.onsets0_leaves (s := { s with later := r.dropWhile fun p => decide (p.1 = f) }) hm hf h20
      have h0 : Leaves linkRegs s { s with later := r.dropWhile fun p => decide (p.1 = f) } := ⟨rfl, rfl, fun _ _ => rfl⟩
      refine (h0.trans h).trans (ih ((h0.trans h).mild hm) ?_)
      intro x hx
      rw [hlater] at hx
      exact hr x (List.dropWhile_subset _ hx)

theorem State.settleFaults_leaves {s : State} (hm : s.linkMild) (hl : s.linkLater) : Leaves linkRegs s s.settleFaults :=
  State.drain_leaves 512 hm hl

/-! A port that goes down. -/

/-- A step that leaves those registers and adds no waiting source but SRAM_UE. -/
structure LinkStep (s t : State) : Prop extends Leaves linkRegs s t where
  later : ∀ x ∈ t.later, x ∈ s.later ∨ x = (17, 1)

theorem LinkStep.refl (s : State) : LinkStep s s := ⟨Leaves.refl _ s, fun _ h => .inl h⟩
theorem LinkStep.trans {s t u : State} (h : LinkStep s t) (h' : LinkStep t u) : LinkStep s u :=
  ⟨h.toLeaves.trans h'.toLeaves, fun x hx => (h'.later x hx).elim (h.later x) .inr⟩

/-- A step that leaves what waits. -/
theorem LinkStep.of_eq {s t : State} (hc : t.chans = s.chans) (hv : t.voteErr = s.voteErr) (hl : t.later = s.later)
    (hr : ∀ o ∈ linkRegs, t.rg o = s.rg o) : LinkStep s t := ⟨⟨hc, hv, hr⟩, fun _ hx => .inl (hl ▸ hx)⟩

theorem LinkStep.putGo (k : Nat) : ∀ (s : State) (a : Nat) (bs : List Byte) (bad : List Nat), LinkStep s (State.putGo k s a bs bad).1 := by
  induction k with
  | zero => intro s _ _ _; exact LinkStep.refl s
  | succ k ih =>
    intro s a bs bad
    have hue : ∀ o ∈ linkRegs, o ∉ ueRegs := by decide
    have hinj : ∀ o ∈ linkRegs, o ≠ frameOff 17 + fltInj := by decide
    rw [State.putGo]
    split
    · exact LinkStep.refl s
    · dsimp only
      generalize (if a < ddrBase then 32 else 128) = z
      split
      · refine LinkStep.trans (t := s.ueAt (codeword a)) (LinkStep.of_eq (s.ueAt_chans _) ?_ ?_ fun o ho => s.ueAt_rg _ (hue o ho)) (ih _ _ _ _)
        · unfold State.ueAt; split <;> rfl
        · unfold State.ueAt; split <;> rfl
      · exact LinkStep.trans (LinkStep.of_eq (s.store_chans _ _) (s.store_voteErr _ _) (s.store_later _ _)
          fun o ho => s.store_rg _ _ _ (hinj o ho)) (ih _ _ _ _)

theorem LinkStep.fabPut (s : State) (a : Nat) (bs : List Byte) : LinkStep s (s.fabPut a bs) := by
  have hput : LinkStep s (s.put a bs).1 := by
    rw [State.put]
    split
    · exact LinkStep.of_eq (s.store_chans _ _) (s.store_voteErr _ _) (s.store_later _ _) fun o ho => s.store_rg _ _ _
        ((by decide : ∀ o ∈ linkRegs, o ≠ frameOff 17 + fltInj) o ho)
    · exact LinkStep.putGo _ _ _ _ _
  simp only [State.fabPut]
  split
  · exact hput
  · refine hput.trans ⟨⟨rfl, rfl, fun _ _ => rfl⟩, fun x hx => ?_⟩
    exact (List.mem_append.1 hx).imp id List.mem_singleton.1

theorem LinkStep.setRg (s : State) {o : Nat} (h : o ∉ linkRegs) (v : Nat) : LinkStep s (s.setRg o v) :=
  LinkStep.of_eq rfl rfl rfl fun _ hp => State.rg_setRg_ne _ _ fun e => h (e ▸ hp)

theorem LinkStep.setPort (s : State) (p : Nat) (v : Port) : LinkStep s (s.setPort p v) := LinkStep.of_eq rfl rfl rfl fun _ _ => rfl

theorem LinkStep.finish (s : State) (t : Txn) (status cause done : Nat) (data : List Byte) (keep : Option Nat) :
    LinkStep s (s.finish t status cause done data keep) := by
  simp only [State.finish]
  split
  · exact LinkStep.of_eq rfl rfl rfl fun _ _ => rfl
  · have hdata (u : State) : LinkStep s u → LinkStep s (if data = [] then u else u.fabPut (fabBuf + t.dptr) data) := by
      intro h
      split
      · exact h
      · exact h.trans (LinkStep.fabPut _ _ _)
    have hcq (u : State) (tag user : Nat) : LinkStep u (u.cqPut tag status cause done user) :=
      (LinkStep.fabPut u _ _).trans (LinkStep.setRg _ (by decide) _)
    have hptr : (if t.dtag = keep then t else { t with age := 0 }).dptr = t.dptr := by split <;> rfl
    rw [hptr]
    refine LinkStep.trans ?_ (hcq _ _ _)
    exact (hdata s (LinkStep.refl s)).trans (LinkStep.of_eq rfl rfl rfl fun _ _ => rfl)

theorem LinkStep.loseTxns (p : Nat) (l : List Txn) : ∀ s : State, LinkStep s (s.loseTxns p l) := by
  induction l with
  | nil => intro s; exact LinkStep.refl s
  | cons t r ih =>
    intro s
    rw [State.loseTxns]
    split
    · exact (LinkStep.finish _ _ _ _ _ _ _).trans (ih _)
    · exact ih _

theorem LinkStep.wire (s : State) (p q : Nat) (f : Frame) (endOk : Bool) : LinkStep s (s.wire p q f endOk) := by
  have hinj : LinkStep s (s.injGen 15 4 (some p)) := by
    rw [State.injGen]
    split
    · simp only [State.injUse]
      split
      · exact LinkStep.setRg s (by decide) _
      · exact LinkStep.refl s
    · exact LinkStep.refl s
  exact hinj.trans (LinkStep.of_eq rfl rfl rfl fun _ _ => rfl)

theorem LinkStep.emit (s : State) (p : Nat) (f : Frame) : LinkStep s (s.emit p f) :=
  (LinkStep.setPort s p _).trans (LinkStep.wire _ _ _ _ _)

theorem LinkStep.sendFrame (s : State) (f : Frame) : LinkStep s (s.sendFrame f) := by
  simp only [State.sendFrame]
  split
  · exact LinkStep.emit _ _ _
  · exact LinkStep.refl s

theorem LinkStep.loseFrames (l : List Sent) : ∀ s : State, LinkStep s (s.loseFrames l) := by
  induction l with
  | nil => intro s; exact LinkStep.refl s
  | cons x r ih =>
    intro s
    have hone : LinkStep s (s.loseFrame x.frame) := by
      simp only [State.loseFrame]
      split
      · split
        · exact LinkStep.refl s
        · exact LinkStep.sendFrame _ _
      · exact LinkStep.refl s
    exact hone.trans (ih _)

theorem LinkStep.topoOut (s : State) (p : Nat) (up : Bool) : LinkStep s (s.topoOut p up) := by
  rw [State.topoOut]
  split
  · exact LinkStep.sendFrame _ _
  · exact LinkStep.refl s

theorem LinkStep.flag (s : State) {o : Nat} (h : o ∉ linkRegs) (m : Nat) : LinkStep s (s.flag o m) :=
  LinkStep.of_eq (s.flag_chans _ _) (s.flag_voteErr _ _) (s.flag_later _ _) fun _ hp => s.flag_rg_ne _ fun e => h (e ▸ hp)

/-- The port in its new state, with what its loss brings about besides the report of LINK. -/
def State.portLeft (s : State) (p to_ : Nat) : State :=
  let was := s.portSt p
  let s := s.setPortSt p to_
  if was = 3 then
    let held := (s.port p).sent.filter fun x => !x.acked
    let s := (s.setPort p {}).flag (fabOff fabFlags) (2 ^ p)
    let s := (s.loseTxns p s.fab.txns).loseFrames held
    State.topoOut { s with fab := { s.fab with transit := s.fab.transit.filter fun x => x.port ≠ p } } p false
  else s

theorem State.portLeft_step (s : State) (p to_ : Nat) : LinkStep (s.setPortSt p to_) (s.portLeft p to_) := by
  simp only [State.portLeft]
  split
  · have h := ((LinkStep.setPort (s.setPortSt p to_) p {}).trans (LinkStep.flag _ (o := fabOff fabFlags) (by decide) (2 ^ p))).trans
      ((LinkStep.loseTxns p (((s.setPortSt p to_).setPort p {}).flag (fabOff fabFlags) (2 ^ p)).fab.txns _).trans (LinkStep.loseFrames (((s.setPortSt p to_).port p).sent.filter fun x => !x.acked) _))
    have hdrop (u : State) : LinkStep u { u with fab := { u.fab with transit := u.fab.transit.filter fun x => x.port ≠ p } } :=
      LinkStep.of_eq rfl rfl rfl fun _ _ => rfl
    exact (h.trans (hdrop _)).trans (LinkStep.topoOut _ _ _)
  · exact LinkStep.refl _

theorem State.portDown_cases (s : State) (p to_ : Nat) :
    s.portDown p to_ = { s.portLeft p to_ with later := (s.portLeft p to_).later ++ [(15, p)] } ∨
      s.portDown p to_ = (s.portLeft p to_).linkLevel p := by
  simp only [State.portDown, State.portLeft]
  split
  · split
    · exact .inl rfl
    · exact .inr rfl
  · exact .inr rfl

/-- A port that goes down, and the reports that follow: it has its new state, and the other ports and the channels are as they were. -/
theorem State.portDown_settles {s : State} {p to_ : Nat} (hp : p < 4) (ht : to_ < 8) (h15 : s.mild frFab = true) (h17 : s.mild frMemc = true)
    (hl : s.later = []) : ((s.portDown p to_).settleFaults).portSt p = to_ ∧
      (∀ q, q ≠ p → ((s.portDown p to_).settleFaults).portSt q = s.portSt q) ∧ ((s.portDown p to_).settleFaults).chans = s.chans := by
  have hmild : (s.setPortSt p to_).linkMild := by
    intro f hf
    simp only [linkFaults, List.mem_cons, List.not_mem_nil, or_false] at hf
    obtain rfl | rfl := hf
    · exact (State.mild_congr (s := s) (t := s.setPortSt p to_) (f := frFab) rfl (State.rg_setRg_ne s _ (by decide))).trans h15
    · exact (State.mild_congr (s := s) (t := s.setPortSt p to_) (f := frMemc) rfl (State.rg_setRg_ne s _ (by decide))).trans h17
  have hleft := s.portLeft_step p to_
  have hlater : ∀ x ∈ (s.portLeft p to_).later, x = (17, 1) := fun x hx =>
    (hleft.later x hx).resolve_left fun h => List.not_mem_nil (hl ▸ (h : x ∈ s.later))
  have hdown : Leaves linkRegs (s.setPortSt p to_) (s.portDown p to_) ∧ (s.portDown p to_).linkLater := by
    obtain e | e := s.portDown_cases p to_
    · rw [e]
      refine ⟨⟨hleft.chans, hleft.voteErr, hleft.rg⟩, fun x hx => ?_⟩
      obtain hx | hx := List.mem_append.1 hx
      · rw [hlater x hx]; decide
      · rw [List.mem_singleton.1 hx]
        exact ⟨show frFab ∈ linkFaults by decide, Nat.lt_trans hp (by decide)⟩
    · obtain ⟨c, e'⟩ := (s.portLeft p to_).linkLevel_only p
      rw [e, e']
      refine ⟨⟨hleft.chans, hleft.voteErr, hleft.rg⟩, fun x hx => ?_⟩
      rw [hlater x hx]; decide
  have h := hdown.1.trans (State.settleFaults_leaves (hdown.1.mild hmild) hdown.2)
  refine ⟨?_, fun q hq => ?_, h.chans⟩
  · rw [h.portSt, State.portSt_setPortSt s hp ht, if_pos rfl]
  · rw [h.portSt, State.portSt_setPortSt s hp ht, if_neg hq]

end Sys2Proof.Machine
end

section
/-! PROOFS. Fabric ports, link retry and forwarding (R727, R728, R730 to R738). -/

namespace Sys2Proof.Machine

/-! A port that comes up. -/

/-- A TOPO frame changes no register but an injection's, no channel and no memory. -/
theorem State.topoOut_frame (s : State) (p : Nat) (up : Bool) : (s.topoOut p up).chans = s.chans ∧ (s.topoOut p up).mem = s.mem ∧
    ∀ o, o ≠ fltOff frFab fltInj → (s.topoOut p up).rg o = s.rg o := by
  have hinj (u : State) (q : Nat) : ∃ r, u.injGen 15 4 (some q) = { u with regs := r } ∧
      ∀ o, o ≠ fltOff frFab fltInj → (u.injGen 15 4 (some q)).rg o = u.rg o := by
    rw [State.injGen]
    split
    · simp only [State.injUse]
      split
      · exact ⟨_, rfl, fun o ho => State.rg_setRg_ne _ _ ho⟩
      · exact ⟨u.regs, rfl, fun _ _ => rfl⟩
    · exact ⟨u.regs, rfl, fun _ _ => rfl⟩
  have hsend (f : Frame) : (s.sendFrame f).chans = s.chans ∧ (s.sendFrame f).mem = s.mem ∧
      ∀ o, o ≠ fltOff frFab fltInj → (s.sendFrame f).rg o = s.rg o := by
    simp only [State.sendFrame]
    split
    · generalize s.egress f.dst.toNat = e
      rw [State.emit, State.wire]
      dsimp only
      generalize hu : s.setPort e { s.port e with lseq := _, sent := _ } = u
      obtain ⟨r, he, hr⟩ := hinj u e
      have hc : u.chans = s.chans ∧ u.mem = s.mem ∧ u.regs = s.regs := by rw [← hu]; exact ⟨rfl, rfl, rfl⟩
      refine ⟨?_, ?_, fun o ho => (hr o ho).trans (State.rg_congr hc.2.2 o)⟩
      · rw [he]; exact hc.1
      · rw [he]; exact hc.2.1
    · exact ⟨rfl, rfl, fun _ _ => rfl⟩
  rw [State.topoOut]
  split
  · exact hsend _
  · exact ⟨rfl, rfl, fun _ _ => rfl⟩

/-- What a port that has trained leaves. -/
structure PortRisen (p d : Nat) (s t : State) : Prop where
  portSt : t.portSt p = 3
  delay : t.rg (fabOff (fabDelay + 4 * p)) = d
  flag : bitOf (t.rg (fabOff fabFlags)) p = true
  others : ∀ q, q ≠ p → t.portSt q = s.portSt q
  chans : t.chans = s.chans
  mem : t.mem = s.mem
  rg : ∀ o, o ∉ [fabOff fabPortSts, fabOff (fabDelay + 4 * p), fabOff fabFlags, fltOff frFab fltInj] → t.rg o = s.rg o

theorem State.portRise_rises {s : State} {p d : Nat} (hp : p < 4) (hd : d < 4294967296) (h : s.portSt p = 2) :
    PortRisen p d s (s.portRise p d) := by
  have e : s.portRise p d = ((((((s.setPortSt p 3).setPort p {}).setRg (fabOff (fabDelay + 4 * p)) d).flag (fabOff fabFlags) (2 ^ p)).linkLevel
      p).topoOut p true) := if_neg (not_not.2 h)
  rw [e]
  generalize hu : ((s.setPortSt p 3).setPort p {}).setRg (fabOff (fabDelay + 4 * p)) d = u
  have hne : fabOff fabPortSts ≠ fabOff (fabDelay + 4 * p) ∧ fabOff fabFlags ≠ fabOff (fabDelay + 4 * p) ∧
      fltOff frFab fltInj ≠ fabOff (fabDelay + 4 * p) := by
    refine ⟨?_, ?_, ?_⟩
    · unfold fabOff fabPortSts fabDelay; omega
    · unfold fabOff fabFlags fabDelay; omega
    · have : fltOff frFab fltInj = 0xDF000 + fltInj := by decide
      rw [this]; unfold fabOff fltInj fabDelay; omega
  have hsts (q : Nat) : u.portSt q = if q = p then 3 else s.portSt q := by
    rw [← hu]
    exact (State.portSt_congr (State.rg_setRg_ne _ _ hne.1) q).trans (State.portSt_setPortSt s hp (by decide) q)
  obtain ⟨c, ec⟩ := (u.flag (fabOff fabFlags) (2 ^ p)).linkLevel_only p
  obtain ⟨hchans, hmem, hrg⟩ := ((u.flag (fabOff fabFlags) (2 ^ p)).linkLevel p).topoOut_frame p true
  have hreg (o : Nat) (ho : o ≠ fltOff frFab fltInj) :
      (((u.flag (fabOff fabFlags) (2 ^ p)).linkLevel p).topoOut p true).rg o = (u.flag (fabOff fabFlags) (2 ^ p)).rg o := by
    rw [hrg o ho, ec]; rfl
  have hflag (o : Nat) (ho : o ≠ fabOff fabFlags) : (u.flag (fabOff fabFlags) (2 ^ p)).rg o = u.rg o := State.flag_rg_ne _ _ ho
  have hpow : 2 ^ p < 16777216 := Nat.lt_of_lt_of_le (Nat.pow_lt_pow_right (by decide) hp) (by decide)
  have hportSt (q : Nat) : (((u.flag (fabOff fabFlags) (2 ^ p)).linkLevel p).topoOut p true).portSt q = if q = p then 3 else s.portSt q :=
    (State.portSt_congr ((hreg _ (by decide)).trans (hflag _ (by decide))) q).trans (hsts q)
  refine ⟨(hportSt p).trans (if_pos rfl), ?_, ?_, fun q hq => (hportSt q).trans (if_neg hq), ?_, ?_, fun o ho => ?_⟩
  · rw [hreg _ hne.2.2.symm, hflag _ hne.2.1.symm, ← hu, State.rg_setRg_same, Nat.mod_eq_of_lt hd]
  · rw [hreg _ (by decide), State.flag_bit _ _ _ _ hpow (by omega), bitOf_eq_testBit (2 ^ p), Nat.testBit_two_pow_self, Bool.or_true]
  · rw [hchans, ec, ← hu]
    exact State.flag_chans _ _ _
  · rw [hmem, ec, ← hu]
    exact State.flag_mem _ _ _
  · simp only [List.mem_cons, List.not_mem_nil, or_false, not_or] at ho
    obtain ⟨h1, h2, h3, h4⟩ := ho
    rw [hreg o h4, hflag o h3, ← hu, State.rg_setRg_ne _ _ h2]
    exact State.rg_setRg_ne _ _ h1

/-! Retries. -/

theorem State.resend_plain (p : Nat) (l : List Sent) : ∀ {s : State}, s.injHit 15 4 (some p) = false →
    s.resend p l = { s with out := s.out ++ l.map fun y => frameOut p y.lseq y.frame } := by
  induction l with
  | nil => intro s _; rw [State.resend, List.map_nil, List.append_nil]
  | cons x r ih =>
    intro s h
    rw [State.resend, State.wire_plain s p x.lseq x.frame h, ih (s := { s with out := s.out ++ [frameOut p x.lseq x.frame] }) h, List.map_cons, List.append_assoc]
    rfl

/-- The frame after an attempt more, unless it has had three. -/
def Sent.again (y : Sent) : Sent := if y.tries < 3 then { y with tries := y.tries + 1, acked := false } else y

/-- The port's frames have gone out again, in order. -/
def State.retried (s : State) (p : Nat) (l : List Sent) : State :=
  let again := l.filter fun y => decide (y.tries < 3)
  { (s.setPort p { s.port p with sent := l.map Sent.again }).count (fabOff (fabRetry + 4 * p)) again.length with
    out := s.out ++ again.map fun y => frameOut p y.lseq y.frame }

section
variable {s : State} {p : Nat} {x : Sent} {l : List Sent} (hs : (s.port p).sent = x :: l) (hx : x.acked = false)
include hs hx

theorem State.retryFrame_fails {room : Bool} (h : 3 ≤ x.tries ∨ room = false) : s.retryFrame p x.lseq room = s.portFail p := by
  simp only [State.retryFrame, hs]
  rw [List.find?_cons_of_pos (by simp [hx])]
  exact if_pos (h.imp id fun h => by rw [h]; decide)

theorem State.retryFrame_retries (hp : p < 4) (ht : x.tries < 3) (hi : s.injHit 15 4 (some p) = false) :
    s.retryFrame p x.lseq true = s.retried p (x :: l) := by
  have hdrop : (x :: l).dropWhile (fun y => decide (y.lseq ≠ x.lseq)) = x :: l := by
    rw [List.dropWhile_cons_of_neg (by simp)]
  have hmap : ((x :: l).map fun y => if ((x :: l).filter fun y => decide (y.tries < 3)).contains y then
      { y with tries := y.tries + 1, acked := false } else y) = (x :: l).map Sent.again := by
    refine List.map_congr_left fun y hy => ?_
    have hmem : ((x :: l).filter fun y => decide (y.tries < 3)).contains y = decide (y.tries < 3) := by
      rw [List.contains_eq_mem, decide_eq_decide, List.mem_filter, decide_eq_true_eq]
      exact and_iff_right hy
    rw [hmem, Sent.again]
    simp only [decide_eq_true_eq]
  have hinj : fltOff 15 fltInj ≠ fabOff (fabRetry + 4 * p) := by
    rw [show fltOff 15 fltInj = 0xDF000 + fltInj by decide]; unfold fabOff fabRetry; omega
  simp only [State.retryFrame, hs]
  rw [List.find?_cons_of_pos (by simp [hx])]
  dsimp only
  rw [if_neg (by simp; omega), hdrop, hmap]
  exact State.resend_plain p _ ((State.injHit_congr (State.rg_count_ne _ _ hinj) _ _).trans hi)

theorem State.answerLate_first (room : Bool) : s.answerLate p room = s.retryFrame p x.lseq room := by
  simp only [State.answerLate, hs]
  rw [List.find?_cons_of_pos (by simp [hx])]

end

/-- What stays unacknowledged. -/
theorem filter_acked (q : Nat) (l : List Sent) :
    ((l.map fun x => if x.lseq = q then { x with acked := true } else x).dropWhile (·.acked)).filter (!·.acked) =
      l.filter fun y => !y.acked && decide (y.lseq ≠ q) := by
  have hdrop : ∀ l : List Sent, (l.dropWhile (·.acked)).filter (!·.acked) = l.filter (!·.acked) := by
    intro l
    induction l with
    | nil => rfl
    | cons y r ih =>
      by_cases hy : y.acked = true
      · rw [List.dropWhile_cons_of_pos hy, List.filter_cons_of_neg (by simp [hy]), ih]
      · rw [List.dropWhile_cons_of_neg hy]
  rw [hdrop]
  induction l with
  | nil => rfl
  | cons y r ih =>
    rw [List.map_cons]
    by_cases hq : y.lseq = q
    · rw [if_pos hq, List.filter_cons_of_neg (by simp), List.filter_cons_of_neg (by simp [hq]), ih]
    · rw [if_neg hq, List.filter_cons, List.filter_cons, ih]
      simp [hq]

/-! Forwarding. -/

/-- A TOPO frame for another node goes on, or is discarded after 63 links. -/
theorem State.forward_topo {s : State} {f : Frame} (ht : f.typ = 10) (ha : s.assigned = true) (hd : f.dst.toNat ≠ s.addr)
    (he : s.egress f.dst.toNat < 4) (hp : s.portSt (s.egress f.dst.toNat) = 3) (p : Nat) :
    s.forward p f = if f.hops = 63 then s.drop p else s.emit (s.egress f.dst.toNat) (frameHop f) := by
  have haddr : frameAddressed f = true := by rw [frameAddressed, ht]; decide
  have hme : ¬ s.forMe f = true := by
    rw [State.forMe, ha, Bool.true_and, decide_eq_true_eq]; exact hd
  have hback : s.transitBack f = s := if_neg (by rw [ht]; decide)
  have hreq : frameRequest f = false := by rw [frameRequest, ht]; rfl
  have hput (q : Nat) : s.transitPut q f = s := if_neg fun h => by rw [hreq] at h; exact Bool.false_ne_true h.1
  simp only [State.forward, hback]
  rw [if_neg (by rw [ht]; decide), if_neg (by rw [ha, haddr]; simp [hme]), if_neg (Nat.not_le.2 he), if_neg (not_not.2 hp), hput]

end Sys2Proof.Machine
namespace Sys2Proof.Proofs
open Sys2Proof.Machine

/-- Settles O38: ports and retries are branches on the port's state and its oldest frame; a port that goes down changes no other. -/
theorem fabricPorts : Obligations.FabricPorts := by
  refine ⟨fun s a p d => ⟨fun h => ?_, fun h => ?_, fun h => ?_, fun h => ?_, fun h15 h17 hl h => ⟨fun hw => ?_, ?_⟩, fun h2 h3 => ?_⟩,
    fun s p x l room => ⟨fun q => ?_, fun hs hx hlt hi => ⟨fun ht => ?_, fun hfail hp h15 h17 hl => ?_⟩, fun hs => ?_⟩,
    fun s rx hp => ⟨fun he => ?_, fun he hc ha ht hd hlt hup hi => ⟨fun h63 => ?_, fun h63 => ?_⟩⟩⟩
  · exact congrArg Host.Outcome.next (if_pos h)
  · have hr := State.portRise_rises p.isLt d.isLt h
    exact ⟨_, rfl, hr.portSt, hr.delay, hr.flag, ⟨fun q _ hq => hr.others q hq, hr.chans⟩, hr.mem, hr.rg⟩
  · exact congrArg Host.Outcome.next (if_pos h)
  · refine congrArg Host.Outcome.next ?_
    rw [State.trainFail]
    simp only [h, true_and]
  · have hd := State.portDown_settles p.isLt (by decide : 1 < 8) h15 h17 hl
    refine ⟨_, (State.mayWrite_next hw _ _).trans (congrArg Host.Outcome.next (if_pos h)), hd.1, fun q _ hq => hd.2.1 q hq, hd.2.2⟩
  · have hd := State.portDown_settles p.isLt (by decide : 1 < 8) h15 h17 hl
    exact ⟨_, congrArg Host.Outcome.next (if_pos h), hd.1, fun q _ hq => hd.2.1 q hq, hd.2.2⟩
  · exact congrArg Host.Outcome.next (if_neg fun h => h.elim h2 h3)
  · refine ⟨_, rfl, ?_, ?_⟩
    · rw [State.ackFrame, State.port_setPort, if_pos rfl]
    · rw [State.ackFrame, State.port_setPort, if_pos rfl]
      exact filter_acked _ _
  · have hq : (BitVec.ofNat 8 x.lseq).toNat = x.lseq := (BitVec.toNat_ofNat _ _).trans (Nat.mod_eq_of_lt hlt)
    have hretry := State.retryFrame_retries hs hx p.isLt ht hi
    refine ⟨congrArg Host.Outcome.next ((congrArg (s.retryFrame p.val · true) hq).trans hretry),
      congrArg Host.Outcome.next ((State.answerLate_first hs hx true).trans hretry)⟩
  · have hq : (BitVec.ofNat 8 x.lseq).toNat = x.lseq := (BitVec.toNat_ofNat _ _).trans (Nat.mod_eq_of_lt hlt)
    have hd := State.portDown_settles p.isLt (by decide : 1 < 8) h15 h17 hl
    have hretry := State.retryFrame_fails hs hx hfail
    exact ⟨⟨_, congrArg Host.Outcome.next ((congrArg (s.retryFrame p.val · room) hq).trans hretry), hd.1, hd.2.2⟩,
      _, congrArg Host.Outcome.next ((State.answerLate_first hs hx room).trans hretry), hd.1, hd.2.2⟩
  · refine congrArg Host.Outcome.next ?_
    simp only [State.answerLate, hs, List.find?_nil]
  · refine congrArg Host.Outcome.next ?_
    simp only [State.rxLink]
    rw [if_neg (not_not.2 hp), if_pos (by rw [he]; decide)]
  · have hf := State.forward_topo (s := s.acked rx.port.val rx.lseq.toNat) (f := rx.frame) ht ha hd hlt hup rx.port.val
    exact congrArg Host.Outcome.next ((State.rxLink_good hp he hc _).trans (hf.trans (if_pos h63)))
  · have hf := State.forward_topo (s := s.acked rx.port.val rx.lseq.toNat) (f := rx.frame) ht ha hd hlt hup rx.port.val
    refine congrArg Host.Outcome.next ((State.rxLink_good hp he hc _).trans (hf.trans ((if_neg h63).trans ?_)))
    refine (State.emit_plain (s := s.acked rx.port.val rx.lseq.toNat) hi _).trans ?_
    simp only [State.framed, State.setPort, State.acked, List.append_assoc]
    rfl

end Sys2Proof.Proofs
end

section
/-! PROOFS. Transactions, their descriptors and their completion (R745 to R754). -/

namespace Sys2Proof.Machine

theorem State.fabMeet_clean {s : State} (hu : s.memUE = []) (hc : s.memCE = []) (a n : Nat) : s.fabMeet a n = (s, false) := by
  rw [State.fabMeet]
  refine List.foldl_fixed' (fun w => ?_) _
  simp only [hu, hc, List.contains_nil, Bool.false_eq_true, if_false]

/-- The tag, the place and the content of the descriptor that is taken next. -/
def State.reqTag (s : State) : Nat := freeTag (s.fab.txns.map (·.tag)) 257 s.fab.nextTag
def State.reqDesc (s : State) : Desc :=
  s.descAt (fabBuf + 32 * bitsOf (s.fr fabRqBase) 15 0 + 32 * (s.fr fabRqRptr % bitsOf (s.fr fabRqSize) 15 0))

/-- The transaction of that descriptor. -/
def State.reqTxn (s : State) : Txn :=
  { tag := s.reqTag, op := s.reqDesc.op, port := none, dst := s.reqDesc.dst, user := s.reqDesc.user, dptr := s.reqDesc.dptr
    room := if s.reqDesc.dictWrite then 1008 else s.reqDesc.cnt, dtag := none, held := none }

/-- The descriptor is taken: RPTR has advanced, and the tag is used. -/
def State.reqTaken (s : State) : State :=
  let u := s.setRg (fabOff fabRqRptr) ((s.fr fabRqRptr + 1) % 4294967296)
  { u with fab := { u.fab with nextTag := (s.reqTag + 1) % 4096 } }

theorem State.reqTaken_rg (s : State) {o : Nat} (h : o ≠ fabOff fabRqRptr) : s.reqTaken.rg o = s.rg o := State.rg_setRg_ne s _ h

theorem State.reqTaken_rptr (s : State) : s.reqTaken.fr fabRqRptr = wrapAdd (s.fr fabRqRptr) 1 := by
  refine (State.rg_setRg_same s (fabOff fabRqRptr) _).trans ?_
  unfold wrapAdd
  omega

/-- What decides whether a descriptor is taken, and whether it can be read. -/
structure State.ReqReady (s : State) : Prop where
  size : bitsOf (s.fr fabRqSize) 15 0 ≠ 0
  some_ : s.fr fabRqRptr ≠ s.fr fabRqWptr
  few : s.fab.txns.length < 256
  room : s.cqFull = false
  ue : s.memUE = []
  ce : s.memCE = []

theorem State.reqSend_idle {s : State} (h : s.fr fabRqRptr = s.fr fabRqWptr) : s.reqSend = s := if_pos (.inr (.inl h))

theorem State.reqSend_takes {s : State} (h : s.ReqReady) : s.reqSend =
    if s.reqDesc.bad then s.reqTaken.complete s.reqTxn 8 0 0 [] none
    else if s.reqTaken.tmoShort s.reqDesc.dst then s.reqTaken.complete s.reqTxn 7 0 0 [] none
    else s.reqTaken.descSend s.reqDesc s.reqTxn (if s.reqDesc.sends then s.bytes (fabBuf + s.reqDesc.dptr) s.reqDesc.cnt else []) := by
  have hgo : ¬ (bitsOf (s.fr fabRqSize) 15 0 = 0 ∨ s.fr fabRqRptr = s.fr fabRqWptr ∨ 256 ≤ s.fab.txns.length ∨ s.cqFull = true) := by
    rintro (h1 | h1 | h1 | h1)
    · exact h.size h1
    · exact h.some_ h1
    · exact absurd h.few (Nat.not_lt.2 h1)
    · rw [h.room] at h1; exact Bool.false_ne_true h1
  have hclean (a n : Nat) : s.reqTaken.fabMeet a n = (s.reqTaken, false) := State.fabMeet_clean (s := s.reqTaken) h.ue h.ce a n
  have hword : (if s.reqDesc.sends then s.reqTaken.fabMeet (fabBuf + s.reqDesc.dptr) s.reqDesc.cnt else (s.reqTaken, false)) =
      (s.reqTaken, false) := by
    split
    · exact hclean _ _
    · rfl
  rw [State.reqSend]
  refine (if_neg hgo).trans ?_
  have hm := hclean (fabBuf + 32 * bitsOf (s.fr fabRqBase) 15 0 + 32 * (s.fr fabRqRptr % bitsOf (s.fr fabRqSize) 15 0)) 32
  change (let m := s.reqTaken.fabMeet (fabBuf + 32 * bitsOf (s.fr fabRqBase) 15 0 + 32 * (s.fr fabRqRptr % bitsOf (s.fr fabRqSize) 15 0)) 32
    if m.2 then m.1.complete s.reqTxn 1 0 0 [] none
    else if s.reqDesc.bad then m.1.complete s.reqTxn 8 0 0 [] none
    else if m.1.tmoShort s.reqDesc.dst then m.1.complete s.reqTxn 7 0 0 [] none
    else
      let data := if s.reqDesc.sends then s.bytes (fabBuf + s.reqDesc.dptr) s.reqDesc.cnt else []
      let q := if s.reqDesc.sends then m.1.fabMeet (fabBuf + s.reqDesc.dptr) s.reqDesc.cnt else m
      if q.2 then q.1.complete s.reqTxn 1 0 0 [] none else q.1.descSend s.reqDesc s.reqTxn data) = _
  simp only [hm, hword, Bool.false_eq_true, if_false]

/-- A good READ or WRITE descriptor for another node goes out of its route's port, and its transaction is outstanding. -/
theorem State.descSend_out {s : State} {d : Desc} {e : Nat} (t : Txn) (data : List Byte) (h3 : d.op ≠ 3) (h9 : d.op ≠ 9) (hd : d.dst < 4096)
    (hme : s.assigned = false ∨ d.dst ≠ s.addr) (he : s.egress d.dst = e) (h4 : e < 4) (hp : s.portSt e = 3)
    (hi : s.injHit 15 4 (some e) = false) :
    s.descSend d t data = { s.framed e (s.descFrame d t.tag data) with
      fab := { (s.framed e (s.descFrame d t.tag data)).fab with txns := s.fab.txns ++ [{ t with port := some e }] } } := by
  have hdst : (s.descFrame d t.tag data).dst.toNat = d.dst := by
    rw [State.descFrame, BitVec.toNat_ofNat, if_neg h3]
    exact Nat.mod_eq_of_lt hd
  have hfor : ¬ s.forMe (s.descFrame d t.tag data) = true := by
    rw [State.forMe, hdst, Bool.and_eq_true, decide_eq_true_eq]
    rintro ⟨ha, hb⟩
    obtain h | h := hme
    · rw [h] at ha; exact Bool.false_ne_true ha
    · exact h hb
  simp only [State.descSend]
  rw [if_neg h3, if_neg fun h => h9 h.1, if_neg hfor, he, if_neg (Nat.not_le.2 h4), if_neg (not_not.2 hp), State.emit_plain hi]
  rfl

/-- The first word of the record of a transaction that completes without a cause. -/
theorem Completes.status {s u : State} {t : Txn} {status done : Nat} {data : List Byte} (h : Completes s u t status 0 done data)
    (ht : t.tag < 4096) : u.bytes s.cqAt 4 = leBytes 4 (t.tag + 4096 * status + 1048576 * done) := by
  rw [h.record, Nat.mod_eq_of_lt ht]
  rfl

theorem State.txnLate_waits {s : State} {t : Txn} (ht : s.fab.txns = [t]) (hw : s.canHaveLasted t.age s.fabTmoCyc = false) (tag : Nat) :
    s.txnLate tag = s := by
  rw [State.txnLate, ht]
  simp only [List.find?_cons, hw, Bool.and_false, List.find?_nil]

theorem State.txnLate_completes {s : State} {t : Txn} (ht : s.fab.txns = [t]) (hd : t.dtag = none) (hh : t.held = none)
    (hw : s.canHaveLasted t.age s.fabTmoCyc = true) : s.txnLate t.tag = s.complete t 6 0 0 [] none := by
  rw [State.txnLate, ht]
  simp only [List.find?_cons, hw, hd, hh, Option.isNone_none, decide_true, Bool.and_true]

theorem State.replyIn_completes {s : State} {t : Txn} {f : Frame} (ht : s.fab.txns = [t]) (hd : t.dtag = none) (hh : t.held = none)
    (htag : f.tag.toNat = t.tag) (hop : t.op = 1) (hst : bitsOf f.w2.toNat 7 0 = 0) (hl : f.data.length ≤ t.room) :
    s.replyIn f = s.complete t 0 0 (bitsOf f.w2.toNat 17 8) f.data none := by
  have h30 : bitsOf f.w2.toNat 3 0 = 0 := by unfold bitsOf at hst ⊢; omega
  have h74 : bitsOf f.w2.toNat 7 4 = 0 := by unfold bitsOf at hst ⊢; omega
  rw [State.replyIn, ht]
  simp only [List.find?_cons, htag, hd, hh, Option.isNone_none, decide_true, Bool.and_true, hop, h30, h74, if_true,
    List.take_of_length_le hl]
  exact if_neg fun h => absurd h.1 (by decide)

theorem State.replyIn_late {s : State} (ht : s.fab.txns = []) (f : Frame) : s.replyIn f = s.count (fabOff fabLate) := by
  rw [State.replyIn, ht]
  rfl

end Sys2Proof.Machine
namespace Sys2Proof.Proofs
open Sys2Proof.Machine

/-- Settles O40: each clause is one completion of `State.complete_completes`, or one frame that goes out. -/
theorem transactions : Obligations.Transactions := by
  intro s t hdt hheld ht hfull hu hi17 w at_ completed
  have hfilter (l : List Txn) (x : Txn) (h : l = [x]) : (l.filter fun y => y.tag ≠ x.tag) = [] := by
    rw [h]; simp
  refine ⟨fun htx => ⟨fun hw => ?_, fun hw => ?_, fun rx hp he hc ha hd htag hop hne hlen hst hat => ?_⟩, fun htx rx hp he hc ha hd => ?_,
    fun htx hnt hn hr hce hbad => ?_, fun h => congrArg Host.Outcome.next (State.reqSend_idle h), ?_, fun p hp hg h15 h17 hl => ?_,
    fun tag src => ⟨fun hs => ?_, fun hs he hp hi => ?_⟩, fun a v h => ?_⟩
  · exact congrArg Host.Outcome.next (State.txnLate_waits htx hw _)
  · have hc := State.complete_completes (s := s) t 6 0 0 (data := []) hfull hu hi17 (.inl rfl)
    have e : s.txnLate (BitVec.ofNat 12 t.tag).toNat = s.complete t 6 0 0 [] none := by
      rw [BitVec.toNat_ofNat, Nat.mod_eq_of_lt ht]
      exact State.txnLate_completes htx hdt hheld hw
    refine ⟨_, congrArg Host.Outcome.next e, ⟨hc.status ht, hc.wptr, hc.chans, fun o ho => hc.rg o ?_⟩, hc.txns.trans (hfilter _ _ htx),
      hc.rg _ (by decide), fun b hb => hc.byte b hb ?_⟩
    · rintro rfl; exact ho List.mem_cons_self
    · have := Nat.lt_or_ge b (fabBuf + t.dptr)
      simp only [List.length_nil, Nat.add_zero]
      exact this
  · have hc' := State.complete_completes (s := s.acked rx.port.val rx.lseq.toNat) t 0 0 (bitsOf rx.frame.w2.toNat 17 8) hfull hu hi17 (.inr hat)
    have e : s.rxLink rx { rx.frame with typ := 3 } (fun u => u.deliver rx.port.val { rx.frame with typ := 3 } (·.replyIn { rx.frame with typ := 3 })) =
        (s.acked rx.port.val rx.lseq.toNat).complete t 0 0 (bitsOf rx.frame.w2.toNat 17 8) rx.frame.data none := by
      rw [State.rxLink_good hp he hc]
      exact (State.deliver_here (s := s.acked rx.port.val rx.lseq.toNat) (f := { rx.frame with typ := 3 }) ha hd _ _).trans
        (State.replyIn_completes (s := s.acked rx.port.val rx.lseq.toNat) (f := { rx.frame with typ := 3 }) htx hdt hheld htag hop hst hlen)
    refine ⟨_, congrArg Host.Outcome.next e, ⟨hc'.status ht, hc'.wptr, hc'.chans, fun o ho => hc'.rg o ?_⟩, hc'.txns.trans (hfilter _ _ htx),
      hc'.rg _ (by decide), hc'.bytes, hc'.byte⟩
    rintro rfl; exact ho List.mem_cons_self
  · have e : s.rxLink rx { rx.frame with typ := 3 } (fun u => u.deliver rx.port.val { rx.frame with typ := 3 } (·.replyIn { rx.frame with typ := 3 })) =
        (s.acked rx.port.val rx.lseq.toNat).count (fabOff fabLate) := by
      rw [State.rxLink_good hp he hc]
      exact (State.deliver_here (s := s.acked rx.port.val rx.lseq.toNat) (f := { rx.frame with typ := 3 }) ha hd _ _).trans
        (State.replyIn_late (s := s.acked rx.port.val rx.lseq.toNat) htx _)
    exact ⟨_, congrArg Host.Outcome.next e, State.rg_count_same _ _ _, rfl, rfl, fun o ho => State.rg_count_ne _ _ ho⟩
  · have hready : s.ReqReady := ⟨hn, hr, by rw [htx]; decide, hfull, hu, hce⟩
    have htag : s.reqTag = s.fab.nextTag := by rw [State.reqTag, htx]; rfl
    have hfr {r : Nat} (h : fabOff r ≠ fabOff fabRqRptr) : s.reqTaken.fr r = s.fr r := s.reqTaken_rg h
    have hfull' : s.reqTaken.cqFull = false := by
      rw [State.cqFull, hfr (by decide), hfr (by decide), hfr (by decide)]; exact hfull
    have hat : s.reqTaken.cqAt = s.cqAt := by
      rw [State.cqAt, State.cqAt, hfr (by decide), hfr (by decide), hfr (by decide)]
    have hc := State.complete_completes (s := s.reqTaken) s.reqTxn 8 0 0 (data := []) hfull' hu
      ((State.injHit_congr (s.reqTaken_rg (by decide)) _ _).trans hi17) (.inl rfl)
    have e : s.reqSend = s.reqTaken.complete s.reqTxn 8 0 0 [] none := (State.reqSend_takes hready).trans (if_pos hbad)
    have hs := hc.status (show s.reqTag < 4096 by rw [htag]; exact hnt)
    rw [show s.reqTxn.tag = s.fab.nextTag from htag, hat] at hs
    refine ⟨_, congrArg Host.Outcome.next e, ⟨hs, hc.wptr.trans (congrArg (wrapAdd · 1) (hfr (by decide))), hc.chans, fun o ho => ?_⟩,
      (hc.rg _ (by decide)).trans s.reqTaken_rptr, fun b hb => hc.byte b (by rw [hat]; exact hb) ?_⟩
    · rw [List.mem_cons, List.mem_cons, not_or, not_or] at ho
      exact (hc.rg o ho.1).trans (s.reqTaken_rg ho.2.1)
    · have := Nat.lt_or_ge b (fabBuf + s.reqTxn.dptr)
      simp only [List.length_nil, Nat.add_zero]
      exact this
  · intro n d tag e data hn hr hlen hce hbad htmo hop hme he hp hi
    have hready : s.ReqReady := ⟨hn, hr, hlen, hfull, hu, hce⟩
    have hrt (dst : Nat) : s.reqTaken.fr (fabRt + 4 * dst) = s.fr (fabRt + 4 * dst) := by
      refine s.reqTaken_rg ?_
      unfold fabOff fabRt fabRqRptr
      omega
    have hfr {r : Nat} (h : fabOff r ≠ fabOff fabRqRptr) : s.reqTaken.fr r = s.fr r := s.reqTaken_rg h
    have htmo' : s.reqTaken.tmoShort d.dst = false := by
      rw [State.tmoShort, hrt, hfr (by decide)]; exact htmo
    have hdw : s.reqDesc.dictWrite = false := by
      have h9 : s.reqDesc.op ≠ 9 := by rintro h; obtain h' | h' := hop <;> exact absurd (h.symm.trans h') (by decide)
      rw [Desc.dictWrite, decide_eq_false h9, Bool.false_and]
    have hdata : (if s.reqDesc.sends then s.bytes (fabBuf + s.reqDesc.dptr) s.reqDesc.cnt else []) = data := by
      have hs : s.reqDesc.sends = decide (s.reqDesc.op = 2) := by
        have h3 : s.reqDesc.op ≠ 3 := by rintro h; obtain h' | h' := hop <;> exact absurd (h.symm.trans h') (by decide)
        rw [Desc.sends, hdw, decide_eq_false h3, Bool.or_false, Bool.or_false]
      rw [hs]
      simp only [decide_eq_true_eq]
      rfl
    have hout := State.descSend_out (s := s.reqTaken) (d := d) (e := e) s.reqTxn data
      (by rintro h; obtain h' | h' := hop <;> exact absurd (h.symm.trans h') (by decide))
      (by rintro h; obtain h' | h' := hop <;> exact absurd (h.symm.trans h') (by decide))
      (bitsOf_lt _ _ _) (hme.imp (fun h => (congrArg (bitOf · 12) (hfr (by decide))).trans h) fun h => by
        rw [State.addr, hfr (by decide)]; exact h)
      (congrArg (bitsOf · 2 0) (hrt _)) he ((State.portSt_congr (hfr (by decide)) _).trans hp)
      ((State.injHit_congr (s.reqTaken_rg (by decide)) _ _).trans hi)
    have e : s.reqSend = s.reqTaken.descSend d s.reqTxn data := by
      refine (State.reqSend_takes hready).trans ((if_neg ?_).trans ((if_neg ?_).trans ?_))
      · exact Bool.eq_false_iff.1 hbad
      · exact Bool.eq_false_iff.1 htmo'
      · rw [hdata]; rfl
    refine ⟨_, congrArg Host.Outcome.next (e.trans hout), ?_, ?_, rfl, s.reqTaken_rptr, rfl, rfl, fun o ho => s.reqTaken_rg ho⟩
    · have hframe : s.reqTaken.descFrame d s.reqTxn.tag data = s.descFrame d tag data := by
        rw [State.descFrame, State.descFrame, State.addr, State.addr, hfr (by decide)]; rfl
      rw [hframe]; rfl
    · rw [State.reqTxn, hdw]; rfl
  · have e : s.absent p.val = (s.portDown p.val 1).settleFaults := if_pos ⟨hp, hg⟩
    obtain ⟨hst, -, hch⟩ := State.portDown_settles (s := s) p.isLt (by decide : 1 < 8) h15 h17 hl
    exact ⟨_, congrArg Host.Outcome.next e, hst, hch⟩
  · have e : s.readBusy src.toNat tag.toNat = s := by
      rw [State.readBusy, List.find?_eq_none.2 fun x hx => by
        have := List.any_eq_false.1 hs x hx
        exact this]
    exact congrArg Host.Outcome.next e
  · obtain ⟨x, hx⟩ := Option.isSome_iff_exists.1 (List.find?_isSome.2 (List.any_eq_true.1 hs))
    have e : s.readBusy src.toNat tag.toNat = State.answer { s with fab := { s.fab with reads := s.fab.reads.filter (· ≠ x) } }
        src.toNat tag.toNat 2 0 0 [] := by
      rw [State.readBusy, hx]
    have hlt : (s.fab.reads.filter (· ≠ x)).length < s.fab.reads.length :=
      List.length_filter_lt_length_iff_exists.2 ⟨x, List.mem_of_find?_eq_some hx, by simp⟩
    obtain ⟨hout, hchans, hregs, hmem⟩ := State.answer_replies (s := s) (u := { s with fab := { s.fab with reads := s.fab.reads.filter (· ≠ x) } })
      rfl rfl he hp hi tag.toNat 2 0 0 []
    have heg : s.egress (src.toNat % 4096) = s.egress src.toNat := by rw [Nat.mod_eq_of_lt src.isLt]
    have hans := State.answer_plain (s := { s with fab := { s.fab with reads := s.fab.reads.filter (· ≠ x) } }) heg he hp hi tag.toNat 2 0 0 []
    refine ⟨_, congrArg Host.Outcome.next e, hout, ?_, hchans, hregs, hmem⟩
    rw [hans]
    exact hlt
  · change execFabRqWptr a v s = _
    exact State.mayWrite_next h _ _

end Sys2Proof.Proofs
end

section
/-! PROOFS. Topology, time and discovery on the fabric, and steps of the time base (R740, R744, R755 to R760). -/

namespace Sys2Proof.Machine

/-- A table whose values are replaced one by one. -/
theorem tget_map_value {α β : Type} (d : Nat → α) (e : Nat → β) (f : α → β) (hd : ∀ k, e k = f (d k)) (k : Nat) :
    ∀ l : Tbl α, tget e (l.map fun x => (x.1, f x.2)) k = f (tget d l k)
  | [] => hd k
  | (j, v) :: r => by
    rw [List.map_cons, tget, tget]
    split
    · rfl
    · exact tget_map_value d e f hd k r

theorem stamp_length (t : Int) : (stamp t).length = 10 := by
  rw [stamp, List.length_append, leBytes_length, leBytes_length]

/-- A DISCOVER frame inside its path goes on. -/
theorem State.discoverIn_next {s : State} {p : Nat} {f : Frame} (hb : bitOf f.w2.toNat 7 = false)
    (hh : f.hops.toNat + 1 < bitsOf f.w2.toNat 6 0) (h63 : f.hops.toNat ≠ 63) (hq : s.portSt (hopAt f.data (f.hops.toNat + 1)) = 3)
    (hi : s.injHit 15 4 (some (hopAt f.data (f.hops.toNat + 1))) = false) :
    s.discoverIn p f = s.framed (hopAt f.data (f.hops.toNat + 1)) { frameHop f with data := setHop f.data f.hops.toNat p } := by
  have hn : discoverNext p f = some (hopAt f.data (f.hops.toNat + 1), setHop f.data f.hops.toNat p) :=
    (if_neg (Nat.not_le.2 hh)).trans (if_neg (by rw [hb]; decide))
  have hgo : s.discoverIn p f = s.emit (hopAt f.data (f.hops.toNat + 1)) { frameHop f with data := setHop f.data f.hops.toNat p } := by
    unfold State.discoverIn
    rw [hn]
    exact (if_neg (not_not.2 hq)).trans (if_neg h63)
  rw [hgo, State.emit_plain hi]

/-- The times of an exchange, at a port that is no member's UP_PORT. -/
def State.timed (s : State) (p : Nat) (data : List Byte) (t1 t2 t3 t4 : Int) : State :=
  let s := s.setRg (fabOff (fabDelay + 4 * p)) (word32 (linkDelay t1 t2 t3 t4)).toNat
  let s := s.setPort p { s.port p with timed := true, heard := some (data.take 10 ++ stamp (t2 * 65536 / 1000)) }
  { s with fab := { s.fab with quiet := s.fab.quiet.set p 0 } }

theorem State.timeIn_timed {s : State} {p : Nat} (hp : p < 4) (h : s.isMember = false ∨ p ≠ s.upPort) (data : List Byte) (t1 t2 t3 t4 : Int) :
    s.timeIn p data t1 t2 t3 t4 = s.timed p data t1 t2 t3 t4 := by
  have hoff {o : Nat} (ho : o < fabOff 0) : (s.timed p data t1 t2 t3 t4).rg o = s.rg o :=
    State.rg_setRg_ne s _ (by unfold fabOff at ho ⊢; omega)
  have hstrap := hoff (o := sysStrap) (by decide)
  have hm : (s.timed p data t1 t2 t3 t4).isMember = s.isMember := by
    rw [State.isMember, State.isMember, State.svcHold, State.svcHold, State.strapCode, State.strapCode, hstrap]
  have hu : (s.timed p data t1 t2 t3 t4).upPort = s.upPort := congrArg (bitsOf · 2 1) (hoff (o := sysClkCfg) (by decide))
  refine if_neg (c := (s.timed p data t1 t2 t3 t4).isMember = true ∧ p = (s.timed p data t1 t2 t3 t4).upPort) ?_
  rw [hm, hu]
  rintro ⟨h1, h2⟩
  obtain h | h := h
  · rw [h] at h1; exact Bool.false_ne_true h1
  · exact h h2

/-- A TIME frame goes out. -/
theorem State.timeOut_sends {s : State} {p : Nat} (hp : s.portSt p = 3) (hi : s.injHit 15 4 (some p) = false) :
    ∃ f, s.timeOut p = s.framed p f ∧ f.typ = 7 ∧ ∀ h, (s.port p).heard = some h → f.data.drop 10 = h := by
  refine ⟨_, (if_pos hp).trans (State.emit_plain hi _), rfl, fun h hh => ?_⟩
  refine (List.drop_left' (stamp_length _)).trans ?_
  rw [hh]
  rfl

/-- The counter loaded for a step of `th` ps. -/
def State.stepped (s : State) (th : Int) : State :=
  let u := s.laterBy (rne th 5000) (-((-(rne th 5000)) / 50))
  { u with tick := ((u.tick : Int) + -((-(rne th 5000)) / 50)).toNat, fab := { u.fab with step := none } }

theorem State.timeStepNow_steps {s : State} {th : Int} (ht : s.fab.step = some th) (hq : s.chansQuiet = true) :
    s.timeStepNow = (s.stepped th).strobesAnew := by
  have hd : s.stepDue = some th := (if_pos hq).trans ht
  unfold State.timeStepNow
  rw [hd]
  rfl

theorem State.timeStepNow_none {s : State} (h : s.fab.step = none ∨ s.chansQuiet = false) : s.timeStepNow = s := by
  have hd : s.stepDue = none := by
    rw [State.stepDue]
    obtain h | h := h
    · rw [h, ite_self]
    · rw [h]; rfl
  unfold State.timeStepNow
  rw [hd]

/-- A strobe with its boundary A found anew. -/
def State.anew (s : State) (b : Strobe) : Strobe := { b with at_ := s.boundaryA b.mine }

theorem State.strobesAnew_strobe {s : State} {g : Nat} {b : Strobe} (h : s.strobe g = some b) :
    s.strobesAnew.strobe g = some (s.anew b) := by
  have hm := tget_map_value (fun _ => none) (fun _ => none) (Option.map s.anew) (fun _ => rfl) g s.strobes
  rw [show tget (fun _ => none) s.strobes g = some b from h] at hm
  exact hm

/-- What a step of the counter leaves of every channel. -/
theorem State.laterBy_chans (s : State) (c k : Int) :
    (s.laterBy c k).chans.map (fun x => (x.1, x.2.state, x.2.law.act, x.2.rng, x.2.fi)) =
      s.chans.map (fun x => (x.1, x.2.state, x.2.law.act, x.2.rng, x.2.fi)) := by
  refine (List.map_map).trans ?_
  rfl

end Sys2Proof.Machine
namespace Sys2Proof.Proofs
open Sys2Proof.Machine

/-- Settles O41: each frame and each step is one named change of the state. -/
theorem fabricTime : Obligations.FabricTime := by
  intro s rx p
  refine ⟨fun hp he hc => ⟨fun ha hd => ?_, fun t1 t2 t3 t4 hm => ?_, fun hb hh h63 hq hi => ?_⟩, fun hp hi => ?_, fun hp => ?_,
    fun hm hu h15 hl hcause hw => ?_, fun hw => ?_, ?_⟩
  · exact congrArg Host.Outcome.next ((State.rxLink_good hp he hc _).trans (State.deliver_here (s := s.acked rx.port.val rx.lseq.toNat)
      (f := { rx.frame with typ := 10 }) ha hd _ id))
  · have e : s.rxLink rx { rx.frame with typ := 7 } (·.timeIn rx.port.val rx.frame.data t1 t2 t3 t4) =
        (s.acked rx.port.val rx.lseq.toNat).timed rx.port.val rx.frame.data t1 t2 t3 t4 := by
      rw [State.rxLink_good hp he hc]
      exact State.timeIn_timed (s := s.acked rx.port.val rx.lseq.toNat) rx.port.isLt hm _ _ _ _ _
    have hport : ((s.acked rx.port.val rx.lseq.toNat).timed rx.port.val rx.frame.data t1 t2 t3 t4).port rx.port.val =
        { s.port rx.port.val with timed := true, heard := some (rx.frame.data.take 10 ++ stamp (t2 * 65536 / 1000)) } :=
      (State.port_setPort _ _ _ _).trans (if_pos rfl)
    refine ⟨_, congrArg Host.Outcome.next e,
      (State.rg_setRg_same _ _ _).trans (Nat.mod_eq_of_lt (word32 (linkDelay t1 t2 t3 t4)).isLt), ?_, ?_, fun o ho => State.rg_setRg_ne _ _ ho, rfl, rfl⟩
    · rw [hport]
    · rw [hport]
  · have e : s.rxLink rx { rx.frame with typ := 8 } (·.discoverIn rx.port.val { rx.frame with typ := 8 }) = _ :=
      (State.rxLink_good hp he hc _).trans (State.discoverIn_next (s := s.acked rx.port.val rx.lseq.toNat) (f := { rx.frame with typ := 8 })
        hb hh h63 hq hi)
    exact ⟨_, congrArg Host.Outcome.next e, rfl, rfl, rfl, rfl⟩
  · obtain ⟨f, e, ht, hd⟩ := State.timeOut_sends hp hi
    exact ⟨_, f, congrArg Host.Outcome.next e, rfl, ht, hd, rfl, rfl, rfl⟩
  · exact congrArg Host.Outcome.next (if_neg hp)
  · have e : s.timeLost p.val = s.cause frFab (ffSync p.val) := if_pos ⟨hm, hu, hw⟩
    have h := State.cause_begun h15 hl (i := ffSync p.val) (by have := p.isLt; unfold ffSync; omega) hcause
    exact ⟨_, congrArg Host.Outcome.next e, h.set, h.rg, h.chans, h.mem⟩
  · exact congrArg Host.Outcome.next (if_neg fun h => by rw [hw] at h; exact Bool.false_ne_true h.2.2)
  · have hexec : exec .timeStep s = .next s.settleTick.timeStepNow := rfl
    rw [hexec]
    generalize s.settleTick = u
    refine ⟨fun th ht hq => ⟨_, congrArg Host.Outcome.next (State.timeStepNow_steps ht hq), rfl, rfl, rfl, rfl, fun g b hb => ?_,
      rfl, rfl, rfl, rfl, u.laterBy_chans _ _⟩, fun h => congrArg Host.Outcome.next (State.timeStepNow_none h)⟩
    exact ⟨_, State.strobesAnew_strobe (s := u.stepped th) hb, rfl, rfl⟩

end Sys2Proof.Proofs
end

section
/-! PROOFS. The frame length and the Harvest exchange (R32, R762 to R765, R801). -/

namespace Sys2Proof.Machine

theorem State.frameGoCmd_refuses {s : State} (h : s.isMember = true ∨ bitsOf (s.fr fabFrameNew) 15 0 < 20) :
    s.frameGoCmd = s.flag (fabOff fabFlags) 0x40 := if_pos h

theorem State.frameGoCmd_waits {s : State} (hm : s.isMember = false) (hr : s.isRoot = false) (hn : 20 ≤ bitsOf (s.fr fabFrameNew) 15 0) :
    s.frameGoCmd = { s with fab := { s.fab with frameGo := some (s.tick, bitsOf (s.fr fabFrameNew) 15 0) } } := by
  refine (if_neg (c := s.isMember = true ∨ bitsOf (s.fr fabFrameNew) 15 0 < 20) ?_).trans
    (if_neg (c := s.isRoot = true) (Bool.eq_false_iff.1 hr))
  rw [hm]
  rintro (h | h)
  · exact Bool.false_ne_true h
  · exact absurd hn (Nat.not_le.2 h)

theorem State.frameApply_due {s : State} {go n : Nat} (hg : s.fab.frameGo = some (go, n)) (k : Nat) :
    s.frameApply k = if frameAt (bitsOf (s.fr fabFrame) 15 0) n go ≤ k then
      { (s.setRg (fabOff fabFrame) n) with fab := { s.fab with frameGo := none } } else s := by
  unfold State.frameApply
  rw [hg]

/-- The exchange of a frame that starts now. -/
def State.hvBegun (s : State) : State :=
  s.setHv { begun := true, start := s.tick, maps := s.fab.hv.next.getD s.fab.hv.maps, objs := s.fab.hv.objs }

theorem State.frameBegin_begins {s : State} (hd : s.frameDue = true) (hb : s.fab.hv.begun = false) (hr : s.isRoot = false) :
    s.frameBegin = s.hvBegun := by
  have hlate : (s.fab.hv.begun && s.hvNode && !s.fab.hv.fired) = false := by rw [hb]; rfl
  rw [State.frameBegin]
  refine (if_neg (not_not.2 hd)).trans ?_
  simp only [hlate, Bool.false_eq_true, if_false]
  exact if_neg (c := s.hvBegun.isRoot = true) (Bool.eq_false_iff.1 hr)

/-- HARVEST fires, and is counted. -/
structure HvFired (s t : State) (c : Nat) : Prop where
  fired : t.fab.hv.fired = true
  count : t.fr fabHvCnt = wrapAdd (s.fr fabHvCnt) 1
  contribs : t.contribs = (s.fireAt 2 0 (s.at_ c) none).contribs
  rg : ∀ o, o ≠ fabOff fabHvCnt → t.rg o = s.rg o
  chans : t.chans = s.chans
  mem : t.mem = s.mem

/-- The state in which a member has the one frame of the set. -/
def State.hvGot (s : State) (f : Frame) : State :=
  s.setHv { s.fab.hv with got := s.fab.hv.got ++ [(bitsOf f.w2.toNat 21 16, f.data)] }

/-- A member without entries that has a set of one frame fires. -/
theorem State.hvDn_fires {s : State} {f : Frame} {c : Nat} (hm : s.isMember = true) (hb : s.fab.hv.begun = true) (hf : s.fab.hv.fired = false)
    (ht : bitsOf f.w2.toNat 15 0 = s.fab.hv.start % 65536) (hg : s.fab.hv.got = []) (hdn : s.fab.hv.maps.dn = []) (hup : s.fab.hv.maps.up = [])
    (hn : f.w3.toNat % 64 = 0) (hi : bitsOf f.w2.toNat 21 16 = 0) (hc : bitOf (s.fr fabHvCfg) 12 = false) :
    s.hvDn f c = (s.hvGot f).hvFire c := by
  have hgo : ¬ (¬ s.isMember ∨ ¬ s.fab.hv.begun ∨ s.fab.hv.fired ∨ bitsOf f.w2.toNat 15 0 ≠ s.fab.hv.start % 65536 ∨
      f.w3.toNat % 64 + 1 ≤ bitsOf f.w2.toNat 21 16 ∨ s.fab.hv.got.any (fun p => p.1 = bitsOf f.w2.toNat 21 16)) := by
    rw [hm, hb, hf, ht, hn, hi, hg]
    simp
  have hlen : ¬ (s.fab.hv.got ++ [(bitsOf f.w2.toNat 21 16, f.data)]).length < f.w3.toNat % 64 + 1 := by
    rw [hg, hn]; exact Nat.lt_irrefl 1
  have htake (img : List Byte) : (s.hvGot f).hvTake img c = (s.hvGot f).hvFire c := by
    have h1 : (s.hvGot f).scatter img true (s.hvGot f).fab.hv.maps.dn = (s.hvGot f, true) := by
      rw [show (s.hvGot f).fab.hv.maps.dn = [] from hdn]; rfl
    have h2 (b : List Byte) : (s.hvGot f).gather b (s.hvGot f).fab.hv.maps.up = (s.hvGot f, b) := by
      rw [show (s.hvGot f).fab.hv.maps.up = [] from hup]; rfl
    have hcfg : ¬ bitOf (((s.hvGot f).hvFire c).fr fabHvCfg) 12 = true := by
      rw [State.fr, State.hvFire, State.countWrap, State.rg_setRg_ne _ _ (by decide)]
      exact Bool.eq_false_iff.1 hc
    simp only [State.hvTake, h1, h2]
    rw [if_neg (by simp), if_neg hcfg]
  rw [State.hvDn]
  exact (if_neg hgo).trans ((if_neg hlen).trans (htake _))

theorem State.hvFire_fires (s : State) (c : Nat) : HvFired s (s.hvFire c) c :=
  ⟨rfl, State.rg_countWrap_same _ _ _, rfl, fun _ h => State.rg_setRg_ne _ _ h, rfl, rfl⟩

/-! Upward data at the root. -/

/-- The bytes of one line of DDR5 are one write. -/
theorem State.ddrPut_line {s : State} {a : Nat} {bs : List Byte} (ha : ddrBase ≤ a) (h128 : a % 128 = 0) (hl : bs.length ≤ 128) (hne : bs ≠ [])
    (hu : s.memUE = []) (hc : s.memCE = []) (k : Nat) : s.ddrPut a bs (k + 2) = s.store a bs := by
  have hn : codeword a + 128 - a = 128 := by rw [codeword_ddr ha]; omega
  have htouch (u : State) : u.memTouch a bs.length = u := by
    rw [State.memTouch, if_neg (by unfold ddrBase at ha; omega), if_neg (by unfold ddrBase at ha; omega)]
  have hw : (s.wordWrite a bs).st = s.store a bs := by
    rw [State.wordWrite_good hu hc]
    exact htouch _
  rw [State.ddrPut, if_neg hne, hn]
  dsimp only
  rw [List.take_of_length_le hl, List.drop_of_length_le hl, hw, State.ddrPut, if_pos rfl]

/-- What the payload of a HARVEST_UP frame leaves. -/
structure HvStored (s t : State) (o : Nat) (bs : List Byte) : Prop where
  bytes : t.bytes (ddrBase + o) bs.length = bs
  byte : ∀ b, b < ddrBase + o ∨ ddrBase + o + bs.length ≤ b → t.byte b = s.byte b
  rg : ∀ q, q ∉ ddrRegs → t.rg q = s.rg q
  chans : t.chans = s.chans
  fab : t.fab = s.fab

theorem State.ddrWake_fab (s : State) (a : Nat) : (s.ddrWake a).fab = s.fab := by
  obtain e | ⟨r, c, e⟩ := s.ddrWake_only a <;> rw [e]

theorem State.ddrWake_memCE (s : State) (a : Nat) : (s.ddrWake a).memCE = s.memCE := by
  obtain e | ⟨r, c, e⟩ := s.ddrWake_only a <;> rw [e]

theorem State.hvStore_stored {s : State} {o : Nat} {bs : List Byte} (hne : bs ≠ []) (hl : bs.length ≤ 128) (h128 : o % 128 = 0)
    (hok : s.ddrOk o bs.length = true) (hu : s.memUE = []) (hc : s.memCE = []) : HvStored s (s.hvStore o bs) o bs := by
  generalize hv : (s.ddrWake (ddrBase + o)).ddrWake (ddrBase + o + bs.length - 1) = v
  have e : s.hvStore o bs = v.store (ddrBase + o) bs := by
    rw [State.hvStore, if_neg hne, if_pos hok, hv]
    exact State.ddrPut_line (Nat.le_add_right _ _) (by unfold ddrBase; omega) hl hne (by rw [← hv, State.ddrWake_memUE, State.ddrWake_memUE, hu])
      (by rw [← hv, State.ddrWake_memCE, State.ddrWake_memCE, hc]) 7
  have hmem : v.mem = s.mem := by rw [← hv, State.ddrWake_mem, State.ddrWake_mem]
  rw [e]
  refine ⟨v.store_bytes _ _, fun b hb => ?_, fun q hq => ?_, ?_, ?_⟩
  · rw [v.store_byte_out _ _ _ hb]
    exact State.byte_congr hmem b
  · rw [v.store_rg _ _ _ fun h => hq (by rw [h]; exact List.mem_cons_self), ← hv, State.ddrWake_rg _ _ hq, State.ddrWake_rg _ _ hq]
  · rw [State.store_chans, ← hv, State.ddrWake_chans, State.ddrWake_chans]
  · rw [State.store_fab, ← hv, State.ddrWake_fab, State.ddrWake_fab]

/-- The root with the data of one more member. -/
def State.hvUpped (s : State) (f : Frame) : State :=
  let u := s.hvStore (s.fab.hv.maps.upBase + 1024 * f.src.toNat) f.data
  u.setHv { u.fab.hv with ups := s.fab.hv.ups ++ [f.src.toNat] }

theorem State.hvUp_cases {s : State} {f : Frame} (hr : s.isRoot = true) (hb : s.fab.hv.begun = true)
    (ht : bitsOf f.w2.toNat 15 0 = s.fab.hv.start % 65536) (c : Nat) :
    s.hvUp f c = s.hvUpped f ∨ s.hvUp f c = (s.hvUpped f).hvFire c := by
  have hgo : ¬ (¬ s.isRoot ∨ ¬ s.fab.hv.begun ∨ bitsOf f.w2.toNat 15 0 ≠ s.fab.hv.start % 65536) := by
    rw [hr, hb, ht]; simp
  have e : s.hvUp f c = if ¬ s.fab.hv.fired ∧ (s.fab.hv.ups ++ [f.src.toNat]).length = bitsOf ((s.hvUpped f).fr fabHvCfg) 11 0 then
      (s.hvUpped f).hvFire c else s.hvUpped f := by
    rw [State.hvUp]
    exact if_neg hgo
  rw [e]
  split
  · exact .inr rfl
  · exact .inl rfl

end Sys2Proof.Machine
namespace Sys2Proof.Proofs
open Sys2Proof.Machine

/-- Settles O42: an exchange that starts, a set that is whole, and one line of DDR5 that the root stores. -/
theorem harvestExchange : Obligations.HarvestExchange := by
  intro s a
  refine ⟨fun h => ⟨fun hn => ?_, fun hm hr hn => ?_⟩, fun go n hg => ⟨fun hk => ?_, fun hk => ?_⟩, fun hd hb hr => ?_, fun hd => ?_,
    fun rx cyc hp he hc hb hf ht => ⟨fun hm hg hdn hup hn hi hcfg hbc => ?_, fun hr ha hd hne hl h128 hok hu hce => ?_⟩⟩
  · change execFrameLengthGo a s = _
    exact (State.mayWrite_next h _ _).trans (congrArg Host.Outcome.next (State.frameGoCmd_refuses hn))
  · change execFrameLengthGo a s = _
    exact (State.mayWrite_next h _ _).trans (congrArg Host.Outcome.next (State.frameGoCmd_waits hm hr hn))
  · exact congrArg Host.Outcome.next ((State.frameApply_due hg _).trans (if_pos hk))
  · exact congrArg Host.Outcome.next ((State.frameApply_due hg _).trans (if_neg (Nat.not_le.2 hk)))
  · exact ⟨_, congrArg Host.Outcome.next (State.frameBegin_begins hd hb hr), rfl, rfl, rfl, rfl, rfl, rfl, rfl, rfl⟩
  · exact congrArg Host.Outcome.next (if_pos (Bool.eq_false_iff.1 hd))
  · have e : s.rxLink rx { rx.frame with typ := 5 } (fun u => (u.hvDn { rx.frame with typ := 5 } cyc.val).bcastOn rx.port.val { rx.frame with typ := 5 }) =
        ((s.acked rx.port.val rx.lseq.toNat).hvGot { rx.frame with typ := 5 }).hvFire cyc.val := by
      rw [State.rxLink_good hp he hc, State.hvDn_fires (s := s.acked rx.port.val rx.lseq.toNat) (f := { rx.frame with typ := 5 }) hm hb hf ht hg hdn hup hn hi hcfg]
      refine State.bcastOn_none ?_ _ _
      rw [State.fr, (State.hvFire_fires _ _).rg _ (by decide)]
      exact hbc
    have h := State.hvFire_fires ((s.acked rx.port.val rx.lseq.toNat).hvGot { rx.frame with typ := 5 }) cyc.val
    exact ⟨_, congrArg Host.Outcome.next e, h.fired, h.count, h.contribs, h.rg, h.chans, h.mem⟩
  · have hgood : s.rxLink rx { rx.frame with typ := 6 } (fun u => u.deliver rx.port.val { rx.frame with typ := 6 } (·.hvUp { rx.frame with typ := 6 } cyc.val)) =
        (s.acked rx.port.val rx.lseq.toNat).hvUp { rx.frame with typ := 6 } cyc.val := by
      rw [State.rxLink_good hp he hc]
      exact State.deliver_here (s := s.acked rx.port.val rx.lseq.toNat) (f := { rx.frame with typ := 6 }) ha hd _ _
    have h := State.hvStore_stored (s := s.acked rx.port.val rx.lseq.toNat) hne hl h128 hok hu hce
    obtain e | e := State.hvUp_cases (s := s.acked rx.port.val rx.lseq.toNat) (f := { rx.frame with typ := 6 }) hr hb ht cyc.val
    · refine ⟨_, congrArg Host.Outcome.next (hgood.trans e), h.bytes, rfl, h.chans, fun q hq => h.rg q fun hm => hq (List.mem_append_right _ hm), h.byte⟩
    · have hf := State.hvFire_fires ((s.acked rx.port.val rx.lseq.toNat).hvUpped { rx.frame with typ := 6 }) cyc.val
      refine ⟨_, congrArg Host.Outcome.next (hgood.trans e), ?_, rfl, hf.chans.trans h.chans, fun q hq => ?_, fun b hb => ?_⟩
      · rw [State.bytes, hf.mem]
        exact h.bytes
      · exact (hf.rg q fun hm => hq (by rw [hm]; exact List.mem_cons_self)).trans (h.rg q fun hm => hq (List.mem_append_right _ hm))
      · exact (State.byte_congr hf.mem b).trans (h.byte b hb)

end Sys2Proof.Proofs
end

section
/-! PROOFS. Decisions of the Rake at the end of a POINT, a WAIT, a repetition and a granule (R290 to R293, R302, R303, R312 to R314). -/

namespace Sys2Proof.Machine

/-- A decision is stored, after what it has read. -/
def State.decided (s : State) (n : Nat) (read d : Decision) : State :=
  (s.rakeReads n read).updCh n fun c => { c with rake := { c.rake with next := some d } }

/-- A decision that reads no streamed granule. -/
theorem State.setDecision_stored {s : State} {n : Nat} {d : Decision} (h : ∀ u : State, u.readFirst n d = u) :
    s.setDecision n d = s.decided n d { d with reads := [] } := by
  rw [State.setDecision, h]
  rfl

theorem State.readFirst_entry (s : State) (n idx : Nat) (w : List Nat) {d : Decision} (h : d.next = .entry idx w) : s.readFirst n d = s := by
  unfold State.readFirst; rw [h]
theorem State.readFirst_stop (s : State) (n why : Nat) {d : Decision} (h : d.next = .stop why) : s.readFirst n d = s := by
  unfold State.readFirst; rw [h]
theorem State.readFirst_own (s : State) (n g k : Nat) (e : Bool) (f : Gran) {d : Decision} (h : d.next = .rep g e k (.own f)) :
    s.readFirst n d = s := by
  unfold State.readFirst; rw [h]
theorem State.readFirst_gran (s : State) (n : Nat) (f : First) {d : Decision} (h : d.next = .gran f) : s.readFirst n d = s := by
  unfold State.readFirst; rw [h]

/-- Entry `idx` is a POINT or a WAIT that can be read and breaks no rule. -/
structure State.GoodEntry (s : State) (n idx depth : Nat) : Prop where
  inside : idx < s.rkLen n
  ue : s.entryUE n idx = false
  rules : s.entryReason n (s.entry n idx) depth 0 = 0
  noLoop : ew (s.entry n idx) 3 % 4 ≠ 1
  noJump : ew (s.entry n idx) 3 % 4 ≠ 3

/-- The walk ends at once at such an entry. -/
theorem State.walk_good {s : State} {n idx : Nat} {loops : List Loop} (h : s.GoodEntry n idx loops.length) (jl : Bool) (cnt : Nat) (d : Decision) :
    s.walk n idx loops jl cnt d = { d with reads := idx :: d.reads, next := .entry idx (s.entry n idx), loops := loops } := by
  rw [State.walk, State.listWalk, if_neg (Nat.not_le.2 h.inside), if_neg (by rw [h.ue]; decide)]
  dsimp only
  rw [if_neg (not_not.2 h.rules)]
  have h1 := h.noLoop
  have h3 := h.noJump
  have hlt : ew (s.entry n idx) 3 % 4 < 4 := Nat.mod_lt _ (by decide)
  generalize ew (s.entry n idx) 3 % 4 = t at h1 h3 hlt
  split
  · exact absurd rfl h1
  · exact absurd rfl h3
  · rfl

/-- The decision of that walk. -/
theorem State.setDecision_walk {s : State} {n idx : Nat} {loops : List Loop} (h : s.GoodEntry n idx loops.length) (jl : Bool) (cnt : Nat)
    (d : Decision) (hd : d.reads = []) : s.setDecision n (s.walk n idx loops jl cnt d) =
      s.decided n { d with reads := [idx], next := .entry idx (s.entry n idx), loops := loops }
        { d with reads := [], next := .entry idx (s.entry n idx), loops := loops } := by
  rw [State.walk_good h, hd, State.setDecision_stored fun u => u.readFirst_entry n idx _ rfl]

theorem State.pointEnd_next {s : State} {n : Nat} (hr : (s.ch n).rake.st = .running) (hw : s.wave n = false) (hn : (s.ch n).rake.next = none)
    (ho : s.own n = true) (hl : (s.ch n).rake.left ≤ 1) (hj : (s.ch n).rake.je = false) : s.pointEnd n =
      s.setDecision n (s.walk n ((s.ch n).rake.pos + 1) (s.ch n).rake.loops (s.ch n).jump
        (holdAdd (s.cr n chRakeCnt) (b2n (s.ch n).rake.cinc)) { next := .stop 1, done := true }) := by
  simp only [State.pointEnd, hj, Bool.false_and, Bool.false_eq_true, if_false, or_false]
  exact if_pos ⟨hr, Bool.eq_false_iff.1 hw, hn, ho, hl⟩

theorem State.waitEnd_next {s : State} {n : Nat} (hr : (s.ch n).rake.st = .waiting) (hn : (s.ch n).rake.next = none) (ho : s.own n = true)
    (hh : (s.ch n).rake.wHit = true) : s.waitEnd n =
      s.setDecision n (s.walk n ((s.ch n).rake.pos + 1) (s.ch n).rake.loops (s.ch n).jump (s.cr n chRakeCnt) { next := .stop 1 }) :=
  if_pos ⟨hr, hn, ho, hh⟩

theorem State.waitTimeout_stops {s : State} {n : Nat} (hr : (s.ch n).rake.st = .waiting) (hn : (s.ch n).rake.next = none) (ho : s.own n = true)
    (hh : (s.ch n).rake.wHit = false) (hl : (s.ch n).rake.left ≤ 1) (ha : bitsOf (ew (s.ch n).rake.wait 0) 9 7 = 2) :
    s.waitTimeout n = s.setDecision n { next := .stop 5, loops := (s.ch n).rake.loops } := by
  have h9 : bitOf (ew (s.ch n).rake.wait 0) 9 = false := by
    rw [bitOf, decide_eq_false_iff_not]
    unfold bitsOf at ha
    omega
  have h87 : bitsOf (ew (s.ch n).rake.wait 0) 8 7 = 2 := by
    unfold bitsOf at ha ⊢
    omega
  unfold State.waitTimeout
  dsimp only
  rw [h87]
  exact if_pos ⟨hr, hn, ho, Bool.eq_false_iff.1 hh, Bool.eq_false_iff.1 h9, hl⟩

/-! Granules and repetitions. -/

theorem State.atGranEnd_of {s : State} {n : Nat} (hr : (s.ch n).rake.st = .running) (hw : s.wave n = true) (hn : (s.ch n).rake.next = none)
    (ho : s.own n = true) (hs : (s.ch n).rake.si = 63) : s.atGranEnd n = true := by
  simp only [State.atGranEnd, hr, hw, hn, ho, hs, decide_true, Bool.and_true]

theorem State.repNext_own {s : State} {n g : Nat} (hs : s.streamed n g = false)
    (hu : s.entryUE n (bitsOf (s.cr n chRakeSegtab) 21 0 + g) = false) (hb : (s.segGran n g 0).bad = none) (enter : Bool) (left : Nat) :
    s.repNext n g enter left = .rep g enter left (.own (s.segGran n g 0)) := by
  have hf : s.firstOf n g = .own (s.segGran n g 0) := if_neg (by rw [hs]; decide)
  unfold State.repNext
  dsimp only
  rw [if_neg (by rw [hu]; decide), hf]
  generalize s.segGran n g 0 = gr at hb
  obtain ⟨smp, bad⟩ := gr
  subst hb
  rfl

section
variable {s : State} {n : Nat} (he : s.atGranEnd n = true) (hj : (s.ch n).jump = false)
include he hj

theorem State.segEnd_last (hg : s.segLen n (s.ch n).rake.seg ≤ (s.ch n).rake.gi + 1)
    (hf : bitOf (ew (s.segDesc n (s.ch n).rake.seg) 0) 31 = false) (hl : (s.ch n).rake.repLeft ≤ 1)
    (hs : bitOf (ew (s.segDesc n (s.ch n).rake.seg) 0) 30 = true) : s.segEnd n = s.setDecision n { next := .stop 1, done := true } := by
  rw [State.segEnd]
  refine (if_pos ⟨he, hg⟩).trans ((if_neg (Bool.eq_false_iff.1 hj)).trans ((if_neg (Bool.eq_false_iff.1 hf)).trans ?_))
  exact (if_neg (Nat.not_lt.2 hl)).trans (if_pos hs)

theorem State.segEnd_again (hg : s.segLen n (s.ch n).rake.seg ≤ (s.ch n).rake.gi + 1)
    (hf : bitOf (ew (s.segDesc n (s.ch n).rake.seg) 0) 31 = false) (hl : 1 < (s.ch n).rake.repLeft) :
    s.segEnd n = s.setDecision n { next := s.repNext n (s.ch n).rake.seg false ((s.ch n).rake.repLeft - 1), done := true } := by
  rw [State.segEnd]
  exact (if_pos ⟨he, hg⟩).trans ((if_neg (Bool.eq_false_iff.1 hj)).trans ((if_neg (Bool.eq_false_iff.1 hf)).trans (if_pos hl)))

theorem State.granEnd_own (hg : (s.ch n).rake.gi + 1 < s.segLen n (s.ch n).rake.seg) (hs : s.streamed n (s.ch n).rake.seg = false)
    (hp : (s.ch n).rake.pre = none) :
    s.granEnd n = s.setDecision n { next := .gran (.own (s.segGran n (s.ch n).rake.seg ((s.ch n).rake.gi + 1))) } := by
  unfold State.granEnd
  dsimp only
  rw [hp]
  exact (if_pos ⟨he, hg⟩).trans ((if_neg fun h => by rw [hj] at h; exact Bool.false_ne_true h.1).trans (if_neg (Bool.eq_false_iff.1 hs)))

end

end Sys2Proof.Machine
namespace Sys2Proof.Proofs
open Sys2Proof.Machine

/-- Settles O11: each end names the decision that it stores. -/
theorem rakeBoundaries : Obligations.RakeBoundaries := by
  refine ⟨fun s n => ?_, fun s n => ?_⟩
  · intro c r w good goes
    refine ⟨fun hr hw hn ho hl hj hg => ?_, fun hr hn ho hh hg => ?_, fun hr hn ho hh hl ha => ?_⟩
    · obtain ⟨h1, h2, h3, h4, h5⟩ := hg
      exact congrArg Host.Outcome.next ((State.pointEnd_next hr hw hn ho hl hj).trans (State.setDecision_walk ⟨h1, h2, h3, h4, h5⟩ _ _ _ rfl))
    · obtain ⟨h1, h2, h3, h4, h5⟩ := hg
      exact congrArg Host.Outcome.next ((State.waitEnd_next hr hn ho hh).trans (State.setDecision_walk ⟨h1, h2, h3, h4, h5⟩ _ _ _ rfl))
    · exact congrArg Host.Outcome.next ((State.waitTimeout_stops hr hn ho hh hl ha).trans
        (State.setDecision_stored fun u => u.readFirst_stop n.val 5 rfl))
  · intro c r w0 goes hr hw hn ho hs hj
    have he := State.atGranEnd_of hr hw hn ho hs
    refine ⟨fun hg hf hl hst => ?_, fun hg hf hl hstr hu hb => ?_, fun hg hstr hp => ?_⟩
    · exact congrArg Host.Outcome.next ((State.segEnd_last he hj hg hf hl hst).trans
        (State.setDecision_stored fun u => u.readFirst_stop n.val 1 rfl))
    · refine congrArg Host.Outcome.next ((State.segEnd_again he hj hg hf hl).trans ?_)
      rw [State.repNext_own hstr hu hb]
      exact State.setDecision_stored fun u => u.readFirst_own n.val _ _ _ _ rfl
    · exact congrArg Host.Outcome.next ((State.granEnd_own he hj hg hstr hp).trans
        (State.setDecision_stored fun u => u.readFirst_gran n.val _ rfl))

end Sys2Proof.Proofs
end

section
/-! PROOFS. The streaming ring (R328 to R345). -/

namespace Sys2Proof.Machine

/-- What `State.strLow` changes. -/
theorem State.strLow_only (s : State) (n old cyc : Nat) : s.strLow n old cyc = s ∨ ∃ k, s.strLow n old cyc = { s.cflag n chStrFlags 2 with contribs := k } := by
  rw [State.strLow]
  dsimp only
  split
  · exact .inr (State.fireChAt_only _ _ _ _)
  · exact .inl rfl

/-- The low-water mark changes no register but the flags, no channel and no memory. -/
structure Lowed (s t : State) (n : Nat) : Prop where
  rg : ∀ o, o ≠ chOff n chStrFlags → t.rg o = s.rg o
  chans : t.chans = s.chans
  mem : t.mem = s.mem

theorem State.strLow_lowed (s : State) (n old cyc : Nat) : Lowed s (s.strLow n old cyc) n := by
  obtain e | ⟨k, e⟩ := s.strLow_only n old cyc
  · rw [e]; exact ⟨fun _ _ => rfl, rfl, rfl⟩
  · rw [e]; exact ⟨fun o h => State.flag_rg_ne s 2 h, State.flag_chans _ _ _, State.flag_mem _ _ _⟩

theorem Lowed.cr {s t : State} {n m q : Nat} (h : Lowed s t n) (hq : chOff m q ≠ chOff n chStrFlags) : t.cr m q = s.cr m q := h.rg _ hq

theorem wrapSub_self (a : Nat) : wrapSub a a = 0 := by unfold wrapSub; omega

/-- A flushed ring. -/
structure Flushed (s t : State) (n : Nat) : Prop where
  rptr : t.cr n chStrRptr = s.cr n chStrWptr
  wptr : t.cr n chStrWptr = s.cr n chStrWptr
  buf : (t.ch n).str.buf = none
  ch : ∀ m, m ≠ n → t.ch m = s.ch m
  byte : ∀ b, t.byte b = s.byte b

theorem State.strFlush_flushed (s : State) (n : Nat) : Flushed s (s.strFlush n) n := by
  rw [State.strFlush]
  generalize hu : (s.setCr n chStrRptr (s.cr n chStrWptr)).updCh n (fun c => { c with str := { c.str with pos := s.cr n chStrWptr, buf := none } }) = u
  have h := u.strLow_lowed n (s.strLevel n) u.wcyc
  have hcr (q : Nat) : u.cr n q = if q = chStrRptr then s.cr n chStrWptr % 4294967296 else s.cr n q := by
    rw [← hu, State.cr_updCh, State.cr_setCr]
  have hlt : s.cr n chStrWptr < 4294967296 := State.rg_lt s _
  refine ⟨?_, ?_, ?_, fun m hm => ?_, fun b => ?_⟩
  · rw [h.cr (by simp), hcr, if_pos rfl, Nat.mod_eq_of_lt hlt]
  · rw [h.cr (by simp), hcr, if_neg (by decide)]
  · rw [State.ch_congr h.chans, ← hu, State.ch_updCh_same]
  · rw [State.ch_congr h.chans, ← hu, State.ch_updCh_ne _ _ hm]
    rfl
  · rw [State.byte_congr h.mem, ← hu]
    rfl

theorem State.underrunResume_due {s : State} {n : Nat} (hr : (s.ch n).rake.st = .starved) (hn : (s.ch n).rake.next = none) (ho : s.own n = true)
    (hk : (s.ch n).rake.strOk = true) (hg : (s.ch n).rake.gapB < s.tick + s.srDiv n)
    (hp : (s.tick + s.srDiv n - (s.ch n).rake.gapB) % (64 * s.srDiv n) = 0) (hb : (s.ch n).str.buf.isSome = true) :
    s.underrunResume n = s.updCh n fun c => { c with rake := { c.rake with next := some { next := .resume } } } := by
  have hreads : s.rakeReads n { next := .resume } = s := by
    unfold State.rakeReads
    exact ite_self _
  have hring : s.ringRead n = s := if_pos (.inl hb)
  rw [State.underrunResume]
  refine (if_pos ⟨hr, hn, ho, hk, hg, hp⟩).trans ?_
  rw [State.setDecision, hreads]
  exact congrArg (State.updCh · n fun c => { c with rake := { c.rake with next := some { next := .resume } } }) hring

/-- The state in which the refill engine moves a granule from `a`: the DDR5 channel is awake and the granule has been read. -/
def State.refilling (s : State) (now a : Nat) : State := (State.ddrWake { s with refillAt := some now } a).unitRead a 256

/-- A granule that can be read leaves no error behind. -/
theorem State.unitRead_good {s : State} {a n : Nat} (h : s.ue a n = false) {o : Nat} : (s.unitRead a n).rg o = s.rg o := by
  have hb : (s.memUE.filter fun w => decide (codeword a ≤ w) && decide (w < a + n)) = [] := by
    refine List.filter_eq_nil_iff.2 fun w hw => ?_
    exact List.any_eq_false.1 h w hw
  rw [State.unitRead]
  dsimp only
  rw [if_pos hb]
  rfl

/-- What a granule that has been moved leaves. -/
structure Refilled (s t : State) (n src dst : Nat) : Prop where
  bytes : t.bytes dst 256 = s.bytes src 256
  rptr : t.cr n chStrRptr = wrapAdd (s.cr n chStrRptr) 1
  byte : ∀ b, b < dst ∨ dst + 256 ≤ b → t.byte b = s.byte b
  rg : ∀ o, o ∉ [chOff n chStrRptr, chOff n chStrFlags] ++ ddrRegs → t.rg o = s.rg o
  chans : t.chans = s.chans

/-- Where the next granule stands, and where it goes. -/
def State.refillSrc (s : State) (n : Nat) : Nat := ddrBase + s.dbase n chStrDbaseLo + 256 * (s.cr n chStrRptr % s.strSize n)
def State.refillDst (s : State) (n : Nat) : Nat := s.rakeAddr n (s.slotEntry n (s.cr n chStrRptr % s.rlen n))

theorem State.bytes_length (s : State) (a n : Nat) : (s.bytes a n).length = n := by
  simp only [State.bytes, tslice, List.length_map, List.length_range]

theorem State.refillMove_moves {s : State} {n cyc : Nat} (hn : s.refillNext = some n) (ha : ∀ at_, s.refillAt = some at_ → at_ + 16 ≤ s.at_ cyc)
    (hu : s.ue (s.refillSrc n) 256 = false) : Refilled s (s.refillMove n cyc) n (s.refillSrc n) (s.refillDst n) := by
  have hfree : (match s.refillAt with
    | none => true
    | some a => decide (a + 16 ≤ s.at_ cyc)) = true := by
    cases hr : s.refillAt with
    | none => rfl
    | some at_ => exact decide_eq_true (ha at_ hr)
  have hrk (q : Nat) : (s.refilling (s.at_ cyc) (s.refillSrc n)).rg q = (State.ddrWake { s with refillAt := some (s.at_ cyc) } (s.refillSrc n)).rg q :=
    State.unitRead_good (by rw [State.ue, State.ddrWake_memUE]; exact hu)
  have e : s.refillMove n cyc =
      (((s.refilling (s.at_ cyc) (s.refillSrc n)).store ((s.refilling (s.at_ cyc) (s.refillSrc n)).rakeAddr n
        ((s.refilling (s.at_ cyc) (s.refillSrc n)).slotEntry n (s.cr n chStrRptr % (s.refilling (s.at_ cyc) (s.refillSrc n)).rlen n)))
        ((s.refilling (s.at_ cyc) (s.refillSrc n)).bytes (s.refillSrc n) 256)).setCr n chStrRptr (wrapAdd (s.cr n chStrRptr) 1)).strLow
      n ((s.refilling (s.at_ cyc) (s.refillSrc n)).strLevel n) cyc := by
    rw [State.refillMove]
    refine (if_pos ⟨hn, hfree⟩).trans (if_neg ?_)
    rw [State.ue, State.ddrWake_memUE]
    exact Bool.eq_false_iff.1 hu
  generalize hv : s.refilling (s.at_ cyc) (s.refillSrc n) = v at e hrk
  have hrg {o : Nat} (h : o ∉ ddrRegs) : v.rg o = s.rg o := by
    rw [hrk]
    exact State.ddrWake_rg _ _ h
  have hcr (q : Nat) : v.cr n q = s.cr n q := hrg fun h => chOff_not_mem_memRegs n q (List.mem_append_left _ h)
  have hmem : v.mem = s.mem := by rw [← hv, State.refilling, State.unitRead_mem, State.ddrWake_mem]
  have hchans : v.chans = s.chans := by rw [← hv, State.refilling, State.unitRead_chans, State.ddrWake_chans]
  have hlen : (v.bytes (s.refillSrc n) 256).length = 256 := v.bytes_length _ _
  have hsrc : v.bytes (s.refillSrc n) 256 = s.bytes (s.refillSrc n) 256 := by rw [State.bytes, State.bytes, hmem]
  have hdst : v.rakeAddr n (v.slotEntry n (s.cr n chStrRptr % v.rlen n)) = s.refillDst n := by
    rw [State.refillDst, State.rakeAddr, State.rakeAddr, State.slotEntry, State.slotEntry, State.rlen, State.rlen, hcr, hcr, hcr]
  rw [hdst] at e
  generalize hw : (v.store (s.refillDst n) (v.bytes (s.refillSrc n) 256)).setCr n chStrRptr (wrapAdd (s.cr n chStrRptr) 1) = w at e
  have hwmem : w.mem = (v.store (s.refillDst n) (v.bytes (s.refillSrc n) 256)).mem := by rw [← hw]; rfl
  have h := w.strLow_lowed n (v.strLevel n) cyc
  rw [e]
  refine ⟨?_, ?_, fun b hb => ?_, fun o ho => ?_, ?_⟩
  · have hput := v.store_bytes (s.refillDst n) (v.bytes (s.refillSrc n) 256)
    rw [hlen, hsrc] at hput
    rw [State.bytes, h.mem, hwmem, hsrc]
    exact hput
  · rw [h.cr (by simp), ← hw, State.cr_setCr, if_pos rfl]
    unfold wrapAdd
    omega
  · rw [State.byte_congr h.mem, State.byte_congr hwmem, v.store_byte_out _ _ _ (by rw [hlen]; exact hb)]
    exact State.byte_congr hmem b
  · simp only [List.cons_append, List.nil_append, List.mem_cons, not_or] at ho
    obtain ⟨h1, h2, h3⟩ := ho
    rw [h.rg o h2, ← hw, State.rg_setCr_ne _ _ h1, v.store_rg _ _ _ fun e => h3 (by rw [e]; exact List.mem_cons_self)]
    exact hrg h3
  · rw [h.chans, ← hw, State.setCr, State.setRg]
    exact (State.store_chans _ _ _).trans hchans

end Sys2Proof.Machine
namespace Sys2Proof.Proofs
open Sys2Proof.Machine

/-- Settles O12: the commands are one write each; a granule moves as one read and one store. -/
theorem streamRing : Obligations.StreamRing := by
  refine ⟨fun s a n v => ?_, fun u n cyc => ?_⟩
  · intro o d r
    refine ⟨fun h hi => ?_, fun h hi => ?_, fun h hs => ?_, fun h hs => ?_, fun h => ?_, fun hr hn ho hk hg hp hb => ?_⟩
    · change execStrWptrWrite a n v s = _
      exact (State.mayWrite_next h _ _).trans (congrArg Host.Outcome.next (if_pos hi))
    · change execStrWptrWrite a n v s = _
      exact (State.mayWrite_next h _ _).trans (congrArg Host.Outcome.next (if_neg (Nat.not_le.2 hi)))
    · have e : exec (.flush a n) s = .next (s.strFlush n.val) := by
        change execFlush a n s = _
        exact (State.mayWrite_next h _ _).trans (congrArg Host.Outcome.next (if_pos hs))
      have hf := s.strFlush_flushed n.val
      refine ⟨_, e, hf.rptr, ?_, hf.buf, hf.ch, hf.byte⟩
      rw [State.strLevel, hf.wptr, hf.rptr, wrapSub_self]
    · change execFlush a n s = _
      exact (State.mayWrite_next h _ _).trans (congrArg Host.Outcome.next (if_neg hs))
    · change execRetry a n s = _
      exact State.mayWrite_next h _ _
    · exact congrArg Host.Outcome.next (State.underrunResume_due hr hn ho hk hg hp hb)
  · intro s g src dst hn ha hu
    have h := State.refillMove_moves hn ha hu
    exact ⟨_, rfl, h.bytes, h.rptr, h.byte, h.rg, fun m _ => State.ch_congr h.chans m⟩

end Sys2Proof.Proofs
end

section
/-! PROOFS. Arming, configuration and pins of the Bramble (R537, R558 to R567). -/

namespace Sys2Proof.Machine

/-! The armed bits. -/

/-- Channel `c` has its armed bit at `b`, and nothing else of `s` is changed. -/
structure ArmedIs (s t : State) (c : Nat) (b : Bool) : Prop where
  self : t.armed c = b
  other : ∀ j, j < 128 → j ≠ c → t.armed j = s.armed j
  rg : ∀ o, o ≠ brmOff (brmArmed + 4 * (c / 32)) → t.rg o = s.rg o
  chans : t.chans = s.chans
  mem : t.mem = s.mem

theorem State.setArmed_armed (s : State) (c : Nat) (b : Bool) : ArmedIs s (s.setArmed c b) c b := by
  have hlt : c % 32 < 32 := Nat.mod_lt _ (by decide)
  have hrg : (s.setArmed c b).rg (brmOff (brmArmed + 4 * (c / 32))) = putBit (s.rg (brmOff (brmArmed + 4 * (c / 32)))) (c % 32) b := by
    rw [State.setArmed, State.rg_setRg_same, Nat.mod_eq_of_lt (putBit_lt b (s.rg_lt _) hlt)]
  have hoff (j : Nat) : 0xB0000 + brmArmed + 4 * (j / 32) = brmOff (brmArmed + 4 * (j / 32)) := Nat.add_assoc _ _ _
  refine ⟨?_, fun j hj hne => ?_, fun o ho => State.rg_setRg_ne _ _ ho, rfl, rfl⟩
  · rw [State.armed, hoff, hrg, bitOf_putBit, if_pos rfl]
  · by_cases hw : j / 32 = c / 32
    · rw [State.armed, State.armed, hw, hoff, hrg, bitOf_putBit, if_neg (by omega)]
    · rw [State.armed, State.armed]
      refine congrArg (bitOf · _) (State.rg_setRg_ne _ _ ?_)
      rw [hoff]
      unfold brmOff
      omega

theorem State.evcArmCmd_arms {s : State} {c : Nat} {r : Req} (ho : s.catchUp.evcOwner c = reqCode r)
    (hs : s.catchUp.secEvc c = false ∨ s.catchUp.committed 65 = true) : s.evcArmCmd c r = s.catchUp.setArmed c true := by
  refine (if_neg (not_not.2 ho)).trans (if_neg ?_)
  rintro ⟨h1, h2⟩
  obtain h | h := hs
  · rw [h] at h1; exact Bool.false_ne_true h1
  · exact h2 h

theorem State.evcArmCmd_locked {s : State} {c : Nat} {r : Req} (ho : s.catchUp.evcOwner c = reqCode r)
    (hs : s.catchUp.secEvc c = true) (hc : s.catchUp.committed 65 = false) : s.evcArmCmd c r = s.catchUp.flag (brmOff brmSts) 2 :=
  (if_neg (not_not.2 ho)).trans (if_pos ⟨hs, Bool.eq_false_iff.1 hc⟩)

/-! Configuration. -/

/-- A value of a slot's register that is ignored. -/
def slotBad (slot w : Nat) : Bool := if slot = 8 then cfgBad w else prodBad w

theorem slotBad_iff (slot w : Nat) : slotBad slot w = true ↔
    if slot = 8 then 10 ≤ bitsOf w 3 0 ∨ bitsOf w 13 6 = 0 else ∀ m, instMax (bitsOf w 7 0) = some m → m < bitsOf w 14 8 := by
  rw [slotBad]
  split
  · rw [cfgBad, Bool.or_eq_true, decide_eq_true_eq, decide_eq_true_eq]
  · rw [prodBad]
    cases instMax (bitsOf w 7 0) with
    | none => exact ⟨fun _ m h => (nomatch h), fun _ => rfl⟩
    | some m =>
      rw [decide_eq_true_eq]
      exact ⟨fun h m' e => Option.some.inj e ▸ h, fun h => h m rfl⟩

/-- The channel or the value places the register in the secure set. -/
def State.inSecure (s : State) (c slot w : Nat) : Bool := s.secEvc c || (decide (slot = 8) && bitOf w 4)

theorem State.inSecure_no {s : State} {c slot w : Nat} (h : s.secEvc c = false) (h4 : slot = 8 → bitOf w 4 = false) :
    s.inSecure c slot w = false := by
  rw [State.inSecure, h, Bool.false_or, Bool.and_eq_false_iff, decide_eq_false_iff_not]
  by_cases h8 : slot = 8
  · exact .inr (h4 h8)
  · exact .inl h8

theorem State.evcPut_eq (s : State) (c slot w : Nat) : s.evcPut c slot w =
    if s.catchUp.armed c = true ∨ (s.catchUp.inSecure c slot w = true ∧ s.catchUp.setOpen 65 = false) then s.catchUp.flag (brmOff brmSts) 2
    else if slotBad slot w then s.catchUp.flag (brmOff brmSts) 1
    else s.catchUp.brmPut (slotOff c slot) w (s.catchUp.inSecure c slot w) := rfl

theorem State.brmPut_plain (s : State) (o w : Nat) : s.brmPut o w false = (s.setRg o w).setSh o w := if_pos Bool.false_ne_true

theorem State.evcPut_locked {s : State} {c slot w : Nat} (hs : s.catchUp.secEvc c = true) (ho : s.catchUp.setOpen 65 = false) :
    s.evcPut c slot w = s.catchUp.flag (brmOff brmSts) 2 := by
  rw [State.evcPut_eq]
  refine if_pos (.inr ⟨?_, ho⟩)
  rw [State.inSecure, hs, Bool.true_or]

theorem State.evcPut_outside {s : State} {c slot w : Nat} (ha : s.catchUp.armed c = false) (hs : s.catchUp.secEvc c = false)
    (h4 : slot = 8 → bitOf w 4 = false) : s.evcPut c slot w =
    if slotBad slot w then s.catchUp.flag (brmOff brmSts) 1 else (s.catchUp.setRg (slotOff c slot) w).setSh (slotOff c slot) w := by
  rw [State.evcPut_eq, State.inSecure_no hs h4, State.brmPut_plain]
  refine if_neg ?_
  rw [ha]
  rintro (h | h)
  · exact Bool.false_ne_true h
  · exact Bool.false_ne_true h.1

theorem State.evcWrite_masked (s : State) (c slot : Nat) {v : Nat} (h : v < 65536) : s.evcWrite c slot v = s :=
  if_pos (Nat.div_eq_of_lt h)
theorem State.evcWrite_put (s : State) (c slot : Nat) {v : Nat} (h : 65536 ≤ v) : s.evcWrite c slot v =
    s.evcPut c slot (ctlNew (s.sh (slotOff c slot)) v (if slot = 8 then 0x3FFF else 0xFFFF)) := if_neg (by omega)
theorem State.subWrite_masked (s : State) (i : Nat) {v : Nat} (h : v < 65536) : s.subWrite i v = s := if_pos (Nat.div_eq_of_lt h)
theorem State.subWrite_put (s : State) (i : Nat) {v : Nat} (h : 65536 ≤ v) :
    s.subWrite i v = s.subPut i (ctlNew (s.sh (subOff i)) v 0xFF) := if_neg (by omega)

/-- The subscription `w` names a channel of the secure set. -/
def State.subNamed (s : State) (w : Nat) : Bool := match subEvc w with
  | some c => s.secEvc c
  | none => false

theorem State.subNamed_no {s : State} {w : Nat} (h : ∀ c, subEvc w = some c → s.secEvc c = false) : s.subNamed w = false := by
  unfold State.subNamed
  cases he : subEvc w with
  | none => rfl
  | some c => exact h c he

theorem State.subPut_eq (s : State) (i w : Nat) :
    s.subPut i w = s.catchUp.brmPut (subOff i) w (s.catchUp.secSub i || s.catchUp.subNamed w) := rfl

theorem State.subPut_outside {s : State} {i w : Nat} (hs : s.catchUp.secSub i = false) (hn : ∀ c, subEvc w = some c → s.catchUp.secEvc c = false) :
    s.subPut i w = (s.catchUp.setRg (subOff i) w).setSh (subOff i) w := by
  rw [State.subPut_eq, hs, State.subNamed_no hn]
  exact State.brmPut_plain _ _ _

theorem State.subPut_locked {s : State} {i w : Nat} (hs : s.catchUp.secSub i = true) (ho : s.catchUp.setOpen 65 = false) :
    s.subPut i w = s.catchUp.flag (brmOff brmSts) 2 := by
  rw [State.subPut_eq, hs, Bool.true_or]
  exact (if_neg (not_not.2 rfl)).trans (if_neg (Bool.eq_false_iff.1 ho))

/-! Pins. -/

theorem State.trigEdge_same {s : State} {p : Nat} {level : Bool} (h : (s.pin p).level = level) (cyc : Nat) : s.trigEdge p level cyc = s := if_pos h

theorem State.trigEdge_moves {s : State} {p : Nat} {level : Bool} (h : (s.pin p).level ≠ level) (cyc : Nat) : s.trigEdge p level cyc =
    if bitsOf (s.pinCfg p) 1 0 = 1 ∧ edgeSel (bitsOf (s.pinCfg p) 3 2) level = true then
      (s.setPin p { s.pin p with level := level }).fireAt 3 p (s.at_ cyc) none
    else s.setPin p { s.pin p with level := level } := if_neg h

theorem State.trigEnd_eq {s : State} {p k : Nat} (h : (s.pin p).till = some k) : s.trigEnd p =
    if k ≤ s.at_ 49 then s.setPin p { s.pin p with out := bitOf (s.pinCfg p) 6, till := none } else s := by
  unfold State.trigEnd
  dsimp only
  rw [h]

end Sys2Proof.Machine
namespace Sys2Proof.Proofs
open Sys2Proof.Machine

/-- Settles O19: each clause is one branch of the register's write, the pin's edge or the pulse's end. -/
theorem brambleConfiguration : Obligations.BrambleConfiguration := by
  have next {s : State} {a : Acc} {o v : Nat} {eff : State → State} {t : State} (h : s.regCause a o true v = none) (e : eff s = t) :
      s.viaReg a o v eff = .next t := (State.viaReg_next eff h).trans (congrArg Host.Outcome.next e)
  refine ⟨fun s a c => ?_, fun s a v => ⟨fun c slot h => ?_, fun i h => ?_⟩, fun s p level cyc => ?_⟩
  · intro u armedIs
    have harmed (b : Bool) : armedIs (u.setArmed c.val b) b := by
      have h := u.setArmed_armed c.val b
      exact ⟨h.self, h.other, h.rg, fun n => State.ch_congr h.chans n, fun x => State.byte_congr h.mem x⟩
    have arm {t : State} (h : s.regCause a (evcOff c.val evcCtl) true 0x10001 = none) (e : s.evcArmCmd c.val a.req = t) :
        exec (.evcArm a c) s = .next t := next (eff := (·.evcArmCmd c.val a.req)) h e
    have disarm {t : State} (h : s.regCause a (evcOff c.val evcCtl) true 0x20002 = none) (e : s.evcDisarmCmd c.val a = t) :
        exec (.evcDisarm a c) s = .next t := next (eff := (·.evcDisarmCmd c.val a)) h e
    refine ⟨fun h => ⟨fun ho => arm h (if_pos ho), fun ho hs hc => arm h (State.evcArmCmd_locked ho hs hc),
      fun ho hs => ⟨_, arm h (State.evcArmCmd_arms ho hs), harmed true⟩⟩,
      fun h => ⟨fun ho => ⟨_, disarm h (if_pos ho), harmed false⟩, fun ho hv => disarm h (if_neg ?_)⟩⟩
    rintro (h1 | h1)
    · exact ho h1
    · exact hv h1
  · intro o w bad
    have write {t : State} (e : s.evcWrite c.val slot.val v.toNat = t) : exec (.evcConfigWrite a c slot v) s = .next t :=
      next (eff := (·.evcWrite c.val slot.val v.toNat)) h e
    have put {t : State} (hv : 65536 ≤ v.toNat) (e : s.evcPut c.val slot.val w = t) : exec (.evcConfigWrite a c slot v) s = .next t :=
      write ((s.evcWrite_put _ _ hv).trans e)
    refine ⟨fun hv => write (s.evcWrite_masked _ _ hv), fun hv => ⟨fun ha => put hv (if_pos (.inl ha)), fun ha hs h4 hb => put hv ?_,
      fun ha hs h4 hb => put hv ?_, fun ha hs ho => put hv (State.evcPut_locked hs ho)⟩⟩
    · exact (State.evcPut_outside ha hs h4).trans (if_pos ((slotBad_iff _ _).2 hb))
    · exact (State.evcPut_outside ha hs h4).trans (if_neg fun h => hb ((slotBad_iff _ _).1 h))
  · intro w
    have write {t : State} (e : s.subWrite i.val v.toNat = t) : exec (.subscriptionWrite a i v) s = .next t :=
      next (eff := (·.subWrite i.val v.toNat)) h e
    exact ⟨fun hv => write (s.subWrite_masked _ hv), fun hv hs hn => write ((s.subWrite_put _ hv).trans (State.subPut_outside hs hn)),
      fun hv hs ho => write ((s.subWrite_put _ hv).trans (State.subPut_locked hs ho))⟩
  · intro w v moved
    refine ⟨fun h => ?_, fun h hm he => ?_, fun h hm => ?_, fun k hk hd => ?_, fun k hk hd => ?_⟩
    · exact congrArg (fun t : State => Host.Outcome.next (t.passed cyc.val)) (State.trigEdge_same h cyc.val)
    · exact congrArg (fun t : State => Host.Outcome.next (t.passed cyc.val)) ((State.trigEdge_moves h cyc.val).trans (if_pos ⟨hm, he⟩))
    · refine congrArg (fun t : State => Host.Outcome.next (t.passed cyc.val)) ((State.trigEdge_moves h cyc.val).trans (if_neg ?_))
      rintro ⟨h1, h2⟩
      obtain h' | h' := hm
      · exact h' h1
      · rw [h'] at h2; exact Bool.false_ne_true h2
    · exact congrArg Host.Outcome.next ((State.trigEnd_eq hk).trans (if_pos hd))
    · exact congrArg Host.Outcome.next ((State.trigEnd_eq hk).trans (if_neg (Nat.not_le.2 hd)))

end Sys2Proof.Proofs
end

section
/-! PROOFS. Events passed by their channels, software fires and the core interrupt tasks (R537 to R555). -/

namespace Sys2Proof.Machine

/-! One cycle. -/

/-- The run that `State.inCycle` gives to what acts. -/
def State.cycleRun (s : State) (k : Nat) : Option (List Nat) :=
  if s.seqRun.isSome then s.seqRun
  else some (match s.seqAt with
    | some (j, l) => if j = k then l else []
    | none => [])

/-- The state that has that run. -/
def State.running_ (s : State) (k : Nat) : State := { s with seqRun := s.cycleRun k }

/-- Outside its SEQ bookkeeping a cycle is what acts in it. -/
theorem State.inCycle_only (s : State) (k : Nat) (f : State → State) :
    ∃ q a, s.inCycle k f = { f (s.running_ k) with seqRun := q, seqAt := a } := by
  by_cases h : s.seqRun.isSome
  · refine ⟨(f s).seqRun, (f s).seqAt, ?_⟩
    have hs : s.running_ k = s := by rw [State.running_, State.cycleRun, if_pos h]
    rw [hs]
    exact if_pos h
  · have hs : s.running_ k = { s with seqRun := some (match s.seqAt with
        | some (j, l) => if j = k then l else []
        | none => []) } := by rw [State.running_, State.cycleRun, if_neg h]
    exact ⟨none, some (k, (f (s.running_ k)).seqRun.getD []), by rw [hs]; exact if_neg h⟩

/-! Events. -/

/-- What the event of a channel changes: registers of a list; no contribution waits any more. -/
structure Evented (s t : State) (os : List Nat) : Prop where
  rg : ∀ o, o ∉ os → t.rg o = s.rg o
  contribs : t.contribs = []
  chans : t.chans = s.chans
  mem : t.mem = s.mem

/-- What follows in cycle `k` of channel `c` once the contributions that survive are known. -/
def State.evcAfter (c k : Nat) (p : State × List Contrib) : State :=
  match p.2 with
  | [] => p.1
  | x :: r =>
    match (tget (fun _ => none) p.1.evcLast c).filter fun p => p.cyc = k + 1 with
    | some q =>
      if q.twice then p.1
      else State.count { p.1 with evcLast := tput (fun _ => none) p.1.evcLast c (some { q with twice := true }) } (evcOff c evcCoincide)
    | none =>
      let s := p.1.countWrap (evcOff c evcEvcnt)
      let s := if r = [] then s else s.count (evcOff c evcCoincide)
      let tag := x.tag.getD c
      let s := { s with evcLast := tput (fun _ => none) s.evcLast c (some ⟨k + 1, !r.isEmpty⟩) }
      s.fireTasks (k + 1) (some tag) (s.listeners c)

section
variable {s : State} {c k j : Nat} {g : Option Nat} (hc : s.contribs = [{ evc := c, cyc := k, slot := j, tag := g }])
include hc

theorem State.evcCyc_one : s.evcCyc c = some k := by
  rw [State.evcCyc, hc, List.foldl_cons, List.foldl_nil, if_neg (not_not.2 rfl)]

/-- The channel's one contribution has been taken. -/
theorem State.evcPass_one (hk : (k + 1) / 50 ≤ s.tick) : s.evcPass c =
    State.evcAfter c k (State.survive { s with contribs := [] } c (k / 50) [{ evc := c, cyc := k, slot := j, tag := g }]) := by
  unfold State.evcPass
  rw [State.evcCyc_one hc]
  dsimp only
  rw [if_neg (Nat.not_lt.2 hk), hc]
  simp only [List.filter_cons, List.filter_nil, decide_true, Bool.and_true, if_true, Bool.not_true, Bool.false_eq_true, if_false,
    sortSlots, insertSlot]
  rfl

end

/-- What acts in a channel's cycle, and the strobes that follow. -/
def State.evcBody (s : State) (c k : Nat) : State :=
  if (s.evcAct c k).contribs.any fun x => decide (x.cyc = k) then s.evcAct c k else (s.evcAct c k).updFlush (k + 1)

/-- A cycle in which a channel's one contribution acts, and in which no strobe is due. -/
theorem State.evcStep_one {s t : State} {c k j : Nat} {g : Option Nat} (hc : s.contribs = [{ evc := c, cyc := k, slot := j, tag := g }])
    (hlt : c < directEvc) (ht : (s.running_ (k + 1)).evcPass c = t) (hn : t.contribs = []) (hu : t.updDue = []) :
    ∃ q a, s.evcStep c = { t with seqRun := q, seqAt := a } := by
  obtain ⟨q, a, e⟩ := s.inCycle_only (k + 1) (·.evcBody c k)
  have hbody : (s.running_ (k + 1)).evcBody c k = t := by
    have hact : (s.running_ (k + 1)).evcAct c k = t := (if_pos hlt).trans ht
    rw [State.evcBody, hact, hn]
    exact if_pos hu
  have hstep : s.evcStep c = s.inCycle (k + 1) (·.evcBody c k) := by
    rw [State.evcStep, State.evcCyc_one hc]
    exact if_neg (Nat.ne_of_lt (Nat.lt_trans hlt (by decide)))
  refine ⟨q, a, hstep.trans (e.trans ?_)⟩
  rw [hbody]

/-- A contribution without the channel's own tag survives. -/
theorem State.survive_other {c : Nat} (s : State) (tick k j : Nat) {g : Option Nat} (hg : g ≠ some c) :
    s.survive c tick [{ evc := c, cyc := k, slot := j, tag := g }] = (s, [{ evc := c, cyc := k, slot := j, tag := g }]) := by
  have hd : s.loopDrop c tick g = (s, false) := if_pos hg
  rw [State.survive, hd]
  rfl

/-- A re-entry without LOOP_EN drops. -/
theorem State.survive_own {s : State} {c : Nat} (h5 : bitOf (s.rg (evcOff c evcCfg)) 5 = false) (tick k j : Nat) :
    s.survive c tick [{ evc := c, cyc := k, slot := j, tag := some c }] = ((s.flag (evcOff c evcSts) 1).count (evcOff c evcLoops), []) := by
  have hd : s.loopDrop c tick (some c) = ((s.flag (evcOff c evcSts) 1).count (evcOff c evcLoops), true) := by
    refine (if_neg (not_not.2 rfl)).trans (if_neg ?_)
    rw [h5]
    exact fun h => Bool.false_ne_true h.1
  rw [State.survive, hd]
  rfl

theorem State.listeners_congr {s t : State} (h : ∀ i, t.rg (subOff i) = s.rg (subOff i)) (c : Nat) : t.listeners c = s.listeners c := by
  simp only [State.listeners, h]

theorem subOff_ne_evcOff {c r : Nat} (hc : c < 128) (hr : r < 0x40) (i : Nat) : subOff i ≠ evcOff c r := by
  unfold subOff brmSub evcOff
  omega

/-- A core interrupt task sets its bit. -/
structure Interrupted (s t : State) (i : Nat) : Prop where
  bit : bitOf (t.rg (coreOff (i / 8) coreBirq)) (i % 8) = true
  rg : ∀ o, o ≠ coreOff (i / 8) coreBirq → t.rg o = s.rg o
  contribs : t.contribs = s.contribs
  updDue : t.updDue = s.updDue
  chans : t.chans = s.chans
  mem : t.mem = s.mem

/-- The tasks from 632 on are those of the cores. -/
theorem State.taskDead_core (s : State) (i : Nat) : s.taskDead (632 + i) = s.isFenced (unCore (i / 8)) := by
  rw [State.taskDead, if_neg (by omega), if_neg (by omega), if_neg (by omega), if_neg (by omega), Nat.add_sub_cancel_left]

theorem State.taskAct_core (s : State) (i cyc : Nat) : s.taskAct (632 + i) cyc = s.flag (coreOff (i / 8) coreBirq) (2 ^ (i % 8)) := by
  unfold State.taskAct
  rw [if_neg (by omega), if_neg (by omega), if_neg (by omega), if_neg (by omega), if_neg (by omega), if_neg (by omega), if_neg (by omega),
    if_neg (by omega), if_neg (by omega), if_neg (by omega), if_neg (by omega), if_neg (by omega), Nat.add_sub_cancel_left]

/-- A core's task that has not fired in the cycle fires. -/
theorem State.fireTask_core {s : State} {i cyc : Nat} (hd : s.isFenced (unCore (i / 8)) = false)
    (hf : ∀ p ∈ tget (fun _ => []) s.fired (632 + i), p.1 ≠ cyc) (tag : Option Nat) : Interrupted s (s.fireTask (632 + i) cyc tag) i := by
  have hnone : (tget (fun _ => []) s.fired (632 + i)).find? (fun p => decide (p.1 = cyc)) = none :=
    List.find?_eq_none.2 fun p hp => by rw [decide_eq_true_eq]; exact hf p hp
  generalize hl : firedWith (tget (fun _ => []) s.fired (632 + i)) cyc (if tag.isSome then 1 else 2) = l
  have e : s.fireTask (632 + i) cyc tag = State.taskAct { s with fired := tput (fun _ => []) s.fired (632 + i) l } (632 + i) cyc := by
    rw [State.fireTask, if_neg (by rw [State.taskDead_core, hd]; decide)]
    dsimp only
    rw [hnone]
    dsimp only
    rw [if_neg (by omega), hl]
  rw [e, State.taskAct_core]
  have hlt : 2 ^ (i % 8) < 16777216 := Nat.lt_of_le_of_lt (Nat.pow_le_pow_right (by decide) (Nat.le_of_lt_succ (Nat.mod_lt i (by decide : 0 < 8)))) (by decide)
  have hbit : bitOf (2 ^ (i % 8)) (i % 8) = true := by rw [bitOf_eq_testBit, Nat.testBit_two_pow_self]
  refine ⟨?_, fun o ho => State.flag_rg_ne _ _ ho, State.flag_contribs _ _ _, State.flag_updDue _ _ _, State.flag_chans _ _ _, State.flag_mem _ _ _⟩
  rw [State.flag_bit _ _ _ _ hlt (Nat.lt_trans (Nat.mod_lt i (by decide : 0 < 8)) (by decide)), hbit, Bool.or_true]

/-- A core's task that an event has fired in the cycle merges with a direct fire. -/
theorem State.fireTask_merges {s : State} {i cyc : Nat} (hd : s.isFenced (unCore (i / 8)) = false)
    (hf : tget (fun _ => []) s.fired (632 + i) = [(cyc, 1)]) : ∃ l, s.fireTask (632 + i) cyc none =
      State.count { s with fired := l } (brmOff (brmMerge + 4 * (632 + i))) := by
  refine ⟨tput (fun _ => []) s.fired (632 + i) (firedWith (tget (fun _ => []) s.fired (632 + i)) cyc 3), ?_⟩
  have hsome : (tget (fun _ => []) s.fired (632 + i)).find? (fun p => decide (p.1 = cyc)) = some (cyc, 1) := by
    rw [hf, List.find?_cons_of_pos (by simp)]
  rw [State.fireTask, if_neg (by rw [State.taskDead_core, hd]; decide)]
  dsimp only
  rw [hsome]
  have htag : ¬ (632 + i < 128 ∧ (none : Option Nat).isSome = true) := by omega
  have hupd : ¬ (608 ≤ 632 + i ∧ 632 + i < 616) := by omega
  simp only [if_neg htag, if_neg hupd]
  rfl

section
variable {s : State} {c k j : Nat} {g : Option Nat} (hc : s.contribs = [{ evc := c, cyc := k, slot := j, tag := g }])
  (hk : (k + 1) / 50 ≤ s.tick)
include hc hk

/-- The first event of its cycle is counted, and the listeners fire. -/
theorem State.evcPass_fires (hlt : c < 128) (hg : g ≠ some c) (hl : ∀ p, tget (fun _ => none) s.evcLast c = some p → p.cyc ≠ k + 1) :
    ∃ l, s.evcPass c = State.fireTasks { State.countWrap { s with contribs := [] } (evcOff c evcEvcnt) with evcLast := l } (k + 1)
      (some (g.getD c)) (s.listeners c) := by
  have hlast : (tget (fun _ => none) s.evcLast c).filter (fun p => decide (p.cyc = k + 1)) = none := by
    cases h : tget (fun _ => none) s.evcLast c with
    | none => rfl
    | some p => exact Option.filter_some_neg (decide_eq_false (hl p h))
  refine ⟨tput (fun _ => none) s.evcLast c (some ⟨k + 1, false⟩), ?_⟩
  rw [State.evcPass_one hc hk, State.survive_other _ _ _ _ hg, State.evcAfter]
  dsimp only
  rw [hlast]
  refine congrArg (State.fireTasks _ (k + 1) (some (g.getD c))) (State.listeners_congr (fun i => ?_) c)
  exact State.rg_setRg_ne _ _ (subOff_ne_evcOff hlt (by decide) i)

/-- What comes late to a cycle whose event has passed coincides with it. -/
theorem State.evcPass_late (hg : g ≠ some c) (hl : tget (fun _ => none) s.evcLast c = some ⟨k + 1, false⟩) :
    ∃ l, s.evcPass c = State.count { s with contribs := [], evcLast := l } (evcOff c evcCoincide) := by
  have hlast : (tget (fun _ => none) s.evcLast c).filter (fun p => decide (p.cyc = k + 1)) = some ⟨k + 1, false⟩ := by
    rw [hl]; exact Option.filter_some_pos (by simp)
  refine ⟨tput (fun _ => none) s.evcLast c (some ⟨k + 1, true⟩), ?_⟩
  rw [State.evcPass_one hc hk, State.survive_other _ _ _ _ hg, State.evcAfter]
  dsimp only
  rw [hlast]
  rfl

end

/-- A re-entry that drops sets LOOP and is counted. -/
theorem State.evcPass_drops {s : State} {c k j : Nat} (hc : s.contribs = [{ evc := c, cyc := k, slot := j, tag := some c }])
    (hk : (k + 1) / 50 ≤ s.tick) (h5 : bitOf (s.rg (evcOff c evcCfg)) 5 = false) :
    s.evcPass c = (State.flag { s with contribs := [] } (evcOff c evcSts) 1).count (evcOff c evcLoops) := by
  rw [State.evcPass_one hc hk, State.survive_own (s := { s with contribs := [] }) h5, State.evcAfter]

/-! Software fires. -/

/-- A fire that acts in the cycle after the write, where nothing waits for earlier cycles. -/
def State.fireBody (s : State) (task c : Nat) : State := (s.fireTask task c none).updFlush c

theorem State.brmFireCmd_now {s : State} {task cyc : Nat} (ht : task < 696) (hc : cyc ≠ 49) (hw : s.waits (s.at_ cyc + 1) = false) :
    s.brmFireCmd task cyc = s.inCycle (s.at_ (cyc + 1)) (·.fireBody task (s.at_ (cyc + 1))) :=
  (if_neg (Nat.not_le.2 ht)).trans ((if_neg hc).trans (if_neg (Bool.eq_false_iff.1 hw)))

/-- Such a fire, where no strobe is due. -/
theorem State.brmFireCmd_only {s t : State} {task cyc z : Nat} (ht : task < 696) (hc : cyc ≠ 49) (hw : s.waits (s.at_ cyc + 1) = false)
    (hz : s.at_ (cyc + 1) = z) (he : (s.running_ z).fireTask task z none = t) (hu : t.updDue = []) :
    ∃ q a, s.brmFireCmd task cyc = { t with seqRun := q, seqAt := a } := by
  obtain ⟨q, a, e⟩ := s.inCycle_only z (·.fireBody task z)
  have hbody : (s.running_ z).fireBody task z = t := by
    rw [State.fireBody, he]
    exact if_pos hu
  subst hz
  refine ⟨q, a, (State.brmFireCmd_now ht hc hw).trans (e.trans ?_)⟩
  rw [hbody]

end Sys2Proof.Machine
namespace Sys2Proof.Proofs
open Sys2Proof.Machine

/-- Settles O18: one contribution is counted, coincides or drops; one fire acts, merges or waits. -/
theorem eventsAndFires : Obligations.EventsAndFires := by
  have next {s : State} {a : Acc} {o v : Nat} {eff : State → State} {t : State} (h : s.regCause a o true v = none) (e : eff s = t) :
      s.viaReg a o v eff = .next t := (State.viaReg_next eff h).trans (congrArg Host.Outcome.next e)
  refine ⟨fun s0 c k j g hk => ?_, fun s a cyc => ⟨fun task h => ?_, fun c h => ?_⟩⟩
  · intro s hc hle hdue last same
    have hlt : c.val < directEvc := Nat.lt_trans c.isLt (by decide)
    have hexec : exec (.eventDispatch c) s0 = .next (s.evcStep c.val) := by
      refine congrArg Host.Outcome.next ?_
      rw [State.dispatchEvc, hk]
    clear_value s
    have done {t : State} (ht : (s.running_ (k + 1)).evcPass c.val = t) (hn : t.contribs = []) (hu : t.updDue = []) (hch : t.chans = s.chans)
        (hm : t.mem = s.mem) : ∃ u, exec (.eventDispatch c) s0 = .next u ∧ (∀ o, u.rg o = t.rg o) ∧ same u := by
      obtain ⟨q, x, e⟩ := State.evcStep_one hc hlt ht hn hu
      exact ⟨_, hexec.trans (congrArg Host.Outcome.next e), fun o => rfl, hn, fun n => State.ch_congr hch n, fun b => State.byte_congr hm b⟩
    refine ⟨fun hg hl hli => ?_, fun i hg hl hli hi hf hfi => ?_, fun hg hl => ?_, fun hg h5 => ?_⟩
    · obtain ⟨l, e⟩ := State.evcPass_fires (s := s.running_ (k + 1)) hc hle c.isLt hg hl
      rw [show (s.running_ (k + 1)).listeners c.val = [] from hli, State.fireTasks] at e
      obtain ⟨u, hu, hrg, hs⟩ := done e rfl hdue rfl rfl
      refine ⟨u, hu, (hrg _).trans (State.rg_countWrap_same _ _ _), fun o ho => (hrg o).trans (State.rg_countWrap_ne _ _ ho), hs⟩
    · obtain ⟨l, e⟩ := State.evcPass_fires (s := s.running_ (k + 1)) hc hle c.isLt hg hl
      rw [show (s.running_ (k + 1)).listeners c.val = [632 + i] from hli, State.fireTasks, State.fireTasks] at e
      have hint := State.fireTask_core (s := { State.countWrap { s.running_ (k + 1) with contribs := [] } (evcOff c.val evcEvcnt) with evcLast := l })
        (i := i) (cyc := k + 1) hf hfi (some (g.getD c.val))
      have hoff : coreOff (i / 8) coreBirq ≠ evcOff c.val evcEvcnt := by
        unfold coreOff coreBirq evcOff evcEvcnt
        omega
      obtain ⟨u, hu, hrg, hs⟩ := done e hint.contribs (hint.updDue.trans hdue) hint.chans hint.mem
      refine ⟨u, hu, by rw [hrg]; exact hint.bit, ?_, fun o ho => ?_, hs⟩
      · rw [hrg, hint.rg _ (Ne.symm hoff)]
        exact State.rg_countWrap_same _ _ _
      · rw [List.mem_cons, List.mem_singleton, not_or] at ho
        rw [hrg, hint.rg _ ho.1]
        exact State.rg_countWrap_ne _ _ ho.2
    · obtain ⟨l, e⟩ := State.evcPass_late (s := s.running_ (k + 1)) hc hle hg hl
      obtain ⟨u, hu, hrg, hs⟩ := done e rfl hdue rfl rfl
      exact ⟨u, hu, (hrg _).trans (State.rg_count_same _ _ _), fun o ho => (hrg o).trans (State.rg_count_ne _ _ ho), hs⟩
    · subst hg
      have e := State.evcPass_drops (s := s.running_ (k + 1)) hc hle h5
      have hne : evcOff c.val evcSts ≠ evcOff c.val evcLoops := by unfold evcOff evcSts evcLoops; omega
      obtain ⟨u, hu, hrg, hs⟩ := done e (State.flag_contribs _ _ _) ((State.flag_updDue _ _ _).trans hdue) (State.flag_chans _ _ _) (State.flag_mem _ _ _)
      refine ⟨u, hu, ?_, ?_, fun o ho => ?_, hs⟩
      · rw [hrg, State.rg_count_ne _ _ hne, State.flag_bit _ _ _ _ (by decide) (by decide)]
        exact Bool.or_true _
      · rw [hrg, State.rg_count_same, State.flag_rg_ne _ _ (Ne.symm hne)]
        rfl
      · rw [List.mem_cons, List.mem_singleton, not_or] at ho
        rw [hrg, State.rg_count_ne _ _ ho.2, State.flag_rg_ne _ _ ho.1]
        rfl
  · intro u at_ fired
    have fire {t : State} (e : (u.brmFireCmd task.toNat cyc.val).passed cyc.val = t) : exec (.brmFire a task cyc) s = .next t :=
      next (eff := fun s => ((s.setRg (brmOff brmFire) task.toNat).brmFireCmd task.toNat cyc.val).passed cyc.val) h e
    have hpass (t : State) := congrArg (State.passed · cyc.val) (a₁ := u.brmFireCmd task.toNat cyc.val) (a₂ := t)
    refine ⟨fun ht => fire (hpass _ (if_pos ht)), fun ht hc => fire ?_, fun ht hc hw => fire (hpass _ (State.brmFireCmd_now ht hc hw)),
      fun ht6 ht hc hw hdue hf => ?_⟩
    · rw [hc]
      exact congrArg (State.passed · 49) ((if_neg (Nat.not_le.2 ht)).trans (if_pos rfl))
    · obtain ⟨i, hi⟩ : ∃ i, task.toNat = 632 + i := ⟨task.toNat - 632, by omega⟩
      have hsub : task.toNat - 632 = i := by omega
      have hoff {o : Nat} (ho : o ≠ brmOff brmFire) : u.rg o = s.rg o := State.rg_setRg_ne _ _ ho
      rw [hsub] at hf ⊢
      refine ⟨fun hfi => ?_, fun hfi => ?_⟩
      · have hint := State.fireTask_core (s := u.running_ at_) (i := i) (cyc := at_) hf (by rw [← hi]; exact hfi) none
        obtain ⟨q, x, e⟩ := State.brmFireCmd_only (s := u) ht hc hw (z := at_) rfl (by rw [hi]) (hint.updDue.trans hdue)
        refine ⟨_, fire (hpass _ e), hint.bit, fun o ho => ?_, fun n => State.ch_congr hint.chans n, fun b => State.byte_congr hint.mem b⟩
        rw [List.mem_cons, List.mem_singleton, not_or] at ho
        exact (hint.rg o ho.2).trans (hoff ho.1)
      · obtain ⟨l, el⟩ := State.fireTask_merges (s := u.running_ at_) (i := i) (cyc := at_) hf (by rw [← hi]; exact hfi)
        rw [← hi] at el
        obtain ⟨q, x, e⟩ := State.brmFireCmd_only (s := u) ht hc hw (z := at_) rfl el hdue
        refine ⟨_, fire (hpass _ e), (State.rg_count_same _ _ _).trans (congrArg (holdAdd · 1) (hoff ?_)), fun o ho => ?_, fun n => rfl, fun b => rfl⟩
        · unfold brmOff brmMerge brmFire
          omega
        · rw [List.mem_cons, List.mem_singleton, not_or] at ho
          exact (State.rg_count_ne _ _ ho.2).trans (hoff ho.1)
  · have fire {t : State} (e : s.swFireCmd c.val cyc.val = t) : exec (.swfire a c cyc) s = .next (t.passed cyc.val) :=
      next (eff := fun s => (s.swFireCmd c.val cyc.val).passed cyc.val) h (congrArg (State.passed · cyc.val) e)
    exact ⟨fun ha => fire (if_pos ha), fun ha => fire (if_neg (Bool.eq_false_iff.1 ha))⟩

end Sys2Proof.Proofs
end

section
/-! PROOFS. A clamp trip that fences a channel in the middle of a calibration step (R518, R586, R591). -/

namespace Sys2Proof.Machine

/-- Channel 0 is ARMED with a clamp comparator, and its tile measures it; the channel's frame has FENCE in every
reaction, and the tile's frame CHIPRST. -/
def tripInStep : State := { State.reset with
  running := true, held := 0
  chans := [(0, { state := .armed, outEn := true, rngP := 0, comp := { driven := true } })]
  regs := [(cmpOff 0 cmpClamp, 1), (fltOff (frCh 0) fltReact, 0x05050505), (fltOff (frTile 0) fltReact, 0x08080808)]
  tiles := [(0, { cal := { st := .measure, step := 2 } })] }

/-- CAL_REJECT of the step that the fence ends resets the device. -/
theorem tripInStep_resets : (tripInStep.clampTrip 0 0 (-5000000)).chans = [] := by decide +kernel

end Sys2Proof.Machine
namespace Sys2Proof.Proofs
open Sys2Proof.Machine

/-- Refutes O23: the trip's fence ends the tile's step, whose CAL_REJECT takes the reactions of the tile's own frame; with CHIPRST there
the device is reset, and the channel is OFF. The statement asks the reactions of the channel's frame only. -/
theorem not_faultReactions : ¬ Obligations.FaultReactions := by
  intro h
  obtain ⟨t, he, hst, -⟩ := (h.2 tripInStep rfl rfl).1 0 0 (BitVec.ofInt 32 (-5000000)) (by decide +kernel) (by decide) rfl rfl
    (by decide +kernel) (by decide) (by decide +kernel) (by decide +kernel)
  cases he
  change (State.ch (tripInStep.clampTrip 0 0 (-5000000)) 0).state = .fenced at hst
  rw [State.ch, tripInStep_resets] at hst
  exact absurd hst (by decide)

end Sys2Proof.Proofs
end

section
/-! PROOFS. Triggers of the precision scan converters (R430 to R445). -/

namespace Sys2Proof.Machine

/-! What happens first. -/

theorem State.pscRun_first {s : State} {m c kind : Nat} (h : s.pscFirst m c kind = none) (f : Nat) : State.pscRun f s m c kind = s := by
  cases f with
  | zero => rfl
  | succ f => rw [State.pscRun, h]

theorem State.pscHappenAt_first {s : State} {m kind c : Nat} (hw : s.pscWhen m kind = some c) (hc : c ≤ s.at_ 49)
    (hf : s.pscFirst m c kind = none) (x : Option PscData) : s.pscHappenAt m kind c x = s.pscDo m c kind x := by
  rw [State.pscHappenAt, if_neg (Nat.not_lt.2 hc), State.pscRun_first hf]
  exact if_pos hw

theorem State.pscHappen_first {s : State} {m kind c : Nat} (hw : s.pscWhen m kind = some c) (hc : c ≤ s.at_ 49)
    (hf : s.pscFirst m c kind = none) (x : Option PscData) : s.pscHappen m kind x = s.pscDo m c kind x := by
  have e : s.pscHappen m kind x = s.pscHappenAt m kind c x := by rw [State.pscHappen, hw]
  rw [e, State.pscHappenAt_first hw hc hf]

/-! Latching. -/

theorem State.pscLatchAt_taken {s : State} {m : Nat} (hs : (s.psc m).seq = true) (hu : s.pscUp m = true) (cyc : Nat) (e : PscEv) :
    s.pscLatchAt m cyc e = s.setPsc m { s.psc m with q := insertAt (·.1) (cyc, e) (s.psc m).q } := if_pos ⟨hs, hu⟩

theorem State.pscLatchAt_ignored {s : State} {m : Nat} (h : (s.psc m).seq = false ∨ s.pscUp m = false) (cyc : Nat) (e : PscEv) :
    s.pscLatchAt m cyc e = s := by
  refine if_neg ?_
  rintro ⟨h1, h2⟩
  obtain h | h := h
  · rw [h] at h1; exact Bool.false_ne_true h1
  · rw [h] at h2; exact Bool.false_ne_true h2

theorem State.pscInj_ignored {s : State} {m : Nat} (h : (s.psc m).seq = false ∨ s.pscUp m = false) (cyc : Nat) : s.pscInj m cyc = s := by
  rw [State.pscInj, State.pscLatchAt_ignored h]
  exact ite_self _

/-- A latched trigger of a converter of which something else has just been set. -/
theorem State.pscLatchAt_setPsc {s : State} {m : Nat} {p : Psc} (hs : p.seq = true) (hu : s.pscUp m = true) (cyc : Nat) (e : PscEv) :
    (s.setPsc m p).pscLatchAt m cyc e = s.setPsc m { p with q := insertAt (·.1) (cyc, e) p.q } := by
  have hp : (s.setPsc m p).psc m = p := (s.psc_setPsc m m p).trans (if_pos rfl)
  rw [State.pscLatchAt_taken (by rw [hp]; exact hs) (show (s.setPsc m p).pscUp m = true from hu), hp, State.setPsc_setPsc]

/-! The timer and PWM edges. -/

/-- The timer has started anew at modulator edge `c`. -/
def State.pscTimed (s : State) (m c : Nat) : Psc := { s.psc m with tmr := some (c + 32 * max 1 (s.pr m pscTmr)) }

section
variable {s : State} {m : Nat} (hs : (s.psc m).seq = true) (hu : s.pscUp m = true) (c : Nat)
include hs hu

theorem State.pscExpire_eq : s.pscExpire m c = if bitsOf (s.pr m pscTrig) 1 0 = 1 then (s.setPsc m (s.pscTimed m c)).pscLatch m c
    else if bitsOf (s.pr m pscTrig) 1 0 = 3 then
      if (s.psc m).gate then (s.setPsc m (s.pscTimed m c)).pscLost m 1
      else (s.setPsc m (s.pscTimed m c)).setPsc m { (s.setPsc m (s.pscTimed m c)).psc m with gate := true }
    else s.setPsc m (s.pscTimed m c) := by
  rw [State.pscExpire]
  exact if_neg (not_not.2 ⟨hs, hu⟩)

theorem State.pscExpire_triggers (h1 : bitsOf (s.pr m pscTrig) 1 0 = 1) :
    s.pscExpire m c = s.setPsc m { s.pscTimed m c with q := insertAt (·.1) (c, .reg) (s.psc m).q } := by
  rw [State.pscExpire_eq hs hu, if_pos h1]
  exact State.pscLatchAt_setPsc (p := s.pscTimed m c) hs hu c .reg

theorem State.pscExpire_opens (h3 : bitsOf (s.pr m pscTrig) 1 0 = 3) (hg : (s.psc m).gate = false) :
    s.pscExpire m c = s.setPsc m { s.pscTimed m c with gate := true } := by
  rw [State.pscExpire_eq hs hu, if_neg (by rw [h3]; decide), if_pos h3, if_neg (by rw [hg]; decide), State.setPsc_setPsc,
    State.psc_setPsc, if_pos rfl]

theorem State.pscExpire_lost (h3 : bitsOf (s.pr m pscTrig) 1 0 = 3) (hg : (s.psc m).gate = true) :
    s.pscExpire m c = (s.setPsc m (s.pscTimed m c)).pscLost m 1 := by
  rw [State.pscExpire_eq hs hu, if_neg (by rw [h3]; decide), if_pos h3, if_pos hg]

end

/-- A PWM edge that is heard. -/
def State.pscHit (s : State) (m c : Nat) : Bool :=
  (decide (bitsOf (s.pr m pscTrig) 1 0 = 2) && !(s.psc m).busy c) || (decide (bitsOf (s.pr m pscTrig) 1 0 = 3) && (s.psc m).gate)

section
variable {s : State} {m c k : Nat} {r : List (Nat × Nat)} (he : (s.psc m).edges = (c, k) :: r)
include he

/-- A PWM edge, taken from those that wait. -/
theorem State.pscDo_edge : s.pscDo m c 3 none = if (s.psc m).seq = true ∧ s.pscUp m = true ∧ s.pscHit m c = true ∧ s.pscHears m k = true then
      s.setPsc m { s.psc m with edges := r, gate := (s.psc m).gate && decide (bitsOf (s.pr m pscTrig) 1 0 ≠ 3)
                                dly := insertAt id (c + bitsOf (s.pr m pscTrig) 31 16) (s.psc m).dly }
    else s.setPsc m { s.psc m with edges := r } := by
  have hp : (s.setPsc m { s.psc m with edges := r }).psc m = { s.psc m with edges := r } := (s.psc_setPsc m m _).trans (if_pos rfl)
  have hdo : s.pscDo m c 3 none = (s.setPsc m { s.psc m with edges := r }).pscPwm m c k := by
    unfold State.pscDo
    dsimp only
    rw [he]
    rfl
  rw [hdo, State.pscPwm, hp, State.setPsc_setPsc]
  rfl

end

end Sys2Proof.Machine
namespace Sys2Proof.Proofs
open Sys2Proof.Machine

/-- Settles O13: each trigger is one insertion in the queue of its converter, and each happening the first of its converter. -/
theorem converters : Obligations.Converters := by
  refine ⟨fun s a m h => ?_, fun s m c hs hu hc => ?_, fun t m c k r => ?_⟩
  · intro u p latched
    have go {e : State → Nat → State} {x : State} (v : Nat) (hx : (e u (u.at_ u.wcyc)).passed u.wcyc = x) :
        s.viaReg a (pscOff m.val pscCtl) v (·.latchNow e) = .next x :=
      (State.mayWrite_next h _ _).trans (congrArg Host.Outcome.next hx)
    have pass {x y : State} (hx : x = y) : x.passed u.wcyc = y.passed u.wcyc := congrArg (State.passed · u.wcyc) hx
    refine ⟨fun hs hu => ⟨?_, fun hi => ?_, fun hi => ?_, ?_⟩, fun hn => ⟨?_, ?_, ?_⟩⟩
    · exact go (e := (·.pscLatch m.val ·)) 0x10001 (pass (State.pscLatchAt_taken hs hu _ .reg))
    · exact go (e := (·.pscInj m.val ·)) 0x20002 (pass ((if_pos hi).trans (State.pscLatchAt_taken hs hu _ .inj)))
    · exact go (e := (·.pscInj m.val ·)) 0x20002 (pass (if_neg (by omega)))
    · exact go (e := (·.pscStopCmd m.val ·)) 0x40004 (pass (State.pscLatchAt_taken hs hu _ .stop))
    · exact go (e := (·.pscLatch m.val ·)) 0x10001 (pass (State.pscLatchAt_ignored hn _ .reg))
    · exact go (e := (·.pscInj m.val ·)) 0x20002 (pass (State.pscInj_ignored hn _))
    · exact go (e := (·.pscStopCmd m.val ·)) 0x40004 (pass (State.pscLatchAt_ignored hn _ .stop))
  · intro p w next
    refine ⟨fun ht hf => ?_, fun r hd hf => ?_⟩
    · have e : s.pscHappen m.val 5 none = s.pscExpire m.val c := State.pscHappen_first (kind := 5) ht hc hf none
      have hexec : exec (.pscTimer m) s = .next (s.pscExpire m.val c) := congrArg Host.Outcome.next e
      exact ⟨fun h1 => hexec.trans (congrArg Host.Outcome.next (State.pscExpire_triggers hs hu c h1)),
        fun h3 hg => hexec.trans (congrArg Host.Outcome.next (State.pscExpire_opens hs hu c h3 hg)),
        fun h3 hg => hexec.trans (congrArg Host.Outcome.next (State.pscExpire_lost hs hu c h3 hg))⟩
    · have hw : s.pscWhen m.val 4 = some c := congrArg List.head? hd
      refine congrArg Host.Outcome.next ((State.pscHappen_first hw hc hf none).trans ?_)
      have htail : (s.psc m.val).dly.tail = r := congrArg List.tail hd
      change (s.setPsc m.val { s.psc m.val with dly := (s.psc m.val).dly.tail }).pscLatchAt m.val c .reg = _
      rw [htail]
      exact State.pscLatchAt_setPsc (p := { s.psc m.val with dly := r }) hs hu c .reg
  · intro s p w hs hu hc he hf
    have hexec : exec (.pscPwmEdge m) t = .next (s.pscHappen m.val 3 none) := rfl
    clear_value s
    have hw : s.pscWhen m.val 3 = some c := congrArg (fun l => (List.head? l).map Prod.fst) he
    rw [hexec, State.pscHappen_first hw hc hf none, State.pscDo_edge he]
    refine ⟨fun h2 hb hh => ?_, fun h3 hg hh => ?_, fun h2 hb => ?_, fun hh => ?_⟩
    · have hhit : s.pscHit m.val c = true := by rw [State.pscHit, h2, hb]; rfl
      rw [if_pos ⟨hs, hu, hhit, hh⟩, h2, decide_eq_true (by decide : 2 ≠ 3), Bool.and_true]
    · have hhit : s.pscHit m.val c = true := by rw [State.pscHit, h3, hg]; rfl
      rw [if_pos ⟨hs, hu, hhit, hh⟩, h3, decide_eq_false (by decide : ¬ 3 ≠ 3), Bool.and_false]
    · have hhit : s.pscHit m.val c = false := by rw [State.pscHit, h2, hb]; rfl
      rw [if_neg fun h => by rw [hhit] at h; exact Bool.false_ne_true h.2.2.1]
    · rw [if_neg fun h => by rw [hh] at h; exact Bool.false_ne_true h.2.2.2]

end Sys2Proof.Proofs
end

section
/-! PROOFS. Results of the precision scan converters and the sinc filter (R421 to R428, R448). -/

namespace Sys2Proof.Machine

/-! The sinc filter. -/

/-- The sum of the first `i` samples. -/
def headSum (l : List Int) (i : Nat) : Int := (l.take i).sum

/-- The running sums of a list, latest first, and its sum. -/
theorem prefixSums_eq (l : List Int) : l.foldl (fun (a : List Int × Int) x => ((a.2 + x) :: a.1, a.2 + x)) ([0], 0) =
    (((List.range (l.length + 1)).map (headSum l)).reverse, l.sum) := by
  induction l using List.reverseRecOn with
  | nil => rfl
  | append_singleton l x ih =>
    have hlen : (l ++ [x]).length + 1 = l.length + 1 + 1 := by rw [List.length_append, List.length_singleton]
    have hhead : (List.range (l.length + 1)).map (headSum (l ++ [x])) = (List.range (l.length + 1)).map (headSum l) :=
      List.map_congr_left fun i hi => by
        rw [headSum, headSum, List.take_append_of_le_length (Nat.le_of_lt_succ (List.mem_range.1 hi))]
    have hlast : headSum (l ++ [x]) (l.length + 1) = l.sum + x := by
      rw [headSum, List.take_of_length_le (by simp), List.sum_append, List.sum_singleton]
    rw [List.foldl_append, ih, hlen, List.range_succ (n := l.length + 1), List.map_append, List.reverse_append, hhead, List.map_singleton, hlast,
      List.sum_append, List.sum_singleton]
    rfl

theorem movSum_eq (d : Nat) (l : List Int) :
    movSum d l = (List.range (l.length + 1 - d)).map fun i => headSum l (d + i) - headSum l i := by
  rw [movSum, prefixSums_eq, List.reverse_reverse]
  apply List.ext_getElem
  · simp
  · intro i h1 h2
    simp only [List.getElem_zipWith, List.getElem_drop, List.getElem_map, List.getElem_range]

theorem headSum_replicate {n i : Nat} (h : i ≤ n) (x : Int) : headSum (List.replicate n x) i = i * x := by
  rw [headSum, List.take_replicate, Nat.min_eq_left h, List.sum_replicate, nsmul_eq_mul]

theorem movSum_replicate (d n : Nat) (x : Int) : movSum d (List.replicate n x) = List.replicate (n + 1 - d) (d * x) := by
  rw [movSum_eq, List.length_replicate]
  apply List.ext_getElem
  · simp
  · intro i h1 h2
    rw [List.length_replicate] at h2
    rw [List.getElem_map, List.getElem_range, List.getElem_replicate, headSum_replicate (by omega), headSum_replicate (by omega)]
    push_cast
    ring

theorem iter_movSum_replicate {d : Nat} (hd : 0 < d) : ∀ (k n : Nat) (x : Int),
    iter (movSum d) k (List.replicate n x) = List.replicate (n - k * (d - 1)) (d ^ k * x)
  | 0, n, x => by rw [iter, Nat.zero_mul, Nat.sub_zero, pow_zero, one_mul]
  | k + 1, n, x => by
    have hn : n + 1 - d - k * (d - 1) = n - (k + 1) * (d - 1) := by
      rw [Nat.succ_mul, Nat.add_comm (k * (d - 1)), ← Nat.sub_sub]
      congr 1
      omega
    rw [iter, movSum_replicate, iter_movSum_replicate hd k, hn, pow_succ, mul_assoc]

theorem rne_mul {b : Int} (h : 0 < b) (x : Int) : rne (b * x) b = x := by
  have hq : b * x / b = x := Int.mul_ediv_cancel_left x (ne_of_gt h)
  have hr : b * x % b = 0 := Int.mul_emod_right b x
  simp only [rne, hq, hr]
  rw [if_neg (by omega), if_pos (by omega)]

theorem movSum_whole (l : List Int) : movSum l.length l = [l.sum] := by
  have hs : headSum l (l.length + 0) - headSum l 0 = l.sum := by
    rw [headSum, headSum, Nat.add_zero, List.take_length, List.take_zero, List.sum_nil, sub_zero]
  rw [movSum_eq, Nat.add_sub_cancel_left, List.range_one, List.map_singleton, hs]

/-- A filter of order 1 that takes one output of all its samples. -/
theorem sincMean_one (l : List Int) : sincMean 1 l.length 1 l = rne l.sum l.length := by
  have hi : iter (movSum l.length) 1 l = [l.sum] := movSum_whole l
  rw [sincMean, hi]
  simp

/-- The filter's gain is 1. -/
theorem sincMean_constant {k d a : Nat} (hk : 0 < k) (hd : 0 < d) (ha : 0 < a) (x : Int) :
    sincMean k d a (List.replicate ((k + a - 1) * d) x) = x := by
  have hn : (k + a - 1) * d - k * (d - 1) = (a - 1) * d + k := by
    obtain ⟨d, rfl⟩ := Nat.exists_eq_succ_of_ne_zero (Nat.pos_iff_ne_zero.1 hd)
    obtain ⟨a, rfl⟩ := Nat.exists_eq_succ_of_ne_zero (Nat.pos_iff_ne_zero.1 ha)
    have h : (k + a.succ - 1) * d.succ = k * (d.succ - 1) + ((a.succ - 1) * d.succ + k) := by
      simp only [Nat.succ_eq_add_one, Nat.add_sub_cancel, ← Nat.add_assoc]
      ring
    rw [h, Nat.add_sub_cancel_left]
  have hget : ∀ j ∈ List.range a, (List.replicate ((a - 1) * d + k) ((d : Int) ^ k * x)).getD (j * d + (k - 1)) 0 = (d : Int) ^ k * x := by
    intro j hj
    have hj' : j ≤ a - 1 := by have := List.mem_range.1 hj; omega
    have := Nat.mul_le_mul_right d hj'
    exact List.getD_replicate _ (by omega)
  have hpos : (0 : Int) < a * d ^ k := by positivity
  rw [sincMean, iter_movSum_replicate hd, hn]
  rw [List.map_congr_left hget, List.map_const', List.length_range, List.sum_replicate, nsmul_eq_mul, ← mul_assoc]
  exact rne_mul hpos x

/-! A result. -/

theorem State.pscValue_over (s : State) (m inp : Nat) (x : Int) (up : Bool) : s.pscValue m inp x (some up) = if up then max32 else -max32 := rfl

/-- The registers of a result. -/
def pscResRegs (m row : Nat) : List Nat := [pscOff m (pscRes + 4 * row), pscOff m pscFlags]

/-- The value of a result stands in its row, with OVR where it is over range. -/
def State.pscPut (s : State) (m row : Nat) (v : Int) (ovr : Bool) : State :=
  let u := s.setRg (pscOff m (pscRes + 4 * row)) (word32 v).toNat
  if ovr then u.flag (pscOff m pscFlags) 8 else u

/-- What that leaves. -/
structure PscPut (s t : State) (m row : Nat) (v : Int) (ovr : Bool) : Prop where
  res : t.pr m (pscRes + 4 * row) = (word32 v).toNat
  flag : ovr = true → bitOf (t.pr m pscFlags) 3 = true
  rg : ∀ o, o ∉ pscResRegs m row → t.rg o = s.rg o
  pscs : t.pscs = s.pscs
  chans : t.chans = s.chans
  mem : t.mem = s.mem
  up : t.pscUp m = s.pscUp m

theorem State.pscPut_puts (s : State) (m : Nat) {row : Nat} (v : Int) (ovr : Bool) : PscPut s (s.pscPut m row v ovr) m row v ovr := by
  have hv : (word32 v).toNat % 4294967296 = (word32 v).toNat := Nat.mod_eq_of_lt (word32 v).isLt
  have hne : pscOff m (pscRes + 4 * row) ≠ pscOff m pscFlags := by
    unfold pscOff tileOff pscRes pscFlags
    omega
  have hrg (o : Nat) (h : o ∉ pscResRegs m row) : (s.pscPut m row v ovr).rg o = s.rg o := by
    rw [pscResRegs, List.mem_cons, List.mem_singleton, not_or] at h
    simp only [State.pscPut]
    split
    · rw [State.flag_rg_ne _ _ h.2, State.rg_setRg_ne _ _ h.1]
    · exact State.rg_setRg_ne _ _ h.1
  have hpwr : tileOff (m / 4) tilePwrSts ∉ pscResRegs m row := by
    rw [pscResRegs, List.mem_cons, List.mem_singleton, not_or]
    unfold pscOff tileOff pscRes pscFlags tilePwrSts
    omega
  have hup : (s.pscPut m row v ovr).tileOn (m / 4) = s.tileOn (m / 4) := by rw [State.tileOn, State.tileOn, hrg _ hpwr]
  have hrest : (s.pscPut m row v ovr).pscs = s.pscs ∧ (s.pscPut m row v ovr).chans = s.chans ∧ (s.pscPut m row v ovr).mem = s.mem ∧
      (s.pscPut m row v ovr).tileUp (m / 4) = s.tileUp (m / 4) := by
    simp only [State.pscPut]
    split
    · exact ⟨State.flag_pscs _ _ _, State.flag_chans _ _ _, State.flag_mem _ _ _, by
        simp only [State.tileUp, State.isFenced, State.flag_fenced, State.flag_held, State.flag_running]; rfl⟩
    · exact ⟨rfl, rfl, rfl, rfl⟩
  obtain ⟨hpscs, hchans, hmem, htile⟩ := hrest
  refine ⟨?_, fun ho => ?_, hrg, hpscs, hchans, hmem, by rw [State.pscUp, State.pscUp, hup, htile]⟩
  · simp only [State.pscPut, State.pr]
    split
    · rw [State.flag_rg_ne _ _ hne, State.rg_setRg_same, hv]
    · rw [State.rg_setRg_same, hv]
  · simp only [State.pscPut, State.pr]
    rw [if_pos ho, State.flag_bit _ _ _ _ (by decide) (by decide)]
    exact Bool.or_true _

theorem State.pscEntry_sets (s : State) (m e c : Nat) (st : PscSt) :
    ∃ v : Psc, s.pscEntry m e c st = s.setPsc m v ∧ v.row = e ∧ v.st = st ∧ v.from_ = c := ⟨_, rfl, rfl, rfl, rfl⟩

/-- A result of a regular pass that has rows to come and no limits in this row. -/
theorem State.pscResult_next {s : State} {m : Nat} {x : PscData} (hu : s.pscUp m = true) (hs : (s.psc m).st = .regular)
    (hl : (s.psc m).row + 1 < (s.psc m).regLen) (h20 : bitOf ((s.psc m).ent.getD 0 0) 20 = false) : s.pscResult m (some x) =
      (s.pscPut m (s.psc m).row (s.pscValue m (bitsOf ((s.psc m).ent.getD 0 0) 5 0) (s.pscOutput m (some x)).1 (s.pscOutput m (some x)).2.2)
        (s.pscOutput m (some x)).2.2.isSome).pscEntry m ((s.psc m).row + 1) (s.psc m).due .regular := by
  generalize ho : s.pscOutput m (some x) = y
  obtain ⟨y, flt, ovr⟩ := y
  generalize hv : s.pscValue m (bitsOf ((s.psc m).ent.getD 0 0) 5 0) y ovr = v
  have hput := s.pscPut_puts m (row := (s.psc m).row) v ovr.isSome
  have hp : (s.pscPut m (s.psc m).row v ovr.isSome).psc m = s.psc m :=
    congrArg (fun l => tget (fun _ => ({} : Psc)) l m) hput.pscs
  have hruns : (s.psc m).runs = true := by rw [Psc.runs, hs]; rfl
  have hlim (u : State) : u.pscLimit m (s.psc m).row v (s.psc m).ent (s.psc m).due = u := if_pos (Bool.eq_false_iff.1 h20)
  have hadv : (s.pscPut m (s.psc m).row v ovr.isSome).pscAdvance m (s.psc m).due flt =
      (s.pscPut m (s.psc m).row v ovr.isSome).pscEntry m ((s.psc m).row + 1) (s.psc m).due .regular := by
    rw [State.pscAdvance, hp]
    exact (if_neg (by rw [hs]; decide)).trans (if_pos hl)
  have hall : s.pscResult m (some x) =
      (let u := if (s.psc m).st = .regular then (s.pscPut m (s.psc m).row v ovr.isSome).pscLimit m (s.psc m).row v (s.psc m).ent (s.psc m).due
        else s.pscPut m (s.psc m).row v ovr.isSome
      if u.pscUp m then u.pscAdvance m (s.psc m).due flt else u) := by
    rw [State.pscResult, ho]
    dsimp only
    rw [if_neg (not_not.2 ⟨hu, hruns⟩), hv]
    rfl
  rw [hall, if_pos hs, hlim]
  dsimp only
  rw [if_pos (hput.up.trans hu), hadv]

end Sys2Proof.Machine
namespace Sys2Proof.Proofs
open Sys2Proof.Machine

/-- Settles O14: a result is put in its row, and the next row begins; the filter's moving sums of a constant are constant. -/
theorem converterResults : Obligations.ConverterResults := by
  refine ⟨fun s m l ovr cyc => ?_, fun s m inp x => ⟨rfl, rfl⟩, fun k d a x hk hd ha => sincMean_constant hk hd ha x, fun l _ => sincMean_one l⟩
  intro p y hu hs hst
  have hruns : (p.runs && p.startAt.isNone) = true := by rw [Psc.runs, hs, hst]; rfl
  refine ⟨fun hset hc hf => ?_, fun hc hf hl h36 h20 => ?_⟩
  · have hw : s.pscWhen m.val 1 = some p.setAt := if_pos (by rw [hruns, hset]; rfl)
    exact congrArg Host.Outcome.next (State.pscHappen_first hw hc hf none)
  · have hw : s.pscWhen m.val 0 = some (s.at_ cyc.val) := (if_pos (by rw [hruns, hu]; rfl)).trans (congrArg some hc.symm)
    have hle : s.at_ cyc.val ≤ s.at_ 49 := Nat.add_le_add_left (Nat.le_of_lt_succ cyc.isLt) _
    have hput := s.pscPut_puts m.val (row := p.row) (s.pscValue m.val (bitsOf (p.ent.getD 0 0) 5 0) y.1 y.2.2) y.2.2.isSome
    have hfirst : s.pscFirst m.val (s.at_ cyc.val) 0 = none := by rw [hc]; exact hf
    have hdo : s.pscHappenAt m.val 0 (s.at_ cyc.val) (some (l.map (·.toInt), ovr)) = s.pscResult m.val (some (l.map (·.toInt), ovr)) :=
      State.pscHappenAt_first hw hle hfirst _
    have e := State.pscResult_next (x := (l.map (·.toInt), ovr)) hu hs hl h20
    have hexec : exec (.pscEntryResult m l ovr cyc) s =
        .next (s.pscHappenAt m.val 0 (s.at_ cyc.val) (some (l.map (·.toInt), ovr))) := rfl
    rw [hexec, hdo, e]
    generalize s.pscPut m.val p.row (s.pscValue m.val (bitsOf (p.ent.getD 0 0) 5 0) y.1 y.2.2) y.2.2.isSome = t at hput
    obtain ⟨v, hv, hrow, hst', hfrom⟩ := t.pscEntry_sets m.val ((s.psc m.val).row + 1) (s.psc m.val).due .regular
    have hself : (t.setPsc m.val v).psc m.val = v := (t.psc_setPsc m.val m.val v).trans (if_pos rfl)
    rw [hv]
    refine ⟨_, rfl, hput.res, hput.flag, by rw [hself, hrow], by rw [hself, hst'], by rw [hself, hfrom], hput.rg, fun j hj => ?_,
      fun n => State.ch_congr hput.chans n, fun b => State.byte_congr hput.mem b⟩
    rw [State.psc_setPsc, if_neg hj]
    exact congrArg (fun q => tget (fun _ => ({} : Psc)) q j) hput.pscs

end Sys2Proof.Proofs
end

section
/-! PROOFS. Window comparators and the fast clamp (R462 to R490). -/

namespace Sys2Proof.Machine

/-! Edges. -/

/-- The registered output of comparator `k`. -/
def State.cmpPut (s : State) (n k : Nat) (out : Bool) : State :=
  s.setCh n { s.ch n with comp := { (s.ch n).comp with out := putBit (s.ch n).comp.out k out, raw := putBit (s.ch n).comp.raw k out } }

/-- EDGE selects the edge to `out`. -/
def State.cmpSelects (s : State) (n k : Nat) (out : Bool) : Bool := edgeSel (bitsOf (s.rg (cmpOff n cmpEdge)) (2 * k + 1) (2 * k)) out

theorem cmpOff_inj (n a b : Nat) : cmpOff n a = cmpOff n b ↔ a = b := by unfold cmpOff; omega

theorem capOff_ne_cmpOff {n i r q : Nat} (hi : i % 32 < 32) (hq : q < 0x40) (hr : r < 0x10) : capOff i r ≠ cmpOff n q := by
  unfold capOff tileOff cmpOff
  omega

/-- An edge that wakes nothing and that no capture unit watches. -/
theorem State.cmpOutput_edge {s : State} {n k : Nat} {out : Bool} (hr : s.cmpRuns n k = true) (he : s.cmpEn n k = true)
    (hc : s.isClamp n k = false) (ho : bitOf (s.ch n).comp.out k ≠ out) (hw : bitOf (s.rg (cmpOff n cmpWake)) (9 + k) = false)
    (hcap : s.capWatch n k out = []) (cyc : Nat) : s.cmpOutput n k out cyc =
      if s.cmpSelects n k out then ((s.cmpPut n k out).flag (cmpOff n cmpSts) (2 ^ k)).fireCh (10 + k) n cyc else s.cmpPut n k out := by
  have hwake (u : State) (hu : u.rg (cmpOff n cmpWake) = s.rg (cmpOff n cmpWake)) : u.wake n k = u := by
    refine if_neg ?_
    rw [hu, hw]
    exact Bool.false_ne_true
  generalize hf : ((s.cmpPut n k out).flag (cmpOff n cmpSts) (2 ^ k)).fireCh (10 + k) n cyc = f
  have hfr (o : Nat) (h : o ≠ cmpOff n cmpSts) : f.rg o = s.rg o := by
    rw [← hf, State.rg_fireCh, State.flag_rg_ne _ _ h]
    rfl
  have hfw : f.wake n k = f := hwake f (hfr _ (by rw [Ne, cmpOff_inj]; decide))
  have hend (u : State) (hu : ∀ o, o ≠ cmpOff n cmpSts → u.rg o = s.rg o) :
      (if (u.capTakes (u.timeAt (u.at_ cyc) - 40) (u.capWatch n k out)).isClamp n k && out then
        (u.capTakes (u.timeAt (u.at_ cyc) - 40) (u.capWatch n k out)).clampHit n k
      else u.capTakes (u.timeAt (u.at_ cyc) - 40) (u.capWatch n k out)) = u := by
    have hwatch : u.capWatch n k out = [] := by
      rw [← hcap]
      simp only [State.capWatch]
      refine List.filter_congr fun i _ => ?_
      rw [hu _ (capOff_ne_cmpOff (Nat.mod_lt i (by decide)) (by decide) (by decide))]
    have hcl : u.isClamp n k = false := (congrArg (bitOf · k) (hu _ (by rw [Ne, cmpOff_inj]; decide))).trans hc
    rw [hwatch, State.capTakes, hcl]
    exact if_neg Bool.false_ne_true
  have hbody : s.cmpOutput n k out cyc =
      (let u := if s.cmpEn n k && s.cmpSelects n k out then f.wake n k else s.cmpPut n k out
      let v := u.capTakes (u.timeAt (u.at_ cyc) - 40) (u.capWatch n k out)
      if v.isClamp n k && out then v.clampHit n k else v) := by
    rw [State.cmpOutput, ← hf]
    refine if_neg ?_
    rw [hr]
    rintro (h | h)
    · exact h rfl
    · exact ho h
  rw [hbody, he, Bool.true_and, hfw]
  by_cases hs : s.cmpSelects n k out = true
  · rw [if_pos hs]
    exact hend f hfr
  · rw [if_neg hs]
    exact hend (s.cmpPut n k out) fun _ _ => rfl

/-- What such an edge leaves. -/
structure CmpEdged (s t : State) (n k : Nat) (out : Bool) : Prop where
  put : bitOf (t.ch n).comp.out k = out
  flag : s.cmpSelects n k out = true → bitOf (t.rg (cmpOff n cmpSts)) k = true
  still : s.cmpSelects n k out = false → t.rg (cmpOff n cmpSts) = s.rg (cmpOff n cmpSts)
  trip : (t.ch n).comp.trip = (s.ch n).comp.trip
  ch : ∀ m, m ≠ n → t.ch m = s.ch m
  byte : ∀ b, t.byte b = s.byte b

theorem State.cmpOutput_edged {s : State} {n k : Nat} {out : Bool} (hk : k < 4) (hr : s.cmpRuns n k = true) (he : s.cmpEn n k = true)
    (hc : s.isClamp n k = false) (ho : bitOf (s.ch n).comp.out k ≠ out) (hw : bitOf (s.rg (cmpOff n cmpWake)) (9 + k) = false)
    (hcap : s.capWatch n k out = []) (cyc : Nat) : CmpEdged s (s.cmpOutput n k out cyc) n k out := by
  rw [State.cmpOutput_edge hr he hc ho hw hcap]
  have hself : (s.cmpPut n k out).ch n = { s.ch n with comp := { (s.ch n).comp with
      out := putBit (s.ch n).comp.out k out, raw := putBit (s.ch n).comp.raw k out } } := State.ch_setCh_same _ _ _
  have hout : bitOf ((s.cmpPut n k out).ch n).comp.out k = out := by rw [hself, bitOf_putBit, if_pos rfl]
  have htrip : ((s.cmpPut n k out).ch n).comp.trip = (s.ch n).comp.trip := by rw [hself]
  have hne (m : Nat) (hm : m ≠ n) : (s.cmpPut n k out).ch m = s.ch m := State.ch_setCh_ne _ _ hm
  split
  · next hs =>
    have hlt : 2 ^ k < 16777216 := Nat.lt_of_le_of_lt (Nat.pow_le_pow_right (by decide) (Nat.le_of_lt_succ hk)) (by decide)
    have hch (m : Nat) : (((s.cmpPut n k out).flag (cmpOff n cmpSts) (2 ^ k)).fireCh (10 + k) n cyc).ch m = (s.cmpPut n k out).ch m :=
      (State.ch_fireCh _ _ _ _ _).trans (State.ch_flag _ _ _ _)
    refine ⟨by rw [hch, hout], fun _ => ?_, fun h => absurd (hs.symm.trans h) (by decide), by rw [hch, htrip], fun m hm => (hch m).trans (hne m hm),
      State.byte_congr ((State.mem_fireCh _ _ _ _).trans (State.flag_mem _ _ _))⟩
    rw [State.rg_fireCh, State.flag_bit _ _ _ _ hlt (by omega), bitOf_eq_testBit (2 ^ k), Nat.testBit_two_pow_self, Bool.or_true]
  · next hs => exact ⟨hout, fun h => absurd h hs, fun _ => rfl, htrip, hne, fun _ => rfl⟩

/-! The clamp. -/

/-- What a trip leaves of the channel and the device. -/
structure Tripped (s t : State) (n : Nat) : Prop where
  trip : (t.ch n).comp.trip = true
  state : (t.ch n).state = (s.ch n).state
  law : (t.ch n).law = (s.ch n).law
  rake : (t.ch n).rake = (s.ch n).rake
  sts : bitOf (t.rg (cmpOff n cmpSts)) 4 = true
  fault : bitOf (t.rg (fltOff (frCh n) fltSts)) fcClampTrip = true
  ch : ∀ m, m ≠ n → t.ch m = s.ch m
  byte : ∀ b, t.byte b = s.byte b

theorem State.trip_tripped {s : State} {n : Nat} (hn : n < 64) (hm : s.mild (frCh n) = true) (hl : s.later = []) : Tripped s (s.trip n) n := by
  have hbelow (r : Nat) (hr : r < 0x40) : cmpOff n r < frameOff (frCh n) := by
    have hf : frameOff (frCh n) = 0x100F00 + 0x1000 * n := by
      unfold frameOff frCh
      rw [if_neg (by omega), if_neg (by omega), if_neg (by omega), if_neg (by omega), if_neg (by omega), if_neg (by omega),
        if_neg (by omega), if_neg (by omega), if_neg (by omega)]
      omega
    rw [hf]
    unfold cmpOff
    omega
  generalize hu : ((s.updCh n fun c => { c with comp := { c.comp with trip := true, zero := 0, met := false } }).flag (cmpOff n cmpSts) 0x10).count
    (cmpOff n cmpTrips) = u
  have e : s.trip n = u.fault (frCh n) fcClampTrip := by rw [← hu]; rfl
  have hch : ∀ m, u.ch m = (s.updCh n fun c => { c with comp := { c.comp with trip := true, zero := 0, met := false } }).ch m := fun m => by
    rw [← hu, State.ch_count, State.ch_flag]
  have hne : cmpOff n cmpSts ≠ cmpOff n cmpTrips := by rw [Ne, cmpOff_inj]; decide
  have hsts : bitOf (u.rg (cmpOff n cmpSts)) 4 = true := by
    rw [← hu, State.rg_count_ne _ _ hne, State.flag_bit _ _ _ _ (by decide) (by decide)]
    exact Bool.or_true _
  have hmu : u.mild (frCh n) = true := by
    refine (State.mild_congr (s := s) (by rw [← hu]; exact State.flag_voteErr _ _ _) ?_).trans hm
    have hlt (r : Nat) (hr : r < 0x40) : fltOff (frCh n) fltReact ≠ cmpOff n r := by
      have h := hbelow r hr
      unfold fltOff
      omega
    rw [← hu, State.rg_count_ne _ _ (hlt _ (by decide)), State.flag_rg_ne _ _ (hlt _ (by decide))]
    rfl
  have h := State.faultOf hmu (by rw [← hu]; exact (State.flag_later _ _ _).trans hl) (i := fcClampTrip) (by decide)
  have hmem : u.mem = s.mem := by rw [← hu]; exact State.flag_mem _ _ _
  rw [e]
  refine ⟨?_, ?_, ?_, ?_, ?_, h.set, fun m hm => ?_, fun b => (State.byte_congr h.mem b).trans (State.byte_congr hmem b)⟩
  · rw [State.ch_congr h.chans, hch, State.ch_updCh_same]
  · rw [State.ch_congr h.chans, hch, State.ch_updCh_same]
  · rw [State.ch_congr h.chans, hch, State.ch_updCh_same]
  · rw [State.ch_congr h.chans, hch, State.ch_updCh_same]
  · rw [h.rg _ (reportRegs_above (hbelow _ (by decide)))]
    exact hsts
  · rw [State.ch_congr h.chans, hch, State.ch_updCh_ne _ _ hm]

/-- A driven clamp whose comparator comes to 1 trips. -/
theorem State.clampTrip_tripped {s : State} {n k : Nat} {v : Int} (hn : n < 64) (hm : s.mild (frCh n) = true) (hl : s.later = [])
    (hr : s.cmpRuns n k = true) (hc : s.isClamp n k = true) (hd : (s.ch n).comp.driven = true) (ht : (s.ch n).comp.trip = false)
    (hj : s.cmpJudge n k (bitOf (s.ch n).comp.raw k) v = true) : Tripped s (s.clampTrip n k v) n := by
  generalize hu : s.updCh n (fun c => { c with comp := { c.comp with raw := putBit c.comp.raw k true } }) = u
  have hself : u.ch n = { s.ch n with comp := { (s.ch n).comp with raw := putBit (s.ch n).comp.raw k true } } := by
    rw [← hu, State.ch_updCh_same]
  have hother (m : Nat) (h : m ≠ n) : u.ch m = s.ch m := by rw [← hu, State.ch_updCh_ne _ _ h]
  have hregs : u.regs = s.regs := by rw [← hu]; rfl
  have e : s.clampTrip n k v = u.trip n := by
    have hh : s.clampHit n k = u.trip n := by
      rw [State.clampHit, hu]
      refine if_pos ?_
      rw [hself]
      simp [hd, ht]
    rw [State.clampTrip, hr, hc, hj]
    exact hh
  have h := State.trip_tripped (s := u) hn ((State.mild_congr (s := s) (by rw [← hu]; rfl) (State.rg_congr hregs _)).trans hm) (by rw [← hu]; exact hl)
  rw [e]
  exact ⟨h.trip, by rw [h.state, hself], by rw [h.law, hself], by rw [h.rake, hself], h.sts, h.fault, fun m hm => (h.ch m hm).trans (hother m hm),
    fun b => (h.byte b).trans (by rw [← hu]; rfl)⟩

/-- The clamp of channel `n` is released. -/
def State.clampFreed (s : State) (n : Nat) : State :=
  s.updCh n fun c => { c with comp := { c.comp with trip := false, met := false, relKey := false } }

/-- What a release asks besides an own boundary. -/
def State.clampFree (s : State) (n : Nat) : Bool :=
  if s.clampLatch n then s.clampClear n && (s.ch n).comp.relKey
  else (s.ch n).comp.met || (s.clampClear n && decide (s.clampHold n ≤ (s.ch n).comp.zero + 1))

theorem State.clampRelease_eq {s : State} {n : Nat} (ht : (s.ch n).comp.trip = true) : s.clampRelease n =
    if (s.tick + 1) % s.srDiv n = 0 ∧ s.clampFree n = true then s.clampFreed n else s := by
  rw [State.clampRelease]
  refine if_congr ?_ rfl rfl
  rw [ht, Bool.true_and, Bool.and_eq_true, decide_eq_true_eq]
  rfl

end Sys2Proof.Machine
namespace Sys2Proof.Proofs
open Sys2Proof.Machine

/-- Settles O15: an edge is one change of the outputs; a trip is one fault of a frame without a reaction. -/
theorem comparators : Obligations.Comparators := by
  refine ⟨fun s n k v cyc => ?_, fun s n k v hm hl hr hc hd ht hj => ?_, fun s a n ht => ?_⟩
  · intro thr h old out selected done
    have hedge (hr : s.cmpRuns n.val k.val = true) (he : s.cmpEn n.val k.val = true) (hc : s.isClamp n.val k.val = false) (ho : old ≠ out)
        (hw : bitOf (s.rg (cmpOff n.val cmpWake)) (9 + k.val) = false) (hcap : s.capWatch n.val k.val out = []) :
        done (s.cmpOutput n.val k.val out cyc.val) := by
      have h := State.cmpOutput_edged k.isLt hr he hc ho hw hcap cyc.val
      exact ⟨h.put, h.flag, h.still, h.trip, h.ch, h.byte⟩
    refine ⟨fun hk => ?_, fun hk => ?_, fun hr he hc ho hw hcap => ⟨fun hs => ?_, fun hs hend => ?_⟩⟩
    · change s.cmpJudge n.val k.val old v.toInt = true ↔ _
      rw [State.cmpJudge]
      simp only [if_pos hk, Bool.or_eq_true, Bool.and_eq_true, decide_eq_true_eq]
      rfl
    · change s.cmpJudge n.val k.val old v.toInt = true ↔ _
      rw [State.cmpJudge]
      simp only [if_neg (show ¬ k.val % 2 = 1 by omega), Bool.or_eq_true, Bool.and_eq_true, decide_eq_true_eq]
      rfl
    · have e : s.cmpContinuous n.val k.val v.toInt cyc.val = s.cmpOutput n.val k.val out cyc.val := if_neg (Bool.eq_false_iff.1 hs)
      exact ⟨_, congrArg (fun t : State => Host.Outcome.next (t.passed cyc.val)) e, hedge hr he hc ho hw hcap⟩
    · exact ⟨_, congrArg Host.Outcome.next (if_pos ⟨hend, hs, he⟩), hedge hr he hc ho hw hcap⟩
  · have h := State.clampTrip_tripped n.isLt hm hl hr hc hd ht hj
    exact ⟨_, rfl, h.trip, h.state, h.sts, h.fault, h.law, h.rake, h.ch, h.byte⟩
  · intro freed
    have release {t : State} (e : (if (s.tick + 1) % s.srDiv n.val = 0 ∧ s.clampFree n.val = true then s.clampFreed n.val else s) = t) :
        exec (.clampRelease n) s = .next t := congrArg Host.Outcome.next ((State.clampRelease_eq ht).trans e)
    refine ⟨fun ho hlat hfree => ?_, fun ho hcl hlat hkey => ?_, fun hcl hlat => ?_, fun ho => release (if_neg fun h => ho h.1), fun h hu hlat => ?_⟩
    · refine release (if_pos ⟨ho, ?_⟩)
      rw [State.clampFree, hlat]
      obtain ⟨h1, h2⟩ | h := hfree
      · simp only [h1, decide_eq_true (show s.clampHold n.val ≤ (s.ch n.val).comp.zero + 1 from h2), Bool.and_true, Bool.or_true,
          Bool.false_eq_true, if_false]
      · simp only [h, Bool.true_or, Bool.false_eq_true, if_false]
    · refine release (if_pos ⟨ho, ?_⟩)
      rw [State.clampFree, hlat, hcl, hkey]; rfl
    · refine release (if_neg ?_)
      rintro ⟨-, hf⟩
      rw [State.clampFree, hcl] at hf
      obtain h | h := hlat
      · simp [h] at hf
      · simp [h] at hf
    · have e : s.clampKey n.val = s.updCh n.val fun c => { c with comp := { c.comp with relKey := true } } :=
        if_pos (by rw [ht, hlat]; rfl)
      change execClampReleaseKey a n s = _
      rw [execClampReleaseKey, State.viaGrd, State.mayWrite_next h, State.pairDrop_unpaired hu]
      exact congrArg Host.Outcome.next e

end Sys2Proof.Proofs
end

section
/-! PROOFS. A SELECT of an object whose record holds a correctable error (R527, R818). -/

namespace Sys2Proof.Machine

/-- The trim record of channel 0, all zero but for its CRC, with a correctable error in its first word. -/
def ceCopy : State :=
  { State.reset with
    mem := [(0x53200FC, 33), (0x53200FC + 1, 83), (0x53200FC + 2, 230), (0x53200FC + 3, 103)]
    memCE := [0x5320000] }

theorem ceCopy_writes (o : Nat) (h : ceCopy.regCause ⟨.host, .priv⟩ o true 0 = none) : ceCopy.mayWrite ⟨.host, .priv⟩ o := by
  intro v
  simpa [State.regCause] using h

theorem ceCopy_sound : ceCopy.selOk 2560 = true := by decide +kernel

/-- R818: SELECT of a trim record reads it, whether it then registers the flip or not. -/
theorem State.selectObj_memCE (s : State) {j : Nat} (he : objExists j = true) (hj : ¬ j < 2560) :
    (s.selectObj j).memCE = ((s.setRg (caldOff calObjCmd) j).unitRead (objAddr j) 256).memCE := by
  unfold State.selectObj
  dsimp only
  rw [if_pos he, if_neg hj]
  split
  · simp
  · split <;> rfl

theorem exec_select_of_mayWrite {s : State} {a : Acc} (j : BitVec 12) (h : s.mayWrite a (caldOff calObjCmd)) :
    exec (.select a j) s = .next (s.selectObj j.toNat) := by
  change execSelect a j s = _
  rw [execSelect, State.mayWrite_next h]

theorem ceCopy_selected : (ceCopy.selectObj 2560).memCE = [] := by
  rw [State.selectObj_memCE _ (by decide) (by decide)]
  decide +kernel

end Sys2Proof.Machine

namespace Sys2Proof.Proofs
open Sys2Proof.Machine

/-- Refutes O17: its SELECT clause gives the next state in full, but SELECT reads the record it names (R527), and R818 writes a
correctable error found there back: the model takes the word out of `memCE`, and the statement's state still has it. -/
theorem not_calibrationResults : ¬ Obligations.CalibrationResults := by
  unfold Obligations.CalibrationResults
  intro h
  obtain ⟨-, -, hsel, -⟩ := h.2 ceCopy ⟨.host, .priv⟩ 0
  have hw := ceCopy_writes (caldOff calObjCmd) (by decide +kernel)
  have hj : (2560#12).toNat = 2560 := rfl
  have he := hsel 2560#12 hw (by decide) (by decide +kernel) (by rw [hj]; exact ceCopy_sound) (by decide +kernel)
  have hx := exec_select_of_mayWrite 2560#12 hw
  rw [hx, hj] at he
  have hc := congrArg State.memCE (Host.Outcome.next.inj he)
  rw [ceCopy_selected] at hc
  exact absurd hc (by decide)

end Sys2Proof.Proofs
end

section
/-! PROOFS. A strobe that ends a Brine stream (R411, R412). -/

namespace Sys2Proof.Machine

/-- A strobe of channel 0 that waits for the end of the present tick and clears BRN_EN. -/
def brnOff : Strobe := { vals := [(chOff 0 chMeasCfg, 0)], at_ := 1, undo := [], mine := [0] }

/-- Channel 0 has one sample in its Brine line in hand, and its ring has no place for the line. -/
def brnOpen : State :=
  { State.reset with
    regs := [(chOff 0 chMeasCfg, 0x100)]
    chans := [(0, { meas := { brine := { line := [{ w := 0, smp := true }], idx := some 1 } } })]
    strobes := [(7, some brnOff)] }

/-- R412: the sample of the line that finds no place is lost, and LOST stands in CHn_MEAS_FLAGS, which counts it in SEQ. -/
theorem brnOpen_loses : ((brnOpen.settleTick).strobeApply 7).rg (chOff 0 chMeasFlags) = 0x01000020 := by decide +kernel

end Sys2Proof.Machine

namespace Sys2Proof.Proofs
open Sys2Proof.Machine

/-- Refutes O28: an applied strobe that clears BRN_EN ends the channel's Brine stream (R411): its partial line is written with
its ring's pointer, or its samples are counted as lost (R412), so registers change that the strobe has not captured. -/
theorem not_updateGroups : ¬ Obligations.UpdateGroups := by
  unfold Obligations.UpdateGroups
  intro h
  obtain ⟨-, -, happ⟩ := h.2 brnOpen (7 : GroupId) brnOff (by decide +kernel)
  obtain ⟨t, ht, -, -, -, -, -, hrg, -⟩ := happ (by decide +kernel) (by decide +kernel) (by decide +kernel) (by decide +kernel)
  have hx : exec (.strobeApply (7 : GroupId)) brnOpen = .next ((brnOpen.settleTick).strobeApply 7) := rfl
  rw [hx] at ht
  obtain rfl := Host.Outcome.next.inj ht
  have hk := hrg (chOff 0 chMeasFlags) (by decide +kernel) (by decide +kernel)
  rw [brnOpen_loses] at hk
  exact absurd hk (by decide +kernel)

end Sys2Proof.Proofs
end

section
/-! PROOFS. The covered sets: passes, commits and scans (R637 to R641). -/

namespace Sys2Proof.Machine

/-! The commit state. -/

theorem State.committed_crcFlip_same (s : State) (k : Nat) : (s.crcFlip k).committed k = !s.committed k := by
  unfold State.committed State.crcFlip
  dsimp only
  cases h : s.crc.flipped.contains k with
  | false => rw [if_neg (by decide), List.contains_cons, beq_self_eq_true, Bool.true_or]; cases decide (64 ≤ k) <;> rfl
  | true =>
    have hf : (s.crc.flipped.filter (· ≠ k)).contains k = false := by simp
    rw [if_pos rfl, hf]
    cases decide (64 ≤ k) <;> rfl

theorem State.committed_crcFlip_ne (s : State) {j k : Nat} (h : j ≠ k) : (s.crcFlip k).committed j = s.committed j := by
  unfold State.committed State.crcFlip
  dsimp only
  cases hc : s.crc.flipped.contains k with
  | false => rw [if_neg (by decide), List.contains_cons, beq_eq_false_iff_ne.2 h, Bool.false_or]
  | true =>
    rw [if_pos rfl]
    congr 1
    simp [h]

theorem State.committed_congr {s t : State} (h : t.crc.flipped = s.crc.flipped) (k : Nat) : t.committed k = s.committed k := by
  rw [State.committed, State.committed, h]

/-! Passes and commits. -/

/-- The registers of a pass's result. -/
theorem State.crcPassEnd_of {s : State} (hp : s.crc.pass = true) (hk : s.crcSel < 67) (hv : s.voteErr = []) :
    s.crcPassEnd = { (s.setRg sysCfgcrcNow (s.crcWork s.crcSel)).setRg sysCfgcrcStat 2 with crc := { s.crc with pass := false } } := by
  unfold State.crcPassEnd
  dsimp only
  rw [if_pos ⟨hp, hk⟩, State.votes_none hv]
  rfl

theorem State.crcWork_lt (s : State) (k : Nat) : s.crcWork k < 4294967296 := (crc32c _).isLt

/-- The end of a commit but that of set 65, whose end lets earlier events come about. -/
theorem State.commitEnd_fails {s : State} {k ref : Nat} (hr : s.crc.run = some (k, ref)) (hv : s.voteErr = []) (hk : k ≠ 65)
    (hw : s.commitReason k ref ≠ 0) :
    s.commitEnd = (State.setRg { s with crc := { s.crc with run := none } } sysCfgcrcFail (k + 256 * s.commitReason k ref)).flag
      sysCfgcrcFlags 2 := by
  unfold State.commitEnd
  rw [hr]
  dsimp only
  rw [if_neg hk, State.votes_none hv, if_pos hw]

/-- What waits for the channel's boundary once its set is committed: the set's contents and its reference. -/
def State.safeTaken (s : State) (k ref : Nat) : State :=
  let u := State.crcFlip { s with crc := { s.crc with run := none } } k
  { u with crc := { u.crc with
      refs := tput (fun _ => none) u.crc.refs k (some ref), wrote := tput (fun _ => none) u.crc.wrote k none
      late := k :: u.crc.late.filter (· ≠ k)
      lateVal := (s.setOffs k true).map (fun o => (o, s.sh o)) ++ u.crc.lateVal.filter fun p : Nat × Nat => !(s.setOffs k true).contains p.1 } }

theorem State.commitEnd_safe {s : State} {k ref : Nat} (hr : s.crc.run = some (k, ref)) (hv : s.voteErr = []) (hk : k < 64)
    (hw : s.commitReason k ref = 0) :
    s.commitEnd = ((s.safeTaken k ref).uncause (crcSource k).1 (crcSource k).2).flag sysCfgcrcFlags 1 := by
  have h65 : k ≠ 65 := by omega
  unfold State.commitEnd
  rw [hr]
  dsimp only
  rw [if_neg h65, State.votes_none hv, if_neg (fun h => h hw), if_neg h65, if_pos hk, if_pos hk, if_pos hk]
  rfl

theorem State.committed_safeTaken {s : State} {k : Nat} (ref : Nat) (h : s.committed k = false) : (s.safeTaken k ref).committed k = true :=
  (State.committed_congr rfl k).trans ((State.committed_crcFlip_same { s with crc := { s.crc with run := none } } k).trans
    (congrArg not h))

theorem State.refOf_safeTaken (s : State) (k ref : Nat) : (s.safeTaken k ref).refOf k = ref := by
  unfold State.refOf State.safeTaken
  dsimp only
  rw [tget_tput_same]

theorem State.safeTaken_leaves (s : State) (k ref : Nat) :
    (s.safeTaken k ref).regs = s.regs ∧ (s.safeTaken k ref).chans = s.chans ∧ (s.safeTaken k ref).mem = s.mem ∧
      (s.safeTaken k ref).crc.run = none := by
  unfold State.safeTaken State.crcFlip
  exact ⟨rfl, rfl, rfl, rfl⟩

theorem State.commitReason_safe {s : State} {k ref : Nat} (hk : k < 64) (hc : s.committed k = false) (hr : ref = s.crcWork k)
    (hs : s.safeReason k = 0) : s.commitReason k ref = 0 := by
  unfold State.commitReason
  rw [if_neg (by omega), if_neg (by rw [hc]; decide), if_neg (fun h => h hr), if_pos hk, hs]

/-! Scans. -/

/-- What a scan without a mismatch leaves: all but the causes. -/
structure ScanStep (s t : State) : Prop where
  regs : t.regs = s.regs
  chans : t.chans = s.chans
  mem : t.mem = s.mem
  crc : t.crc = s.crc
  shadow : t.shadow = s.shadow
  later : t.later = s.later
  voteErr : t.voteErr = s.voteErr

theorem ScanStep.refl (s : State) : ScanStep s s := ⟨rfl, rfl, rfl, rfl, rfl, rfl, rfl⟩
theorem ScanStep.trans {s t u : State} (h : ScanStep s t) (h' : ScanStep t u) : ScanStep s u :=
  ⟨h'.regs.trans h.regs, h'.chans.trans h.chans, h'.mem.trans h.mem, h'.crc.trans h.crc, h'.shadow.trans h.shadow,
    h'.later.trans h.later, h'.voteErr.trans h.voteErr⟩

theorem State.uncause_scan (s : State) (f i : Nat) : ScanStep s (s.uncause f i) := ⟨rfl, rfl, rfl, rfl, rfl, rfl, rfl⟩

theorem State.scanSet_idle {s : State} {k : Nat} (h : s.committed k = false) : s.scanSet k = s := by
  unfold State.scanSet
  exact if_pos (.inl (by rw [h]; decide))

theorem State.injGen_none {s : State} {f chk : Nat} {u : Option Nat} (h : s.injHit f chk u = false) : s.injGen f chk u = s :=
  if_neg (by rw [h]; decide)

/-- The scan of a committed set that is in force and into which no error is injected. -/
theorem State.scanSet_committed {s : State} {k : Nat} (hc : s.committed k = true) (hl : s.crc.late = [])
    (hi : s.injHit (crcSource k).1 6 none = false) :
    s.scanSet k = if s.crcForce k ≠ s.refOf k then s.cause (crcSource k).1 (crcSource k).2
      else s.uncause (crcSource k).1 (crcSource k).2 := by
  unfold State.scanSet
  rw [if_neg (by rw [hc, hl, List.contains_nil]; decide)]
  dsimp only
  rw [State.injGen_none hi, hi, Bool.false_or]
  simp only [decide_eq_true_eq]

theorem State.scanSet_good {s : State} {k : Nat} (hl : s.crc.late = []) (hi : s.injHit (crcSource k).1 6 none = false)
    (hg : s.committed k = true → s.crcForce k = s.refOf k) : ScanStep s (s.scanSet k) := by
  cases hc : s.committed k with
  | false => rw [State.scanSet_idle hc]; exact ScanStep.refl s
  | true =>
    rw [State.scanSet_committed hc hl hi, if_neg (fun h => h (hg hc))]
    exact s.uncause_scan _ _

/-- Whether a set is good depends on registers and commit state alone. -/
theorem ScanStep.crcForce {s t : State} (h : ScanStep s t) (k : Nat) : t.crcForce k = s.crcForce k := by
  have hrg : t.rg = s.rg := funext fun o => State.rg_congr h.regs o
  have hsub : t.secIn = s.secIn := by
    funext c
    simp only [State.secIn, hrg]
  simp only [State.crcForce, State.setOffs, State.secOffs, hrg, hsub, Bool.false_eq_true, if_false]

theorem ScanStep.refOf {s t : State} (h : ScanStep s t) (k : Nat) : t.refOf k = s.refOf k := by
  rw [State.refOf, State.refOf, h.crc]

theorem ScanStep.injHit {s t : State} (h : ScanStep s t) (f k : Nat) (u : Option Nat) : t.injHit f k u = s.injHit f k u :=
  State.injHit_congr (State.rg_congr h.regs _) k u

/-- R641: committed sets with their references. -/
def State.crcGood (s : State) (ks : List Nat) : Prop :=
  ∀ k ∈ ks, s.injHit (crcSource k).1 6 none = false ∧ (s.committed k = true → s.crcForce k = s.refOf k)

theorem ScanStep.crcGood {s t : State} (h : ScanStep s t) {ks : List Nat} (hg : s.crcGood ks) : t.crcGood ks := fun k hk =>
  ⟨(h.injHit _ _ _).trans (hg k hk).1, fun hc => (h.crcForce k).trans
    (((hg k hk).2 ((State.committed_congr (congrArg Crc.flipped h.crc) k).symm.trans hc)).trans (h.refOf k).symm)⟩

theorem State.scanSets_good (ks : List Nat) : ∀ {s : State}, s.crc.late = [] → s.crcGood ks → ScanStep s (s.scanSets ks) := by
  induction ks with
  | nil => intro s _ _; exact ScanStep.refl s
  | cons k r ih =>
    intro s hl hg
    obtain ⟨hi, hk⟩ := hg k List.mem_cons_self
    have h := State.scanSet_good hl hi hk
    exact h.trans (ih ((congrArg Crc.late h.crc).trans hl) (h.crcGood fun j hj => hg j (List.mem_cons_of_mem _ hj)))

theorem State.scanSets_idle (ks : List Nat) : ∀ {s : State}, (∀ k ∈ ks, s.committed k = false) → s.scanSets ks = s := by
  induction ks with
  | nil => intro s _; rfl
  | cons k r ih =>
    intro s h
    rw [State.scanSets, State.scanSet_idle (h k List.mem_cons_self)]
    exact ih fun j hj => h j (List.mem_cons_of_mem _ hj)

theorem State.scanSets_append (ks js : List Nat) : ∀ (s : State), s.scanSets (ks ++ js) = (s.scanSets ks).scanSets js := by
  induction ks with
  | nil => intro s; rfl
  | cons k r ih => intro s; exact ih _

theorem State.scanSets_single {s : State} {k : Nat} (hk : k < 67) (ho : ∀ j, j < 67 → j ≠ k → s.committed j = false)
    (hcrc : (s.scanSet k).crc = s.crc) : s.scanSets (List.range 67) = s.scanSet k := by
  have hsplit : List.range 67 = List.range k ++ k :: (List.range (66 - k)).map (k + 1 + ·) := by
    rw [show 67 = k + ((66 - k) + 1) by omega, List.range_add, show List.range (66 - k + 1) = 0 :: (List.range (66 - k)).map (· + 1) by
      rw [List.range_succ_eq_map], List.map_cons, List.map_map]
    exact congrArg (_ ++ k :: ·) (List.map_congr_left fun a _ => by simp only [Function.comp]; omega)
  have hpre : s.scanSets (List.range k) = s := State.scanSets_idle _ fun j hj => by
    have := List.mem_range.1 hj
    exact ho j (by omega) (by omega)
  rw [hsplit, State.scanSets_append, hpre, State.scanSets]
  refine State.scanSets_idle _ fun j hj => ?_
  obtain ⟨i, hi, rfl⟩ := List.mem_map.1 hj
  have := List.mem_range.1 hi
  exact (State.committed_congr (congrArg Crc.flipped hcrc) _).trans (ho _ (by omega) (by omega))

theorem State.crc_cause {s : State} {f i : Nat} (h : s.mild f = true) (hl : s.later = []) (hi : i < 20) : (s.cause f i).crc = s.crc := by
  unfold State.cause
  dsimp only
  split
  · rfl
  · obtain ⟨r, q, fr, al, e, -⟩ := State.fault_mild { s with causes := (f * 32 + i) :: s.causes } f i h hl hi
    rw [e]

theorem crcSource_lt (k : Nat) : (crcSource k).2 < 20 := by
  have h : (crcSource k).2 ∈ [fcCfgCrc, ffRouteCrc, fbSecCrc, fsRtCrc] := by
    unfold crcSource
    split
    · exact List.mem_cons_self
    · split
      · decide
      · split <;> decide
  have hall : ∀ i ∈ [fcCfgCrc, ffRouteCrc, fbSecCrc, fsRtCrc], i < 20 := by decide
  exact hall _ h

theorem exec_cfgCrcScan (s : State) : exec .cfgCrcScan s = .next (s.scanSets (List.range 67)) := rfl

/-- A scan in which every set is good. -/
theorem State.scan_good {s : State} (hl : s.crc.late = []) (hi : ∀ k, k < 67 → s.injHit (crcSource k).1 6 none = false)
    (hg : ∀ k, k < 67 → s.committed k = true → s.crcForce k = s.refOf k) : ScanStep s (s.scanSets (List.range 67)) :=
  State.scanSets_good _ hl fun k hk => ⟨hi k (List.mem_range.1 hk), hg k (List.mem_range.1 hk)⟩

/-- A scan in which the only committed set, `k`, does not match its reference. -/
theorem State.scan_mismatch {s : State} {k : Nat} (hl : s.crc.late = []) (hi : s.injHit (crcSource k).1 6 none = false) (hk : k < 67)
    (hc : s.committed k = true) (ho : ∀ j, j < 67 → j ≠ k → s.committed j = false) (hne : s.crcForce k ≠ s.refOf k)
    (hm : s.mild (crcSource k).1 = true) (hlt : s.later = []) (hcs : s.causes.contains ((crcSource k).1 * 32 + (crcSource k).2) = false) :
    CauseBegun (crcSource k).1 (crcSource k).2 s (s.scanSets (List.range 67)) ∧ (s.scanSets (List.range 67)).committed k = true := by
  have hscan : s.scanSet k = s.cause (crcSource k).1 (crcSource k).2 := by
    rw [State.scanSet_committed hc hl hi, if_pos hne]
  have hcrc : (s.scanSet k).crc = s.crc := by rw [hscan]; exact State.crc_cause hm hlt (crcSource_lt k)
  rw [State.scanSets_single hk ho hcrc]
  exact ⟨hscan ▸ State.cause_begun hm hlt (crcSource_lt k) hcs, (State.committed_congr (congrArg Crc.flipped hcrc) k).trans hc⟩

end Sys2Proof.Machine

namespace Sys2Proof.Proofs
open Sys2Proof.Machine

/-- Settles O27: a pass, an uncommit and a commit by what the end of each writes; a scan set by set, of which each step leaves the
contents of the sets that follow. -/
theorem coveredSets : Obligations.CoveredSets := by
  unfold Obligations.CoveredSets
  refine ⟨fun s a k => ⟨fun hw => ?_, fun hp hk hv => ?_, fun hw hk hc => ?_, fun hw hk hc => ?_⟩, fun s a => ⟨fun hw hr => ?_,
    fun k ref hr hv => ⟨fun hk hy => congrArg Host.Outcome.next (State.commitEnd_fails hr hv hk hy), fun hk hc hf hs => ?_⟩⟩,
    fun s hl hi => ⟨fun hg => ?_, fun k hk hc ho hne hm hlt hcs => ?_⟩⟩
  · refine ⟨s.crcSelect k.toNat, ?_, ?_, rfl, fun o ho => State.rg_setRg_ne s _ ho⟩
    · change execCfgcrcSelWrite a k s = _
      rw [execCfgcrcSelWrite, State.mayWrite_next hw]
    · have hlt := k.isLt
      have hrg : (s.crcSelect k.toNat).rg sysCfgcrcSel = k.toNat % 4294967296 := State.rg_setRg_same s _ _
      unfold State.crcSel bitsOf
      rw [hrg]
      omega
  · refine ⟨s.crcPassEnd, rfl, ?_⟩
    rw [State.crcPassEnd_of hp hk hv]
    refine ⟨?_, State.rg_setRg_same _ _ 2, rfl, fun o h1 h2 => (State.rg_setRg_ne _ _ h2).trans (State.rg_setRg_ne s _ h1)⟩
    exact (State.rg_setRg_ne _ _ (by decide)).trans ((State.rg_setRg_same s _ _).trans (Nat.mod_eq_of_lt (s.crcWork_lt _)))
  · refine ⟨s.crcFlip s.crcSel, ?_, by rw [State.committed_crcFlip_same, hc]; rfl, fun j hj => State.committed_crcFlip_ne s hj, rfl, rfl, rfl⟩
    change execUncommit a s = _
    rw [execUncommit, State.mayWrite_next hw, State.uncommitCmd, if_pos ⟨hk, hc⟩]
  · change execUncommit a s = _
    rw [execUncommit, State.mayWrite_next hw, State.uncommitCmd, if_neg (by rw [hc]; exact fun h => nomatch h.2)]
  · change execCommit a s = _
    rw [execCommit, State.mayWrite_next hw, State.commitCmd, hr]
  · refine ⟨s.commitEnd, rfl, ?_⟩
    rw [State.commitEnd_safe hr hv hk (State.commitReason_safe hk hc hf hs)]
    have hcom := State.committed_safeTaken ref hc
    have href := s.refOf_safeTaken k ref
    obtain ⟨hregs, hchans, hmem, hrun⟩ := s.safeTaken_leaves k ref
    generalize s.safeTaken k ref = v at hcom href hregs hchans hmem hrun
    have hcrc : ((v.uncause (crcSource k).1 (crcSource k).2).flag sysCfgcrcFlags 1).crc = v.crc := State.flag_crc _ _ _
    refine ⟨(State.committed_congr (congrArg Crc.flipped hcrc) k).trans hcom, ?_, (congrArg Crc.run hcrc).trans hrun, ?_, fun o ho => ?_,
      fun n => ?_, fun b => ?_⟩
    · refine Eq.trans ?_ href
      rw [State.refOf, State.refOf, hcrc]
    · rw [State.flag_bit _ _ _ _ (by decide) (by decide), show bitOf 1 0 = true from rfl, Bool.or_true]
    · rw [State.flag_rg_ne _ _ ho, State.rg_uncause]
      exact State.rg_congr hregs o
    · rw [State.ch_flag]
      exact State.ch_congr ((State.chans_uncause _ _ _).trans hchans) n
    · exact State.byte_congr ((State.flag_mem (v.uncause (crcSource k).1 (crcSource k).2) _ _).trans ((State.mem_uncause _ _ _).trans hmem)) b
  · have h := State.scan_good hl hi hg
    rw [exec_cfgCrcScan]
    generalize s.scanSets (List.range 67) = t at h
    exact ⟨t, rfl, h.regs, h.chans, h.mem, h.crc⟩
  · obtain ⟨h, hkc⟩ := State.scan_mismatch hl (hi k hk) hk hc ho hne hm hlt hcs
    rw [exec_cfgCrcScan]
    generalize s.scanSets (List.range 67) = t at h hkc
    exact ⟨t, rfl, h.set, hkc, fun n => State.ch_congr h.chans n, fun b => State.byte_congr h.mem b⟩

end Sys2Proof.Proofs
end


section
/-! PROOFS. A base tick at whose end a registered SELECT takes effect (R527). -/

namespace Sys2Proof.Machine

/-- A device with every tile held, for which SELECT has registered the trim record of channel 0; its first cell is 5. -/
def flipTick : State :=
  { State.reset with running := true, held := 15, calFlip := [(2560, 0)], mem := [(0x5320000, 5)] }

/-- A tick without samples and without a die link's errors. -/
def quietTick : TickIn := { chans := [], upCrc := 0, upLate := 0, downCrc := 0 }

theorem State.baseTick_boundary {s : State} {inp : TickIn} (h : (s.coresRun inp.cores).running = true)
    (hu : (s.coresRun inp.cores).settleTick.endTick.running = true) :
    s.baseTick inp = State.boundary { (s.coresRun inp.cores).settleTick.endTick with
      tick := ((s.coresRun inp.cores).settleTick.endTick.tick + 1) % 18446744073709551616, cyc := 0 } inp := by
  unfold State.baseTick
  dsimp only
  rw [if_neg (fun hn => hn h), if_neg (fun hn => hn hu)]

theorem flipTick_runs : (flipTick.coresRun quietTick.cores).settleTick.endTick.running = true := by decide +kernel

/-- R527: the record's trims are channel 0's from the boundary on. -/
theorem flipTick_takes :
    (flipTick.baseTick quietTick).chans.length = 1 := by
  rw [State.baseTick_boundary (by decide +kernel) flipTick_runs]
  decide +kernel

end Sys2Proof.Machine

namespace Sys2Proof.Proofs
open Sys2Proof.Machine

/-- Refutes O52: with every tile held a flip that SELECT has registered for a trim record still takes effect at the end of the
tick (R527), and the channel takes the trims: its state changes, though the statement leaves `calFlip` free and lets no channel change. -/
theorem not_baseTick : ¬ Obligations.BaseTick := by
  unfold Obligations.BaseTick
  intro h
  obtain ⟨-, -, -, hidle⟩ := h flipTick quietTick
  obtain ⟨t, ht, -, -, -, hch, -⟩ := hidle rfl rfl rfl rfl rfl rfl rfl rfl rfl rfl rfl rfl rfl rfl rfl rfl rfl rfl rfl rfl
    (by decide +kernel) (by decide +kernel) (by decide +kernel)
  change Host.Outcome.next (flipTick.baseTick quietTick) = _ at ht
  obtain rfl := Host.Outcome.next.inj ht
  have hlen := flipTick_takes
  rw [hch] at hlen
  exact absurd hlen (by decide)

end Sys2Proof.Proofs
end

section
/-! PROOFS. The runs of the calibration step engines (R500 to R508). -/

namespace Sys2Proof.Machine

/-! One source that waits to report. -/

theorem State.drain_none {s : State} (h : s.later = []) (k : Nat) : s.drain k = s := by
  cases k with
  | zero => rfl
  | succ k => rw [State.drain, h]

/-- A single source of a mild frame: its record, and the cause of one of kind L. -/
theorem State.settleFaults_one {s : State} {f i : Nat} (h : s.mild f = true) (hl : s.later = [(f, i)]) (hi : i < 20) :
    ∃ r q fr al cs, s.settleFaults = { s with later := [], regs := r, seqRun := q, fltReg := fr, alive := al, causes := cs } ∧
      ∀ o, o ∉ reportRegs f → tget regReset r o = tget regReset s.regs o := by
  have hdrain : s.settleFaults = State.drain 511 (State.onsets0 { s with later := [] } f [i]) := by
    rw [State.settleFaults, State.drain, hl]
    rfl
  have hone (cs : List Nat) : State.report0 { s with later := [], causes := cs } f [(i, srcCls f i)] =
      State.fault { s with later := [], causes := cs } f i := by
    obtain ⟨-, -, hlater, -⟩ := State.report0_mild (s := { s with later := [], causes := cs }) (rs := [(i, srcCls f i)]) h
      (fun p hp => by rw [List.mem_singleton.1 hp]; exact hi)
    exact (State.drain_none hlater 512).symm
  rw [hdrain, State.onsets0]
  dsimp only
  by_cases hn : (!(((srcsOf f).getD i ⟨15, false, 0⟩).lvl && s.causes.contains (f * 32 + i))) = true
  · rw [List.filter_cons_of_pos (by exact hn), List.filter_nil, if_neg (by simp), List.map_cons, List.map_nil, hone]
    obtain ⟨r, q, fr, al, e, hr, -⟩ := State.fault_mild { s with later := [], causes := _ } f i h rfl hi
    rw [e, State.drain_none rfl]
    exact ⟨r, q, fr, al, _, rfl, hr⟩
  · rw [List.filter_cons_of_neg (by exact hn), List.filter_nil, if_pos rfl, State.drain_none rfl]
    exact ⟨s.regs, s.seqRun, s.fltReg, s.alive, s.causes, rfl, fun _ _ => rfl⟩

/-! A step that ends without a result. -/

theorem State.fireAt_only (s : State) (k i c : Nat) (g : Option Nat) : ∃ l, s.fireAt k i c g = { s with contribs := l } := ⟨_, rfl⟩

/-- The end of a step frees its tile: its converter, its bus, and an event where it held the bus. -/
theorem State.calFree_only (s : State) (t c : Nat) :
    ∃ p l, s.calFree t c = { s with pscs := p, tiles := tput (fun _ => ({} : Tile)) s.tiles t { s.tile t with cal := {} }, contribs := l } := by
  simp only [State.calFree]
  split
  · split <;> exact ⟨_, _, rfl⟩
  · split <;> split <;> exact ⟨_, _, rfl⟩

/-- The registers that the end of a step of tile `t` writes. -/
def calEndRegs (t : Nat) : List Nat := [calOff t calResult, calOff t calFlags, caldOff calRejects]

theorem calOff_ne_cald (t a b : Nat) (ht : t < 4) (ha : a < 256) : calOff t a ≠ caldOff b := by
  unfold calOff caldOff
  omega

theorem calEndRegs_not_reported {t : Nat} (ht : t < 4) {o : Nat} (h : o ∈ calEndRegs t ∨ o = fltOff (frTile t) fltReact) :
    o ∉ reportRegs (frTile t) := by
  have hall : ∀ t < 4, ∀ o ∈ fltOff (frTile t) fltReact :: calEndRegs t, o ∉ reportRegs (frTile t) := by decide
  exact hall t ht o (List.mem_cons.2 h.symm)

/-- What a rejection writes before its source reports. -/
def State.calMarked (s : State) (t why : Nat) : State := ((s.calWhy t why).flag (calOff t calFlags) 5).count (caldOff calRejects)

theorem State.rg_calMarked_ne (s : State) (t why : Nat) {o : Nat} (h : o ∉ calEndRegs t) : (s.calMarked t why).rg o = s.rg o := by
  simp only [calEndRegs, List.mem_cons, List.not_mem_nil, or_false, not_or] at h
  obtain ⟨h1, h2, h3⟩ := h
  rw [State.calMarked, State.rg_count_ne _ _ h3, State.flag_rg_ne _ _ h2, State.calWhy, State.rg_setRg_ne _ _ h1]

theorem State.rg_calMarked_result (s : State) {t : Nat} (why : Nat) (ht : t < 4) :
    (s.calMarked t why).rg (calOff t calResult) = setBits (s.rg (calOff t calResult)) 7 0 why := by
  rw [State.calMarked, State.rg_count_ne _ _ (calOff_ne_cald _ _ _ ht (by decide)),
    State.flag_rg_ne _ _ (by unfold calOff calResult calFlags; omega), State.calWhy, State.rg_setRg_same,
    setBits_word (s.rg_lt _) (by decide) (by decide)]

theorem State.rg_calMarked_flag (s : State) {t : Nat} (why : Nat) (ht : t < 4) :
    bitsOf ((s.calMarked t why).rg (calOff t calFlags)) 2 0 % 2 = 1 := by
  have hb : bitOf ((s.calMarked t why).rg (calOff t calFlags)) 0 = true := by
    rw [State.calMarked, State.rg_count_ne _ _ (calOff_ne_cald _ _ _ ht (by decide)), State.flag_bit _ _ _ _ (by decide) (by decide),
      show bitOf 5 0 = true from rfl, Bool.or_true]
  simp only [bitOf, Nat.pow_zero, Nat.div_one, decide_eq_true_eq] at hb
  simp only [bitsOf, Nat.pow_zero, Nat.div_one]
  omega

/-- The end of a rejected step: its tile is free, and its source waits to report. -/
def State.calRejectEnd (v : State) (t : Nat) : State :=
  { v.calFree t (v.at_ v.wcyc) with later := (v.calFree t (v.at_ v.wcyc)).later ++ [(10 + t, 8)] }

theorem State.calRejectEnd_only (v : State) (t : Nat) (hl : v.later = []) : ∃ p l, v.calRejectEnd t = { v with
    pscs := p, contribs := l, later := [(10 + t, 8)]
    tiles := tput (fun _ => ({} : Tile)) v.tiles t { v.tile t with cal := {} } } := by
  obtain ⟨p, l, e⟩ := v.calFree_only t (v.at_ v.wcyc)
  refine ⟨p, l, ?_⟩
  rw [State.calRejectEnd, e, hl]
  rfl

/-- R518: a step of tile `t` is rejected with reason `why`. -/
structure CalRejected (t why : Nat) (s u : State) : Prop where
  result : u.rg (calOff t calResult) = setBits (s.rg (calOff t calResult)) 7 0 why
  idle : (u.tile t).cal = {}
  flag : bitsOf (u.rg (calOff t calFlags)) 2 0 % 2 = 1
  rg : ∀ o, o ∉ calEndRegs t ++ reportRegs (frTile t) → u.rg o = s.rg o
  byte : ∀ b, u.byte b = s.byte b

theorem State.calFail_rejects {s : State} {t why : Nat} (ht : t < 4) (hm : s.mild (frTile t) = true) (hl : s.later = []) :
    CalRejected t why s (s.calFail t why) := by
  obtain ⟨hml, hmv, hmm⟩ : (s.calMarked t why).later = [] ∧ (s.calMarked t why).voteErr = s.voteErr ∧ (s.calMarked t why).mem = s.mem := by
    simp [State.calMarked, State.calWhy, State.count, hl]
  have hrej : s.calReject t why = (s.calMarked t why).calRejectEnd t := rfl
  have hres := s.rg_calMarked_result why ht
  have hflag := s.rg_calMarked_flag why ht
  have hrg (o : Nat) := s.rg_calMarked_ne t why (o := o)
  rw [State.calFail, hrej]
  generalize s.calMarked t why = v at hml hmv hmm hres hflag hrg
  obtain ⟨p, l, hend⟩ := v.calRejectEnd_only t hml
  have hmild : (v.calRejectEnd t).mild (frTile t) = true := by
    refine (State.mild_congr (s := s) ?_ ?_).trans hm
    · rw [hend]; exact hmv
    · have hreact : fltOff (frTile t) fltReact ∉ calEndRegs t := by
        have hall : ∀ t < 4, fltOff (frTile t) fltReact ∉ calEndRegs t := by decide
        exact hall t ht
      rw [hend]; exact hrg _ hreact
  obtain ⟨r, q, fr, al, cs, e, hr⟩ := State.settleFaults_one (i := 8) hmild (by rw [hend]) (by decide)
  have hkeep (o : Nat) (ho : o ∉ reportRegs (frTile t)) : (v.calRejectEnd t).settleFaults.rg o = v.rg o := by
    rw [e]
    refine (congrArg BitVec.toNat (hr o ho)).trans ?_
    rw [hend]
    rfl
  refine ⟨?_, ?_, ?_, fun o ho => ?_, fun b => ?_⟩
  · rw [hkeep _ (calEndRegs_not_reported ht (.inl (by simp [calEndRegs]))), hres]
  · rw [e, hend]
    simp only [State.tile, tget_tput_same]
  · rw [hkeep _ (calEndRegs_not_reported ht (.inl (by simp [calEndRegs])))]
    exact hflag
  · rw [List.mem_append, not_or] at ho
    exact (hkeep o ho.2).trans (hrg o ho.1)
  · rw [e, hend]
    exact State.byte_congr hmm b

/-! Points. -/

/-- R499: only a step of VRANGE or IRANGE drives pins. -/
theorem State.calPins_only (s : State) (t : Nat) : ∃ l, s.calPins t = { s with chans := l } := by
  unfold State.calPins
  dsimp only
  split
  · exact ⟨_, rfl⟩
  · exact ⟨_, rfl⟩

theorem State.calPins_none {s : State} {t : Nat} (h2 : calKind (s.tile t).cal ≠ 2) (h3 : calKind (s.tile t).cal ≠ 3) : s.calPins t = s :=
  if_pos ⟨h2, h3⟩

/-- The present point of step `c` begins to be measured. -/
def CalStep.measuring (c : CalStep) (tick : Nat) : CalStep :=
  { c with st := .measure, settled := false, rd := [], flt := [], from_ := tick }

theorem State.calMeasure_tile (s : State) (t : Nat) : ((s.calMeasure t).tile t).cal = (s.tile t).cal.measuring s.tick ∧
    (∀ o, (s.calMeasure t).rg o = s.rg o) ∧ ∀ b, (s.calMeasure t).byte b = s.byte b := by
  have hm : s.calMeasure t = (s.setCal t ((s.tile t).cal.measuring s.tick)).calPins t := rfl
  obtain ⟨l, e⟩ := (s.setCal t ((s.tile t).cal.measuring s.tick)).calPins_only t
  rw [hm, e]
  exact ⟨congrArg Tile.cal ((s.tile_setTile t t _).trans (if_pos rfl)), fun _ => rfl, fun _ => rfl⟩

theorem State.calMeasure_voteErr (s : State) (t : Nat) : (s.calMeasure t).voteErr = s.voteErr := by
  obtain ⟨l, e⟩ := (s.setCal t ((s.tile t).cal.measuring s.tick)).calPins_only t
  have hm : s.calMeasure t = (s.setCal t ((s.tile t).cal.measuring s.tick)).calPins t := rfl
  rw [hm, e]
  rfl

/-! GO. -/

/-- The step that GO would begin. -/
def State.calAsked (s : State) (t : Nat) : CalStep :=
  { step := s.rg (calOff t calStep), cfg := s.rg (calOff t calCfg), time := s.rg (calOff t calTime) }

/-- A GO that is accepted changes its tile's step and its converter alone. -/
structure CalBegun (t : Nat) (c : CalStep) (s u : State) : Prop where
  cal : (u.tile t).cal = c
  regs : u.regs = s.regs
  ch : ∀ n, u.ch n = s.ch n
  others : ∀ j, j ≠ t → u.tile j = s.tile j
  byte : ∀ b, u.byte b = s.byte b

/-- The step in its tile, with the converter that it takes. -/
def State.calTaken (s : State) (t : Nat) (c : CalStep) : State :=
  (if calUsesPsc (calKind c) then s.setPsc (calPsc t c) { st := .cal, own := 2 } else s).setCal t c

theorem State.calTaken_only (s : State) (t : Nat) (c : CalStep) :
    ∃ p, s.calTaken t c = { s with pscs := p, tiles := tput (fun _ => ({} : Tile)) s.tiles t { s.tile t with cal := c } } := by
  unfold State.calTaken
  split
  · exact ⟨_, rfl⟩
  · exact ⟨s.pscs, rfl⟩

theorem State.calTaken_begun (s : State) (t : Nat) (c : CalStep) : CalBegun t c s (s.calTaken t c) := by
  obtain ⟨p, e⟩ := s.calTaken_only t c
  rw [e]
  refine ⟨?_, rfl, fun _ => rfl, fun j hj => ?_, fun _ => rfl⟩
  · simp only [State.tile, tget_tput_same]
  · exact tget_tput_ne (d := fun _ => ({} : Tile)) s.tiles _ hj

theorem CalBegun.setCal {t : Nat} {c : CalStep} {s u : State} (h : CalBegun t c s u) (c' : CalStep) : CalBegun t c' s (u.setCal t c') :=
  ⟨congrArg Tile.cal ((u.tile_setTile t t _).trans (if_pos rfl)), h.regs, h.ch,
    fun j hj => ((u.tile_setTile t j _).trans (if_neg hj)).trans (h.others j hj), h.byte⟩

/-- What an accepted GO begins. -/
def State.calGone (s : State) (t : Nat) : State :=
  if calBusOf (calKind (s.calAsked t)) = 0 then (s.calTaken t (s.calAsked t)).calMeasure t
  else (s.calTaken t (s.calAsked t)).calAskBus t (calBusOf (calKind (s.calAsked t)))

theorem State.calGoCmd_eq (s : State) (t : Nat) : s.calGoCmd t false =
    (if s.calRefusal t (s.calAsked t) false ≠ 0 then
      (s.calWhy t (s.calRefusal t (s.calAsked t) false)).flag (calOff t calFlags) 8 else s.calGone t).votes
    (if s.calRefusal t (s.calAsked t) false ≠ 0 ∧ s.calRefusal t (s.calAsked t) false ≠ 36 then [] else calStds (s.calAsked t)) := rfl

section
variable {s : State} {t : Nat} (hv : s.voteErr = [])
include hv

theorem State.calGoCmd_refused (h : s.calRefusal t (s.calAsked t) false ≠ 0) :
    s.calGoCmd t false = (s.calWhy t (s.calRefusal t (s.calAsked t) false)).flag (calOff t calFlags) 8 := by
  rw [State.calGoCmd_eq, if_pos h, State.votes_none (by rw [State.flag_voteErr]; exact hv)]

theorem State.calGoCmd_taken (h : s.calRefusal t (s.calAsked t) false = 0) : s.calGoCmd t false = s.calGone t := by
  have hve : (s.calGone t).voteErr = [] := by
    obtain ⟨p, e⟩ := s.calTaken_only t (s.calAsked t)
    have ht : (s.calTaken t (s.calAsked t)).voteErr = [] := by rw [e]; exact hv
    unfold State.calGone
    split
    · exact ((s.calTaken t (s.calAsked t)).calMeasure_voteErr t).trans ht
    · exact ht
  rw [State.calGoCmd_eq, if_neg (fun hn => hn h), State.votes_none hve]

theorem State.calGoCmd_asks (h : s.calRefusal t (s.calAsked t) false = 0) (hb : calBusOf (calKind (s.calAsked t)) ≠ 0) :
    CalBegun t { s.calAsked t with st := .bus, bus := calBusOf (calKind (s.calAsked t)), from_ := s.tick } s (s.calGoCmd t false) := by
  rw [State.calGoCmd_taken hv h, State.calGone, if_neg hb]
  have hb := s.calTaken_begun t (s.calAsked t)
  have htick : (s.calTaken t (s.calAsked t)).tick = s.tick := by obtain ⟨p, e⟩ := s.calTaken_only t (s.calAsked t); rw [e]
  have h2 := hb.setCal { ((s.calTaken t (s.calAsked t)).tile t).cal with
    st := .bus, bus := calBusOf (calKind (s.calAsked t)), from_ := (s.calTaken t (s.calAsked t)).tick }
  rw [hb.cal, htick] at h2
  have he : (s.calTaken t (s.calAsked t)).calAskBus t (calBusOf (calKind (s.calAsked t))) =
      ((s.calTaken t (s.calAsked t)).setCal t { ((s.calTaken t (s.calAsked t)).tile t).cal with
        st := .bus, bus := calBusOf (calKind (s.calAsked t)), from_ := (s.calTaken t (s.calAsked t)).tick }).fireAt 24 t
        (State.at_ (s.calTaken t (s.calAsked t)) (s.calTaken t (s.calAsked t)).wcyc) none := rfl
  rw [he, hb.cal, htick]
  exact ⟨h2.cal, h2.regs, h2.ch, h2.others, h2.byte⟩

theorem State.calGoCmd_measures (h : s.calRefusal t (s.calAsked t) false = 0) (hb : calBusOf (calKind (s.calAsked t)) = 0) :
    CalBegun t { s.calAsked t with st := .measure, from_ := s.tick } s (s.calGoCmd t false) := by
  rw [State.calGoCmd_taken hv h, State.calGone, if_pos hb]
  have hbeg := s.calTaken_begun t (s.calAsked t)
  have htick : (s.calTaken t (s.calAsked t)).tick = s.tick := by obtain ⟨p, e⟩ := s.calTaken_only t (s.calAsked t); rw [e]
  have h2 := hbeg.setCal (((s.calTaken t (s.calAsked t)).tile t).cal.measuring (s.calTaken t (s.calAsked t)).tick)
  have hm : (s.calTaken t (s.calAsked t)).calMeasure t = ((s.calTaken t (s.calAsked t)).setCal t
      (((s.calTaken t (s.calAsked t)).tile t).cal.measuring (s.calTaken t (s.calAsked t)).tick)).calPins t := rfl
  have hkind : calKind (s.calAsked t) ≠ 2 ∧ calKind (s.calAsked t) ≠ 3 := by
    constructor <;> (intro hk; rw [hk] at hb; exact absurd hb (by decide))
  have hk : calKind (((s.calTaken t (s.calAsked t)).setCal t
      (((s.calTaken t (s.calAsked t)).tile t).cal.measuring (s.calTaken t (s.calAsked t)).tick)).tile t).cal = calKind (s.calAsked t) := by
    rw [h2.cal, hbeg.cal]; rfl
  rw [hm, State.calPins_none (by rw [hk]; exact hkind.1) (by rw [hk]; exact hkind.2)]
  rw [hbeg.cal, htick] at h2 ⊢
  exact h2

end

end Sys2Proof.Machine

namespace Sys2Proof.Proofs
open Sys2Proof.Machine

/-- Settles O16: a GO by its refusal or by the step that takes its tile, the points by what begins them, and a rejection by its
marks and by the record of its source. -/
theorem calibrationRuns : Obligations.CalibrationRuns := by
  unfold Obligations.CalibrationRuns
  refine ⟨fun s0 a t hw => ?_, fun s a t => ⟨fun hw hst => ?_, fun hst hse hfr => ?_, fun hm hl hst hto => ?_, fun hm hl hw hst => ?_⟩⟩
  · have hexec : exec (.calGo a t) s0 = .next (((s0.catchTo (s0.at_ s0.wcyc)).calGoCmd t.val false).passed
        (s0.catchTo (s0.at_ s0.wcyc)).wcyc) := by
      change execCalGo a t s0 = _
      rw [execCalGo, State.mayWrite_next hw]
      rfl
    rw [hexec]
    generalize s0.catchTo (s0.at_ s0.wcyc) = s
    intro s c hv
    refine ⟨fun hr => ?_, fun hr hb => ?_, fun hr hb => ?_⟩
    · rw [State.calGoCmd_refused hv hr]; rfl
    · have h := State.calGoCmd_asks hv hr hb
      exact ⟨_, rfl, h.cal, h.regs, h.ch, h.others, h.byte⟩
    · have h := State.calGoCmd_measures hv hr hb
      exact ⟨_, rfl, h.cal, h.regs, h.ch, h.others, h.byte⟩
  · refine ⟨s.calAck t.val, ?_, ?_⟩
    · change execBusAck a t s = _
      rw [execBusAck, State.mayWrite_next hw]
    · rw [State.calAck, if_pos hst]
      exact s.calMeasure_tile t.val
  · exact congrArg Host.Outcome.next (if_pos ⟨hst, hse, hfr⟩)
  · have h := State.calFail_rejects (why := 7) t.isLt hm hl
    refine ⟨s.calFail t.val 7, congrArg Host.Outcome.next (if_pos ⟨hst, hto⟩), h.result, h.idle, h.flag, h.rg, h.byte⟩
  · have h := State.calFail_rejects (why := 8) t.isLt hm hl
    refine ⟨s.calFail t.val 8, ?_, h.result, h.idle, h.flag, h.rg, h.byte⟩
    change execCalAbort a t s = _
    rw [execCalAbort, State.mayWrite_next hw, State.calAbortCmd, State.calAbandon]
    exact congrArg (fun u : State => Host.Outcome.next u.settleFaults) (if_neg hst)

end Sys2Proof.Proofs
end

section
/-! PROOFS. The evaluation of a loop at an own boundary (R110 to R121, R149, R151, R153). -/

namespace Sys2Proof.Machine

/-! Sums of products that do not saturate. -/

/-- R115: one product, in units of 2^-62. -/
def termOf (p : Coef × Int) : Int := if 0 ≤ p.1.e then p.1.c * p.2 * 2 ^ p.1.e.toNat else p.1.c * p.2 / 2 ^ (-p.1.e).toNat

/-- No sum of some of the products reaches the accumulator's limits. -/
def termsFit (ts : List (Coef × Int)) : Prop := (ts.map fun p => (termOf p).natAbs).sum ≤ 9223372036854775807

/-- R118: the sum of the products as a result. -/
def sumValue (ts : List (Coef × Int)) : Int := sat32 (rne (ts.map termOf).sum 2147483648)

theorem satTo_of_natAbs {v : Int} (h : v.natAbs ≤ 9223372036854775807) : satTo max63 v = v := by
  unfold satTo max63
  rw [if_neg (by omega), if_neg (by omega)]

theorem shiftProd_fits {k : Coef} {x : Int} (h : (termOf (k, x)).natAbs ≤ 9223372036854775807) : (shiftProd k x).1 = termOf (k, x) := by
  unfold termOf at h ⊢
  unfold shiftProd
  dsimp only at h ⊢
  by_cases he : 0 ≤ k.e
  · rw [if_pos he] at h ⊢
    rw [if_pos he]
    exact satTo_of_natAbs h
  · rw [if_neg he, if_neg he]

theorem macTerm_fits {a : Int} {ev : SatEv} {t : Coef × Int} (h : a.natAbs + (termOf t).natAbs ≤ 9223372036854775807) :
    (macTerm (a, ev) t).1 = a + termOf t := by
  have hp : (shiftProd t.1 t.2).1 = termOf t := shiftProd_fits (k := t.1) (x := t.2) (by change (termOf t).natAbs ≤ _; omega)
  change satTo max63 (a + (shiftProd t.1 t.2).1) = _
  rw [hp]
  exact satTo_of_natAbs (by omega)

theorem foldl_macTerm_fits (ts : List (Coef × Int)) : ∀ (a : Int × SatEv),
    a.1.natAbs + (ts.map fun p => (termOf p).natAbs).sum ≤ 9223372036854775807 →
    (ts.foldl macTerm a).1 = a.1 + (ts.map termOf).sum := by
  induction ts with
  | nil => intro a _; simp
  | cons t r ih =>
    intro a h
    rw [List.map_cons, List.sum_cons] at h ⊢
    have ht : (macTerm a t).1 = a.1 + termOf t := macTerm_fits (by omega)
    rw [List.foldl_cons, ih (macTerm a t) (by rw [ht]; omega), ht]
    omega

theorem accConv_macSum {ts : List (Coef × Int)} (h : termsFit ts) (ev : SatEv) : (accConv (macSum ev ts).1).1 = sumValue ts := by
  have hs : (macSum ev ts).1 = (ts.map termOf).sum :=
    (foldl_macTerm_fits ts (0, ev) (by rw [show (0 : Int).natAbs = 0 from rfl, Nat.zero_add]; exact h)).trans (Int.zero_add _)
  rw [accConv, hs]
  rfl

/-! The rows of the law. -/

/-- The products of the state's row `i`, of the integral and of the output (R149). -/
def rowTerms (c : CoefSet) (x : List Int) (u : Int) (y : Samp) (i : Nat) : List (Coef × Int) :=
  (c.phi.getD i []).zip x ++ [(c.gam.getD i ⟨0, 0⟩, u), (c.lv.getD i ⟨0, 0⟩, y.v), (c.li.getD i ⟨0, 0⟩, y.i)]

/-- R153: the integral leaves out an error that drives the output further into its limit. -/
def heldOut (c : CoefSet) (e uLim : Int) : Bool :=
  c.aw && (decide (0 < uLim ∧ 0 < c.ki.c * e) || decide (uLim < 0 ∧ c.ki.c * e < 0))

theorem stepX_fold (c : CoefSet) (x : List Int) (u : Int) (y : Samp) (is : List Nat) : ∀ (a : List Int × SatEv),
    ∃ l, (is.foldl (fun (a : List Int × SatEv) i =>
        let (r, ev) := rowX c x u y i a.2
        (a.1 ++ [r], ev)) a).1 = a.1 ++ l ∧ l.length = is.length ∧
      ∀ j (hj : j < is.length), ∃ ev, l.getD j 0 = (rowX c x u y is[j] ev).1 := by
  induction is with
  | nil => intro a; exact ⟨[], (List.append_nil _).symm, rfl, fun j hj => nomatch hj⟩
  | cons i r ih =>
    intro a
    obtain ⟨l, hl, hlen, hrow⟩ := ih (a.1 ++ [(rowX c x u y i a.2).1], (rowX c x u y i a.2).2)
    refine ⟨(rowX c x u y i a.2).1 :: l, ?_, by rw [List.length_cons, List.length_cons, hlen], fun j hj => ?_⟩
    · rw [List.foldl_cons]
      exact hl.trans (by rw [List.append_assoc]; rfl)
    · cases j with
      | zero => exact ⟨a.2, rfl⟩
      | succ j =>
        obtain ⟨ev, h⟩ := hrow j (Nat.lt_of_succ_lt_succ hj)
        exact ⟨ev, h⟩

theorem stepX_rows (c : CoefSet) (x : List Int) (u : Int) (y : Samp) (ev : SatEv) :
    (stepX c x u y ev).1.length = c.order ∧
    ∀ i, i < c.order → termsFit (rowTerms c x u y i) → (stepX c x u y ev).1.getD i 0 = sumValue (rowTerms c x u y i) := by
  obtain ⟨l, hl, hlen, hrow⟩ := stepX_fold c x u y (List.range c.order) ([], ev)
  have hx : (stepX c x u y ev).1 = l := hl
  rw [hx]
  refine ⟨hlen.trans (List.length_range ..), fun i hi hf => ?_⟩
  obtain ⟨ev', h⟩ := hrow i (by rw [List.length_range]; exact hi)
  rw [h, List.getElem_range]
  exact accConv_macSum hf ev'

theorem stepZ_value (c : CoefSet) (z e uLim : Int) (ev : SatEv)
    (hf : termsFit [(c.w, z), (c.ki, if heldOut c e uLim then 0 else e)]) :
    (stepZ c z e uLim ev).1 = sumValue [(c.w, z), (c.ki, if heldOut c e uLim then 0 else e)] := by
  have hheld : (c.aw && ((decide (uLim > 0) && decide (c.ki.c * e > 0)) || (decide (uLim < 0) && decide (c.ki.c * e < 0)))) =
      heldOut c e uLim := by
    rw [heldOut, Bool.decide_and, Bool.decide_and]
  have hz : (stepZ c z e uLim ev).1 = (accConv (macSum ev [(c.w, z), (c.ki, if heldOut c e uLim then 0 else e)]).1).1 := by
    unfold stepZ
    dsimp only
    rw [hheld]
  rw [hz]
  exact accConv_macSum hf ev

theorem limitU_over (c : CoefSet) {v : Int} (ev : SatEv) (h : c.umax < v) :
    (limitU c v ev).1 = c.umax ∧ (limitU c v ev).2.1 = 1 := by
  rw [limitU, if_pos h]
  exact ⟨rfl, rfl⟩
theorem limitU_under (c : CoefSet) {v : Int} (ev : SatEv) (h : v ≤ c.umax) (h' : v < c.umin) :
    (limitU c v ev).1 = c.umin ∧ (limitU c v ev).2.1 = -1 := by
  rw [limitU, if_neg (by omega), if_pos h']
  exact ⟨rfl, rfl⟩
theorem limitU_within (c : CoefSet) {v : Int} (ev : SatEv) (h : v ≤ c.umax) (h' : c.umin ≤ v) :
    (limitU c v ev).1 = v ∧ (limitU c v ev).2.1 = 0 := by
  rw [limitU, if_neg (by omega), if_neg (by omega)]
  exact ⟨rfl, rfl⟩

theorem stepU_limits (c : CoefSet) (g : List Coef) (x : List Int) (r z : Int) (ev : SatEv)
    (hf : termsFit (g.zip x ++ [(c.n, r), (⟨1073741824, 1⟩, z)])) :
    ∃ ev', stepU c g x r z ev = limitU c (sumValue (g.zip x ++ [(c.n, r), (⟨1073741824, 1⟩, z)])) ev' :=
  ⟨_, by rw [← accConv_macSum hf ev]; rfl⟩

theorem evalLaw_limits (c : CoefSet) (x : List Int) (z u uLim r : Int) (y : Samp) :
    let k := evalLaw c x z u uLim r y
    let ts := c.nk.zip k.x ++ [(c.n, r), (⟨1073741824, 1⟩, k.z)]
    termsFit ts →
      (c.umax < sumValue ts → k.u = c.umax ∧ k.lim = 1) ∧
      (sumValue ts ≤ c.umax → sumValue ts < c.umin → k.u = c.umin ∧ k.lim = -1) ∧
      (sumValue ts ≤ c.umax → c.umin ≤ sumValue ts → k.u = sumValue ts ∧ k.lim = 0) := by
  intro k ts hf
  obtain ⟨ev, he⟩ := stepU_limits c c.nk k.x r k.z (stepZ c z (errOf c.fi r y) uLim (stepX c x u y {}).2).2 hf
  have hu : k.u = (limitU c (sumValue ts) ev).1 := congrArg (·.1) he
  have hl : k.lim = (limitU c (sumValue ts) ev).2.1 := congrArg (·.2.1) he
  rw [hu, hl]
  exact ⟨limitU_over c ev, limitU_under c ev, limitU_within c ev⟩

/-! What a stage of a channel's boundary leaves. -/

/-- No other channel and no byte of memory, no register but those of `rs`, and nothing that waits to report. -/
structure StageStep (n : Nat) (rs : List Nat) (s t : State) : Prop where
  others : ∀ m, m ≠ n → t.ch m = s.ch m
  mem : t.mem = s.mem
  voteErr : t.voteErr = s.voteErr
  later : t.later = s.later
  rg : ∀ o, o ∉ rs → t.rg o = s.rg o

section
variable {n : Nat} {rs qs : List Nat} {s t u : State}

theorem StageStep.refl (n : Nat) (rs : List Nat) (s : State) : StageStep n rs s s := ⟨fun _ _ => rfl, rfl, rfl, rfl, fun _ _ => rfl⟩
theorem StageStep.trans (h : StageStep n rs s t) (h' : StageStep n rs t u) : StageStep n rs s u :=
  ⟨fun m hm => (h'.others m hm).trans (h.others m hm), h'.mem.trans h.mem, h'.voteErr.trans h.voteErr, h'.later.trans h.later,
    fun o ho => (h'.rg o ho).trans (h.rg o ho)⟩
theorem StageStep.mono (h : StageStep n rs s t) (hr : rs ⊆ qs) : StageStep n qs s t :=
  ⟨h.others, h.mem, h.voteErr, h.later, fun o ho => h.rg o fun hm => ho (hr hm)⟩
theorem StageStep.mild (h : StageStep n rs s t) {f : Nat} (hr : fltOff f fltReact ∉ rs) (hm : s.mild f = true) : t.mild f = true :=
  (State.mild_congr h.voteErr (h.rg _ hr)).trans hm

theorem StageStep.updCh (n : Nat) (rs : List Nat) (s : State) (f : Chan → Chan) : StageStep n rs s (s.updCh n f) :=
  ⟨fun _ hm => State.ch_updCh_ne s f hm, rfl, rfl, rfl, fun _ _ => rfl⟩
theorem StageStep.setCh (n : Nat) (rs : List Nat) (s : State) (c : Chan) : StageStep n rs s (s.setCh n c) :=
  ⟨fun _ hm => State.ch_setCh_ne s c hm, rfl, rfl, rfl, fun _ _ => rfl⟩
theorem StageStep.setRg (s : State) {o : Nat} (v : Nat) (h : o ∈ rs) : StageStep n rs s (s.setRg o v) :=
  ⟨fun _ _ => rfl, rfl, rfl, rfl, fun _ hp => State.rg_setRg_ne s v fun e => hp (e ▸ h)⟩
theorem StageStep.flag (s : State) {o : Nat} (v : Nat) (h : o ∈ rs) : StageStep n rs s (s.flag o v) :=
  ⟨fun _ _ => State.ch_congr (s.flag_chans o v) _, s.flag_mem o v, s.flag_voteErr o v, s.flag_later o v,
    fun _ hp => State.flag_rg_ne s v fun e => hp (e ▸ h)⟩
theorem StageStep.count (s : State) {o : Nat} (k : Nat) (h : o ∈ rs) : StageStep n rs s (s.count o k) := StageStep.setRg s _ h
theorem StageStep.setCr (s : State) {r : Nat} (v : Nat) (h : chOff n r ∈ rs) : StageStep n rs s (s.setCr n r v) := StageStep.setRg s v h
theorem StageStep.cflag (s : State) {r : Nat} (v : Nat) (h : chOff n r ∈ rs) : StageStep n rs s (s.cflag n r v) := StageStep.flag s v h
theorem StageStep.ccount (s : State) {r : Nat} (k : Nat) (h : chOff n r ∈ rs) : StageStep n rs s (s.ccount n r k) := StageStep.count s k h

theorem StageStep.fireCh (n : Nat) (rs : List Nat) (s : State) (k c : Nat) : StageStep n rs s (s.fireCh k n c) := by
  obtain ⟨l, hl⟩ := s.fireChAt_only k n (s.at_ c)
  rw [State.fireCh, hl]
  exact ⟨fun _ _ => rfl, rfl, rfl, rfl, fun _ _ => rfl⟩

/-- Sources of a mild frame report. -/
theorem StageStep.report {f : Nat} (l : List (Nat × Nat)) (hm : s.mild f = true) (hl : s.later = []) (h20 : ∀ p ∈ l, p.1 < 20)
    (hr : reportRegs f ⊆ rs) : StageStep n rs s (s.report f l) ∧ (s.report f l).chans = s.chans := by
  obtain ⟨r, q, fr, al, e, hrg, -⟩ := s.report_mild f l hm hl h20
  rw [e]
  exact ⟨⟨fun _ _ => rfl, rfl, rfl, rfl, fun o ho => congrArg BitVec.toNat (hrg o fun hmem => ho (hr hmem))⟩, rfl⟩

theorem StageStep.foldl_setCr (r v : Nat → Nat) (is : List Nat) : ∀ (s : State), (∀ i ∈ is, chOff n (r i) ∈ rs) →
    StageStep n rs s (is.foldl (fun s i => s.setCr n (r i) (v i)) s) ∧ (is.foldl (fun s i => s.setCr n (r i) (v i)) s).chans = s.chans := by
  induction is with
  | nil => intro s _; exact ⟨StageStep.refl n rs s, rfl⟩
  | cons i l ih =>
    intro s h
    obtain ⟨h1, h2⟩ := ih (s.setCr n (r i) (v i)) fun j hj => h j (List.mem_cons_of_mem _ hj)
    exact ⟨(StageStep.setCr s _ (h i List.mem_cons_self)).trans h1, h2⟩

end

/-! The evaluation of a boundary. -/

/-- The registers that an evaluation may write: a snapshot's, those of saturations, and a fault's. -/
def evalRegs (n : Nat) : List Nat :=
  (List.range 8).map (fun i => chOff n (chXsnap + 4 * i)) ++
    [chOff n chZsnap, chOff n chUsnap, chOff n chSnapTick, chOff n chLawSnap, engOff (engSatfirst + 4 * n), engOff (engSat + 4 * n),
      engOff (engSatcnt + 4 * n)] ++ reportRegs (frCh n)

theorem fltOff_frCh {n : Nat} (r : Nat) : fltOff (frCh n) r = chOff n (0xF00 + r) := by
  unfold fltOff frCh frameOff chOff
  rw [if_neg (by omega), if_neg (by omega), if_neg (by omega), if_neg (by omega), if_neg (by omega), if_neg (by omega), if_neg (by omega),
    if_neg (by omega), if_neg (by omega)]
  omega

theorem fltReact_not_evalRegs {n : Nat} (hn : n < 64) : fltOff (frCh n) fltReact ∉ evalRegs n := by
  intro h
  simp only [evalRegs, reportRegs, List.mem_append, List.mem_map, List.mem_range, List.mem_cons, List.not_mem_nil, or_false, fltOff_frCh,
    engOff, chOff, fltReact, fltSts, fltCnt, fltLast, fltEsc, fltRepeats, engSatfirst, engSat, engSatcnt, chXsnap, chZsnap, chUsnap,
    chSnapTick, chLawSnap] at h
  omega

theorem State.snapStage_step (s : State) (n : Nat) (o : LawOut) : StageStep n (evalRegs n) s (s.snapStage n o) ∧
    ∃ v, ((s.snapStage n o).ch n).law = { (s.ch n).law with snap := v } := by
  unfold State.snapStage
  split
  · exact ⟨StageStep.refl _ _ _, _, rfl⟩
  · next k hk =>
    split
    · exact ⟨StageStep.refl _ _ _, _, rfl⟩
    · dsimp only
      have hmem : ∀ r ∈ [chZsnap, chUsnap, chSnapTick, chLawSnap], chOff n r ∈ evalRegs n := by
        intro r hr
        simp only [List.mem_cons, List.not_mem_nil, or_false] at hr
        simp only [evalRegs, List.mem_append, List.mem_cons, chOff_inj]
        exact .inl (.inr (by tauto))
      obtain ⟨h1, h2⟩ := StageStep.foldl_setCr (n := n) (rs := evalRegs n) (fun i => chXsnap + 4 * i) (fun i => (word32 (o.snap.getD i 0)).toNat)
        (List.range 8) s fun i hi => by
          simp only [evalRegs, List.mem_append]
          exact .inl (.inl (List.mem_map.2 ⟨i, hi, rfl⟩))
      generalize (List.range 8).foldl (fun s i => s.setCr n (chXsnap + 4 * i) (word32 (o.snap.getD i 0)).toNat) s = u at h1 h2
      refine ⟨?_, none, ?_⟩
      · exact ((((h1.trans (StageStep.setCr u _ (hmem chZsnap (by simp)))).trans (StageStep.setCr _ _ (hmem chUsnap (by simp)))).trans
          (StageStep.setCr _ _ (hmem chSnapTick (by simp)))).trans (StageStep.setCr _ _ (hmem chLawSnap (by simp)))).trans
          (StageStep.updCh n _ _ _)
      · rw [State.ch_updCh_same]
        exact congrArg (fun c : Chan => { c.law with snap := none }) (State.ch_congr h2 n)

theorem State.satFlags_step {s : State} {n : Nat} (hn : n < 64) (hm : s.mild (frCh n) = true) (hl : s.later = []) (ev : SatEv) :
    StageStep n (evalRegs n) s (s.satFlags n ev) ∧ (s.satFlags n ev).chans = s.chans := by
  have hmem : ∀ o ∈ [engOff (engSatfirst + 4 * n), engOff (engSat + 4 * n), engOff (engSatcnt + 4 * n)], o ∈ evalRegs n := by
    intro o ho
    simp only [List.mem_cons, List.not_mem_nil, or_false] at ho
    simp only [evalRegs, List.mem_append, List.mem_cons]
    exact .inl (.inr (by tauto))
  unfold State.satFlags
  dsimp only
  split
  · exact ⟨StageStep.refl _ _ _, rfl⟩
  · have h1 : ∀ b : Prop, [Decidable b] →
        StageStep n (evalRegs n) s (if b then s.setRg (engOff (engSatfirst + 4 * n)) (s.tick % 4294967296) else s) ∧
        (if b then s.setRg (engOff (engSatfirst + 4 * n)) (s.tick % 4294967296) else s).chans = s.chans := by
      intro b _
      split
      · exact ⟨StageStep.setRg s _ (hmem _ (by simp)), rfl⟩
      · exact ⟨StageStep.refl _ _ _, rfl⟩
    obtain ⟨ha, hc⟩ := h1 (s.rg (engOff (engSat + 4 * n)) % 16 = 0)
    generalize (if s.rg (engOff (engSat + 4 * n)) % 16 = 0 then s.setRg (engOff (engSatfirst + 4 * n)) (s.tick % 4294967296) else s) = u at ha hc
    generalize hmask : (b2n ev.mul + 2 * b2n ev.acc + 4 * b2n ev.out + 8 * b2n ev.st) = m
    have hb := (ha.trans (StageStep.flag u m (hmem (engOff (engSat + 4 * n)) (by simp)))).trans
      (StageStep.count (u.flag (engOff (engSat + 4 * n)) m) 1 (hmem (engOff (engSatcnt + 4 * n)) (by simp)))
    obtain ⟨hr, hrc⟩ := StageStep.report (n := n) (rs := evalRegs n)
      (((List.range 4).filter fun i => bitOf m i && !bitOf (s.rg (engOff (engSat + 4 * n)) % 16) i).map fun i => (i + 1, clsLoop))
      (hb.mild (fltReact_not_evalRegs hn) hm) (hb.later.trans hl) (fun p hp => by
        obtain ⟨i, hi, rfl⟩ := List.mem_map.1 hp
        have := List.mem_range.1 (List.mem_of_mem_filter hi)
        exact (by omega : i + 1 < 20)) (List.subset_append_right _ _)
    exact ⟨hb.trans hr, hrc.trans ((u.flag_chans _ _).trans hc)⟩

/-- The channel with what an evaluation has formed. -/
def Chan.evaluated (c : Chan) (o : LawOut) : Chan :=
  { c with law := { c.law with x := o.x, z := o.z, run := true, cold := false, owed := none, made := true, uNext := o.u, uLimNext := o.lim } }

section
variable {s : State} {n : Nat} {b : BIn} (hn : n < 64) (hm : s.mild (frCh n) = true) (hl : s.later = [])
  (hue : s.memUE = []) (hce : s.memCE = []) (hon : (s.ch n).loopOn = true)

include hue in
theorem State.badSets_none : s.badSets n = [] := by
  have hset (k : Nat) (parts : Nat → List (Nat × Nat)) : s.setUE n k parts = false := by
    unfold State.setUE
    exact List.any_eq_false.2 fun p _ => by rw [State.ue, hue, List.any_nil]; exact Bool.false_ne_true
  unfold State.badSets
  dsimp only
  simp only [hset, Bool.false_eq_true, if_false, and_false, List.nil_append]
  split <;> rfl

include hn hm hl hue hce hon in
/-- The evaluation with samples, outside a late transfer. -/
theorem State.evalStage_made (y : Samp) (he : b.ecc = false) (hb : b.late = false) :
    StageStep n (evalRegs n) s (s.evalStage n b (some y)) ∧
    ∃ v, ((s.evalStage n b (some y)).ch n).law =
      { ((s.ch n).evaluated (s.lawEval n (s.ch n).sup.rUse y (s.scales n))).law with snap := v } := by
  have hread : s.lawReads n = s := if_pos ⟨hue, hce⟩
  have hstage : s.evalStage n b (some y) =
      ((s.updCh n (·.evaluated (s.lawEval n (s.ch n).sup.rUse y (s.scales n)))).snapStage n
        (s.lawEval n (s.ch n).sup.rUse y (s.scales n))).satFlags n (s.lawEval n (s.ch n).sup.rUse y (s.scales n)).ev := by
    unfold State.evalStage
    rw [if_pos hon]
    dsimp only
    rw [State.badSets_none hue, hread, he, hb]
    rfl
  rw [hstage]
  generalize s.lawEval n (s.ch n).sup.rUse y (s.scales n) = o
  have h1 := StageStep.updCh n (evalRegs n) s (·.evaluated o)
  obtain ⟨h2, v, hv⟩ := (s.updCh n (·.evaluated o)).snapStage_step n o
  have h12 := h1.trans h2
  obtain ⟨h3, hc⟩ := State.satFlags_step hn (h12.mild (fltReact_not_evalRegs hn) hm) (h12.later.trans hl) o.ev
  refine ⟨h12.trans h3, v, ?_⟩
  rw [State.ch_congr hc n, hv, State.ch_updCh_same]

end

end Sys2Proof.Machine
end

section
/-! PROOFS. The swaps of an own boundary (R171 to R177, R179, R195). -/

namespace Sys2Proof.Machine

/-! What the parts of a swap write. -/

/-- The registers of channel `n` that a swap, or one that is lost or finds no target, may write. -/
def swapRegs (n : Nat) : List Nat :=
  [chSwaps, chSwapTick, chLeSts, chSupFlags, chSetSts, chCxCount, chHoFail, chHoFlags, chHoFails].map (chOff n) ++ reportRegs (frCh n)

theorem chOff_mem_swapRegs {n r : Nat} (h : r ∈ [chSwaps, chSwapTick, chLeSts, chSupFlags, chSetSts, chCxCount, chHoFail, chHoFlags, chHoFails]) :
    chOff n r ∈ swapRegs n := List.mem_append_left _ (List.mem_map_of_mem h)

/-- A register of the channel's block that no swap writes. -/
theorem chOff_not_mem_swapRegs {n r : Nat}
    (h : r ∉ [chSwaps, chSwapTick, chLeSts, chSupFlags, chSetSts, chCxCount, chHoFail, chHoFlags, chHoFails])
    (hr : r ∉ [0xF00 + fltSts, 0xF00 + fltCnt, 0xF00 + fltLast, 0xF00 + fltEsc, 0xF00 + fltRepeats]) : chOff n r ∉ swapRegs n := by
  rw [swapRegs, List.mem_append, not_or]
  refine ⟨fun hm => ?_, fun hm => hr ?_⟩
  · obtain ⟨x, hx, he⟩ := List.mem_map.1 hm
    exact h ((chOff_inj n x r).1 he ▸ hx)
  · simpa only [reportRegs, fltOff_frCh, List.mem_cons, List.not_mem_nil, or_false, chOff_inj] using hm

/-- A part of a swap: it leaves the request for SHD. -/
structure SwapStep (n : Nat) (s t : State) : Prop extends StageStep n (swapRegs n) s t where
  shdReq : (t.ch n).law.shdReq = (s.ch n).law.shdReq

section
variable {n : Nat} {s t u : State}

theorem SwapStep.refl (n : Nat) (s : State) : SwapStep n s s := ⟨StageStep.refl _ _ s, rfl⟩
theorem SwapStep.trans (h : SwapStep n s t) (h' : SwapStep n t u) : SwapStep n s u :=
  ⟨h.toStageStep.trans h'.toStageStep, h'.shdReq.trans h.shdReq⟩
theorem SwapStep.mild (h : SwapStep n s t) (hm : s.mild (frCh n) = true) : t.mild (frCh n) = true :=
  h.toStageStep.mild (by rw [fltOff_frCh]; exact chOff_not_mem_swapRegs (by decide) (by decide)) hm

theorem SwapStep.updCh (s : State) {f : Chan → Chan} (hf : (f (s.ch n)).law.shdReq = (s.ch n).law.shdReq) : SwapStep n s (s.updCh n f) :=
  ⟨StageStep.updCh _ _ s f, by rw [State.ch_updCh_same]; exact hf⟩
theorem SwapStep.setCh (s : State) {c : Chan} (hc : c.law.shdReq = (s.ch n).law.shdReq) : SwapStep n s (s.setCh n c) :=
  ⟨StageStep.setCh _ _ s c, by rw [State.ch_setCh_same]; exact hc⟩
theorem SwapStep.setCr (s : State) {r : Nat} (v : Nat)
    (h : r ∈ [chSwaps, chSwapTick, chLeSts, chSupFlags, chSetSts, chCxCount, chHoFail, chHoFlags, chHoFails]) :
    SwapStep n s (s.setCr n r v) := ⟨StageStep.setCr s v (chOff_mem_swapRegs h), rfl⟩
theorem SwapStep.cflag (s : State) {r : Nat} (v : Nat)
    (h : r ∈ [chSwaps, chSwapTick, chLeSts, chSupFlags, chSetSts, chCxCount, chHoFail, chHoFlags, chHoFails]) :
    SwapStep n s (s.cflag n r v) := ⟨StageStep.cflag s v (chOff_mem_swapRegs h), by rw [State.ch_cflag]⟩
theorem SwapStep.ccount (s : State) {r : Nat} (k : Nat)
    (h : r ∈ [chSwaps, chSwapTick, chLeSts, chSupFlags, chSetSts, chCxCount, chHoFail, chHoFlags, chHoFails]) :
    SwapStep n s (s.ccount n r k) := ⟨StageStep.ccount s k (chOff_mem_swapRegs h), rfl⟩
theorem SwapStep.fireCh (s : State) (k n c : Nat) : SwapStep n s (s.fireCh k n c) :=
  ⟨StageStep.fireCh _ _ s k c, by rw [State.ch_fireCh]⟩

theorem SwapStep.leAbort (s : State) (n why : Nat) : SwapStep n s (s.leAbort n why) := by
  simp only [State.leAbort]
  split
  · exact ((SwapStep.setCh s (c := { s.ch n with le := { fit := (s.ch n).le.fit } }) rfl).trans (SwapStep.setCr _ _ (by decide))).trans
      (SwapStep.cflag _ _ (by decide))
  · exact SwapStep.refl n s

theorem SwapStep.endCompl (s : State) (n : Nat) : SwapStep n s (s.endCompl n) := by
  rw [State.endCompl]
  split
  · exact (SwapStep.updCh s rfl).trans (SwapStep.fireCh _ _ _ _)
  · exact SwapStep.refl n s

theorem SwapStep.exchange (s : State) (n target : Nat) : SwapStep n s (s.exchange n target) :=
  ((SwapStep.setCh s (c := { s.ch n with law := { (s.ch n).law with act := target, shd := (s.ch n).law.act } }) rfl).trans
    (SwapStep.ccount _ 1 (r := chSwaps) (by decide))).trans (SwapStep.setCr _ _ (r := chSwapTick) (by decide))

/-- The channel on the way to another set: its evaluation is owed. -/
def Chan.owing (c : Chan) (w : Nat) (keepFb : Bool) : Chan :=
  { c with
    law := { c.law with owed := some (c.law.owed.getD { out := c.law.act, rng := c.rng }) }
    sup := { c.sup with fallback := c.sup.fallback && keepFb, oscSign := 0, oscCnt := 0, oscN := 0, oscBlank := bitsOf w 31 24 + 1 } }

theorem State.swapTo_eq (s : State) (n target why : Nat) (keepFb : Bool) :
    s.swapTo n target why keepFb = ((s.setCh n ((s.ch n).owing (s.cr n chOscWin) keepFb)).exchange n target).leAbort n why := by
  unfold State.swapTo Chan.owing
  dsimp only
  cases (s.ch n).law.owed with
  | none => rfl
  | some o => rfl

theorem SwapStep.swapTo (s : State) (n target why : Nat) (keepFb : Bool) : SwapStep n s (s.swapTo n target why keepFb) := by
  rw [State.swapTo_eq]
  exact ((SwapStep.setCh s (c := (s.ch n).owing (s.cr n chOscWin) keepFb) rfl).trans (SwapStep.exchange _ _ _)).trans (SwapStep.leAbort _ _ _)

section
variable (hm : s.mild (frCh n) = true) (hl : s.later = [])
include hm hl

theorem SwapStep.report {l : List (Nat × Nat)} (h20 : ∀ p ∈ l, p.1 < 20) : SwapStep n s (s.report (frCh n) l) := by
  obtain ⟨h, hc⟩ := StageStep.report (n := n) (rs := swapRegs n) l hm hl h20 (List.subset_append_right _ _)
  exact ⟨h, by rw [State.ch_congr hc]⟩

theorem SwapStep.fault {i : Nat} (hi : i < 20) : SwapStep n s (s.fault (frCh n) i) :=
  SwapStep.report hm hl fun p hp => by rw [List.mem_singleton.1 hp]; exact hi

theorem SwapStep.setNotValid : SwapStep n s (s.setNotValid n) := by
  have h := SwapStep.cflag (n := n) s (r := chSetSts) 0x10 (by decide)
  exact h.trans (SwapStep.fault (h.mild hm) (h.later.trans hl) (by decide))

omit hm hl in
theorem SwapStep.hoDrop (s : State) (n why : Nat) : SwapStep n s (s.hoDrop n why) :=
  (((SwapStep.setCr s _ (r := chHoFail) (by decide)).trans (SwapStep.cflag _ 2 (r := chHoFlags) (by decide))).trans
    (SwapStep.ccount _ 1 (r := chHoFails) (by decide))).trans (SwapStep.setCh _ rfl)

theorem SwapStep.hoAbandon (why : Nat) : SwapStep n s (s.hoAbandon n why) := by
  unfold State.hoAbandon
  have h := SwapStep.hoDrop s n why
  dsimp only
  split
  · exact h
  · exact h.trans (SwapStep.fault (h.mild hm) (h.later.trans hl) (by decide))

theorem SwapStep.hoInvalid : SwapStep n s (s.hoInvalid n) := by
  have h := (SwapStep.cflag (n := n) s (r := chSetSts) 0x10 (by decide)).trans (SwapStep.hoDrop _ n 6)
  refine h.trans (SwapStep.report (h.mild hm) (h.later.trans hl) ?_)
  decide

/-- A request that takes effect, or whose target is not valid. -/
theorem SwapStep.takeSwap (q : SwapReq) : SwapStep n s (s.takeSwap n q) := by
  have hnv {v : State} (h : SwapStep n s v) : SwapStep n s (v.setNotValid n) :=
    h.trans (SwapStep.setNotValid (h.mild hm) (h.later.trans hl))
  cases q with
  | none => exact SwapStep.refl n s
  | disp t =>
    have h := SwapStep.updCh (n := n) s (f := fun c => { c with law := { c.law with dispReq := none } }) rfl
    simp only [State.takeSwap]
    split
    · exact h.trans (SwapStep.swapTo _ _ _ _ _)
    · exact hnv h
  | fallback =>
    have h := SwapStep.updCh (n := n) s (f := fun c => { c with sup := { c.sup with fbReq := false } }) rfl
    simp only [State.takeSwap]
    split
    · exact ((h.trans (SwapStep.swapTo _ _ _ _ _)).trans (SwapStep.updCh _ rfl)).trans (SwapStep.cflag _ _ (by decide))
    · exact hnv h
  | handover =>
    simp only [State.takeSwap]
    split
    · exact (SwapStep.swapTo s _ _ _ _).trans (SwapStep.updCh _ rfl)
    · exact SwapStep.hoInvalid hm hl
  | cross neg =>
    simp only [State.takeSwap]
    split
    · exact (((SwapStep.swapTo s _ _ _ _).trans (SwapStep.updCh _ rfl)).trans (SwapStep.ccount _ 1 (r := chCxCount) (by decide))).trans
        (SwapStep.fireCh _ _ _ _)
    · exact hnv (SwapStep.refl n s)
  | back =>
    simp only [State.takeSwap]
    split
    · exact (SwapStep.swapTo s _ _ _ _).trans (SwapStep.endCompl _ _)
    · exact hnv (SwapStep.updCh s rfl)
  | mode =>
    have h := SwapStep.updCh (n := n) s (f := fun c => { c with fi := s.cmdFi n, law := { c.law with modeReq := false } }) rfl
    simp only [State.takeSwap]
    split
    · exact (h.trans (SwapStep.swapTo _ _ _ _ _)).trans (SwapStep.endCompl _ _)
    · exact hnv h
  | strobe =>
    have h := SwapStep.updCh (n := n) s (f := fun c => { c with law := { c.law with swapReq := false } }) rfl
    exact (h.trans (SwapStep.swapTo _ _ _ _ _)).trans (SwapStep.endCompl _ _)

end

end

/-! A swap that takes effect. -/

/-- The pointers exchanged with their count, an evaluation owed, and states, integral and FDAC value as they were. -/
structure Swapped (n target : Nat) (s t : State) : Prop where
  act : (t.ch n).law.act = target
  shd : (t.ch n).law.shd = (s.ch n).law.act
  owed : (t.ch n).law.owed = some ((s.ch n).law.owed.getD { out := (s.ch n).law.act, rng := (s.ch n).rng })
  x : (t.ch n).law.x = (s.ch n).law.x
  z : (t.ch n).law.z = (s.ch n).law.z
  u : (t.ch n).law.u = (s.ch n).law.u
  swaps : t.cr n chSwaps = holdAdd (s.cr n chSwaps) 1
  tick : t.cr n chSwapTick = s.tick % 4294967296
  others : ∀ m, m ≠ n → t.ch m = s.ch m
  mem : t.mem = s.mem

section
variable {n target : Nat} {s t u : State}

theorem State.law_leAbort (s : State) (n why : Nat) : ((s.leAbort n why).ch n).law = (s.ch n).law ∧
    (s.leAbort n why).cr n chSwaps = s.cr n chSwaps ∧ (s.leAbort n why).cr n chSwapTick = s.cr n chSwapTick := by
  simp only [State.leAbort]
  split
  · rw [State.cr_cflag_ne _ _ _ (by decide), State.cr_cflag_ne _ _ _ (by decide), State.cr_setCr, State.cr_setCr, if_neg (by decide),
      if_neg (by decide), State.ch_cflag, State.ch_setCr, State.ch_setCh_same]
    exact ⟨rfl, rfl, rfl⟩
  · exact ⟨rfl, rfl, rfl⟩

theorem State.law_endCompl (s : State) (n : Nat) : ((s.endCompl n).ch n).law = (s.ch n).law ∧
    (s.endCompl n).cr n chSwaps = s.cr n chSwaps ∧ (s.endCompl n).cr n chSwapTick = s.cr n chSwapTick := by
  rw [State.endCompl]
  split
  · rw [State.cr_fireCh, State.cr_fireCh, State.ch_fireCh, State.ch_updCh_same]
    exact ⟨rfl, rfl, rfl⟩
  · exact ⟨rfl, rfl, rfl⟩

theorem State.swapTo_swapped (s : State) (n target why : Nat) (keepFb : Bool) : Swapped n target s (s.swapTo n target why keepFb) := by
  have hstep := SwapStep.swapTo s n target why keepFb
  have hothers := hstep.others
  have hmem := hstep.mem
  rw [State.swapTo_eq] at hothers hmem ⊢
  generalize hv : s.setCh n ((s.ch n).owing (s.cr n chOscWin) keepFb) = v at hothers hmem ⊢
  have hlaw : (v.ch n).law = ((s.ch n).owing (s.cr n chOscWin) keepFb).law := by rw [← hv, State.ch_setCh_same]
  have hcr : v.cr n chSwaps = s.cr n chSwaps := by rw [← hv, State.cr_setCh]
  have htick : v.tick = s.tick := by rw [← hv]; rfl
  obtain ⟨e1, e2, e3⟩ := (v.exchange n target).law_leAbort n why
  have hex : ((v.exchange n target).ch n).law = { (v.ch n).law with act := target, shd := (v.ch n).law.act } := by
    unfold State.exchange
    rw [State.ch_setCr, State.ch_ccount, State.ch_setCh_same]
  rw [hex, hlaw] at e1
  have hswaps : (v.exchange n target).cr n chSwaps = holdAdd (v.cr n chSwaps) 1 := by
    unfold State.exchange
    rw [State.cr_setCr, if_neg (by decide)]
    exact State.rg_count_same _ _ _
  have hst : (v.exchange n target).cr n chSwapTick = s.tick % 4294967296 := by
    unfold State.exchange
    rw [State.cr_setCr, if_pos rfl, Nat.mod_mod]
    exact congrArg (· % 4294967296) htick
  exact ⟨congrArg Law.act e1, congrArg Law.shd e1, congrArg Law.owed e1, (congrArg Law.x e1 :), (congrArg Law.z e1 :), (congrArg Law.u e1 :),
    by rw [e2, hswaps, hcr], by rw [e3, hst], hothers, hmem⟩

/-- A swap after a step that leaves the loop. -/
theorem Swapped.of_updCh {f : Chan → Chan} (h : Swapped n target (s.updCh n f) t) (hr : (f (s.ch n)).rng = (s.ch n).rng)
    (ha : (f (s.ch n)).law.act = (s.ch n).law.act) (ho : (f (s.ch n)).law.owed = (s.ch n).law.owed)
    (hx : (f (s.ch n)).law.x = (s.ch n).law.x) (hz : (f (s.ch n)).law.z = (s.ch n).law.z) (hu : (f (s.ch n)).law.u = (s.ch n).law.u) :
    Swapped n target s t := by
  obtain ⟨h1, h2, h3, h4, h5, h6, h7, h8, h9, h10⟩ := h
  rw [State.ch_updCh_same] at h2 h3 h4 h5 h6
  rw [ho, ha, hr] at h3
  exact ⟨h1, h2.trans ha, h3, h4.trans hx, h5.trans hz, h6.trans hu, h7, h8,
    fun m hm => (h9 m hm).trans (State.ch_updCh_ne _ _ hm), h10⟩

/-- A swap before one. -/
theorem Swapped.then (h : Swapped n target s t) (hs : SwapStep n t u) (hl : (u.ch n).law = (t.ch n).law)
    (h1 : u.cr n chSwaps = t.cr n chSwaps) (h2 : u.cr n chSwapTick = t.cr n chSwapTick) : Swapped n target s u :=
  ⟨(congrArg Law.act hl).trans h.act, (congrArg Law.shd hl).trans h.shd, (congrArg Law.owed hl).trans h.owed,
    (congrArg Law.x hl).trans h.x, (congrArg Law.z hl).trans h.z, (congrArg Law.u hl).trans h.u, h1.trans h.swaps, h2.trans h.tick,
    fun m hm => (hs.others m hm).trans (h.others m hm), hs.mem.trans h.mem⟩

theorem State.takeSwap_strobe (s : State) (n : Nat) : Swapped n (s.ch n).law.shd s (s.takeSwap n .strobe) := by
  have h := State.swapTo_swapped (s.updCh n fun c => { c with law := { c.law with swapReq := false } }) n (s.ch n).law.shd 2 false
  obtain ⟨e1, e2, e3⟩ := (State.swapTo (s.updCh n fun c => { c with law := { c.law with swapReq := false } }) n
    (s.ch n).law.shd 2 false).law_endCompl n
  exact (h.then (SwapStep.endCompl _ n) e1 e2 e3).of_updCh rfl rfl rfl rfl rfl rfl

theorem State.setValid_updCh (s : State) (n k : Nat) {f : Chan → Chan} (hf : (f (s.ch n)).valid = (s.ch n).valid) :
    (s.updCh n f).setValid n k = s.setValid n k := by
  rw [State.setValid, State.ch_updCh_same, hf, State.setValid]

/-- The swap into a disposition's set, without the request. -/
def State.dispMet (s : State) (n : Nat) : State := s.updCh n fun c => { c with law := { c.law with dispReq := none } }

theorem State.takeSwap_disp {d : Nat} (h : s.setValid n d = true) : Swapped n d s (s.takeSwap n (.disp d)) := by
  have he : s.takeSwap n (.disp d) = (s.dispMet n).swapTo n d 2 false := by
    simp only [State.takeSwap]
    rw [State.setValid_updCh s n d rfl, if_pos h]
    rfl
  rw [he]
  exact (State.swapTo_swapped (s.dispMet n) n d 2 false).of_updCh rfl rfl rfl rfl rfl rfl

theorem State.takeSwap_handover (h : s.setValid n (s.hoTarget n) = true) : Swapped n (s.hoTarget n) s (s.takeSwap n .handover) := by
  simp only [State.takeSwap]
  rw [if_pos h]
  exact (State.swapTo_swapped s n _ 6 false).then (SwapStep.updCh _ rfl) (by rw [State.ch_updCh_same]) rfl rfl

/-- A target that is not valid. -/
theorem State.takeSwap_invalid {d : Nat} (h : s.setValid n d = false) (hm : s.mild (frCh n) = true) (hl : s.later = []) :
    ((s.takeSwap n (.disp d)).ch n).law.act = (s.ch n).law.act ∧ ((s.takeSwap n (.disp d)).ch n).law.shd = (s.ch n).law.shd ∧
      bitOf ((s.takeSwap n (.disp d)).cr n chSetSts) 4 = true ∧
      bitOf ((s.takeSwap n (.disp d)).rg (fltOff (frCh n) fltSts)) fcSetNotValid = true := by
  have he : s.takeSwap n (.disp d) = ((s.dispMet n).cflag n chSetSts 0x10).fault (frCh n) fcSetNotValid := by
    simp only [State.takeSwap]
    rw [State.setValid_updCh s n d rfl, if_neg (by rw [h]; decide)]
    rfl
  have h1 : SwapStep n s ((s.dispMet n).cflag n chSetSts 0x10) :=
    (SwapStep.updCh s (f := fun c => { c with law := { c.law with dispReq := none } }) rfl).trans (SwapStep.cflag _ _ (by decide))
  have hf := State.faultOf (i := fcSetNotValid) (h1.mild hm) (h1.later.trans hl) (by decide)
  have hch : ((s.takeSwap n (.disp d)).ch n).law = { (s.ch n).law with dispReq := none } := by
    rw [he, State.ch_congr hf.chans, State.ch_cflag, State.dispMet, State.ch_updCh_same]
  rw [hch, he]
  refine ⟨rfl, rfl, ?_, hf.set⟩
  rw [State.cr, hf.rg _ (by
    simp only [reportRegs, fltOff_frCh, List.mem_cons, List.not_mem_nil, or_false, chOff_inj]
    decide)]
  exact State.cflag_bit _ n chSetSts _ _ (by decide) (by decide) (by decide)

/-! The requests of a boundary. -/

/-- A lost request leaves the loop, and counts. -/
structure LostStep (n k : Nat) (s t : State) : Prop extends StageStep n (chOff n chSwapLost :: swapRegs n) s t where
  law : (t.ch n).law = (s.ch n).law
  lost : t.cr n chSwapLost = holdAdd (s.cr n chSwapLost) k

theorem LostStep.mild {k : Nat} (h : LostStep n k s t) (hm : s.mild (frCh n) = true) : t.mild (frCh n) = true := by
  refine h.toStageStep.mild ?_ hm
  rw [fltOff_frCh, List.mem_cons, not_or, chOff_inj]
  exact ⟨by decide, chOff_not_mem_swapRegs (by decide) (by decide)⟩

theorem holdAdd_zero {x : Nat} (h : x < 4294967296) : holdAdd x 0 = x := by
  unfold holdAdd
  split <;> omega

theorem holdAdd_holdAdd (x a b : Nat) : holdAdd (holdAdd x a) b = holdAdd x (a + b) := by
  unfold holdAdd
  split <;> split <;> split <;> omega

theorem LostStep.refl (n : Nat) (s : State) : LostStep n 0 s s := ⟨StageStep.refl _ _ s, rfl, (holdAdd_zero (s.rg_lt _)).symm⟩
theorem LostStep.trans {a b : Nat} (h : LostStep n a s t) (h' : LostStep n b t u) : LostStep n (a + b) s u :=
  ⟨h.toStageStep.trans h'.toStageStep, h'.law.trans h.law, by rw [h'.lost, h.lost, holdAdd_holdAdd]⟩

theorem LostStep.count (s : State) (n : Nat) : LostStep n 1 s (s.ccount n chSwapLost) :=
  ⟨StageStep.ccount s 1 List.mem_cons_self, rfl, State.rg_count_same _ _ _⟩

/-- A step that counts no lost request. -/
theorem SwapStep.uncounted (h : SwapStep n s t) (hl : (t.ch n).law = (s.ch n).law) : LostStep n 0 s t :=
  ⟨h.toStageStep.mono (List.subset_cons_self _ _), hl, by
    rw [State.cr, h.rg _ (chOff_not_mem_swapRegs (by decide) (by decide))]
    exact (holdAdd_zero (s.rg_lt _)).symm⟩

theorem State.law_hoAbandon {n : Nat} (hm : s.mild (frCh n) = true) (hl : s.later = []) (why : Nat) :
    ((s.hoAbandon n why).ch n).law = (s.ch n).law := by
  have h := SwapStep.hoDrop s n why
  have hd : ((s.hoDrop n why).ch n).law = (s.ch n).law := by
    simp only [State.hoDrop]
    rw [State.ch_setCh_same, State.ch_ccount, State.ch_cflag, State.ch_setCr]
  unfold State.hoAbandon
  dsimp only
  split
  · exact hd
  · rw [State.ch_congr (State.faultOf (i := fcHoFail) (h.mild hm) (h.later.trans hl) (by decide)).chans]
    exact hd

section
variable (hm : s.mild (frCh n) = true) (hl : s.later = [])
include hm hl

theorem State.loseSwap_lost (q : SwapReq) : LostStep n (if q = .strobe then 0 else 1) s (s.loseSwap n q) := by
  have hc := LostStep.count s n
  cases q with
  | strobe => exact LostStep.refl n s
  | handover =>
    have hu := SwapStep.updCh (n := n) (s.ccount n chSwapLost)
      (f := fun c => { c with ho := { c.ho with defers := ((s.ccount n chSwapLost).ch n).ho.defers + 1 } }) rfl
    have h1 := hc.trans (hu.uncounted (by rw [State.ch_updCh_same]))
    change LostStep n 1 s _
    simp only [State.loseSwap]
    split
    · exact h1.trans ((SwapStep.hoAbandon (h1.mild hm) (h1.later.trans hl) 4).uncounted
        (State.law_hoAbandon (h1.mild hm) (h1.later.trans hl) 4))
    · exact h1
  | none => exact hc
  | disp t => exact hc
  | fallback => exact hc
  | cross g => exact hc
  | back => exact hc
  | mode => exact hc

end

theorem State.loseAll_lost (r : List SwapReq) : ∀ {s : State}, s.mild (frCh n) = true → s.later = [] →
    LostStep n (r.filter (· ≠ .strobe)).length s (s.loseAll n r) := by
  induction r with
  | nil => intro s _ _; exact LostStep.refl n s
  | cons q r ih =>
    intro s hm hl
    have h1 := State.loseSwap_lost hm hl q
    have h := h1.trans (ih (h1.mild hm) (h1.later.trans hl))
    have hlen : ((q :: r).filter (· ≠ SwapReq.strobe)).length = (if q = .strobe then 0 else 1) + (r.filter (· ≠ .strobe)).length := by
      by_cases hq : q = .strobe
      · rw [if_pos hq, List.filter_cons_of_neg (by simpa using hq), Nat.zero_add]
      · rw [if_neg hq, List.filter_cons_of_pos (by simpa using hq), List.length_cons, Nat.add_comm]
    rw [hlen]
    exact h

/-! The boundary's choice. -/

/-- What ends the swaps of a boundary: the requests that they have met. -/
def State.swapsEnd (s : State) (n : Nat) : State :=
  ((s.updCh n fun c => { c with sup := { c.sup with cxReq := none, hbReq := false } }).updCh n
    fun c => { c with law := { c.law with swapMode := false } }).applyShd n

theorem State.swapsEnd_law (h : (s.ch n).law.shdReq = none) : ((s.swapsEnd n).ch n).law.act = (s.ch n).law.act ∧
    ((s.swapsEnd n).ch n).law.shd = (s.ch n).law.shd ∧ (s.swapsEnd n).cr n chSwapLost = s.cr n chSwapLost := by
  unfold State.swapsEnd State.applyShd
  rw [State.ch_updCh_same, State.ch_updCh_same, State.ch_updCh_same]
  dsimp only
  rw [h]
  exact ⟨rfl, rfl, rfl⟩

theorem State.arbitrate_none (hr : (s.ch n).law.run = true) (hc : (s.ch n).law.cold = false) (hq : s.swapReqs n = []) :
    s.arbitrate n = s.swapsEnd n := by
  unfold State.arbitrate
  dsimp only
  rw [if_neg (by rw [hr, hc]; decide), hq]
  rfl

theorem State.arbitrate_first {q : SwapReq} {r : List SwapReq} (hr : (s.ch n).law.run = true) (hc : (s.ch n).law.cold = false)
    (hq : s.swapReqs n = q :: r) : s.arbitrate n = ((s.takeSwap n q).loseAll n r).swapsEnd n := by
  unfold State.arbitrate
  dsimp only
  rw [if_neg (by rw [hr, hc]; decide), hq]
  rfl

end

end Sys2Proof.Machine
end

section
/-! PROOFS. The safety limits at an own boundary (R85 to R87). -/

namespace Sys2Proof.Machine

/-- A cause of a mild frame that begins or goes on. -/
structure CausePresent (f i : Nat) (s t : State) : Prop where
  present : t.causes.contains (f * 32 + i) = true
  set : s.causes.contains (f * 32 + i) = false → bitOf (t.rg (fltOff f fltSts)) i = true
  rg : ∀ o, o ∉ reportRegs f → t.rg o = s.rg o
  chans : t.chans = s.chans
  mem : t.mem = s.mem

theorem State.cause_present {s : State} {f i : Nat} (h : s.mild f = true) (hl : s.later = []) (hi : i < 20) :
    CausePresent f i s (s.cause f i) := by
  cases hc : s.causes.contains (f * 32 + i) with
  | true =>
    rw [State.cause, if_pos hc]
    exact ⟨hc, fun hn => absurd (hc.symm.trans hn) (by decide), fun _ _ => rfl, rfl, rfl⟩
  | false =>
    have hb := State.cause_begun h hl hi hc
    refine ⟨?_, fun _ => hb.set, hb.rg, hb.chans, hb.mem⟩
    rw [hb.causes, List.contains_cons, beq_self_eq_true, Bool.true_or]

/-! The runs of samples outside the limits. -/

/-- R85: a run of `k` samples is long enough for its flag, where SAFE_CNT is `cnt`. -/
def runLong (cnt k : Nat) : Bool := decide (cnt ≤ k) && decide (0 < k)

theorem runLong_iff (cnt k : Nat) : runLong cnt k = true ↔ max 1 cnt ≤ k := by
  unfold runLong
  rw [Bool.and_eq_true, decide_eq_true_eq, decide_eq_true_eq]
  omega

/-- The flags of the voltage's, the current's and the sink's run. -/
def safeMask (v i k : Bool) : Nat := 2 * b2n v + 4 * b2n i + 32 * b2n k

theorem safeMask_bits (v i k : Bool) : bitOf (safeMask v i k) 1 = v ∧ bitOf (safeMask v i k) 2 = i ∧ bitOf (safeMask v i k) 5 = k ∧
    safeMask v i k < 16777216 := by
  revert v i k
  decide

theorem safeMask_eq_zero (v i k : Bool) : safeMask v i k = 0 ↔ v = false ∧ i = false ∧ k = false := by
  revert v i k
  decide

section
variable (s : State) (n : Nat) (y : Samp)

/-- R85, R86, R87: the sample is outside the limits of its range, in voltage, in current, or in power taken up. -/
def State.outsideV : Bool :=
  s.vImpl n (s.ch n).smpRng.v && (decide (y.v > (s.safeLims n false).1) || decide (y.v < (s.safeLims n false).2))
def State.outsideI : Bool :=
  s.iImpl n (s.ch n).smpRng.i && (decide (y.i > (s.safeLims n true).1) || decide (y.i < (s.safeLims n true).2))
def State.sinking : Bool :=
  !bitOf (s.cr n chSafeCtl) 8 && s.vImpl n (s.ch n).smpRng.v && s.iImpl n (s.ch n).smpRng.i && decide (y.v * y.i < 0) &&
    decide ((y.i.natAbs : Int) > (bitsOf (s.cr n chSafeCtl) 15 9 * 8388608 : Nat))

/-- The supervisor with its runs. -/
def State.safeSup : Sup :=
  { (s.ch n).sup with
    safeV := runOn (s.outsideV n y) (s.ch n).sup.safeV, safeI := runOn (s.outsideI n y) (s.ch n).sup.safeI
    sink := runOn (s.sinking n y) (s.ch n).sup.sink }

/-- The flags that the runs set. -/
def State.safeFlags : Nat :=
  let long := runLong (bitsOf (s.cr n chSafeCtl) 7 0)
  safeMask (long (s.safeSup n y).safeV) (long (s.safeSup n y).safeI) (long (s.safeSup n y).sink)

/-- The state with the runs counted. -/
def State.safeCounted : State := s.setCh n { s.ch n with sup := s.safeSup n y }

theorem State.safeStage_eq (h1 : (s.ch n).state ≠ .off) (h2 : (s.ch n).state ≠ .fenced) :
    s.safeStage n y = if s.safeFlags n y = 0 then (s.safeCounted n y).uncause (frCh n) fcSafeLimit
      else ((s.safeCounted n y).cflag n chFlags (s.safeFlags n y)).cause (frCh n) fcSafeLimit := by
  unfold State.safeStage
  dsimp only
  rw [if_neg (not_or.2 ⟨h1, h2⟩)]
  rfl

end

theorem runOn_true (k : Nat) : runOn true k = k + 1 := rfl
theorem runOn_false (k : Nat) : runOn false k = 0 := rfl

theorem State.outsideV_iff (s : State) (n : Nat) (y : Samp) : s.outsideV n y = true ↔
    s.vImpl n (s.ch n).smpRng.v = true ∧ ((s.safeLims n false).1 < y.v ∨ y.v < (s.safeLims n false).2) := by
  unfold State.outsideV
  rw [Bool.and_eq_true, Bool.or_eq_true, decide_eq_true_eq, decide_eq_true_eq]

theorem State.outsideI_iff (s : State) (n : Nat) (y : Samp) : s.outsideI n y = true ↔
    s.iImpl n (s.ch n).smpRng.i = true ∧ ((s.safeLims n true).1 < y.i ∨ y.i < (s.safeLims n true).2) := by
  unfold State.outsideI
  rw [Bool.and_eq_true, Bool.or_eq_true, decide_eq_true_eq, decide_eq_true_eq]

theorem State.sinking_iff (s : State) (n : Nat) (y : Samp) : s.sinking n y = true ↔
    bitOf (s.cr n chSafeCtl) 8 = false ∧ s.vImpl n (s.ch n).smpRng.v = true ∧ s.iImpl n (s.ch n).smpRng.i = true ∧ y.v * y.i < 0 ∧
      bitsOf (s.cr n chSafeCtl) 15 9 * 8388608 < y.i.natAbs := by
  unfold State.sinking
  simp only [Bool.and_eq_true, Bool.not_eq_true', decide_eq_true_eq, gt_iff_lt, Int.ofNat_lt, and_assoc]

/-- A run in terms of its condition. -/
theorem runOn_of_iff {hit : Bool} {p : Prop} (h : hit = true ↔ p) (k : Nat) :
    (p → runOn hit k = k + 1) ∧ (¬ p → runOn hit k = 0) :=
  ⟨fun hp => by rw [h.2 hp]; rfl, fun hp => by rw [Bool.eq_false_iff.2 fun hh => hp (h.1 hh)]; rfl⟩

/-- The cause that the flags of the runs give. -/
theorem State.safeCounted_cause {s : State} {n : Nat} (y : Samp) (hm : s.mild (frCh n) = true) (hl : s.later = []) (m : Nat) :
    CausePresent (frCh n) fcSafeLimit ((s.safeCounted n y).cflag n chFlags m)
      (((s.safeCounted n y).cflag n chFlags m).cause (frCh n) fcSafeLimit) := by
  have hstep : StageStep n [chOff n chFlags] s ((s.safeCounted n y).cflag n chFlags m) :=
    (StageStep.setCh n _ s _).trans (StageStep.cflag _ m (List.mem_singleton.2 rfl))
  have hreact : fltOff (frCh n) fltReact ∉ [chOff n chFlags] := by
    rw [fltOff_frCh, List.mem_singleton, chOff_inj]
    decide
  exact State.cause_present (hstep.mild hreact hm) (hstep.later.trans hl) (by decide)

section
variable {s : State} {n : Nat} {y : Samp} (hm : s.mild (frCh n) = true) (hl : s.later = [])
  (h1 : (s.ch n).state ≠ .off) (h2 : (s.ch n).state ≠ .fenced)
include h1 h2

include hm hl in
theorem State.safeStage_leaves : ((s.safeStage n y).ch n).sup = s.safeSup n y ∧ (∀ m, m ≠ n → (s.safeStage n y).ch m = s.ch m) ∧
    (s.safeStage n y).mem = s.mem := by
  have hboth (t : State) (hc : t.chans = (s.safeCounted n y).chans) (hmem : t.mem = s.mem) :
      (t.ch n).sup = s.safeSup n y ∧ (∀ m, m ≠ n → t.ch m = s.ch m) ∧ t.mem = s.mem := by
    refine ⟨?_, fun m hne => ?_, hmem⟩
    · rw [State.ch_congr hc n, State.safeCounted, State.ch_setCh_same]
    · rw [State.ch_congr hc m, State.safeCounted, State.ch_setCh_ne _ _ hne]
  rw [State.safeStage_eq s n y h1 h2]
  split
  · exact hboth _ rfl rfl
  · have hp := State.safeCounted_cause y hm hl (s.safeFlags n y)
    exact hboth _ (hp.chans.trans (State.flag_chans _ _ _)) (hp.mem.trans (State.mem_cflag _ _ _ _))

theorem State.safeStage_quiet (h : s.safeFlags n y = 0) :
    (s.safeStage n y).causes.contains (frCh n * 32 + fcSafeLimit) = false ∧ (s.safeStage n y).regs = s.regs := by
  rw [State.safeStage_eq s n y h1 h2, if_pos h]
  exact ⟨State.causes_uncause _ _ _, rfl⟩

include hm hl in
theorem State.safeStage_raised {bit : Nat} (hb : bitOf (s.safeFlags n y) bit = true) (h24 : bit < 24) :
    bitOf ((s.safeStage n y).cr n chFlags) bit = true ∧ (s.safeStage n y).causes.contains (frCh n * 32 + fcSafeLimit) = true ∧
      (s.causes.contains (frCh n * 32 + fcSafeLimit) = false →
        bitOf ((s.safeStage n y).rg (fltOff (frCh n) fltSts)) fcSafeLimit = true) := by
  have hne : s.safeFlags n y ≠ 0 := fun e => by rw [e, bitOf_eq_testBit, Nat.zero_testBit] at hb; exact Bool.false_ne_true hb
  have hlt : s.safeFlags n y < 16777216 := (safeMask_bits _ _ _).2.2.2
  rw [State.safeStage_eq s n y h1 h2, if_neg hne]
  have hp := State.safeCounted_cause y hm hl (s.safeFlags n y)
  have hflags : chOff n chFlags ∉ reportRegs (frCh n) := by
    simp only [reportRegs, fltOff_frCh, List.mem_cons, List.not_mem_nil, or_false, chOff_inj]
    decide
  refine ⟨?_, hp.present, fun hc => hp.set ?_⟩
  · rw [State.cr, hp.rg _ hflags]
    exact State.cflag_bit _ n chFlags _ _ hlt h24 hb
  · rw [State.cflag, State.flag_causes]
    exact hc

end

end Sys2Proof.Machine
end

section
/-! PROOFS. The commands of an own boundary, and the pins (R71, R73, R75, R77, R79, R91). -/

namespace Sys2Proof.Machine

/-! What a command that takes effect writes. -/

/-- The registers that a command of channel `n` may write beside its own and the count of those dropped. -/
def cmdRegs (n : Nat) : List Nat :=
  [chLeSts, chSupFlags, chHoFail, chHoFlags, chHoFails, chLawSnap, chRefuse, chFlags].map (chOff n) ++ reportRegs (frTile (tileOf n))

theorem chOff_mem_cmdRegs {n r : Nat} (h : r ∈ [chLeSts, chSupFlags, chHoFail, chHoFlags, chHoFails, chLawSnap, chRefuse, chFlags]) :
    chOff n r ∈ cmdRegs n := List.mem_append_left _ (List.mem_map_of_mem h)

theorem fltOff_frTile_lt {t : Nat} (h : t < 4) {r : Nat} (hr : r < 0x100) : fltOff (frTile t) r < 0x100000 := by
  have hall : ∀ t < 4, fltOff (frTile t) 0 + 0x100 ≤ 0x100000 := by decide
  have he : fltOff (frTile t) r = fltOff (frTile t) 0 + r := rfl
  have := hall t h
  omega

theorem tileOf_lt {n : Nat} (h : n < 64) : tileOf n < 4 := by
  unfold tileOf
  omega

theorem chOff_not_mem_cmdRegs {n r : Nat} (hn : n < 64)
    (h : r ∉ [chLeSts, chSupFlags, chHoFail, chHoFlags, chHoFails, chLawSnap, chRefuse, chFlags]) : chOff n r ∉ cmdRegs n := by
  rw [cmdRegs, List.mem_append, not_or]
  refine ⟨fun hm => ?_, fun hm => ?_⟩
  · obtain ⟨x, hx, he⟩ := List.mem_map.1 hm
    exact h ((chOff_inj n x r).1 he ▸ hx)
  · have hlt {q : Nat} (hq : q < 0x100) : chOff n r ≠ fltOff (frTile (tileOf n)) q := by
      have := fltOff_frTile_lt (tileOf_lt hn) hq
      unfold chOff
      omega
    simp only [reportRegs, List.mem_cons, List.not_mem_nil, or_false] at hm
    obtain hm | hm | hm | hm | hm := hm <;> exact hlt (by decide) hm

/-- A part of a command: it leaves the commands that are latched. -/
structure CmdStep (n : Nat) (s t : State) : Prop extends StageStep n (cmdRegs n) s t where
  cmds : (t.ch n).cmds = (s.ch n).cmds

/-- One before the channel changes its state. -/
structure CmdPart (n : Nat) (s t : State) : Prop extends CmdStep n s t where
  state : (t.ch n).state = (s.ch n).state

section
variable {n : Nat} {s t u : State}

theorem CmdStep.refl (n : Nat) (s : State) : CmdStep n s s := ⟨StageStep.refl _ _ s, rfl⟩
theorem CmdStep.trans (h : CmdStep n s t) (h' : CmdStep n t u) : CmdStep n s u :=
  ⟨h.toStageStep.trans h'.toStageStep, h'.cmds.trans h.cmds⟩
theorem CmdStep.updCh (s : State) {f : Chan → Chan} (hf : (f (s.ch n)).cmds = (s.ch n).cmds) : CmdStep n s (s.updCh n f) :=
  ⟨StageStep.updCh _ _ s f, by rw [State.ch_updCh_same]; exact hf⟩
theorem CmdStep.setCh (s : State) {c : Chan} (hc : c.cmds = (s.ch n).cmds) : CmdStep n s (s.setCh n c) :=
  ⟨StageStep.setCh _ _ s c, by rw [State.ch_setCh_same]; exact hc⟩

theorem CmdPart.refl (n : Nat) (s : State) : CmdPart n s s := ⟨CmdStep.refl n s, rfl⟩
theorem CmdPart.trans (h : CmdPart n s t) (h' : CmdPart n t u) : CmdPart n s u := ⟨h.toCmdStep.trans h'.toCmdStep, h'.state.trans h.state⟩
theorem CmdPart.of_chans (h : StageStep n (cmdRegs n) s t) (hc : t.ch n = s.ch n) : CmdPart n s t := ⟨⟨h, by rw [hc]⟩, by rw [hc]⟩
theorem CmdPart.updCh (s : State) {f : Chan → Chan} (hf : (f (s.ch n)).cmds = (s.ch n).cmds) (hs : (f (s.ch n)).state = (s.ch n).state) :
    CmdPart n s (s.updCh n f) := ⟨CmdStep.updCh s hf, by rw [State.ch_updCh_same]; exact hs⟩
theorem CmdPart.setCh (s : State) {c : Chan} (hc : c.cmds = (s.ch n).cmds) (hs : c.state = (s.ch n).state) : CmdPart n s (s.setCh n c) :=
  ⟨CmdStep.setCh s hc, by rw [State.ch_setCh_same]; exact hs⟩
theorem CmdPart.setCr (s : State) {r : Nat} (v : Nat)
    (h : r ∈ [chLeSts, chSupFlags, chHoFail, chHoFlags, chHoFails, chLawSnap, chRefuse, chFlags]) : CmdPart n s (s.setCr n r v) :=
  CmdPart.of_chans (StageStep.setCr s v (chOff_mem_cmdRegs h)) rfl
theorem CmdPart.cflag (s : State) {r : Nat} (v : Nat)
    (h : r ∈ [chLeSts, chSupFlags, chHoFail, chHoFlags, chHoFails, chLawSnap, chRefuse, chFlags]) : CmdPart n s (s.cflag n r v) :=
  CmdPart.of_chans (StageStep.cflag s v (chOff_mem_cmdRegs h)) (s.ch_cflag _ _ _ _)
theorem CmdPart.ccount (s : State) {r : Nat} (k : Nat)
    (h : r ∈ [chLeSts, chSupFlags, chHoFail, chHoFlags, chHoFails, chLawSnap, chRefuse, chFlags]) : CmdPart n s (s.ccount n r k) :=
  CmdPart.of_chans (StageStep.ccount s k (chOff_mem_cmdRegs h)) rfl

theorem CmdPart.leAbort (s : State) (n why : Nat) : CmdPart n s (s.leAbort n why) := by
  simp only [State.leAbort]
  split
  · exact ((CmdPart.setCh s (c := { s.ch n with le := { fit := (s.ch n).le.fit } }) rfl rfl).trans (CmdPart.setCr _ _ (by decide))).trans
      (CmdPart.cflag _ _ (by decide))
  · exact CmdPart.refl n s

theorem CmdPart.fireChAt (s : State) (k n c : Nat) : CmdPart n s (s.fireChAt k n c) := by
  obtain ⟨l, e⟩ := s.fireChAt_only k n c
  rw [e]
  exact ⟨⟨⟨fun _ _ => rfl, rfl, rfl, rfl, fun _ _ => rfl⟩, rfl⟩, rfl⟩

theorem CmdPart.endCompl (s : State) (n : Nat) : CmdPart n s (s.endCompl n) := by
  rw [State.endCompl]
  split
  · exact (CmdPart.updCh s rfl rfl).trans (CmdPart.fireChAt _ _ _ _)
  · exact CmdPart.refl n s

theorem CmdPart.pwmTo (s : State) (n k : Nat) (up : Bool) (c : Nat) : CmdPart n s (s.pwmTo n k up c) := by
  rw [State.pwmTo]
  split
  · exact CmdPart.updCh s rfl rfl
  · rw [State.pwmEdge]
    obtain ⟨p, e⟩ := State.pscSee_only (4 * (n % 16) + (2 * k + b2n (!up))) c ((List.range 4).map (4 * (n / 16) + ·))
      (State.fireChAt (s.updCh n fun x => { x with rail := x.rail.setOut k up none }) (18 + (2 * k + b2n (!up))) n c)
    have h := (CmdPart.updCh (n := n) s (f := fun x => { x with rail := x.rail.setOut k up none }) rfl rfl).trans
      (CmdPart.fireChAt _ (18 + (2 * k + b2n (!up))) n c)
    rw [e]
    exact ⟨⟨⟨h.others, h.mem, h.voteErr, h.later, h.rg⟩, h.cmds⟩, h.state⟩

theorem CmdPart.pwmLow (s : State) (n : Nat) : CmdPart n s (s.pwmLow n) := (CmdPart.pwmTo s n 0 false _).trans (CmdPart.pwmTo _ n 1 false _)

theorem CmdPart.hoStop (s : State) (n : Nat) : CmdPart n s (s.hoStop n) := by
  rw [State.hoStop]
  split
  · exact (((CmdPart.setCr s _ (r := chHoFail) (by decide)).trans (CmdPart.cflag _ 2 (r := chHoFlags) (by decide))).trans
      (CmdPart.ccount _ 1 (r := chHoFails) (by decide))).trans (CmdPart.setCh _ rfl rfl)
  · exact CmdPart.refl n s

theorem CmdPart.snapDrop (s : State) (n : Nat) : CmdPart n s (s.snapDrop n) := by
  rw [State.snapDrop]
  split
  · exact CmdPart.setCr s 0 (by decide)
  · exact CmdPart.refl n s

theorem CmdStep.safeEnd (s : State) (n : Nat) : CmdPart n s (s.safeEnd n) := ⟨⟨⟨fun _ _ => rfl, rfl, rfl, rfl, fun _ _ => rfl⟩, rfl⟩, rfl⟩

/-! The states that commands lead to. -/

/-- OFF, from a state in which the channel is not fenced. -/
theorem State.toOff_step (h : (s.ch n).state ≠ .fenced) : CmdStep n s (s.toOff n) ∧ ((s.toOff n).ch n).state = .off := by
  have h1 := (((CmdPart.leAbort s n 3).trans (CmdPart.endCompl _ n)).trans (CmdPart.pwmLow _ n)).trans (CmdPart.hoStop _ n)
  have e : s.toOff n = if (((((s.leAbort n 3).endCompl n).pwmLow n).hoStop n).ch n).state = .fenced then
      (((s.leAbort n 3).endCompl n).pwmLow n).hoStop n
    else (((((((s.leAbort n 3).endCompl n).pwmLow n).hoStop n).snapDrop n).updCh n fun c =>
      { c.drop with state := .off, ho := c.ho.rest, rng := ⟨15, c.rng.v⟩ }).safeEnd n).freeSlot n := rfl
  rw [e]
  generalize (((s.leAbort n 3).endCompl n).pwmLow n).hoStop n = u at h1 ⊢
  rw [if_neg (by rw [h1.state]; exact h)]
  have h2 := (h1.trans (CmdPart.snapDrop u n)).toCmdStep
  have h3 := (CmdStep.safeEnd ((u.snapDrop n).updCh n fun c => { c.drop with state := .off, ho := c.ho.rest, rng := ⟨15, c.rng.v⟩ }) n).trans
    (CmdPart.updCh _ (f := fun c => { c with slot := false }) rfl rfl)
  refine ⟨(h2.trans (CmdStep.updCh _ rfl)).trans h3.toCmdStep, h3.state.trans ?_⟩
  rw [State.ch_updCh_same]

theorem State.toArmed_step (s : State) (n : Nat) : CmdStep n s (s.toArmed n) ∧ ((s.toArmed n).ch n).state = .armed := by
  have h1 := ((CmdPart.leAbort s n 3).trans (CmdPart.endCompl _ n)).toCmdStep
  have e : s.toArmed n = ((s.leAbort n 3).endCompl n).updCh n fun c =>
      { c with state := .armed, sup := { c.sup.idle with beaten := s.beatable n }, spNew := none, accNext := 0 } := rfl
  rw [e]
  exact ⟨h1.trans (CmdStep.updCh _ rfl), by rw [State.ch_updCh_same]⟩

theorem State.offRamp_step (s : State) (n k : Nat) : CmdPart n s (s.offRamp n k) ∧ ((s.offRamp n k).ch n).sup.offCmd.isSome = true ∧
    ((s.offRamp n k).ch n).sup.ramp = true := by
  refine ⟨CmdPart.updCh s rfl rfl, ?_⟩
  rw [State.offRamp, State.ch_updCh_same]
  exact ⟨rfl, rfl⟩

theorem State.calHolds_only (l : List Nat) : ∀ s : State, ∃ h, s.calHolds l = { s with calHold := h } := by
  induction l with
  | nil => intro s; exact ⟨_, rfl⟩
  | cons j r ih =>
    intro s
    obtain ⟨h, e⟩ := ih { s with calHold := tput (fun _ => none) s.calHold j (some ((s.calOf j).g, (s.calOf j).o, (s.calOf j).q)) }
    exact ⟨h, e⟩

/-- R528: what the check of the corrections at ARM changes before it reports of the tile. -/
theorem State.armCal_cases (s : State) (n : Nat) : s.armCal n = s ∨ ∃ h c b r, (∀ p ∈ r, p.1 < 20) ∧
    s.armCal n = if r = [] then { s with calHold := h, calSel := c, calBad := b }
      else State.report { s with calHold := h, calSel := c, calBad := b } (frTile (tileOf n)) r := by
  have h20 (a b : Prop) [Decidable a] [Decidable b] (p : Nat × Nat)
      (hp : p ∈ (if a then [] else [(ftCalCrc, clsCal)]) ++ if b then [] else [(ftNoCal, clsCal)]) : p.1 < 20 := by
    have hmem : p ∈ [(ftCalCrc, clsCal), (ftNoCal, clsCal)] := by
      rcases List.mem_append.1 hp with hp | hp <;> split at hp
      · exact absurd hp List.not_mem_nil
      · exact List.mem_cons.2 (.inl (List.mem_singleton.1 hp))
      · exact absurd hp List.not_mem_nil
      · exact List.mem_cons_of_mem _ hp
    have hall : ∀ p ∈ [(ftCalCrc, clsCal), (ftNoCal, clsCal)], p.1 < 20 := by decide
    exact hall p hmem
  unfold State.armCal
  dsimp only
  split
  · exact .inl rfl
  · rw [(s.calHolds_only _).choose_spec]
    exact .inr ⟨_, _, _, _, h20 _ _, rfl⟩

theorem State.armCal_step (hm : s.mild (frTile (tileOf n)) = true) (hl : s.later = []) :
    CmdPart n s (s.armCal n) ∧ (s.armCal n).ch n = s.ch n := by
  obtain e | ⟨h, c, b, r, h20, e⟩ := s.armCal_cases n
  · rw [e]
    exact ⟨CmdPart.refl n s, rfl⟩
  · rw [e]
    have hv : CmdPart n s { s with calHold := h, calSel := c, calBad := b } := ⟨⟨⟨fun _ _ => rfl, rfl, rfl, rfl, fun _ _ => rfl⟩, rfl⟩, rfl⟩
    split
    · exact ⟨hv, rfl⟩
    · obtain ⟨hr, hrc⟩ := StageStep.report (n := n) (rs := cmdRegs n) (s := { s with calHold := h, calSel := c, calBad := b }) r hm hl h20
        (List.subset_append_right _ _)
      have hch := State.ch_congr hrc n
      exact ⟨hv.trans (CmdPart.of_chans hr hch), hch⟩

/-- The channel as ARM leaves it. -/
def State.armedCh (s : State) (n : Nat) : Chan :=
  { s.ch n with state := .armed, rng := s.cfgRng n, fi := bitOf (s.cr n chCfg) 0, sup := (s.ch n).sup.idle }

theorem State.arm_step (hm : s.mild (frTile (tileOf n)) = true) (hl : s.later = []) :
    CmdStep n s ((s.setCh n (s.armedCh n)).armCal n) ∧ ((s.setCh n (s.armedCh n)).armCal n).ch n = s.armedCh n := by
  obtain ⟨h, hch⟩ := State.armCal_step (s := s.setCh n (s.armedCh n)) (n := n) hm hl
  exact ⟨(CmdStep.setCh s (c := s.armedCh n) rfl).trans h.toCmdStep, hch.trans (State.ch_setCh_same s n _)⟩

theorem CmdPart.cmdRefuse (s : State) (n code why : Nat) : CmdPart n s (s.cmdRefuse n code why) :=
  (CmdPart.setCr s _ (r := chRefuse) (by decide)).trans (CmdPart.cflag _ 1 (r := chFlags) (by decide))

/-- Whatever the command and the channel's state. -/
theorem State.cmdApply_step (hm : s.mild (frTile (tileOf n)) = true) (hl : s.later = []) (k : Nat) (ramp : Bool) :
    CmdStep n s (s.cmdApply n k ramp) := by
  unfold State.cmdApply
  dsimp only
  split
  · split
    · exact (CmdPart.cmdRefuse s n 1 5).toCmdStep
    · change CmdStep n s ((s.setCh n (s.armedCh n)).armCal n)
      exact (State.arm_step hm hl).1
  · exact CmdStep.setCh s rfl
  · split
    · exact (s.offRamp_step n 3).1.toCmdStep
    · exact (s.toArmed_step n).1
  · next h =>
    split
    · exact (s.offRamp_step n 4).1.toCmdStep
    · exact (State.toOff_step (by rw [h]; decide)).1
  · next h => exact (State.toOff_step (by rw [h]; decide)).1
  · exact CmdStep.setCh s rfl
  · next h => exact (State.toOff_step (by rw [h]; decide)).1
  · exact CmdStep.refl n s

/-! The commands of a boundary. -/

/-- CMD cleared and the commands that are not chosen counted as dropped (R75, R77). -/
def State.cmdsMet (s : State) (n : Nat) : State :=
  ((s.ccount n chCmdDrop ((s.ch n).cmds.length - 1)).setCr n chCtl (setBits (s.cr n chCtl) 3 0 0)).updCh n fun c => { c with cmds := [] }

/-- The lane slot of a channel that is neither ARMED nor ACTIVE is free. -/
def State.slotFreed (s : State) (n : Nat) : State :=
  if (s.ch n).state ≠ .armed ∧ (s.ch n).state ≠ .active ∧ (s.ch n).slot = true then s.freeSlot n else s

theorem State.cmdsApply_first {k : Nat} (h : cmdOrder.find? ((s.ch n).cmds.contains ·) = some k) :
    s.cmdsApply n = ((s.cmdsMet n).cmdApply n k (bitOf (s.cr n chCtl) 4)).slotFreed n := by
  unfold State.cmdsApply
  dsimp only
  rw [h, State.cr_ccount_ne _ _ _ (by decide)]
  rfl

theorem State.cmdsApply_none (h : (s.ch n).cmds = []) : s.cmdsApply n = s := by
  unfold State.cmdsApply
  dsimp only
  rw [h]
  rfl

theorem State.slotFreed_step (s : State) (n : Nat) : CmdPart n s (s.slotFreed n) ∧
    ((s.slotFreed n).ch n).sup = (s.ch n).sup ∧ ((s.slotFreed n).ch n).rng = (s.ch n).rng := by
  unfold State.slotFreed
  split
  · refine ⟨CmdPart.updCh s rfl rfl, ?_⟩
    rw [State.freeSlot, State.ch_updCh_same]
    exact ⟨rfl, rfl⟩
  · exact ⟨CmdPart.refl n s, rfl, rfl⟩

theorem State.cmdsMet_step (s : State) (n : Nat) : StageStep n [chOff n chCmdDrop, chOff n chCtl] s (s.cmdsMet n) ∧
    (s.cmdsMet n).ch n = { s.ch n with cmds := [] } ∧ bitsOf ((s.cmdsMet n).cr n chCtl) 3 0 = 0 ∧
    (s.cmdsMet n).cr n chCmdDrop = holdAdd (s.cr n chCmdDrop) ((s.ch n).cmds.length - 1) := by
  refine ⟨((StageStep.ccount s _ List.mem_cons_self).trans (StageStep.setCr _ _ (List.mem_cons_of_mem _ List.mem_cons_self))).trans
    (StageStep.updCh _ _ _ _), State.ch_updCh_same .., ?_, ?_⟩
  · exact State.cr_setCr_setBits _ s n (by decide) (by decide)
  · unfold State.cmdsMet
    rw [State.cr_updCh, State.cr_setCr, if_neg (by decide)]
    exact State.rg_count_same _ _ _

/-- What every chosen command leaves: the commands met, CMD clear and the count of those dropped. -/
structure CmdDone (n : Nat) (s t : State) : Prop where
  cmds : (t.ch n).cmds = []
  ctl : bitsOf (t.cr n chCtl) 3 0 = 0
  drop : t.cr n chCmdDrop = holdAdd (s.cr n chCmdDrop) ((s.ch n).cmds.length - 1)
  others : ∀ m, m ≠ n → t.ch m = s.ch m
  mem : t.mem = s.mem

section
variable (hn : n < 64) (hm : s.mild (frTile (tileOf n)) = true) (hl : s.later = [])
include hn hm hl

theorem State.cmdsMet_mild : (s.cmdsMet n).mild (frTile (tileOf n)) = true ∧ (s.cmdsMet n).later = [] := by
  obtain ⟨h, -⟩ := s.cmdsMet_step n
  refine ⟨h.mild ?_ hm, h.later.trans hl⟩
  have := fltOff_frTile_lt (tileOf_lt hn) (show fltReact < 0x100 by decide)
  simp only [List.mem_cons, List.not_mem_nil, or_false, not_or]
  unfold chOff
  omega

theorem State.cmdsApply_done {k : Nat} (h : cmdOrder.find? ((s.ch n).cmds.contains ·) = some k) : CmdDone n s (s.cmdsApply n) := by
  obtain ⟨h1, hch, hctl, hdrop⟩ := s.cmdsMet_step n
  obtain ⟨hmm, hml⟩ := State.cmdsMet_mild hn hm hl
  have h2 := (State.cmdApply_step hmm hml k (bitOf (s.cr n chCtl) 4)).trans (State.slotFreed_step _ n).1.toCmdStep
  rw [State.cmdsApply_first h]
  refine ⟨h2.cmds.trans (by rw [hch]), ?_, ?_, fun m hne => (h2.others m hne).trans (h1.others m hne), h2.mem.trans h1.mem⟩
  · rw [State.cr, h2.rg _ (chOff_not_mem_cmdRegs hn (by decide))]
    exact hctl
  · rw [State.cr, h2.rg _ (chOff_not_mem_cmdRegs hn (by decide))]
    exact hdrop

omit hn hm hl in
theorem State.cmdsApply_state {k : Nat} (h : cmdOrder.find? ((s.ch n).cmds.contains ·) = some k) :
    ((s.cmdsApply n).ch n).state = (((s.cmdsMet n).cmdApply n k (bitOf (s.cr n chCtl) 4)).ch n).state ∧
    ((s.cmdsApply n).ch n).sup = (((s.cmdsMet n).cmdApply n k (bitOf (s.cr n chCtl) 4)).ch n).sup ∧
    ((s.cmdsApply n).ch n).rng = (((s.cmdsMet n).cmdApply n k (bitOf (s.cr n chCtl) 4)).ch n).rng := by
  rw [State.cmdsApply_first h]
  obtain ⟨h1, h2, h3⟩ := State.slotFreed_step ((s.cmdsMet n).cmdApply n k (bitOf (s.cr n chCtl) 4)) n
  exact ⟨h1.state, h2, h3⟩

end

/-! Each command in its state. -/

section
variable (ramp : Bool)

theorem State.cmdApply_enable (h : (s.ch n).state = .armed) : ((s.cmdApply n 2 ramp).ch n).state = .active := by
  have e : s.cmdApply n 2 ramp = s.setCh n { s.ch n with state := .active, sup := { (s.ch n).sup.idle with rampNew := true } } := by
    simp only [State.cmdApply, h]
  rw [e, State.ch_setCh_same]

theorem State.cmdApply_ramps {k : Nat} (hk : k = 3 ∨ k = 4) (h : (s.ch n).state = .active) (hd : (s.ch n).disp = .loop) :
    s.cmdApply n k true = s.offRamp n k := by
  obtain rfl | rfl := hk
  · simp only [State.cmdApply, h, hd, Bool.true_and, decide_true, if_true]
  · simp only [State.cmdApply, h, hd, Bool.true_and, decide_true, if_true]

theorem State.cmdApply_disable_now (h : (s.ch n).state = .active) (hr : ¬ (ramp = true ∧ (s.ch n).disp = .loop)) :
    s.cmdApply n 3 ramp = s.toArmed n := by
  simp only [State.cmdApply, h]
  rw [if_neg (by simpa using hr)]

theorem State.cmdApply_disarm_now (h : (s.ch n).state = .active) (hr : ¬ (ramp = true ∧ (s.ch n).disp = .loop)) :
    s.cmdApply n 4 ramp = s.toOff n := by
  simp only [State.cmdApply, h]
  rw [if_neg (by simpa using hr)]

theorem State.cmdApply_disarm_armed (h : (s.ch n).state = .armed) : s.cmdApply n 4 ramp = s.toOff n := by
  simp only [State.cmdApply, h]

theorem State.cmdApply_serviceEnter (h : (s.ch n).state = .off) : ((s.cmdApply n 5 ramp).ch n).state = .service := by
  have e : s.cmdApply n 5 ramp = s.setCh n { s.ch n with state := .service } := by simp only [State.cmdApply, h]
  rw [e, State.ch_setCh_same]

theorem State.cmdApply_serviceLeave (h : (s.ch n).state = .service) : s.cmdApply n 6 ramp = s.toOff n := by
  simp only [State.cmdApply, h]

theorem State.cmdApply_arm (h : (s.ch n).state = .off) (ha : armRanges s.rg n = true) (hm : s.mild (frTile (tileOf n)) = true)
    (hl : s.later = []) : ((s.cmdApply n 1 ramp).ch n).state = .armed ∧ ((s.cmdApply n 1 ramp).ch n).rng = s.cfgRng n := by
  have e : s.cmdApply n 1 ramp = (s.setCh n (s.armedCh n)).armCal n := by
    simp only [State.cmdApply, h]
    exact if_neg fun hn => hn ha
  rw [e, (State.arm_step hm hl).2]
  exact ⟨rfl, rfl⟩

end

/-- The ranges of an ARM are those of the registers before CMD clears. -/
theorem State.cmdsMet_ranges (s : State) (n : Nat) : armRanges (s.cmdsMet n).rg n = armRanges s.rg n ∧ (s.cmdsMet n).cfgRng n = s.cfgRng n := by
  have h := (s.cmdsMet_step n).1
  have hcr {r : Nat} (h1 : r ≠ chCmdDrop) (h2 : r ≠ chCtl) : (s.cmdsMet n).rg (chOff n r) = s.rg (chOff n r) := by
    refine h.rg _ ?_
    rw [List.mem_cons, List.mem_singleton, not_or, chOff_inj, chOff_inj]
    exact ⟨h1, h2⟩
  have hcfg : (s.cmdsMet n).rg (chOff n chCfg) = s.rg (chOff n chCfg) := hcr (by decide) (by decide)
  constructor
  · unfold armRanges
    rw [hcfg]
    unfold implI implV
    dsimp only
    have h1 := bitsOf_lt (s.rg (chOff n chCfg)) 6 3
    have h2 := bitsOf_lt (s.rg (chOff n chCfg)) 8 7
    rw [hcr (r := chIfs + 4 * bitsOf (s.rg (chOff n chCfg)) 6 3) (by unfold chIfs chCmdDrop; omega) (by unfold chIfs chCtl; omega),
      hcr (r := chVfs + 4 * (bitsOf (s.rg (chOff n chCfg)) 8 7 % 4)) (by unfold chVfs chCmdDrop; omega) (by unfold chVfs chCtl; omega)]
  · unfold State.cfgRng State.cr
    rw [hcfg]

/-! The pins. -/

theorem State.pinStep_on (h : (s.ch n).state = .armed ∨ (s.ch n).state = .active) :
    ((s.pinStep n).ch n).outEn = decide ((s.ch n).disp ≠ .highz) ∧ ((s.pinStep n).ch n).rngP = (s.ch n).rng.i := by
  unfold State.pinStep
  dsimp only
  obtain h | h := h
  · rw [h, State.ch_setCh_same]
    exact ⟨rfl, rfl⟩
  · rw [h, State.ch_setCh_same]
    exact ⟨rfl, rfl⟩

theorem State.pinStep_off (h : (s.ch n).state = .off) :
    ((s.pinStep n).ch n).outEn = false ∧ ((s.pinStep n).ch n).rngP = 15 ∧ ((s.pinStep n).ch n).rngS = 15 := by
  unfold State.pinStep
  dsimp only
  rw [h, State.ch_setCh_same]
  exact ⟨rfl, rfl, rfl⟩

theorem State.pinStep_others (s : State) (n : Nat) {m : Nat} (hm : m ≠ n) : (s.pinStep n).ch m = s.ch m := by
  unfold State.pinStep
  dsimp only
  split
  · rfl
  · split
    · rfl
    · exact State.ch_setCh_ne _ _ hm
  · exact State.ch_setCh_ne _ _ hm
  · exact State.ch_setCh_ne _ _ hm

end

end Sys2Proof.Machine

namespace Sys2Proof.Proofs
open Sys2Proof.Machine

/-- Settles O53: each stage by itself. A command by the parts that it runs through, an evaluation by its rows, a swap by the exchange
and what follows it, and the safety limits by their runs. -/
theorem ownBoundary : Obligations.OwnBoundary := by
  unfold Obligations.OwnBoundary
  refine ⟨?_, ?_, ?_, ?_⟩
  · intro s n hn _ hmt hl c t ramps first done
    obtain ⟨hmm, hml⟩ := State.cmdsMet_mild hn hmt hl
    have hch : (s.cmdsMet n).ch n = { c with cmds := [] } := (s.cmdsMet_step n).2.1
    have hst {st : ChState} (h : c.state = st) : ((s.cmdsMet n).ch n).state = st := by rw [hch]; exact h
    have hdisp : ((s.cmdsMet n).ch n).disp = c.disp := by rw [hch]
    have hnow (h : ¬ ramps) : ¬ (bitOf (s.cr n chCtl) 4 = true ∧ ((s.cmdsMet n).ch n).disp = .loop) := by rw [hdisp]; exact h
    have hdone {k : Nat} {st : ChState} (hf : first k)
        (h : (((s.cmdsMet n).cmdApply n k (bitOf (s.cr n chCtl) 4)).ch n).state = st) : done st :=
      have hd := State.cmdsApply_done hn hmt hl hf
      ⟨(State.cmdsApply_state hf).1.trans h, hd.cmds, hd.ctl, hd.mem⟩
    have hoff {k : Nat} (hf : first k) (h : (s.cmdsMet n).cmdApply n k (bitOf (s.cr n chCtl) 4) = (s.cmdsMet n).toOff n)
        (hs : ((s.cmdsMet n).ch n).state ≠ .fenced) : done .off :=
      hdone hf (by rw [h]; exact (State.toOff_step hs).2)
    refine ⟨State.cmdsApply_none, fun k hf => (State.cmdsApply_done hn hmt hl hf).drop,
      fun h hf => ⟨hdone hf (State.cmdApply_enable _ (hst h)), (State.cmdsApply_done hn hmt hl hf).others⟩,
      fun h hf hr => ⟨hdone hf ?_, (State.cmdsApply_done hn hmt hl hf).others⟩,
      fun h hf hr => hoff hf (State.cmdApply_disarm_now _ (hst h) (hnow hr)) (by rw [hst h]; decide),
      fun h hf => hoff hf (State.cmdApply_disarm_armed _ (hst h)) (by rw [hst h]; decide), fun h hf hr => ?_,
      fun h hf => hdone hf (State.cmdApply_serviceEnter _ (hst h)),
      fun h hf => hoff hf (State.cmdApply_serviceLeave _ (hst h)) (by rw [hst h]; decide), fun h hf ha => ?_,
      State.pinStep_on, State.pinStep_off, fun m hm => s.pinStep_others n hm⟩
    · rw [State.cmdApply_disable_now _ (hst h) (hnow hr)]
      exact ((s.cmdsMet n).toArmed_step n).2
    · obtain ⟨k, hk, hf⟩ : ∃ k, (k = 3 ∨ k = 4) ∧ first k := hf.elim (fun hf => ⟨3, .inl rfl, hf⟩) fun hf => ⟨4, .inr rfl, hf⟩
      have e : (s.cmdsMet n).cmdApply n k (bitOf (s.cr n chCtl) 4) = (s.cmdsMet n).offRamp n k := by
        rw [hr.1]
        exact State.cmdApply_ramps hk (hst h) (hdisp.trans hr.2)
      obtain ⟨hpart, hcmd, hramp⟩ := (s.cmdsMet n).offRamp_step n k
      have hsup := (State.cmdsApply_state hf).2.1
      rw [e] at hsup
      exact ⟨hdone hf (by rw [e]; exact hpart.state.trans (hst h)), (congrArg (·.offCmd.isSome) hsup).trans hcmd,
        (congrArg Sup.ramp hsup).trans hramp⟩
    · obtain ⟨hranges, hcfg⟩ := s.cmdsMet_ranges n
      obtain ⟨h1, h2⟩ := State.cmdApply_arm (bitOf (s.cr n chCtl) 4) (hst h) (hranges.trans ha) hmm hml
      exact ⟨hdone hf h1, (State.cmdsApply_state hf).2.2.trans (h2.trans hcfg)⟩
  · intro s n b y hn hm hl hue hce hon l r c term fits value t k
    refine ⟨fun he hb hcold howed => ?_, ?_, ?_, rfl, fun hd => ?_⟩
    · obtain ⟨hstep, v, hlaw⟩ := State.evalStage_made hn hm hl hue hce hon y he hb
      have heval : s.lawEval n r y (s.scales n) = evalLaw c l.x l.z l.u l.uLim r y := by
        unfold State.lawEval
        dsimp only
        rw [if_neg (by rw [show (s.ch n).law.cold = false from hcold]; exact Bool.false_ne_true), show (s.ch n).law.owed = none from howed]
      have hk : k = { ((s.ch n).evaluated (evalLaw c l.x l.z l.u l.uLim r y)).law with snap := v } := heval ▸ hlaw
      have hx : k.x = (stepX c l.x l.u y {}).1 := congrArg Law.x hk
      have hz : k.z = (stepZ c l.z (errOf c.fi r y) l.uLim (stepX c l.x l.u y {}).2).1 := congrArg Law.z hk
      obtain ⟨hlen, hrow⟩ := stepX_rows c l.x l.u y {}
      refine ⟨by rw [hx]; exact hlen, (congrArg Law.run hk :), (congrArg Law.made hk :), (congrArg Law.u hk :),
        (congrArg Law.act hk :), (congrArg Law.shd hk :), fun i hi => ?_, ?_, ?_, hstep.others, hstep.mem⟩
      · intro ts hf
        rw [hx]
        exact hrow i hi hf
      · intro e out ts hf
        rw [hz]
        exact stepZ_value c l.z e l.uLim _ hf
      · have hu : k.uNext = (evalLaw c l.x l.z l.u l.uLim r y).u := congrArg Law.uNext hk
        have hlim : k.uLimNext = (evalLaw c l.x l.z l.u l.uLim r y).lim := congrArg Law.uLimNext hk
        rw [hu, hlim, hx, hz]
        exact evalLaw_limits c l.x l.z l.u l.uLim r y
    · have hq : (s.evalStage n b none).ch n = { s.ch n with law := { l with uNext := l.u, uLimNext := l.uLim, made := false } } := by
        unfold State.evalStage
        rw [if_pos hon]
        exact State.ch_updCh_same ..
      dsimp only
      rw [hq]
      exact ⟨rfl, rfl, rfl, rfl⟩
    · have hst : (s.ch n).state = .armed ∨ (s.ch n).state = .active := by
        simp only [Chan.loopOn, Bool.and_eq_true, Bool.or_eq_true, decide_eq_true_eq] at hon
        exact hon.1.symm
      unfold State.fdacStep
      dsimp only
      rw [if_pos ⟨Bool.false_ne_true, hst⟩, State.ch_setCh_same]
    · unfold State.codeStep
      dsimp only
      rw [if_neg (by rw [hd]; decide), State.ch_setCh_same, if_pos hon]
      rfl
  · intro s n hn hm hl l swapped
    have hsw {t : State} {target : Nat} (h : Swapped n target s t) : swapped t target :=
      ⟨h.act, h.shd, h.owed, h.x, h.z, h.u, h.swaps, h.tick, h.others, h.mem⟩
    refine ⟨hsw (s.takeSwap_strobe n), fun d hd => hsw (State.takeSwap_disp hd), fun hd => hsw (State.takeSwap_handover hd),
      fun d hd => State.takeSwap_invalid hd hm hl, fun hr hc hs => ⟨fun hq => ?_, fun q r hq => ?_⟩⟩
    · obtain ⟨ha, hd, -⟩ := State.swapsEnd_law hs
      rw [State.arbitrate_none hr hc hq]
      exact ⟨ha, hd⟩
    · have ht := SwapStep.takeSwap hm hl q
      have hk := State.loseAll_lost r (ht.mild hm) (ht.later.trans hl)
      obtain ⟨ha, hd, hlost⟩ := State.swapsEnd_law (s := (s.takeSwap n q).loseAll n r)
        ((congrArg Law.shdReq hk.law).trans (ht.shdReq.trans hs))
      rw [State.arbitrate_first hr hc hq]
      refine ⟨ha.trans (congrArg Law.act hk.law), hd.trans (congrArg Law.shd hk.law), hlost.trans (hk.lost.trans ?_)⟩
      rw [State.cr, ht.rg _ (chOff_not_mem_swapRegs (by decide) (by decide))]
      rfl
  · intro s n y hn hm hl h1 h2 p g ctl cnt t q k outV outI sinks raised
    obtain ⟨hq, hoth, hmem⟩ := State.safeStage_leaves (y := y) hm hl h1 h2
    obtain ⟨hv1, hv0⟩ := runOn_of_iff (s.outsideV_iff n y) p.safeV
    obtain ⟨hi1, hi0⟩ := runOn_of_iff (s.outsideI_iff n y) p.safeI
    obtain ⟨hk1, hk0⟩ := runOn_of_iff (s.sinking_iff n y) p.sink
    have hqv : q.safeV = runOn (s.outsideV n y) p.safeV := congrArg Sup.safeV hq
    have hqi : q.safeI = runOn (s.outsideI n y) p.safeI := congrArg Sup.safeI hq
    have hqk : q.sink = runOn (s.sinking n y) p.sink := congrArg Sup.sink hq
    obtain ⟨b1, b2, b5, -⟩ := safeMask_bits (runLong (bitsOf ctl 7 0) q.safeV) (runLong (bitsOf ctl 7 0) q.safeI) (runLong (bitsOf ctl 7 0) q.sink)
    have hflags : s.safeFlags n y = safeMask (runLong (bitsOf ctl 7 0) q.safeV) (runLong (bitsOf ctl 7 0) q.safeI) (runLong (bitsOf ctl 7 0) q.sink) := by
      rw [hqv, hqi, hqk]
      rfl
    rw [← hflags] at b1 b2 b5
    refine ⟨fun h => ⟨hqv.trans (hv1 h), fun hc => ?_⟩, fun h => hqv.trans (hv0 h), fun h => ⟨hqi.trans (hi1 h), fun hc => ?_⟩,
      fun h => hqi.trans (hi0 h), fun h => ⟨hqk.trans (hk1 h), fun hc => ?_⟩, fun h => hqk.trans (hk0 h), fun h3 h4 h5 => ?_, hoth, hmem⟩
    · exact State.safeStage_raised hm hl h1 h2 (b1.trans ((runLong_iff _ _).2 (by rw [hqv, hv1 h]; exact hc))) (by decide)
    · exact State.safeStage_raised hm hl h1 h2 (b2.trans ((runLong_iff _ _).2 (by rw [hqi, hi1 h]; exact hc))) (by decide)
    · exact State.safeStage_raised hm hl h1 h2 (b5.trans ((runLong_iff _ _).2 (by rw [hqk, hk1 h]; exact hc))) (by decide)
    · have hshort {r : Nat} (h : r < cnt) : runLong (bitsOf ctl 7 0) r = false :=
        Bool.eq_false_iff.2 fun hr => absurd ((runLong_iff _ _).1 hr) (Nat.not_le.2 h)
      exact State.safeStage_quiet h1 h2 (hflags.trans ((safeMask_eq_zero _ _ _).2 ⟨hshort h3, hshort h4, hshort h5⟩))

end Sys2Proof.Proofs
end
